-- ==== Sys2Proof/Word.lean ====
section
/-!
DEFINITION. The word types of the SXN-4096: bytes, 16-bit heads, 64-bit words (R3, R86, R95).
-/

namespace Sys2Proof

/-- One byte (R3). -/
abbrev Byte := BitVec 8

/-- One 64-bit word: a general register, a pointer, a CSR (R182). -/
abbrev Word := BitVec 64

/-- One 1,024-bit vector register (R271). -/
abbrev VWord := BitVec 1024

/-- One 16-bit head (R95). -/
abbrev Head := BitVec 16

end Sys2Proof
end

