-- ==== Sys2Proof/Syntax.lean ====
section
/-!
DEFINITION. The instructions and machine events of the SXN-4096: one constructor of `Instr` per row of
spec/opcode_table.json. Rows 99-302 are instructions of a handler core (R101, R451); the other rows are events
of the engines, the firmware, the host and the links, whose outside inputs are the constructor's operands.
-/

namespace Sys2Proof

/-- A general register field g0-g31 (R97). -/
abbrev GReg := Fin 32
/-- A vector register field v0-v15 (R97). -/
abbrev VReg := Fin 16
/-- A channel register field c0-c15 (R97). -/
abbrev CReg := Fin 16
/-- A mask register field k0-k7 (R97). -/
abbrev KReg := Fin 8

/-- The integer qualifier Q of R99: `sgn` is S rather than N, `size` 0 to 3 stands for 8 to 64 bits. -/
structure IQ where
  sgn  : Bool
  size : BitVec 2
  deriving DecidableEq, Repr

/-- The element formats of R62 and R64, with O4 (R74) as the storage format 0xE. -/
inductive Fmt where
  | s8 | s16 | s32 | s64 | n8 | n16 | n32 | n64
  | f16 | w16 | f32 | f64 | f8a | f8b | o4
  deriving DecidableEq, Repr

/-- The RM field of R68; the reserved codes 5 and 6 decode to no constructor. -/
inductive Rm where
  | rne | rtz | rdn | rup | rna | dyn
  deriving DecidableEq, Repr

/-- The scopes of R154, codes 0 to 5. -/
inductive Scope where
  | ctx | core | clus | die | pkg | sys
  deriving DecidableEq, Repr

/-- The ordering field of an atomic (R221), codes 0 to 3. -/
inductive AOrd where
  | none | acq | rel | ar
  deriving DecidableEq, Repr

/-- The local spaces of R129, codes 0 to 3. -/
inductive Space where
  | priv | scratch | clus | inbox
  deriving DecidableEq, Repr

/-- The CSRs of R183. -/
inductive Csr where
  | cause | tval | tip | tmsg | telem | ttile | tfmt
  | vstart | fcsr | budget | colour | coord | featmask | featreq
  | migok | migthresh | qlim0 | qlim1 | qlim2 | qlim3 | qlimg | refuse | guestctx
  | xferid | time | quant | tasksel | taskbase | tasklim | taskgen
  | extsel | extbase | extlen | sampcfg
  deriving DecidableEq, Repr

/-- The queues a message can name: Q0-Q3 and QG (R35, R229). -/
inductive QSel where
  | q0 | q1 | q2 | q3 | qg
  deriving DecidableEq, Repr

/-- The target formats of quantisation (R290). -/
inductive QTgt where
  | s8 | f8a | f8b | o4
  deriving DecidableEq, Repr

/-- The six functions with two modes (R28). -/
inductive ModeFn where
  | pageFault | trapDisp | launchSpread | power | keys | leader
  deriving DecidableEq, Repr

/-- The answer of a PRG Response (R421). -/
inductive PrgCode where
  | success | invalid | failure
  deriving DecidableEq, Repr

/-- A register that the debug view writes (R196): g, v, k, VIEW, TIP or an RW CSR. -/
inductive DbgReg where
  | g (n : GReg) | v (n : VReg) | k (n : KReg) | view (n : Fin 16) | tip | csr (c : Csr)
  deriving DecidableEq, Repr

/-- What a debugger sets (R197): one of the four breakpoints of a core, or single-step of a context. -/
inductive BpSet where
  | bp (n : Fin 4) (on : Bool) (ip : Word) (tag : BitVec 3)
  | step (ctx : Nat) (on : Bool)
  deriving DecidableEq, Repr

/-- The two rings of a partition (R432). -/
inductive RingSel where
  | sample | event
  deriving DecidableEq, Repr

/-- A firmware image as flash holds it (R427): its bytes, signature, the vendor key, security version and SHA-512. -/
structure FwImage where
  body    : List Byte
  sig     : BitVec 512
  key     : BitVec 256
  version : Nat
  digest  : BitVec 512
  deriving DecidableEq, Repr

/-- A register, or a byte range of memory, that the host or firmware writes and that has no row of its own (R4):
the queue registers of R407, the trap ring of R422, the rings of R432, the counter selects of R437, the
partition values RETRY, DEADTIME and PREEMPTWAIT, whether a debugger is attached (R197), the route tables of R380, and words of host or
first-tier memory. -/
inductive RegTarget where
  | qbase (part q : Nat) | qctl (part q : Nat) | qtail (part q : Nat)
  | trbase (part : Nat) | trctl (part : Nat)
  | ringBase (part : Nat) (r : RingSel) | ringCtl (part : Nat) (r : RingSel)
  | csel (part i : Nat)
  | retry (part : Nat) | deadtime (part : Nat) | preemptwait (part : Nat)
  | debugger (part : Nat)
  | route (xd tpkg : Nat)
  | package | priAlloc | lvfreeze (part block : Nat) | lvthaw (part block : Nat)
  | mem (pa : Nat)
  deriving DecidableEq, Repr

/-- One flit of a window link as the line carries it (R377, R378): link sequence, payload, whether its CRC-32 and its
GCM tag check, and whether it opens or closes a packet. -/
structure LinkFlit where
  seq    : Nat
  slot   : Bool
  ctr    : Nat
  stomp  : Bool
  crcOk  : Bool
  tagOk  : Bool
  first  : Bool
  last   : Bool
  bytes  : List Byte
  deriving DecidableEq, Repr

/-- One constructor per row of spec/opcode_table.json, in the order of the table: the instructions first, then the
events (their rows stand around the instructions there). -/
inductive Instr where
  -- control, 0x00 (R202)
  | nop | done | ret | bkpt
  -- integer reg-reg, 0x01 (R203, R204)
  | add (d : GReg) (q : IQ) (a b : GReg) | sub (d : GReg) (q : IQ) (a b : GReg)
  | mul (d : GReg) (q : IQ) (a b : GReg) | mulh (d : GReg) (q : IQ) (a b : GReg)
  | div (d : GReg) (q : IQ) (a b : GReg) | rem (d : GReg) (q : IQ) (a b : GReg)
  | and (d : GReg) (q : IQ) (a b : GReg) | or (d : GReg) (q : IQ) (a b : GReg)
  | xor (d : GReg) (q : IQ) (a b : GReg) | andn (d : GReg) (q : IQ) (a b : GReg)
  | shl (d : GReg) (q : IQ) (a b : GReg) | shr (d : GReg) (q : IQ) (a b : GReg)
  | sha (d : GReg) (q : IQ) (a b : GReg) | rot (d : GReg) (q : IQ) (a b : GReg)
  | min (d : GReg) (q : IQ) (a b : GReg) | max (d : GReg) (q : IQ) (a b : GReg)
  | cmpeq (d : GReg) (q : IQ) (a b : GReg) | cmpne (d : GReg) (q : IQ) (a b : GReg)
  | cmplt (d : GReg) (q : IQ) (a b : GReg) | cmple (d : GReg) (q : IQ) (a b : GReg)
  | clz (d : GReg) (q : IQ) (a : GReg) | ctz (d : GReg) (q : IQ) (a : GReg)
  | popc (d : GReg) (q : IQ) (a : GReg) | brev (d : GReg) (q : IQ) (a : GReg)
  -- integer reg-imm16, 0x02
  | addI16 (d : GReg) (q : IQ) (a : GReg) (i : BitVec 16) | subI16 (d : GReg) (q : IQ) (a : GReg) (i : BitVec 16)
  | mulI16 (d : GReg) (q : IQ) (a : GReg) (i : BitVec 16) | mulhI16 (d : GReg) (q : IQ) (a : GReg) (i : BitVec 16)
  | divI16 (d : GReg) (q : IQ) (a : GReg) (i : BitVec 16) | remI16 (d : GReg) (q : IQ) (a : GReg) (i : BitVec 16)
  | andI16 (d : GReg) (q : IQ) (a : GReg) (i : BitVec 16) | orI16 (d : GReg) (q : IQ) (a : GReg) (i : BitVec 16)
  | xorI16 (d : GReg) (q : IQ) (a : GReg) (i : BitVec 16) | andnI16 (d : GReg) (q : IQ) (a : GReg) (i : BitVec 16)
  | shlI16 (d : GReg) (q : IQ) (a : GReg) (i : BitVec 16) | shrI16 (d : GReg) (q : IQ) (a : GReg) (i : BitVec 16)
  | shaI16 (d : GReg) (q : IQ) (a : GReg) (i : BitVec 16) | rotI16 (d : GReg) (q : IQ) (a : GReg) (i : BitVec 16)
  | minI16 (d : GReg) (q : IQ) (a : GReg) (i : BitVec 16) | maxI16 (d : GReg) (q : IQ) (a : GReg) (i : BitVec 16)
  | cmpeqI16 (d : GReg) (q : IQ) (a : GReg) (i : BitVec 16) | cmpneI16 (d : GReg) (q : IQ) (a : GReg) (i : BitVec 16)
  | cmpltI16 (d : GReg) (q : IQ) (a : GReg) (i : BitVec 16) | cmpleI16 (d : GReg) (q : IQ) (a : GReg) (i : BitVec 16)
  -- integer reg-imm48, 0x03
  | addI48 (d : GReg) (q : IQ) (a : GReg) (i : BitVec 48) | andI48 (d : GReg) (q : IQ) (a : GReg) (i : BitVec 48)
  | orI48 (d : GReg) (q : IQ) (a : GReg) (i : BitVec 48) | xorI48 (d : GReg) (q : IQ) (a : GReg) (i : BitVec 48)
  -- MOVI, 0x04 (R206)
  | movi16 (d : GReg) (i : BitVec 16) | movi32 (d : GReg) (i : BitVec 32) | movi64 (d : GReg) (i : BitVec 64)
  -- bit fields, 0x05 (R207): `w` is the width less 1
  | ext (d a : GReg) (pos w : BitVec 6) | ins (d a : GReg) (pos w : BitVec 6) | sel (d a b : GReg)
  -- pointers, 0x06 (R208)
  | padd (d a b : GReg) | paddI16 (d a : GReg) (i : BitVec 16) | psub (d a b : GReg)
  | viewset (n : Fin 16) (a : GReg) | viewof (d a : GReg) | isspc (d a : GReg)
  | castspc (d : GReg) (toGeneric : Bool) (sp : Space) (a : GReg) | hown (d a : GReg)
  -- branches, 0x07, and indirect, 0x08 (R214, R215): `j` is the 27-bit T32J field
  | br (j : BitVec 27) | bz (a : GReg) (j : BitVec 27) | bnz (a : GReg) (j : BitVec 27)
  | bltz (a : GReg) (j : BitVec 27) | bgez (a : GReg) (j : BitVec 27)
  | call (d : GReg) (j : BitVec 27) | loop (a : GReg) (j : BitVec 27)
  | jmp (a : GReg) | callr (d a : GReg)
  -- loads, 0x09 (R216)
  | ld (d : GReg) (q : IQ) (a : GReg) (off : BitVec 16) | ldW (d : GReg) (q : IQ) (a : GReg) (off : BitVec 48)
  | ldAcq (d : GReg) (q : IQ) (a : GReg) (off : BitVec 16) | ldAcqW (d : GReg) (q : IQ) (a : GReg) (off : BitVec 48)
  | ldSync (d : GReg) (sgn : Bool) (a : GReg) (off : BitVec 16) | ldSyncW (d : GReg) (sgn : Bool) (a : GReg) (off : BitVec 48)
  | ldSynce (d : GReg) (sgn : Bool) (a : GReg) (off : BitVec 16) | ldSynceW (d : GReg) (sgn : Bool) (a : GReg) (off : BitVec 48)
  -- stores, 0x0A (R218)
  | st (q : IQ) (a b : GReg) (col : BitVec 3) (off : BitVec 16) | stW (q : IQ) (a b : GReg) (col : BitVec 3) (off : BitVec 48)
  | stRel (q : IQ) (a b : GReg) (col : BitVec 3) (off : BitVec 16) | stRelW (q : IQ) (a b : GReg) (col : BitVec 3) (off : BitVec 48)
  | stFe (sgn : Bool) (a b : GReg) (col : BitVec 3) (off : BitVec 16) | stFeW (sgn : Bool) (a b : GReg) (col : BitVec 3) (off : BitVec 48)
  -- extents, 0x0B (R220)
  | ldx (d : GReg) (q : IQ) (x : Fin 16) (a : GReg) (i : BitVec 16)
  | stx (q : IQ) (x : Fin 16) (a b : GReg) (i : BitVec 16)
  -- atomics, 0x0C (R221)
  | aadd (d : GReg) (q : IQ) (a b : GReg) (o : AOrd) (col : BitVec 3) (sc : Scope)
  | aand (d : GReg) (q : IQ) (a b : GReg) (o : AOrd) (col : BitVec 3) (sc : Scope)
  | aor (d : GReg) (q : IQ) (a b : GReg) (o : AOrd) (col : BitVec 3) (sc : Scope)
  | axor (d : GReg) (q : IQ) (a b : GReg) (o : AOrd) (col : BitVec 3) (sc : Scope)
  | amin (d : GReg) (q : IQ) (a b : GReg) (o : AOrd) (col : BitVec 3) (sc : Scope)
  | amax (d : GReg) (q : IQ) (a b : GReg) (o : AOrd) (col : BitVec 3) (sc : Scope)
  | aswap (d : GReg) (q : IQ) (a b : GReg) (o : AOrd) (col : BitVec 3) (sc : Scope)
  | acas (d : GReg) (q : IQ) (a b : GReg) (o : AOrd) (col : BitVec 3) (sc : Scope)
  -- FENCE, 0x0D (R223)
  | fence (mask : BitVec 8) (sc : Scope)
  -- CSR access, 0x0E (R225)
  | csrrd (d : GReg) (c : Csr) | csrwr (c : Csr) (a : GReg) | csrswp (d : GReg) (c : Csr) (a : GReg)
  | csrset (d : GReg) (c : Csr) (a : GReg) | csrclr (d : GReg) (c : Csr) (a : GReg)
  -- system, 0x0F (R227)
  | trap (a : GReg) | trapI16 (i : BitVec 16) | time (d : GReg) | featq (d a : GReg) | migok (v : Bool)
  -- sends, 0x10 (R229): `t` is the tag where TSEL = 1
  | send (d : GReg) (q : QSel) (a b : GReg) (n : BitVec 6) (t : Option (BitVec 3))
  | senda (d : GReg) (q : QSel) (a b : GReg) (n : BitVec 6) (t : Option (BitVec 3))
  | sendp (d : GReg) (q : QSel) (a b : GReg) (n : BitVec 6) (t : Option (BitVec 3))
  | sendl (d : GReg) (q : QSel) (a b : GReg) (n : BitVec 6) (t : Option (BitVec 3))
  | reply (d : GReg) (q : QSel) (b : GReg) (n : BitVec 6) (t : Option (BitVec 3))
  -- messages, 0x11 (R233)
  | msgid (d : GReg) | msgpay (d a : GReg) | requeue
  -- channels, 0x12 (R237)
  | chbind (c : CReg) (a : GReg) (role : BitVec 2) | chwaitf (d : GReg) (c : CReg) | chwaite (d : GReg) (c : CReg)
  | chadvh (c : CReg) (n : BitVec 16) | chadvt (c : CReg) (n : BitVec 16) | chstat (d : GReg) (c : CReg)
  | chptr (d : GReg) (c : CReg) (b : GReg) (off : BitVec 16)
  -- tag table, 0x13 (R240)
  | tlook (d a : GReg) | tset (d a b : GReg) | tclr (d a : GReg) | tinv (d a b : GReg)
  -- vector arithmetic, 0x20 (R277)
  | vadd (d : VReg) (k : KReg) (a b : VReg) (f : Fmt) (rm : Rm) (sat : Bool)
  | vsub (d : VReg) (k : KReg) (a b : VReg) (f : Fmt) (rm : Rm) (sat : Bool)
  | vmul (d : VReg) (k : KReg) (a b : VReg) (f : Fmt) (rm : Rm) (sat : Bool)
  | vdiv (d : VReg) (k : KReg) (a b : VReg) (f : Fmt) (rm : Rm) (sat : Bool)
  | vmin (d : VReg) (k : KReg) (a b : VReg) (f : Fmt) | vmax (d : VReg) (k : KReg) (a b : VReg) (f : Fmt)
  | vabs (d : VReg) (k : KReg) (a : VReg) (f : Fmt) (sat : Bool) | vneg (d : VReg) (k : KReg) (a : VReg) (f : Fmt) (sat : Bool)
  | vsqrt (d : VReg) (k : KReg) (a : VReg) (f : Fmt) (rm : Rm)
  | vand (d : VReg) (k : KReg) (a b : VReg) (f : Fmt) | vor (d : VReg) (k : KReg) (a b : VReg) (f : Fmt)
  | vxor (d : VReg) (k : KReg) (a b : VReg) (f : Fmt) | vshl (d : VReg) (k : KReg) (a b : VReg) (f : Fmt)
  | vshr (d : VReg) (k : KReg) (a b : VReg) (f : Fmt) | vsha (d : VReg) (k : KReg) (a b : VReg) (f : Fmt)
  -- fused multiply-add, 0x21 (R279)
  | vfma (d : VReg) (k : KReg) (a b : VReg) (f : Fmt) (rm : Rm) | vfms (d : VReg) (k : KReg) (a b : VReg) (f : Fmt) (rm : Rm)
  | vfnma (d : VReg) (k : KReg) (a b : VReg) (f : Fmt) (rm : Rm)
  -- conversion, 0x22 (R280): `f` source, `t` destination
  | vcvt (d : VReg) (k : KReg) (a : VReg) (f t : Fmt) (rm : Rm) (sat : Bool)
  -- comparison, 0x23 (R281)
  | vcmpEq (d : KReg) (k : KReg) (a b : VReg) (f : Fmt) | vcmpNe (d : KReg) (k : KReg) (a b : VReg) (f : Fmt)
  | vcmpLt (d : KReg) (k : KReg) (a b : VReg) (f : Fmt) | vcmpLe (d : KReg) (k : KReg) (a b : VReg) (f : Fmt)
  | vcmpUnord (d : KReg) (k : KReg) (a b : VReg) (f : Fmt)
  -- moves, 0x24 (R282)
  | vsel (d : VReg) (k : KReg) (a b : VReg) (f : Fmt) | vmov (d : VReg) (k : KReg) (a : VReg) (f : Fmt)
  | vbcast (d : VReg) (k : KReg) (a : GReg) (f : Fmt) | vext (d : GReg) (a : VReg) (b : GReg) (f : Fmt)
  | viota (d : VReg) (k : KReg) (a : GReg) (f : Fmt)
  -- reductions, 0x25 (R283)
  | vredSum (d : GReg) (k : KReg) (a : VReg) (f : Fmt) (rm : Rm) (sat : Bool)
  | vredMin (d : GReg) (k : KReg) (a : VReg) (f : Fmt) (rm : Rm) (sat : Bool)
  | vredMax (d : GReg) (k : KReg) (a : VReg) (f : Fmt) (rm : Rm) (sat : Bool)
  | vdot (d : GReg) (k : KReg) (a b : VReg) (f : Fmt) (rm : Rm) (sat : Bool)
  -- permutes, 0x26 (R284)
  | vshuf (d : VReg) (k : KReg) (a b : VReg) (f : Fmt) | vrot (d : VReg) (k : KReg) (a : VReg) (b : GReg) (f : Fmt)
  | vpack (d : VReg) (k : KReg) (a b : VReg) (f : Fmt) (sat : Bool) | vunpack (d : VReg) (k : KReg) (a : VReg) (b : GReg) (f : Fmt)
  -- vector loads and stores, 0x27, 0x28 (R285, R288)
  | vld (d : VReg) (k : KReg) (a : GReg) (f : Fmt) (rm : Rm) (sat : Bool) | vst (d : VReg) (k : KReg) (a : GReg) (f : Fmt) (rm : Rm) (sat : Bool)
  | vlds (d : VReg) (k : KReg) (a b : GReg) (f : Fmt) (rm : Rm) (sat : Bool) | vsts (d : VReg) (k : KReg) (a b : GReg) (f : Fmt) (rm : Rm) (sat : Bool)
  | vgather (d : VReg) (k : KReg) (a : GReg) (b : VReg) (f : Fmt) (rm : Rm) (sat : Bool)
  | vscatter (d : VReg) (k : KReg) (a : GReg) (b : VReg) (f : Fmt) (rm : Rm) (sat : Bool)
  -- mask operations, 0x29 (R289)
  | kand (d a b : KReg) | kor (d a b : KReg) | kxor (d a b : KReg) | knot (d a : KReg)
  | kpop (d : GReg) (a : KReg) | kset (d : KReg) (a : GReg) | kget (d : GReg) (a : KReg)
  -- quantisation, 0x2A (R290)
  | vscale (d : GReg) (k : KReg) (a : VReg) (f : Fmt) (t : QTgt) (h : BitVec 4)
  | vquant (d : VReg) (k : KReg) (a : VReg) (b : GReg) (f : Fmt) (rm : Rm) (t : QTgt)
  -- matrix ring, 0x30 (R309-R313)
  | mput (i : Fin 4) (a : GReg) | mget (d : GReg) (i : Fin 7) | mgang (d a : GReg) (tag : BitVec 16)
  | mwait (a b : GReg) | mstat (d a : GReg)
  -- streamer, 0x31 (R322, R325)
  | cpreq (a : GReg) | cptest (d a : GReg) | cpwait (d a : GReg)
  -- front unit, 0x32 (R350)
  | lvbind (d a b : GReg) (front : BitVec 16) | lvunbind (d a : GReg) | lvread (d a : GReg) | lvcommit (a b : GReg)
  | lvcmp (d a b : GReg) (off : BitVec 16) | lvfreeze (d a : GReg) | lvthaw (d a : GReg) | lvstat (d a : GReg)
  -- windows, 0x33 (R384, R385)
  | rfence (mask : BitVec 8) | wstat (d a : GReg) | wseq (d a : GReg)
  -- refinement loop controller, 0x34 (R401-R403)
  | rlcrun (d a : GReg) | rlcnorm (d a : GReg) | rlcstat (d a : GReg) | rlcstop (d a : GReg)
  -- bring-up, firmware and modes (R22, R29, R407, R418, R419, R427, R450)
  | moduleReset (badStacks : BitVec 8) | recoveryImageWrite (img : FwImage) | partitionConfigure (parts : List (Nat × Nat)) (grants : List (Nat × Nat × Nat))
  | modeSelect (part : Nat) (fn : ModeFn) (assisted : Bool)
  | leaseRenew (fw : Nat) | leaseLapse (fw : Nat) (group : BitVec 10) | voteRequest (fw : Nat) | leaderDesignate (socket : Nat)
  -- command queues (R407-R416)
  | queueResume (part q : Nat) | packetChoose (part : Nat) | nopPacket (part : Nat) | launch (part : Nat) | endPacket (part : Nat)
  | inval (part : Nat) | disposeRelease (part : Nat) | disposeDiscard (part : Nat) | disposeEnd (part : Nat)
  -- trap disposition and page faults (R420-R423)
  | trapDisposition (die : Nat) | trheadWrite (part : Nat) (head : BitVec 32) | pageFaultService (die : Nat)
  | prgResponse (tag : BitVec 9) (code : PrgCode) | priTimeout (tag : BitVec 9)
  -- keys and attestation (R425, R426)
  | spdmRequest (index : BitVec 8) | keyExchangeStart (link : Nat) (tx : Bool)
  | keyExchangeComplete (link : Nat) (tx : Bool) (secret : BitVec 256)
  | hostKeyWrite (link : Nat) (tx : Bool) (slot : Bool) (key : BitVec 256) (salt : BitVec 48)
  -- pre-emption and deadlock (R49, R56)
  | preemptRequest (part : Nat) | preemptComplete (part : Nat) | preemptwaitExpiry (part : Nat) | preemptResume (part : Nat)
  | deadlockDetect (part : Nat)
  -- messages, activations, contexts (R36, R40, R41, R48, R53, R57, R58, R255, R449)
  | requestReassembled (ep : Nat) | slotFreedAdmit (core : Nat) | activationStart (core ctx : Nat) | queueAging (core : Nat)
  | budgetExpiry (core ctx : Nat) | parkResume (core ctx : Nat) | migrationShip (core ctx : Nat) | wayfarerArrive (core ctx : Nat)
  | logicalQuantumEnd (core : Nat) | quantumEnd (part : Nat) | turnSwitch (core : Nat)
  -- debug view (R196, R197)
  | debugHold (core ctx : Nat) | debugWrite (core ctx : Nat) (r : DbgReg) (v : VWord) | debugRelease (core ctx : Nat)
  | breakpointSet (core : Nat) (b : BpSet) | breakpointMatch (core ctx : Nat) | bkptRelease (core ctx : Nat)
  -- fabric (R246-R258)
  | flitRoute (router : Nat) (response : Bool) | poisonSink (die : Nat) | throttle (router : Nat) (response : Bool)
  | responseReceive (ep : Nat) | nackReceive (ep : Nat) | stayNoticeReceive (ep : Nat)
  | retxTimeout (ep dest num : Nat) | busyBackoff (ep dest num : Nat)
  -- homes (R260-R263) and engine writes (R251)
  | remoteRead (home : Nat) | remoteWrite (home : Nat) | remoteAtomic (home : Nat)
  | synceConfirm (home : Nat) | synceReturn (home : Nat) | waitCancel (home : Nat) | lodgeService (home : Nat) | stayNoticeSend (home : Nat)
  | engineWrite (core : Nat) | xferReceive (eng : Nat)
  -- matrix ring, streamer, front unit (R305, R321-R329, R333, R340, R347)
  | matrixFlip (cluster : Nat)
  | copyAccept (str : Nat) | copyComplete (str ch : Nat) | copyFault (str ch : Nat) | transferBoardUpdate (core : Nat)
  | blockDispatch (die : Nat) | levelNotice (die : Nat) | levelPublish (core ctx : Nat)
  -- windows and links (R371-R383)
  | windowPacketSend (xd entry : Nat) | storePacketReceive (xd : Nat) | windowAckReceive (xd : Nat) | windowMissReceive (xd : Nat)
  | loopbackApply (xd entry : Nat) | linkFlitReceive (link : Nat) (f : LinkFlit) | linkNak (link seq : Nat) | linkAck (link seq : Nat)
  | linkDown (link : Nat) | linkRetrained (link : Nat) | linkDownTimeout (link : Nat)
  | windowEntryWrite (xd entry : Nat) (w0 w1 : Word) | receiveWindowWrite (entry : Nat) (w0 w1 : Word) | pathReopen (xd : Nat) (path : Nat)
  -- observation (R430-R437)
  | sample (core : Nat) | samplePeriodWrite (part : Nat) (period : BitVec 32) | ringHeadWrite (part : Nat) (r : RingSel) (head : BitVec 32)
  | dropWrite (part : Nat) (r : RingSel) (bits : BitVec 32) | counterWrite (part i : Nat) (v : Word) | timeWrap (part : Nat)
  -- power (R442-R445) and plain register writes (R4)
  | tokenReallot | tokenExhaust (die : Nat) | powerAllotWrite (allot : List Nat) | thermalSample (island : Nat) (flux : Nat)
  | registerWrite (r : RegTarget) (v : Word)
  -- rows 303 and 304 (R104, R427)
  | decodingFault (core ctx : Nat) | flashRewrite (img : FwImage) (ok : Bool)
  deriving DecidableEq, Repr

end Sys2Proof
end

