-- ==== Sys2Proof/Config.lean ====
section
/-!
DEFINITION. The constants the part fixes, and the free values: opaque constants with no body, for what the spec leaves
open (log 5) and for the cryptographic functions the spec names without defining (log 10).
-/

namespace Sys2Proof.Config

/-- Which of the free frames firmware takes (R152, R420): the spec names no order; applied to the fresh counter. -/
opaque freeFrame : Nat → Nat

/-- The order in which firmware examines resident frames for eviction (R152): the spec names none. -/
opaque victim : Nat → Nat

/-- The Ed25519 verification of R427 over an image's bytes, its signature and the vendor key. -/
opaque ed25519Ok : List Byte → BitVec 512 → BitVec 256 → Bool

/-- The Ed25519 signature of R426 with the device identity key. -/
opaque ed25519Sign : List Byte → BitVec 512

/-- The hash of a key that the part has fused (R427): any function of the key. -/
opaque keyHash : BitVec 256 → BitVec 512

/-- The fused hash of the vendor key (R427). -/
opaque vendorHash : BitVec 512

/-- The AES-256 key that an SPDM session's secrets derive (R425). -/
opaque deriveKey : BitVec 256 → BitVec 256

/-- The 48-bit salt that an SPDM session's secrets derive (R425). -/
opaque deriveSalt : BitVec 256 → BitVec 48

/-- The SHA-512 of R123, R426, R427 and R448 (log 10): the spec names it and does not restate FIPS 180-4. -/
opaque sha512 : List Byte → BitVec 512

/-- Where on a die's stack firmware reserves the save areas of R449: the spec names no place; applied to the die. -/
opaque saveBase : Nat → Nat

/-- The energy that a die uses in an interval (R442), in token-intervals: applied to the fresh counter and the die. -/
opaque energy : Nat → Nat → Nat

/-- The SEQ of a controller's messages (R394, R395, R399): the spec gives none; applied to the fresh counter. -/
opaque freeSeq : Nat → BitVec 16

/-- Which line a full instruction cache gives up (R94): the spec names no order; applied to the fresh counter. -/
opaque icVictim : Nat → Nat

/-- What a snapshot entry holds of the binding of a neighbour that is not bound (R341): the spec gives no value; applied to the fresh counter, the
neighbour's id and the word of the entry. -/
opaque freeNbr : Nat → Nat → Nat → BitVec 64

/-- Whether the second-tier device behind a CXL port answers (R262): applied to the port and the fresh counter. -/
opaque deviceAnswers : Nat → Nat → Bool

/-- What ATS answers for a host page (R318, R327): the host frame, or no translation. The host decides it. -/
opaque ats : Nat → Option Nat

/-- Cores per die (R13, R14). -/
def coresPerDie : Nat := 512
/-- Private space per context (R129). -/
def privLimit : Nat := 16384
/-- Scratchpad space (R129). -/
def scratchLimit : Nat := 196608
/-- Cluster memory (R129). -/
def clusLimit : Nat := 4194304
/-- RETX of R257, in cycles. -/
def retx : Nat := 8192

end Sys2Proof.Config
end

