-- ==== Sys2Proof/WellFormed.lean ====
section
/-!
DEFINITION. Which terms of `Instr` stand for encodings that pass the fixed-field checks of R98, R100 and R103 and the
ranges of each entry, and which event terms name existing units. `decode` answers only well-formed instructions.
-/

namespace Sys2Proof

/-- An integer format of R62. -/
def Fmt.isInt : Fmt → Bool
  | .s8 | .s16 | .s32 | .s64 | .n8 | .n16 | .n32 | .n64 => true
  | .f16 | .w16 | .f32 | .f64 | .f8a | .f8b | .o4 => false

/-- A floating-point format of R64. -/
def Fmt.isFloat : Fmt → Bool
  | .f16 | .w16 | .f32 | .f64 | .f8a | .f8b => true
  | .s8 | .s16 | .s32 | .s64 | .n8 | .n16 | .n32 | .n64 | .o4 => false

/-- A float format that arithmetic accepts (R100, R277). -/
def Fmt.isArithFloat : Fmt → Bool
  | .f16 | .w16 | .f32 | .f64 => true
  | .s8 | .s16 | .s32 | .s64 | .n8 | .n16 | .n32 | .n64 | .f8a | .f8b | .o4 => false

/-- "All" formats of R277: the integers and the four arithmetic floats. -/
def Fmt.isArith (f : Fmt) : Bool := f.isInt || f.isArithFloat

/-- Width in bits (R62, R64, R74). -/
def Fmt.width : Fmt → Nat
  | .s8 | .n8 | .f8a | .f8b => 8
  | .s16 | .n16 | .f16 | .w16 => 16
  | .s32 | .n32 | .f32 => 32
  | .s64 | .n64 | .f64 => 64
  | .o4 => 4

/-- The checks of the fixed fields of each encoding, and for events the ranges of the units they name. -/
def Instr.wf : Instr → Bool
  | .ext _ _ pos w => decide (pos.toNat + w.toNat + 1 ≤ 64)
  | .ins _ _ pos w => decide (pos.toNat + w.toNat + 1 ≤ 64)
  | .loop a _ => decide (a ≠ 0)
  | .aadd _ q _ _ _ _ _ => decide (2 ≤ q.size.toNat)
  | .aand _ q _ _ _ _ _ => decide (2 ≤ q.size.toNat)
  | .aor _ q _ _ _ _ _ => decide (2 ≤ q.size.toNat)
  | .axor _ q _ _ _ _ _ => decide (2 ≤ q.size.toNat)
  | .amin _ q _ _ _ _ _ => decide (2 ≤ q.size.toNat)
  | .amax _ q _ _ _ _ _ => decide (2 ≤ q.size.toNat)
  | .aswap _ q _ _ _ _ _ => decide (2 ≤ q.size.toNat)
  | .acas _ q _ _ _ _ _ => decide (2 ≤ q.size.toNat)
  | .send d _ _ b n _ => (d.val ≤ 27) && decide (n.toNat ≤ 56) && (n != 0 || b == 0)
  | .senda d _ _ b n _ => (d.val ≤ 27) && decide (n.toNat ≤ 56) && (n != 0 || b == 0)
  | .sendp d _ _ b n _ => (d.val ≤ 27) && decide (n.toNat ≤ 56) && (n != 0 || b == 0)
  | .sendl d _ _ b n _ => (d.val ≤ 27) && decide (n.toNat ≤ 56) && (n != 0 || b == 0)
  | .reply d _ b n _ => (d.val ≤ 27) && decide (n.toNat ≤ 56) && (n != 0 || b == 0)
  | .chbind _ _ role => decide (role ≠ 0)
  | .chadvh _ n => decide (n ≠ 0)
  | .chadvt _ n => decide (n ≠ 0)
  | .vadd _ _ _ _ f rm sat => f.isArith && (f.isFloat || rm == .rne) && (f.isInt || !sat)
  | .vsub _ _ _ _ f rm sat => f.isArith && (f.isFloat || rm == .rne) && (f.isInt || !sat)
  | .vmul _ _ _ _ f rm sat => f.isArith && (f.isFloat || rm == .rne) && (f.isInt || !sat)
  | .vdiv _ _ _ _ f rm sat => f.isArith && (f.isFloat || rm == .rne) && (f.isInt || !sat)
  | .vmin _ _ _ _ f => f.isArith
  | .vmax _ _ _ _ f => f.isArith
  | .vabs _ _ _ f sat => f.isArith && (f.isInt || !sat)
  | .vneg _ _ _ f sat => f.isArith && (f.isInt || !sat)
  | .vsqrt _ _ _ f _ => f.isArithFloat
  | .vand _ _ _ _ f => f.isInt
  | .vor _ _ _ _ f => f.isInt
  | .vxor _ _ _ _ f => f.isInt
  | .vshl _ _ _ _ f => f.isInt
  | .vshr _ _ _ _ f => f.isInt
  | .vsha _ _ _ _ f => f.isInt
  | .vfma _ _ _ _ f _ => f.isArithFloat
  | .vfms _ _ _ _ f _ => f.isArithFloat
  | .vfnma _ _ _ _ f _ => f.isArithFloat
  | .vcvt _ _ _ f t rm sat => f != .o4 && t != .o4 && (!sat || (f.isInt && t.isInt)) && (rm == .rne || !(f.isInt && t.isInt))
  | .vcmpEq _ _ _ _ f => f.isArith && 32 ≤ f.width
  | .vcmpNe _ _ _ _ f => f.isArith && 32 ≤ f.width
  | .vcmpLt _ _ _ _ f => f.isArith && 32 ≤ f.width
  | .vcmpLe _ _ _ _ f => f.isArith && 32 ≤ f.width
  | .vcmpUnord _ _ _ _ f => f == .f32 || f == .f64
  | .vsel _ _ _ _ f => f != .o4
  | .vmov _ _ _ f => f != .o4
  | .vbcast _ _ _ f => f != .o4
  | .vext _ _ _ f => f != .o4
  | .viota _ _ _ f => f.isInt
  | .vredSum _ _ _ f rm sat => f.isArith && (f.isFloat || rm == .rne) && (f.isInt || !sat)
  | .vredMin _ _ _ f rm sat => f.isArith && (f.isFloat || rm == .rne) && (f.isInt || !sat)
  | .vredMax _ _ _ f rm sat => f.isArith && (f.isFloat || rm == .rne) && (f.isInt || !sat)
  | .vdot _ _ _ _ f rm sat => f.isArith && (f.isFloat || rm == .rne) && (f.isInt || !sat)
  | .vshuf _ _ _ _ f => f != .o4
  | .vrot _ _ _ _ f => f != .o4
  | .vpack _ _ _ _ f _ => f.isInt && f.width ≤ 32
  | .vunpack _ _ _ _ f => f.isInt && 16 ≤ f.width
  | .vld _ _ _ f _ sat => f != .o4 && (f.isInt || !sat)
  | .vst _ _ _ f _ sat => f != .o4 && (f.isInt || !sat)
  | .vlds _ _ _ _ f _ sat => f != .o4 && (f.isInt || !sat)
  | .vsts _ _ _ _ f _ sat => f != .o4 && (f.isInt || !sat)
  | .vgather _ _ _ _ f _ sat => f.isArith && 32 ≤ f.width && (f.isInt || !sat)
  | .vscatter _ _ _ _ f _ sat => f.isArith && 32 ≤ f.width && (f.isInt || !sat)
  | .vscale _ _ _ f _ _ => f.isArithFloat
  | .vquant _ _ _ _ f _ _ => f.isArithFloat
  | .modeSelect part _ _ => decide (part < 8)
  | .leaseRenew fw => decide (fw < 10)
  | .leaseLapse fw _ => decide (fw < 10)
  | .voteRequest fw => decide (fw < 10)
  | .leaderDesignate socket => decide (socket < 18)
  | .queueResume part q => decide (part < 8 ∧ q < 64)
  | .packetChoose part => decide (part < 8)
  | .nopPacket part => decide (part < 8)
  | .launch part => decide (part < 8)
  | .endPacket part => decide (part < 8)
  | .inval part => decide (part < 8)
  | .disposeRelease part => decide (part < 8)
  | .disposeDiscard part => decide (part < 8)
  | .disposeEnd part => decide (part < 8)
  | .trapDisposition die => decide (die < 8)
  | .trheadWrite part _ => decide (part < 8)
  | .pageFaultService die => decide (die < 8)
  | .keyExchangeStart link _ => decide (link < 16)
  | .keyExchangeComplete link _ _ => decide (link < 16)
  | .hostKeyWrite link _ _ _ _ => decide (link < 16)
  | .preemptRequest part => decide (part < 8)
  | .preemptComplete part => decide (part < 8)
  | .preemptwaitExpiry part => decide (part < 8)
  | .preemptResume part => decide (part < 8)
  | .deadlockDetect part => decide (part < 8)
  | .requestReassembled ep => decide (ep < 8192)
  | .slotFreedAdmit core => decide (core < 4096)
  | .activationStart core ctx => decide (core < 4096 ∧ ctx < 4)
  | .queueAging core => decide (core < 4096)
  | .budgetExpiry core ctx => decide (core < 4096 ∧ ctx < 4)
  | .parkResume core ctx => decide (core < 4096 ∧ ctx < 4)
  | .migrationShip core ctx => decide (core < 4096 ∧ ctx < 4)
  | .wayfarerArrive core ctx => decide (core < 4096 ∧ ctx < 4)
  | .logicalQuantumEnd core => decide (core < 4096)
  | .quantumEnd part => decide (part < 8)
  | .turnSwitch core => decide (core < 4096)
  | .debugHold core ctx => decide (core < 4096 ∧ ctx < 4)
  | .debugWrite core ctx _ _ => decide (core < 4096 ∧ ctx < 4)
  | .debugRelease core ctx => decide (core < 4096 ∧ ctx < 4)
  | .breakpointSet core _ => decide (core < 4096)
  | .breakpointMatch core ctx => decide (core < 4096 ∧ ctx < 4)
  | .bkptRelease core ctx => decide (core < 4096 ∧ ctx < 4)
  | .flitRoute router _ => decide (router < 256)
  | .poisonSink die => decide (die < 8)
  | .throttle router _ => decide (router < 256)
  | .responseReceive ep => decide (ep < 8192)
  | .nackReceive ep => decide (ep < 8192)
  | .stayNoticeReceive ep => decide (ep < 8192)
  | .retxTimeout ep dest num => decide (ep < 8192 ∧ dest < 8192 ∧ num < 32)
  | .busyBackoff ep dest num => decide (ep < 8192 ∧ dest < 8192 ∧ num < 32)
  | .remoteRead home => decide (home < 18)
  | .remoteWrite home => decide (home < 18)
  | .remoteAtomic home => decide (home < 18)
  | .synceConfirm home => decide (home < 18)
  | .synceReturn home => decide (home < 18)
  | .waitCancel home => decide (home < 18)
  | .lodgeService home => decide (home < 18)
  | .stayNoticeSend home => decide (home < 18)
  | .engineWrite core => decide (core < 4096)
  | .xferReceive eng => decide (eng < 4096)
  | .matrixFlip cluster => decide (cluster < 256)
  | .copyAccept str => decide (str < 10)
  | .copyComplete str ch => decide (str < 10 ∧ ch < 16)
  | .copyFault str ch => decide (str < 10 ∧ ch < 16)
  | .transferBoardUpdate core => decide (core < 4096)
  | .blockDispatch die => decide (die < 8)
  | .levelNotice die => decide (die < 8)
  | .levelPublish core ctx => decide (core < 4096 ∧ ctx < 4)
  | .windowPacketSend xd entry => decide (xd < 2 ∧ entry < 512)
  | .storePacketReceive xd => decide (xd < 2)
  | .windowAckReceive xd => decide (xd < 2)
  | .windowMissReceive xd => decide (xd < 2)
  | .loopbackApply xd entry => decide (xd < 2 ∧ entry < 512)
  | .linkFlitReceive link _ => decide (link < 16)
  | .linkNak link _ => decide (link < 16)
  | .linkAck link _ => decide (link < 16)
  | .linkDown link => decide (link < 16)
  | .linkRetrained link => decide (link < 16)
  | .linkDownTimeout link => decide (link < 16)
  | .windowEntryWrite xd entry _ _ => decide (xd < 2 ∧ entry < 512)
  | .receiveWindowWrite entry _ _ => decide (entry < 1024)
  | .pathReopen xd _ => decide (xd < 2)
  | .sample core => decide (core < 4096)
  | .samplePeriodWrite part _ => decide (part < 8)
  | .ringHeadWrite part _ _ => decide (part < 8)
  | .dropWrite part _ _ => decide (part < 8)
  | .counterWrite part i _ => decide (part < 8 ∧ i < 64)
  | .timeWrap part => decide (part < 8)
  | .tokenExhaust die => decide (die < 8)
  | .powerAllotWrite allot => decide (allot.length = 8)
  | .thermalSample island _ => decide (island < 1056)
  | .decodingFault core ctx => decide (core < 4096 ∧ ctx < 4)
  | .nop | .done | .ret | .bkpt | .add _ _ _ _ | .sub _ _ _ _ | .mul _ _ _ _ | .mulh _ _ _ _ | .div _ _ _ _ 
  | .rem _ _ _ _ | .and _ _ _ _ | .or _ _ _ _ | .xor _ _ _ _ | .andn _ _ _ _ | .shl _ _ _ _ | .shr _ _ _ _ 
  | .sha _ _ _ _ | .rot _ _ _ _ | .min _ _ _ _ | .max _ _ _ _ | .cmpeq _ _ _ _ | .cmpne _ _ _ _ | .cmplt _ _ _ _ 
  | .cmple _ _ _ _ | .clz _ _ _ | .ctz _ _ _ | .popc _ _ _ | .brev _ _ _ | .addI16 _ _ _ _ | .subI16 _ _ _ _ 
  | .mulI16 _ _ _ _ | .mulhI16 _ _ _ _ | .divI16 _ _ _ _ | .remI16 _ _ _ _ | .andI16 _ _ _ _ | .orI16 _ _ _ _ 
  | .xorI16 _ _ _ _ | .andnI16 _ _ _ _ | .shlI16 _ _ _ _ | .shrI16 _ _ _ _ | .shaI16 _ _ _ _ | .rotI16 _ _ _ _ 
  | .minI16 _ _ _ _ | .maxI16 _ _ _ _ | .cmpeqI16 _ _ _ _ | .cmpneI16 _ _ _ _ | .cmpltI16 _ _ _ _ | .cmpleI16 _ _ _ _ 
  | .addI48 _ _ _ _ | .andI48 _ _ _ _ | .orI48 _ _ _ _ | .xorI48 _ _ _ _ | .movi16 _ _ | .movi32 _ _ | .movi64 _ _ 
  | .sel _ _ _ | .padd _ _ _ | .paddI16 _ _ _ | .psub _ _ _ | .viewset _ _ | .viewof _ _ | .isspc _ _ 
  | .castspc _ _ _ _ | .hown _ _ | .br _ | .bz _ _ | .bnz _ _ | .bltz _ _ | .bgez _ _ | .call _ _ | .jmp _ 
  | .callr _ _ | .ld _ _ _ _ | .ldW _ _ _ _ | .ldAcq _ _ _ _ | .ldAcqW _ _ _ _ | .ldSync _ _ _ _ | .ldSyncW _ _ _ _ 
  | .ldSynce _ _ _ _ | .ldSynceW _ _ _ _ | .st _ _ _ _ _ | .stW _ _ _ _ _ | .stRel _ _ _ _ _ | .stRelW _ _ _ _ _ 
  | .stFe _ _ _ _ _ | .stFeW _ _ _ _ _ | .ldx _ _ _ _ _ | .stx _ _ _ _ _ | .fence _ _ | .csrrd _ _ | .csrwr _ _ 
  | .csrswp _ _ _ | .csrset _ _ _ | .csrclr _ _ _ | .trap _ | .trapI16 _ | .time _ | .featq _ _ | .migok _ | .msgid _ 
  | .msgpay _ _ | .requeue | .chwaitf _ _ | .chwaite _ _ | .chstat _ _ | .chptr _ _ _ _ | .tlook _ _ | .tset _ _ _ 
  | .tclr _ _ | .tinv _ _ _ | .kand _ _ _ | .kor _ _ _ | .kxor _ _ _ | .knot _ _ | .kpop _ _ | .kset _ _ | .kget _ _ 
  | .mput _ _ | .mget _ _ | .mgang _ _ _ | .mwait _ _ | .mstat _ _ | .cpreq _ | .cptest _ _ | .cpwait _ _ 
  | .lvbind _ _ _ _ | .lvunbind _ _ | .lvread _ _ | .lvcommit _ _ | .lvcmp _ _ _ _ | .lvfreeze _ _ | .lvthaw _ _ 
  | .lvstat _ _ | .rfence _ | .wstat _ _ | .wseq _ _ | .rlcrun _ _ | .rlcnorm _ _ | .rlcstat _ _ | .rlcstop _ _ 
  | .moduleReset _ | .recoveryImageWrite _ | .partitionConfigure _ _ | .prgResponse _ _ | .priTimeout _ | .spdmRequest _ 
  | .tokenReallot | .registerWrite _ _ | .flashRewrite _ _ => true

/-- The rows that are instructions of a handler core rather than events (rows 99-302 of the table). -/
def Instr.isCore : Instr → Bool
  | .nop | .done | .ret | .bkpt | .add _ _ _ _ | .sub _ _ _ _ | .mul _ _ _ _ | .mulh _ _ _ _ | .div _ _ _ _ 
  | .rem _ _ _ _ | .and _ _ _ _ | .or _ _ _ _ | .xor _ _ _ _ | .andn _ _ _ _ | .shl _ _ _ _ | .shr _ _ _ _ 
  | .sha _ _ _ _ | .rot _ _ _ _ | .min _ _ _ _ | .max _ _ _ _ | .cmpeq _ _ _ _ | .cmpne _ _ _ _ | .cmplt _ _ _ _ 
  | .cmple _ _ _ _ | .clz _ _ _ | .ctz _ _ _ | .popc _ _ _ | .brev _ _ _ | .addI16 _ _ _ _ | .subI16 _ _ _ _ 
  | .mulI16 _ _ _ _ | .mulhI16 _ _ _ _ | .divI16 _ _ _ _ | .remI16 _ _ _ _ | .andI16 _ _ _ _ | .orI16 _ _ _ _ 
  | .xorI16 _ _ _ _ | .andnI16 _ _ _ _ | .shlI16 _ _ _ _ | .shrI16 _ _ _ _ | .shaI16 _ _ _ _ | .rotI16 _ _ _ _ 
  | .minI16 _ _ _ _ | .maxI16 _ _ _ _ | .cmpeqI16 _ _ _ _ | .cmpneI16 _ _ _ _ | .cmpltI16 _ _ _ _ | .cmpleI16 _ _ _ _ 
  | .addI48 _ _ _ _ | .andI48 _ _ _ _ | .orI48 _ _ _ _ | .xorI48 _ _ _ _ | .movi16 _ _ | .movi32 _ _ | .movi64 _ _ 
  | .ext _ _ _ _ | .ins _ _ _ _ | .sel _ _ _ | .padd _ _ _ | .paddI16 _ _ _ | .psub _ _ _ | .viewset _ _ | .viewof _ _ 
  | .isspc _ _ | .castspc _ _ _ _ | .hown _ _ | .br _ | .bz _ _ | .bnz _ _ | .bltz _ _ | .bgez _ _ | .call _ _ 
  | .loop _ _ | .jmp _ | .callr _ _ | .ld _ _ _ _ | .ldW _ _ _ _ | .ldAcq _ _ _ _ | .ldAcqW _ _ _ _ | .ldSync _ _ _ _ 
  | .ldSyncW _ _ _ _ | .ldSynce _ _ _ _ | .ldSynceW _ _ _ _ | .st _ _ _ _ _ | .stW _ _ _ _ _ | .stRel _ _ _ _ _ 
  | .stRelW _ _ _ _ _ | .stFe _ _ _ _ _ | .stFeW _ _ _ _ _ | .ldx _ _ _ _ _ | .stx _ _ _ _ _ | .aadd _ _ _ _ _ _ _ 
  | .aand _ _ _ _ _ _ _ | .aor _ _ _ _ _ _ _ | .axor _ _ _ _ _ _ _ | .amin _ _ _ _ _ _ _ | .amax _ _ _ _ _ _ _ 
  | .aswap _ _ _ _ _ _ _ | .acas _ _ _ _ _ _ _ | .fence _ _ | .csrrd _ _ | .csrwr _ _ | .csrswp _ _ _ | .csrset _ _ _ 
  | .csrclr _ _ _ | .trap _ | .trapI16 _ | .time _ | .featq _ _ | .migok _ | .send _ _ _ _ _ _ | .senda _ _ _ _ _ _ 
  | .sendp _ _ _ _ _ _ | .sendl _ _ _ _ _ _ | .reply _ _ _ _ _ | .msgid _ | .msgpay _ _ | .requeue | .chbind _ _ _ 
  | .chwaitf _ _ | .chwaite _ _ | .chadvh _ _ | .chadvt _ _ | .chstat _ _ | .chptr _ _ _ _ | .tlook _ _ | .tset _ _ _ 
  | .tclr _ _ | .tinv _ _ _ | .vadd _ _ _ _ _ _ _ | .vsub _ _ _ _ _ _ _ | .vmul _ _ _ _ _ _ _ | .vdiv _ _ _ _ _ _ _ 
  | .vmin _ _ _ _ _ | .vmax _ _ _ _ _ | .vabs _ _ _ _ _ | .vneg _ _ _ _ _ | .vsqrt _ _ _ _ _ | .vand _ _ _ _ _ 
  | .vor _ _ _ _ _ | .vxor _ _ _ _ _ | .vshl _ _ _ _ _ | .vshr _ _ _ _ _ | .vsha _ _ _ _ _ | .vfma _ _ _ _ _ _ 
  | .vfms _ _ _ _ _ _ | .vfnma _ _ _ _ _ _ | .vcvt _ _ _ _ _ _ _ | .vcmpEq _ _ _ _ _ | .vcmpNe _ _ _ _ _ 
  | .vcmpLt _ _ _ _ _ | .vcmpLe _ _ _ _ _ | .vcmpUnord _ _ _ _ _ | .vsel _ _ _ _ _ | .vmov _ _ _ _ | .vbcast _ _ _ _ 
  | .vext _ _ _ _ | .viota _ _ _ _ | .vredSum _ _ _ _ _ _ | .vredMin _ _ _ _ _ _ | .vredMax _ _ _ _ _ _ 
  | .vdot _ _ _ _ _ _ _ | .vshuf _ _ _ _ _ | .vrot _ _ _ _ _ | .vpack _ _ _ _ _ _ | .vunpack _ _ _ _ _ 
  | .vld _ _ _ _ _ _ | .vst _ _ _ _ _ _ | .vlds _ _ _ _ _ _ _ | .vsts _ _ _ _ _ _ _ | .vgather _ _ _ _ _ _ _ 
  | .vscatter _ _ _ _ _ _ _ | .kand _ _ _ | .kor _ _ _ | .kxor _ _ _ | .knot _ _ | .kpop _ _ | .kset _ _ | .kget _ _ 
  | .vscale _ _ _ _ _ _ | .vquant _ _ _ _ _ _ _ | .mput _ _ | .mget _ _ | .mgang _ _ _ | .mwait _ _ | .mstat _ _ 
  | .cpreq _ | .cptest _ _ | .cpwait _ _ | .lvbind _ _ _ _ | .lvunbind _ _ | .lvread _ _ | .lvcommit _ _ 
  | .lvcmp _ _ _ _ | .lvfreeze _ _ | .lvthaw _ _ | .lvstat _ _ | .rfence _ | .wstat _ _ | .wseq _ _ | .rlcrun _ _ 
  | .rlcnorm _ _ | .rlcstat _ _ | .rlcstop _ _ => true
  | .moduleReset _ | .recoveryImageWrite _ | .partitionConfigure _ _ | .modeSelect _ _ _ | .leaseRenew _ 
  | .leaseLapse _ _ | .voteRequest _ | .leaderDesignate _ | .queueResume _ _ | .packetChoose _ | .nopPacket _ 
  | .launch _ | .endPacket _ | .inval _ | .disposeRelease _ | .disposeDiscard _ | .disposeEnd _ | .trapDisposition _ 
  | .trheadWrite _ _ | .pageFaultService _ | .prgResponse _ _ | .priTimeout _ | .spdmRequest _ | .keyExchangeStart _ _ 
  | .keyExchangeComplete _ _ _ | .hostKeyWrite _ _ _ _ _ | .preemptRequest _ | .preemptComplete _ 
  | .preemptwaitExpiry _ | .preemptResume _ | .deadlockDetect _ | .requestReassembled _ | .slotFreedAdmit _ 
  | .activationStart _ _ | .queueAging _ | .budgetExpiry _ _ | .parkResume _ _ | .migrationShip _ _ 
  | .wayfarerArrive _ _ | .logicalQuantumEnd _ | .quantumEnd _ | .turnSwitch _ | .debugHold _ _ | .debugWrite _ _ _ _ 
  | .debugRelease _ _ | .breakpointSet _ _ | .breakpointMatch _ _ | .bkptRelease _ _ | .flitRoute _ _ | .poisonSink _ 
  | .throttle _ _ | .responseReceive _ | .nackReceive _ | .stayNoticeReceive _ | .retxTimeout _ _ _ 
  | .busyBackoff _ _ _ | .remoteRead _ | .remoteWrite _ | .remoteAtomic _ | .synceConfirm _ | .synceReturn _ 
  | .waitCancel _ | .lodgeService _ | .stayNoticeSend _ | .engineWrite _ | .xferReceive _ | .matrixFlip _ 
  | .copyAccept _ | .copyComplete _ _ | .copyFault _ _ | .transferBoardUpdate _ | .blockDispatch _ | .levelNotice _ 
  | .levelPublish _ _ | .windowPacketSend _ _ | .storePacketReceive _ | .windowAckReceive _ | .windowMissReceive _ 
  | .loopbackApply _ _ | .linkFlitReceive _ _ | .linkNak _ _ | .linkAck _ _ | .linkDown _ | .linkRetrained _ 
  | .linkDownTimeout _ | .windowEntryWrite _ _ _ _ | .receiveWindowWrite _ _ _ | .pathReopen _ _ | .sample _ 
  | .samplePeriodWrite _ _ | .ringHeadWrite _ _ _ | .dropWrite _ _ _ | .counterWrite _ _ _ | .timeWrap _ 
  | .tokenReallot | .tokenExhaust _ | .powerAllotWrite _ | .thermalSample _ _ | .registerWrite _ _ 
  | .decodingFault _ _ | .flashRewrite _ _ => false

end Sys2Proof
end

