-- ==== Sys2Proof/Decode.lean ====
section
/-!
DEFINITION. Lines, heads and tails (R86-R88, R95, R96), the decoder of a head with its tail (R97-R103, in the order of
R104) and, after it, the encoder. Bit-field, sign-extension and byte-order helpers stand here too.
-/

namespace Sys2Proof

/-! ### Bit fields and byte order -/

/-- Bits [lo+n-1 : lo] of a word, as a natural number. -/
def bitsNat {w : Nat} (x : BitVec w) (lo n : Nat) : Nat := (x.toNat >>> lo) % 2 ^ n

/-- Bits [lo+n-1 : lo] of a word. -/
def field {w : Nat} (x : BitVec w) (lo n : Nat) : BitVec n := x.extractLsb' lo n

/-- `x` with bits [lo+n-1 : lo] replaced by the low `n` bits of `v` (n and lo within the word). -/
def setField (x : Word) (lo n : Nat) (v : Nat) : Word :=
  let m := 2 ^ n - 1
  BitVec.ofNat 64 ((x.toNat &&& (2 ^ 64 - 1 - (m <<< lo))) ||| ((v % 2 ^ n) <<< lo))

/-- SignExtend(x, w) of R108 to 64 bits. -/
def sext64 {w : Nat} (x : BitVec w) : Word := x.signExtend 64

/-- The little-endian value of a list of bytes (R3). -/
def leNat : List Byte → Nat
  | [] => 0
  | b :: t => b.toNat + 256 * leNat t

/-- The low `n` bytes of a natural number, little-endian (R3). -/
def leBytes : Nat → Nat → List Byte
  | 0, _ => []
  | n + 1, x => BitVec.ofNat 8 x :: leBytes n (x / 256)

/-! ### Lines (R86-R88) -/

/-- Byte `i` of a line. -/
def byteAt (l : List Byte) (i : Nat) : Byte := l.getD i 0

/-- The little-endian 16-bit value at byte `i`. -/
def half (l : List Byte) (i : Nat) : Nat := (byteAt l i).toNat + 256 * (byteAt l (i + 1)).toNat

/-- The tail length that a TL field gives (R87). -/
def tailLen (tl : Nat) : Nat :=
  match tl % 4 with
  | 0 => 0
  | 1 => 2
  | 2 => 4
  | _ => 8

/-- c(n) of R87: the sum of the tail lengths of heads 1 to n. -/
def tailSum (l : List Byte) : Nat → Nat
  | 0 => 0
  | n + 1 => tailSum l n + tailLen (half l (2 * (n + 1)) / 256)

/-- NH: bits [4:0] of the header (R86). -/
def lineNH (l : List Byte) : Nat := half l 0 % 32

/-- R88: the line is legal. -/
def lineLegal (l : List Byte) : Bool :=
  half l 0 / 32 == 0 && lineNH l != 0 && decide (2 + 2 * lineNH l + tailSum l (lineNH l) ≤ 64)

/-- TVAL of ILLEGAL-LINE (R92): the header in [15:0] and T, the sum of the line's tail lengths, in [23:16]. -/
def lineTval (l : List Byte) : Word := BitVec.ofNat 64 (half l 0 + 65536 * (tailSum l (lineNH l) % 256))

/-- The head at index `i` (R86). -/
def lineHead (l : List Byte) (i : Nat) : Head := BitVec.ofNat 16 (half l (2 * i))

/-- The tail of head `i`, zero-extended to 64 bits (R87). -/
def lineTail (l : List Byte) (i : Nat) : Word :=
  let c := tailSum l i
  BitVec.ofNat 64 (leNat ((l.drop (64 - c)).take (c - tailSum l (i - 1))))

/-! ### Fields (R95, R96) -/

/-- The tail forms of R96. -/
inductive Form where
  | none | t16 | t32 | t32j | t64 | imm
  deriving DecidableEq, Repr

/-- The fields of a head and its tail. `imm` holds I16, the FMT-RM-SAT-AUX half of T32V, the 27 bits of T32J, I48 or
the whole MOVI tail, zero-extended. -/
structure Fields where
  op  : BitVec 6
  tl  : BitVec 2
  d   : BitVec 5
  q   : BitVec 3
  a   : BitVec 5
  b   : BitVec 5
  f   : BitVec 6
  imm : Word
  deriving DecidableEq, Repr

/-- The tail form that R101 gives an opcode at a TL value; `none` where OP is not listed or TL is not allowed. -/
def formOf (op tl : Nat) : Option Form :=
  match op, tl with
  | 0x00, 0 => some .none
  | 0x01, 1 => some .t16
  | 0x02, 2 => some .t32
  | 0x03, 3 => some .t64
  | 0x04, 1 | 0x04, 2 | 0x04, 3 => some .imm
  | 0x05, 2 => some .t32
  | 0x06, 1 => some .t16
  | 0x06, 2 => some .t32
  | 0x07, 2 => some .t32j
  | 0x08, 1 => some .t16
  | 0x09, 2 | 0x0A, 2 => some .t32
  | 0x09, 3 | 0x0A, 3 => some .t64
  | 0x0B, 2 | 0x0C, 2 | 0x0D, 2 | 0x0E, 2 => some .t32
  | 0x0F, 1 => some .t16
  | 0x0F, 2 | 0x10, 2 => some .t32
  | 0x11, 1 | 0x12, 1 | 0x13, 1 => some .t16
  | 0x12, 2 => some .t32
  | 0x20, 2 | 0x21, 2 | 0x22, 2 | 0x23, 2 | 0x24, 2 | 0x25, 2 | 0x26, 2 | 0x27, 2 | 0x28, 2 | 0x2A, 2 => some .t32
  | 0x29, 1 | 0x30, 1 | 0x31, 1 | 0x32, 1 | 0x33, 1 | 0x34, 1 => some .t16
  | 0x30, 2 | 0x32, 2 | 0x33, 2 => some .t32
  | _, _ => Option.none

/-- The tail of a form from its fields, zero-extended to 64 bits (R96). -/
def joinTail (fm : Form) (x : Fields) : Word :=
  match fm with
  | .none => 0
  | .t16 => (x.a ++ x.b ++ x.f : BitVec 16).setWidth 64
  | .t32 => (x.a ++ x.b ++ x.f ++ x.imm.setWidth 16 : BitVec 32).setWidth 64
  | .t32j => (x.a ++ x.imm.setWidth 27 : BitVec 32).setWidth 64
  | .t64 => (x.a ++ x.b ++ x.f ++ x.imm.setWidth 48 : BitVec 64)
  | .imm => x.imm

/-- The head from its fields (R95). -/
def joinHead (x : Fields) : Head := (x.op ++ x.tl ++ x.d ++ x.q : BitVec 16)

/-- The fields of a head and a tail read in a form (R95, R96). -/
def splitFields (fm : Form) (h : Head) (t : Word) : Fields :=
  let op := field h 10 6
  let tl := field h 8 2
  let d := field h 3 5
  let q := field h 0 3
  match fm with
  | .none => ⟨op, tl, d, q, 0, 0, 0, 0⟩
  | .t16 => ⟨op, tl, d, q, field t 11 5, field t 6 5, field t 0 6, 0⟩
  | .t32 => ⟨op, tl, d, q, field t 27 5, field t 22 5, field t 16 6, (field t 0 16).setWidth 64⟩
  | .t32j => ⟨op, tl, d, q, field t 27 5, 0, 0, (field t 0 27).setWidth 64⟩
  | .t64 => ⟨op, tl, d, q, field t 59 5, field t 54 5, field t 48 6, (field t 0 48).setWidth 64⟩
  | .imm => ⟨op, tl, d, q, 0, 0, 0, t⟩

/-! ### Codes of the operand types -/

/-- FMT codes (R62, R64, R100). -/
def Fmt.code : Fmt → BitVec 4
  | .s8 => 0 | .s16 => 1 | .s32 => 2 | .s64 => 3 | .n8 => 4 | .n16 => 5 | .n32 => 6 | .n64 => 7
  | .f16 => 8 | .w16 => 9 | .f32 => 10 | .f64 => 11 | .f8a => 12 | .f8b => 13 | .o4 => 14

/-- The format of an FMT code; 0xF is reserved (R100). -/
def Fmt.ofCode (c : BitVec 4) : Option Fmt :=
  match c.toNat with
  | 0 => some .s8 | 1 => some .s16 | 2 => some .s32 | 3 => some .s64
  | 4 => some .n8 | 5 => some .n16 | 6 => some .n32 | 7 => some .n64
  | 8 => some .f16 | 9 => some .w16 | 10 => some .f32 | 11 => some .f64
  | 12 => some .f8a | 13 => some .f8b | 14 => some .o4 | _ => none

/-- RM codes (R68). -/
def Rm.code : Rm → BitVec 3
  | .rne => 0 | .rtz => 1 | .rdn => 2 | .rup => 3 | .rna => 4 | .dyn => 7

/-- The mode of an RM code; 5 and 6 are reserved (R68). -/
def Rm.ofCode (c : BitVec 3) : Option Rm :=
  match c.toNat with
  | 0 => some .rne | 1 => some .rtz | 2 => some .rdn | 3 => some .rup | 4 => some .rna | 7 => some .dyn | _ => none

/-- Q of an integer qualifier (R99). -/
def IQ.code (q : IQ) : BitVec 3 := (BitVec.ofBool q.sgn ++ q.size : BitVec 3)

/-- The integer qualifier of Q (R99). -/
def IQ.ofCode (c : BitVec 3) : IQ := ⟨c.getLsbD 2, c.setWidth 2⟩

/-- Scope codes (R154). -/
def Scope.code : Scope → BitVec 3
  | .ctx => 0 | .core => 1 | .clus => 2 | .die => 3 | .pkg => 4 | .sys => 5

/-- The scope of a code; 6 and 7 are illegal (R154). -/
def Scope.ofCode (c : BitVec 3) : Option Scope :=
  match c.toNat with
  | 0 => some .ctx | 1 => some .core | 2 => some .clus | 3 => some .die | 4 => some .pkg | 5 => some .sys | _ => none

/-- Ordering codes of atomics (R101). -/
def AOrd.code : AOrd → BitVec 3
  | .none => 0 | .acq => 1 | .rel => 2 | .ar => 3

/-- The ordering of a code; 4 to 7 are reserved (R101). -/
def AOrd.ofCode (c : BitVec 3) : Option AOrd :=
  match c.toNat with
  | 0 => some .none | 1 => some .acq | 2 => some .rel | 3 => some .ar | _ => Option.none

/-- Space codes (R99). -/
def Space.code : Space → BitVec 2
  | .priv => 0 | .scratch => 1 | .clus => 2 | .inbox => 3

/-- The space of a code (R99). -/
def Space.ofCode (c : BitVec 2) : Space :=
  match c.toNat with
  | 0 => .priv | 1 => .scratch | 2 => .clus | _ => .inbox

/-- Queue codes (R229). -/
def QSel.code : QSel → BitVec 3
  | .q0 => 0 | .q1 => 1 | .q2 => 2 | .q3 => 3 | .qg => 4

/-- The queue of a code; 5 to 7 are reserved (R229). -/
def QSel.ofCode (c : BitVec 3) : Option QSel :=
  match c.toNat with
  | 0 => some .q0 | 1 => some .q1 | 2 => some .q2 | 3 => some .q3 | 4 => some .qg | _ => none

/-- Target codes of quantisation (R290). -/
def QTgt.code : QTgt → BitVec 4
  | .s8 => 0 | .f8a => 12 | .f8b => 13 | .o4 => 14

/-- The quantisation target of a code (R290). -/
def QTgt.ofCode (c : BitVec 4) : Option QTgt :=
  match c.toNat with
  | 0 => some .s8 | 12 => some .f8a | 13 => some .f8b | 14 => some .o4 | _ => none

/-- CSR numbers (R183). -/
def Csr.num : Csr → BitVec 12
  | .cause => 0x000 | .tval => 0x001 | .tip => 0x002 | .tmsg => 0x003 | .telem => 0x004 | .ttile => 0x005 | .tfmt => 0x006
  | .vstart => 0x010 | .fcsr => 0x011 | .budget => 0x020 | .colour => 0x021 | .coord => 0x030 | .featmask => 0x031
  | .featreq => 0x032 | .migok => 0x040 | .migthresh => 0x041 | .qlim0 => 0x050 | .qlim1 => 0x051 | .qlim2 => 0x052
  | .qlim3 => 0x053 | .qlimg => 0x054 | .refuse => 0x055 | .guestctx => 0x056 | .xferid => 0x060 | .time => 0x061
  | .quant => 0x062 | .tasksel => 0x070 | .taskbase => 0x071 | .tasklim => 0x072 | .taskgen => 0x073
  | .extsel => 0x078 | .extbase => 0x079 | .extlen => 0x07A | .sampcfg => 0x080

/-- The CSR of a number; a number that R183 does not assign is illegal (R103). -/
def Csr.ofNum (n : BitVec 12) : Option Csr :=
  match n.toNat with
  | 0x000 => some .cause | 0x001 => some .tval | 0x002 => some .tip | 0x003 => some .tmsg | 0x004 => some .telem
  | 0x005 => some .ttile | 0x006 => some .tfmt | 0x010 => some .vstart | 0x011 => some .fcsr | 0x020 => some .budget
  | 0x021 => some .colour | 0x030 => some .coord | 0x031 => some .featmask | 0x032 => some .featreq
  | 0x040 => some .migok | 0x041 => some .migthresh | 0x050 => some .qlim0 | 0x051 => some .qlim1 | 0x052 => some .qlim2
  | 0x053 => some .qlim3 | 0x054 => some .qlimg | 0x055 => some .refuse | 0x056 => some .guestctx | 0x060 => some .xferid
  | 0x061 => some .time | 0x062 => some .quant | 0x070 => some .tasksel | 0x071 => some .taskbase | 0x072 => some .tasklim
  | 0x073 => some .taskgen | 0x078 => some .extsel | 0x079 => some .extbase | 0x07A => some .extlen
  | 0x080 => some .sampcfg | _ => none

/-- A general register field (R97). -/
def gOf (x : BitVec 5) : GReg := x.toFin
/-- The low four bits of a v or c field; `isV` says whether the field is legal (R97). -/
def vOf (x : BitVec 5) : Fin 16 := (x.setWidth 4).toFin
/-- A v or c field names a register (R97). -/
def isV (x : BitVec 5) : Bool := x.toNat < 16
/-- The low three bits of a k field; `isK` says whether the field is legal (R97). -/
def kOf (x : BitVec 5) : KReg := (x.setWidth 3).toFin
/-- A k field names a register (R97). -/
def isK (x : BitVec 5) : Bool := x.toNat < 8
/-- The mask register of Q (R99). -/
def kQ (x : BitVec 3) : KReg := x.toFin

/-- The 5-bit field of a register number. -/
def fG (r : GReg) : BitVec 5 := BitVec.ofFin r
/-- The 5-bit field of a v or c register. -/
def fV (r : Fin 16) : BitVec 5 := (BitVec.ofFin r : BitVec 4).setWidth 5
/-- The 5-bit field of a k register. -/
def fK (r : KReg) : BitVec 5 := (BitVec.ofFin r : BitVec 3).setWidth 5

/-! ### The decoder (R101-R104)

A family decoder answers `none` for ILLEGAL-OP at steps 4 and 5 of R104, else the instruction and whether every
register field names a register (step 6). -/

/-- `r` where the fixed fields hold, else ILLEGAL-OP. -/
def chk {α : Type} (c : Bool) (r : Option α) : Option α := if c then r else none

/-- An instruction with no v, c or k field. -/
def okI (i : Instr) : Option (Instr × Bool) := some (i, true)

/-- Control, 0x00 (R202). -/
def decCtl (x : Fields) : Option (Instr × Bool) :=
  chk (x.d == 0) <| match x.q.toNat with
  | 0 => okI .nop | 1 => okI .done | 2 => okI .ret | 3 => okI .bkpt | _ => none

/-- Integer reg-reg, 0x01 (R102, R203). -/
def decRR (x : Fields) : Option (Instr × Bool) :=
  let d := gOf x.d; let q := IQ.ofCode x.q; let a := gOf x.a; let b := gOf x.b
  match x.f.toNat with
  | 0 => okI (.add d q a b) | 1 => okI (.sub d q a b) | 2 => okI (.mul d q a b) | 3 => okI (.mulh d q a b)
  | 4 => okI (.div d q a b) | 5 => okI (.rem d q a b) | 6 => okI (.and d q a b) | 7 => okI (.or d q a b)
  | 8 => okI (.xor d q a b) | 9 => okI (.andn d q a b) | 10 => okI (.shl d q a b) | 11 => okI (.shr d q a b)
  | 12 => okI (.sha d q a b) | 13 => okI (.rot d q a b) | 14 => okI (.min d q a b) | 15 => okI (.max d q a b)
  | 16 => okI (.cmpeq d q a b) | 17 => okI (.cmpne d q a b) | 18 => okI (.cmplt d q a b) | 19 => okI (.cmple d q a b)
  | 20 => chk (x.b == 0) (okI (.clz d q a)) | 21 => chk (x.b == 0) (okI (.ctz d q a))
  | 22 => chk (x.b == 0) (okI (.popc d q a)) | 23 => chk (x.b == 0) (okI (.brev d q a))
  | _ => none

/-- Integer reg-imm16, 0x02 (R102, R203). -/
def decRI (x : Fields) : Option (Instr × Bool) :=
  let d := gOf x.d; let q := IQ.ofCode x.q; let a := gOf x.a; let i := x.imm.setWidth 16
  chk (x.b == 0) <| match x.f.toNat with
  | 0 => okI (.addI16 d q a i) | 1 => okI (.subI16 d q a i) | 2 => okI (.mulI16 d q a i) | 3 => okI (.mulhI16 d q a i)
  | 4 => okI (.divI16 d q a i) | 5 => okI (.remI16 d q a i) | 6 => okI (.andI16 d q a i) | 7 => okI (.orI16 d q a i)
  | 8 => okI (.xorI16 d q a i) | 9 => okI (.andnI16 d q a i) | 10 => okI (.shlI16 d q a i) | 11 => okI (.shrI16 d q a i)
  | 12 => okI (.shaI16 d q a i) | 13 => okI (.rotI16 d q a i) | 14 => okI (.minI16 d q a i) | 15 => okI (.maxI16 d q a i)
  | 16 => okI (.cmpeqI16 d q a i) | 17 => okI (.cmpneI16 d q a i) | 18 => okI (.cmpltI16 d q a i)
  | 19 => okI (.cmpleI16 d q a i) | _ => none

/-- Integer reg-imm48, 0x03 (R203). -/
def decRL (x : Fields) : Option (Instr × Bool) :=
  let d := gOf x.d; let q := IQ.ofCode x.q; let a := gOf x.a; let i := x.imm.setWidth 48
  chk (x.b == 0) <| match x.f.toNat with
  | 0 => okI (.addI48 d q a i) | 1 => okI (.andI48 d q a i) | 2 => okI (.orI48 d q a i) | 3 => okI (.xorI48 d q a i)
  | _ => none

/-- MOVI, 0x04 (R206). -/
def decMovi (x : Fields) : Option (Instr × Bool) :=
  chk (x.q == 0) <| match x.tl.toNat with
  | 1 => okI (.movi16 (gOf x.d) (x.imm.setWidth 16))
  | 2 => okI (.movi32 (gOf x.d) (x.imm.setWidth 32))
  | 3 => okI (.movi64 (gOf x.d) x.imm)
  | _ => none

/-- Bit fields, 0x05 (R207). -/
def decBits (x : Fields) : Option (Instr × Bool) :=
  let d := gOf x.d; let a := gOf x.a
  chk (x.q == 0) <| match x.f.toNat with
  | 0 => chk (x.b == 0 && field x.imm 12 4 == 0) (okI (.ext d a (field x.imm 0 6) (field x.imm 6 6)))
  | 1 => chk (x.b == 0 && field x.imm 12 4 == 0) (okI (.ins d a (field x.imm 0 6) (field x.imm 6 6)))
  | 2 => chk (x.imm == 0) (okI (.sel d a (gOf x.b)))
  | _ => none

/-- Pointers, 0x06 (R208). A VIEWSET view number of 16 to 31 is ILLEGAL-OP. -/
def decPtr (x : Fields) : Option (Instr × Bool) :=
  let d := gOf x.d; let a := gOf x.a; let b := gOf x.b
  if x.tl == 2 then
    chk (x.q == 0 && x.f == 0 && x.b == 0) (okI (.paddI16 d a (x.imm.setWidth 16)))
  else match x.f.toNat with
  | 0 => chk (x.q == 0) (okI (.padd d a b))
  | 1 => chk (x.q == 0) (okI (.psub d a b))
  | 2 => chk (x.q == 0 && x.b == 0 && isV x.d) (okI (.viewset (vOf x.d) a))
  | 3 => chk (x.q == 0 && x.b == 0) (okI (.viewof d a))
  | 4 => chk (x.q == 0 && x.b == 0) (okI (.isspc d a))
  | 5 => chk (x.b == 0) (okI (.castspc d (x.q.getLsbD 2) (Space.ofCode (x.q.setWidth 2)) a))
  | 6 => chk (x.q == 0 && x.b == 0) (okI (.hown d a))
  | _ => none

/-- Direct branches, 0x07 (R214). -/
def decBr (x : Fields) : Option (Instr × Bool) :=
  let a := gOf x.a; let j := x.imm.setWidth 27
  match x.q.toNat with
  | 0 => chk (x.d == 0 && x.a == 0) (okI (.br j))
  | 1 => chk (x.d == 0) (okI (.bz a j)) | 2 => chk (x.d == 0) (okI (.bnz a j))
  | 3 => chk (x.d == 0) (okI (.bltz a j)) | 4 => chk (x.d == 0) (okI (.bgez a j))
  | 5 => chk (x.a == 0) (okI (.call (gOf x.d) j))
  | 6 => chk (x.d == 0) (okI (.loop a j))
  | _ => none

/-- Indirect jumps, 0x08 (R215). -/
def decInd (x : Fields) : Option (Instr × Bool) :=
  chk (x.q == 0 && x.b == 0) <| match x.f.toNat with
  | 0 => chk (x.d == 0) (okI (.jmp (gOf x.a)))
  | 1 => okI (.callr (gOf x.d) (gOf x.a))
  | _ => none

/-- Loads, 0x09 (R216): TL 2 has I16, TL 3 has I48; SYNC forms need Q[1:0] = 3 (R103). -/
def decLd (x : Fields) : Option (Instr × Bool) :=
  let d := gOf x.d; let q := IQ.ofCode x.q; let a := gOf x.a; let i := x.imm.setWidth 16; let w := x.imm.setWidth 48
  chk (x.b == 0) <| if x.tl == 2 then
    match x.f.toNat with
    | 0 => okI (.ld d q a i) | 1 => okI (.ldAcq d q a i)
    | 2 => chk (q.size == 3) (okI (.ldSync d q.sgn a i)) | 3 => chk (q.size == 3) (okI (.ldSynce d q.sgn a i))
    | _ => none
  else match x.f.toNat with
    | 0 => okI (.ldW d q a w) | 1 => okI (.ldAcqW d q a w)
    | 2 => chk (q.size == 3) (okI (.ldSyncW d q.sgn a w)) | 3 => chk (q.size == 3) (okI (.ldSynceW d q.sgn a w))
    | _ => none

/-- Stores, 0x0A (R218): kind in F[5:3], colour in F[2:0]. -/
def decSt (x : Fields) : Option (Instr × Bool) :=
  let q := IQ.ofCode x.q; let a := gOf x.a; let b := gOf x.b; let c := field x.f 0 3
  let i := x.imm.setWidth 16; let w := x.imm.setWidth 48
  chk (x.d == 0) <| if x.tl == 2 then
    match (field x.f 3 3).toNat with
    | 0 => okI (.st q a b c i) | 1 => okI (.stRel q a b c i)
    | 2 => chk (q.size == 3) (okI (.stFe q.sgn a b c i)) | _ => none
  else match (field x.f 3 3).toNat with
    | 0 => okI (.stW q a b c w) | 1 => okI (.stRelW q a b c w)
    | 2 => chk (q.size == 3) (okI (.stFeW q.sgn a b c w)) | _ => none

/-- Extents, 0x0B (R220). -/
def decExt (x : Fields) : Option (Instr × Bool) :=
  let q := IQ.ofCode x.q; let e := (field x.f 0 4).toFin; let i := x.imm.setWidth 16
  chk (!x.f.getLsbD 4) <| if x.f.getLsbD 5 then chk (x.d == 0) (okI (.stx q e (gOf x.a) (gOf x.b) i))
  else chk (x.b == 0) (okI (.ldx (gOf x.d) q e (gOf x.a) i))

/-- Atomics, 0x0C (R221). -/
def decAt (x : Fields) : Option (Instr × Bool) :=
  let d := gOf x.d; let q := IQ.ofCode x.q; let a := gOf x.a; let b := gOf x.b; let c := field x.imm 3 3
  match AOrd.ofCode (field x.f 3 3), Scope.ofCode (field x.imm 0 3) with
  | some o, some s => chk (field x.imm 6 10 == 0) <| match (field x.f 0 3).toNat with
    | 0 => okI (.aadd d q a b o c s) | 1 => okI (.aand d q a b o c s) | 2 => okI (.aor d q a b o c s)
    | 3 => okI (.axor d q a b o c s) | 4 => okI (.amin d q a b o c s) | 5 => okI (.amax d q a b o c s)
    | 6 => okI (.aswap d q a b o c s) | _ => okI (.acas d q a b o c s)
  | _, _ => none

/-- FENCE, 0x0D (R223). -/
def decFence (x : Fields) : Option (Instr × Bool) :=
  match Scope.ofCode (field x.imm 8 3) with
  | some s => chk (x.d == 0 && x.q == 0 && x.a == 0 && x.b == 0 && x.f == 0 && field x.imm 11 5 == 0)
      (okI (.fence (field x.imm 0 8) s))
  | none => none

/-- CSR access, 0x0E (R225). -/
def decCsr (x : Fields) : Option (Instr × Bool) :=
  let d := gOf x.d; let a := gOf x.a
  match Csr.ofNum (field x.imm 0 12) with
  | some c => chk (x.b == 0 && x.f == 0 && field x.imm 12 4 == 0) <| match x.q.toNat with
    | 0 => chk (x.a == 0) (okI (.csrrd d c)) | 1 => chk (x.d == 0) (okI (.csrwr c a))
    | 2 => okI (.csrswp d c a) | 3 => okI (.csrset d c a) | 4 => okI (.csrclr d c a) | _ => none
  | none => none

/-- System, 0x0F (R227). -/
def decSys (x : Fields) : Option (Instr × Bool) :=
  if x.tl == 2 then
    chk (x.f == 0 && x.d == 0 && x.q == 0 && x.a == 0 && x.b == 0) (okI (.trapI16 (x.imm.setWidth 16)))
  else chk (x.b == 0) <| match x.f.toNat with
  | 0 => chk (x.d == 0 && x.q == 0) (okI (.trap (gOf x.a)))
  | 1 => chk (x.q == 0 && x.a == 0) (okI (.time (gOf x.d)))
  | 2 => chk (x.q == 0) (okI (.featq (gOf x.d) (gOf x.a)))
  | 3 => chk (x.d == 0 && x.a == 0 && field x.q 1 2 == 0) (okI (.migok (x.q.getLsbD 0)))
  | _ => none

/-- Sends, 0x10 (R229). -/
def decSend (x : Fields) : Option (Instr × Bool) :=
  let d := gOf x.d; let a := gOf x.a; let b := gOf x.b; let n := field x.imm 4 6
  let t := if x.imm.getLsbD 3 then some (field x.imm 0 3) else none
  match QSel.ofCode x.q with
  | some q => chk (field x.imm 10 6 == 0 && (x.imm.getLsbD 3 || field x.imm 0 3 == 0)) <| match x.f.toNat with
    | 0 => okI (.send d q a b n t) | 1 => okI (.senda d q a b n t) | 2 => okI (.sendp d q a b n t)
    | 3 => okI (.sendl d q a b n t) | 4 => chk (x.a == 0) (okI (.reply d q b n t)) | _ => none
  | none => none

/-- Messages, 0x11 (R233). -/
def decMsg (x : Fields) : Option (Instr × Bool) :=
  chk (x.q == 0 && x.b == 0) <| match x.f.toNat with
  | 0 => chk (x.a == 0) (okI (.msgid (gOf x.d)))
  | 1 => okI (.msgpay (gOf x.d) (gOf x.a))
  | 2 => chk (x.a == 0 && x.d == 0) (okI .requeue)
  | _ => none

/-- Channels, 0x12 (R237): TL by selector, and ILLEGAL-REG for c fields of 16 to 31. -/
def decChan (x : Fields) : Option (Instr × Bool) :=
  let n := x.imm.setWidth 16
  chk (x.q == 0) <| if x.tl == 2 then
    match x.f.toNat with
    | 0 => chk (x.b == 0 && field x.imm 2 14 == 0) (some (.chbind (vOf x.d) (gOf x.a) (field x.imm 0 2), isV x.d))
    | 3 => chk (x.d == 0 && x.b == 0) (some (.chadvh (vOf x.a) n, isV x.a))
    | 4 => chk (x.d == 0 && x.b == 0) (some (.chadvt (vOf x.a) n, isV x.a))
    | 6 => some (.chptr (gOf x.d) (vOf x.a) (gOf x.b) n, isV x.a)
    | _ => none
  else chk (x.b == 0) <| match x.f.toNat with
    | 1 => some (.chwaitf (gOf x.d) (vOf x.a), isV x.a)
    | 2 => some (.chwaite (gOf x.d) (vOf x.a), isV x.a)
    | 5 => some (.chstat (gOf x.d) (vOf x.a), isV x.a)
    | _ => none

/-- The tag table, 0x13 (R240). -/
def decTag (x : Fields) : Option (Instr × Bool) :=
  let d := gOf x.d; let a := gOf x.a; let b := gOf x.b
  chk (x.q == 0) <| match x.f.toNat with
  | 0 => chk (x.b == 0) (okI (.tlook d a)) | 1 => okI (.tset d a b)
  | 2 => chk (x.b == 0) (okI (.tclr d a)) | 3 => okI (.tinv d a b) | _ => none

/-- The FMT, RM, SAT and AUX fields of T32V (R96); `none` for the codes that R100 reserves. -/
def vFields (x : Fields) : Option (Fmt × Rm × Bool × BitVec 8) :=
  match Fmt.ofCode (field x.imm 12 4), Rm.ofCode (field x.imm 9 3) with
  | some f, some r => some (f, r, x.imm.getLsbD 8, field x.imm 0 8)
  | _, _ => none

/-- Vector arithmetic, 0x20 (R277). -/
def decVArith (x : Fields) (f : Fmt) (rm : Rm) (sat : Bool) (aux : BitVec 8) : Option (Instr × Bool) :=
  let d := vOf x.d; let k := kQ x.q; let a := vOf x.a; let b := vOf x.b
  let r3 := isV x.d && isV x.a && isV x.b; let r2 := isV x.d && isV x.a
  let plain := rm == .rne && !sat
  chk (aux == 0) <| match x.f.toNat with
  | 0 => some (.vadd d k a b f rm sat, r3) | 1 => some (.vsub d k a b f rm sat, r3)
  | 2 => some (.vmul d k a b f rm sat, r3) | 3 => some (.vdiv d k a b f rm sat, r3)
  | 4 => chk plain (some (.vmin d k a b f, r3)) | 5 => chk plain (some (.vmax d k a b f, r3))
  | 6 => chk (rm == .rne && x.b == 0) (some (.vabs d k a f sat, r2))
  | 7 => chk (rm == .rne && x.b == 0) (some (.vneg d k a f sat, r2))
  | 8 => chk (!sat && x.b == 0) (some (.vsqrt d k a f rm, r2))
  | 9 => chk plain (some (.vand d k a b f, r3)) | 10 => chk plain (some (.vor d k a b f, r3))
  | 11 => chk plain (some (.vxor d k a b f, r3)) | 12 => chk plain (some (.vshl d k a b f, r3))
  | 13 => chk plain (some (.vshr d k a b f, r3)) | 14 => chk plain (some (.vsha d k a b f, r3))
  | _ => none

/-- Fused multiply-add, 0x21 (R279). -/
def decVFma (x : Fields) (f : Fmt) (rm : Rm) (sat : Bool) (aux : BitVec 8) : Option (Instr × Bool) :=
  let d := vOf x.d; let k := kQ x.q; let a := vOf x.a; let b := vOf x.b
  let r3 := isV x.d && isV x.a && isV x.b
  chk (aux == 0 && !sat) <| match x.f.toNat with
  | 0 => some (.vfma d k a b f rm, r3) | 1 => some (.vfms d k a b f rm, r3) | 2 => some (.vfnma d k a b f rm, r3)
  | _ => none

/-- VCVT, 0x22 (R280): AUX[7:4] is the destination format. -/
def decVCvt (x : Fields) (f : Fmt) (rm : Rm) (sat : Bool) (aux : BitVec 8) : Option (Instr × Bool) :=
  match Fmt.ofCode (field aux 4 4) with
  | some t => chk (x.b == 0 && x.f == 0 && field aux 0 4 == 0)
      (some (.vcvt (vOf x.d) (kQ x.q) (vOf x.a) f t rm sat, isV x.d && isV x.a))
  | none => none

/-- VCMP, 0x23 (R281). -/
def decVCmp (x : Fields) (f : Fmt) (rm : Rm) (sat : Bool) (aux : BitVec 8) : Option (Instr × Bool) :=
  let d := kOf x.d; let k := kQ x.q; let a := vOf x.a; let b := vOf x.b
  let r := isK x.d && isV x.a && isV x.b
  chk (aux == 0 && !sat && rm == .rne) <| match x.f.toNat with
  | 0 => some (.vcmpEq d k a b f, r) | 1 => some (.vcmpNe d k a b f, r) | 2 => some (.vcmpLt d k a b f, r)
  | 3 => some (.vcmpLe d k a b f, r) | 4 => some (.vcmpUnord d k a b f, r) | _ => none

/-- Moves, 0x24 (R282). -/
def decVMov (x : Fields) (f : Fmt) (rm : Rm) (sat : Bool) (aux : BitVec 8) : Option (Instr × Bool) :=
  let d := vOf x.d; let k := kQ x.q
  chk (aux == 0 && !sat && rm == .rne) <| match x.f.toNat with
  | 0 => some (.vsel d k (vOf x.a) (vOf x.b) f, isV x.d && isV x.a && isV x.b)
  | 1 => chk (x.b == 0) (some (.vmov d k (vOf x.a) f, isV x.d && isV x.a))
  | 2 => chk (x.b == 0) (some (.vbcast d k (gOf x.a) f, isV x.d))
  | 3 => chk (x.q == 0) (some (.vext (gOf x.d) (vOf x.a) (gOf x.b) f, isV x.a))
  | 4 => chk (x.b == 0) (some (.viota d k (gOf x.a) f, isV x.d))
  | _ => none

/-- Reductions, 0x25 (R283). -/
def decVRed (x : Fields) (f : Fmt) (rm : Rm) (sat : Bool) (aux : BitVec 8) : Option (Instr × Bool) :=
  let d := gOf x.d; let k := kQ x.q; let a := vOf x.a
  match x.f.toNat with
  | 0 => chk (x.b == 0) <| match aux.toNat with
    | 0 => some (.vredSum d k a f rm sat, isV x.a) | 1 => some (.vredMin d k a f rm sat, isV x.a)
    | 2 => some (.vredMax d k a f rm sat, isV x.a) | _ => none
  | 1 => chk (aux == 0) (some (.vdot d k a (vOf x.b) f rm sat, isV x.a && isV x.b))
  | _ => none

/-- Permutes, 0x26 (R284). -/
def decVPerm (x : Fields) (f : Fmt) (rm : Rm) (sat : Bool) (aux : BitVec 8) : Option (Instr × Bool) :=
  let d := vOf x.d; let k := kQ x.q; let a := vOf x.a
  let r3 := isV x.d && isV x.a && isV x.b; let r2 := isV x.d && isV x.a
  chk (aux == 0 && rm == .rne) <| match x.f.toNat with
  | 0 => chk (!sat) (some (.vshuf d k a (vOf x.b) f, r3)) | 1 => chk (!sat) (some (.vrot d k a (gOf x.b) f, r2))
  | 2 => some (.vpack d k a (vOf x.b) f sat, r3) | 3 => chk (!sat) (some (.vunpack d k a (gOf x.b) f, r2))
  | _ => none

/-- Vector loads and stores, 0x27 (R285). -/
def decVMem (x : Fields) (f : Fmt) (rm : Rm) (sat : Bool) (aux : BitVec 8) : Option (Instr × Bool) :=
  let d := vOf x.d; let k := kQ x.q; let a := gOf x.a
  chk (aux == 0) <| match x.f.toNat with
  | 0 => chk (x.b == 0) (some (.vld d k a f rm sat, isV x.d)) | 1 => chk (x.b == 0) (some (.vst d k a f rm sat, isV x.d))
  | 2 => some (.vlds d k a (gOf x.b) f rm sat, isV x.d) | 3 => some (.vsts d k a (gOf x.b) f rm sat, isV x.d)
  | _ => none

/-- Gather and scatter, 0x28 (R288). -/
def decVGs (x : Fields) (f : Fmt) (rm : Rm) (sat : Bool) (aux : BitVec 8) : Option (Instr × Bool) :=
  let d := vOf x.d; let k := kQ x.q; let a := gOf x.a; let r := isV x.d && isV x.b
  chk (aux == 0) <| match x.f.toNat with
  | 0 => some (.vgather d k a (vOf x.b) f rm sat, r) | 1 => some (.vscatter d k a (vOf x.b) f rm sat, r)
  | _ => none

/-- Quantisation, 0x2A (R290): VSCALE uses no RM (R98). -/
def decVQuant (x : Fields) (f : Fmt) (rm : Rm) (sat : Bool) (aux : BitVec 8) : Option (Instr × Bool) :=
  match QTgt.ofCode (field aux 0 4) with
  | some t => chk (!sat) <| match x.f.toNat with
    | 0 => chk (x.b == 0 && rm == .rne) (some (.vscale (gOf x.d) (kQ x.q) (vOf x.a) f t (field aux 4 4), isV x.a))
    | 1 => chk (field aux 4 4 == 0) (some (.vquant (vOf x.d) (kQ x.q) (vOf x.a) (gOf x.b) f rm t, isV x.d && isV x.a))
    | _ => none
  | none => none

/-- Mask operations, 0x29 (R289). -/
def decMask (x : Fields) : Option (Instr × Bool) :=
  let r := isK x.d && isK x.a && isK x.b
  chk (x.q == 0) <| match x.f.toNat with
  | 0 => some (.kand (kOf x.d) (kOf x.a) (kOf x.b), r) | 1 => some (.kor (kOf x.d) (kOf x.a) (kOf x.b), r)
  | 2 => some (.kxor (kOf x.d) (kOf x.a) (kOf x.b), r)
  | 3 => chk (x.b == 0) (some (.knot (kOf x.d) (kOf x.a), isK x.d && isK x.a))
  | 4 => chk (x.b == 0) (some (.kpop (gOf x.d) (kOf x.a), isK x.a))
  | 5 => chk (x.b == 0) (some (.kset (kOf x.d) (gOf x.a), isK x.d))
  | 6 => chk (x.b == 0) (some (.kget (gOf x.d) (kOf x.a), isK x.a))
  | _ => none

/-- The matrix ring, 0x30 (R309-R313). -/
def decMat (x : Fields) : Option (Instr × Bool) :=
  let d := gOf x.d; let a := gOf x.a
  chk (x.q == 0) <| if x.tl == 2 then chk (x.b == 0) <|
    match x.f.toNat with
    | 0 => chk (x.d == 0 && field x.imm 2 14 == 0) (okI (.mput (field x.imm 0 2).toFin a))
    | 1 => if h : bitsNat x.imm 0 16 < 7 then chk (x.a == 0) (okI (.mget d ⟨bitsNat x.imm 0 16, h⟩)) else none
    | 2 => okI (.mgang d a (x.imm.setWidth 16))
    | _ => none
  else match x.f.toNat with
    | 3 => chk (x.d == 0) (okI (.mwait a (gOf x.b)))
    | 4 => chk (x.b == 0) (okI (.mstat d a))
    | _ => none

/-- The streamer, 0x31 (R322, R325). -/
def decStr (x : Fields) : Option (Instr × Bool) :=
  chk (x.q == 0 && x.b == 0) <| match x.f.toNat with
  | 0 => chk (x.d == 0) (okI (.cpreq (gOf x.a))) | 1 => okI (.cptest (gOf x.d) (gOf x.a))
  | 2 => okI (.cpwait (gOf x.d) (gOf x.a)) | _ => none

/-- The front unit, 0x32 (R350). -/
def decFront (x : Fields) : Option (Instr × Bool) :=
  let d := gOf x.d; let a := gOf x.a; let b := gOf x.b
  chk (x.q == 0) <| if x.tl == 2 then
    match x.f.toNat with
    | 0 => okI (.lvbind d a b (x.imm.setWidth 16)) | 4 => okI (.lvcmp d a b (x.imm.setWidth 16)) | _ => none
  else match x.f.toNat with
    | 1 => chk (x.b == 0) (okI (.lvunbind d a)) | 2 => chk (x.b == 0) (okI (.lvread d a))
    | 3 => chk (x.d == 0) (okI (.lvcommit a b)) | 5 => chk (x.b == 0) (okI (.lvfreeze d a))
    | 6 => chk (x.b == 0) (okI (.lvthaw d a)) | 7 => chk (x.b == 0) (okI (.lvstat d a)) | _ => none

/-- Windows, 0x33 (R384, R385). -/
def decWin (x : Fields) : Option (Instr × Bool) :=
  chk (x.q == 0 && x.b == 0) <| if x.tl == 2 then
    chk (x.f == 0 && x.d == 0 && x.a == 0 && field x.imm 8 8 == 0) (okI (.rfence (field x.imm 0 8)))
  else match x.f.toNat with
    | 1 => okI (.wstat (gOf x.d) (gOf x.a)) | 2 => okI (.wseq (gOf x.d) (gOf x.a)) | _ => none

/-- The refinement loop controller, 0x34 (R401-R403). -/
def decRlc (x : Fields) : Option (Instr × Bool) :=
  let d := gOf x.d; let a := gOf x.a
  chk (x.q == 0 && x.b == 0) <| match x.f.toNat with
  | 0 => okI (.rlcrun d a) | 1 => okI (.rlcnorm d a) | 2 => okI (.rlcstat d a) | 3 => okI (.rlcstop d a) | _ => none

/-- A vector family through its T32V fields (R100). -/
def decV (x : Fields) (k : Fields → Fmt → Rm → Bool → BitVec 8 → Option (Instr × Bool)) : Option (Instr × Bool) :=
  match vFields x with
  | some (f, rm, sat, aux) => k x f rm sat aux
  | none => none

/-- Steps 4 to 6 of R104 on the fields of a listed opcode. -/
def decodeFields (x : Fields) : Option (Instr × Bool) :=
  match x.op.toNat with
  | 0x00 => decCtl x | 0x01 => decRR x | 0x02 => decRI x | 0x03 => decRL x | 0x04 => decMovi x | 0x05 => decBits x
  | 0x06 => decPtr x | 0x07 => decBr x | 0x08 => decInd x | 0x09 => decLd x | 0x0A => decSt x | 0x0B => decExt x
  | 0x0C => decAt x | 0x0D => decFence x | 0x0E => decCsr x | 0x0F => decSys x | 0x10 => decSend x | 0x11 => decMsg x
  | 0x12 => decChan x | 0x13 => decTag x
  | 0x20 => decV x decVArith | 0x21 => decV x decVFma | 0x22 => decV x decVCvt | 0x23 => decV x decVCmp
  | 0x24 => decV x decVMov | 0x25 => decV x decVRed | 0x26 => decV x decVPerm | 0x27 => decV x decVMem
  | 0x28 => decV x decVGs | 0x29 => decMask x | 0x2A => decV x decVQuant
  | 0x30 => decMat x | 0x31 => decStr x | 0x32 => decFront x | 0x33 => decWin x | 0x34 => decRlc x
  | _ => none

/-- The two decoding faults that a head and its tail alone can raise: ILLEGAL-OP (steps 2 to 5 of R104) and ILLEGAL-REG
(step 6). -/
inductive DecodeError where
  | illegalOp | illegalReg
  deriving DecidableEq, Repr

/-- The instruction of a head and its tail, or the first decoding fault of steps 2 to 6 of R104. -/
def decode (h : Head) (t : Word) : Except DecodeError Instr :=
  match formOf (bitsNat h 10 6) (bitsNat h 8 2) with
  | Option.none => .error .illegalOp
  | some fm =>
    match decodeFields (splitFields fm h t) with
    | Option.none => .error .illegalOp
    | some (i, regs) => if i.wf then (if regs then .ok i else .error .illegalReg) else .error .illegalOp

/-! ### The encoder -/

/-- Fields of a form without a tail. -/
def e0 (q : BitVec 3) : Fields := ⟨0, 0, 0, q, 0, 0, 0, 0⟩
/-- Fields of a T16 form (R96). -/
def e16 (op : BitVec 6) (d : BitVec 5) (q : BitVec 3) (a b : BitVec 5) (f : BitVec 6) : Fields := ⟨op, 1, d, q, a, b, f, 0⟩
/-- Fields of a T32 form (R96). -/
def e32 (op : BitVec 6) (d : BitVec 5) (q : BitVec 3) (a b : BitVec 5) (f : BitVec 6) (i : BitVec 16) : Fields :=
  ⟨op, 2, d, q, a, b, f, i.setWidth 64⟩
/-- Fields of a T64 form (R96). -/
def e64 (op : BitVec 6) (d : BitVec 5) (q : BitVec 3) (a b : BitVec 5) (f : BitVec 6) (i : BitVec 48) : Fields :=
  ⟨op, 3, d, q, a, b, f, i.setWidth 64⟩
/-- Fields of a T32J form (R96). -/
def ej (d : BitVec 5) (q : BitVec 3) (a : BitVec 5) (j : BitVec 27) : Fields := ⟨7, 2, d, q, a, 0, 0, j.setWidth 64⟩
/-- I16 of a T32V form (R96). -/
def vImm (f : Fmt) (rm : Rm) (sat : Bool) (aux : BitVec 8) : BitVec 16 :=
  (f.code ++ rm.code ++ BitVec.ofBool sat ++ aux : BitVec 16)
/-- The mask field Q. -/
def fQ (k : KReg) : BitVec 3 := BitVec.ofFin k
/-- I16 of an atomic (R221). -/
def aImm (col : BitVec 3) (sc : Scope) : BitVec 16 := ((0 : BitVec 10) ++ col ++ sc.code : BitVec 16)
/-- F of an atomic (R221). -/
def aF (o : AOrd) (op : BitVec 3) : BitVec 6 := (o.code ++ op : BitVec 6)
/-- I16 of a send (R229). -/
def sImm (n : BitVec 6) (t : Option (BitVec 3)) : BitVec 16 :=
  ((0 : BitVec 6) ++ n ++ BitVec.ofBool t.isSome ++ t.getD 0 : BitVec 16)
/-- Q of a 64-bit form with the sign given. -/
def q64 (sgn : Bool) : BitVec 3 := IQ.code ⟨sgn, 3⟩
/-- F of a store (R218). -/
def stF (kind col : BitVec 3) : BitVec 6 := (kind ++ col : BitVec 6)
/-- I16 of a bit-field form (R207). -/
def bImm (pos w : BitVec 6) : BitVec 16 := ((0 : BitVec 4) ++ w ++ pos : BitVec 16)

/-- The fields that R101 to R103 and the entries give an instruction; `none` for an event. -/
def encodeFields : Instr → Option Fields
  | .nop => some (e0 0)
  | .done => some (e0 1)
  | .ret => some (e0 2)
  | .bkpt => some (e0 3)
  | .add d q a b => some (e16 1 (fG d) q.code (fG a) (fG b) 0)
  | .sub d q a b => some (e16 1 (fG d) q.code (fG a) (fG b) 1)
  | .mul d q a b => some (e16 1 (fG d) q.code (fG a) (fG b) 2)
  | .mulh d q a b => some (e16 1 (fG d) q.code (fG a) (fG b) 3)
  | .div d q a b => some (e16 1 (fG d) q.code (fG a) (fG b) 4)
  | .rem d q a b => some (e16 1 (fG d) q.code (fG a) (fG b) 5)
  | .and d q a b => some (e16 1 (fG d) q.code (fG a) (fG b) 6)
  | .or d q a b => some (e16 1 (fG d) q.code (fG a) (fG b) 7)
  | .xor d q a b => some (e16 1 (fG d) q.code (fG a) (fG b) 8)
  | .andn d q a b => some (e16 1 (fG d) q.code (fG a) (fG b) 9)
  | .shl d q a b => some (e16 1 (fG d) q.code (fG a) (fG b) 10)
  | .shr d q a b => some (e16 1 (fG d) q.code (fG a) (fG b) 11)
  | .sha d q a b => some (e16 1 (fG d) q.code (fG a) (fG b) 12)
  | .rot d q a b => some (e16 1 (fG d) q.code (fG a) (fG b) 13)
  | .min d q a b => some (e16 1 (fG d) q.code (fG a) (fG b) 14)
  | .max d q a b => some (e16 1 (fG d) q.code (fG a) (fG b) 15)
  | .cmpeq d q a b => some (e16 1 (fG d) q.code (fG a) (fG b) 16)
  | .cmpne d q a b => some (e16 1 (fG d) q.code (fG a) (fG b) 17)
  | .cmplt d q a b => some (e16 1 (fG d) q.code (fG a) (fG b) 18)
  | .cmple d q a b => some (e16 1 (fG d) q.code (fG a) (fG b) 19)
  | .clz d q a => some (e16 1 (fG d) q.code (fG a) 0 20)
  | .ctz d q a => some (e16 1 (fG d) q.code (fG a) 0 21)
  | .popc d q a => some (e16 1 (fG d) q.code (fG a) 0 22)
  | .brev d q a => some (e16 1 (fG d) q.code (fG a) 0 23)
  | .addI16 d q a i => some (e32 2 (fG d) q.code (fG a) 0 0 i)
  | .subI16 d q a i => some (e32 2 (fG d) q.code (fG a) 0 1 i)
  | .mulI16 d q a i => some (e32 2 (fG d) q.code (fG a) 0 2 i)
  | .mulhI16 d q a i => some (e32 2 (fG d) q.code (fG a) 0 3 i)
  | .divI16 d q a i => some (e32 2 (fG d) q.code (fG a) 0 4 i)
  | .remI16 d q a i => some (e32 2 (fG d) q.code (fG a) 0 5 i)
  | .andI16 d q a i => some (e32 2 (fG d) q.code (fG a) 0 6 i)
  | .orI16 d q a i => some (e32 2 (fG d) q.code (fG a) 0 7 i)
  | .xorI16 d q a i => some (e32 2 (fG d) q.code (fG a) 0 8 i)
  | .andnI16 d q a i => some (e32 2 (fG d) q.code (fG a) 0 9 i)
  | .shlI16 d q a i => some (e32 2 (fG d) q.code (fG a) 0 10 i)
  | .shrI16 d q a i => some (e32 2 (fG d) q.code (fG a) 0 11 i)
  | .shaI16 d q a i => some (e32 2 (fG d) q.code (fG a) 0 12 i)
  | .rotI16 d q a i => some (e32 2 (fG d) q.code (fG a) 0 13 i)
  | .minI16 d q a i => some (e32 2 (fG d) q.code (fG a) 0 14 i)
  | .maxI16 d q a i => some (e32 2 (fG d) q.code (fG a) 0 15 i)
  | .cmpeqI16 d q a i => some (e32 2 (fG d) q.code (fG a) 0 16 i)
  | .cmpneI16 d q a i => some (e32 2 (fG d) q.code (fG a) 0 17 i)
  | .cmpltI16 d q a i => some (e32 2 (fG d) q.code (fG a) 0 18 i)
  | .cmpleI16 d q a i => some (e32 2 (fG d) q.code (fG a) 0 19 i)
  | .addI48 d q a i => some (e64 3 (fG d) q.code (fG a) 0 0 i)
  | .andI48 d q a i => some (e64 3 (fG d) q.code (fG a) 0 1 i)
  | .orI48 d q a i => some (e64 3 (fG d) q.code (fG a) 0 2 i)
  | .xorI48 d q a i => some (e64 3 (fG d) q.code (fG a) 0 3 i)
  | .movi16 d i => some ⟨4, 1, fG d, 0, 0, 0, 0, i.setWidth 64⟩
  | .movi32 d i => some ⟨4, 2, fG d, 0, 0, 0, 0, i.setWidth 64⟩
  | .movi64 d i => some ⟨4, 3, fG d, 0, 0, 0, 0, i⟩
  | .ext d a pos w => some (e32 5 (fG d) 0 (fG a) 0 0 (bImm pos w))
  | .ins d a pos w => some (e32 5 (fG d) 0 (fG a) 0 1 (bImm pos w))
  | .sel d a b => some (e32 5 (fG d) 0 (fG a) (fG b) 2 0)
  | .padd d a b => some (e16 6 (fG d) 0 (fG a) (fG b) 0)
  | .paddI16 d a i => some (e32 6 (fG d) 0 (fG a) 0 0 i)
  | .psub d a b => some (e16 6 (fG d) 0 (fG a) (fG b) 1)
  | .viewset n a => some (e16 6 (fV n) 0 (fG a) 0 2)
  | .viewof d a => some (e16 6 (fG d) 0 (fG a) 0 3)
  | .isspc d a => some (e16 6 (fG d) 0 (fG a) 0 4)
  | .castspc d toGeneric sp a => some (e16 6 (fG d) (BitVec.ofBool toGeneric ++ sp.code : BitVec 3) (fG a) 0 5)
  | .hown d a => some (e16 6 (fG d) 0 (fG a) 0 6)
  | .br j => some (ej 0 0 0 j)
  | .bz a j => some (ej 0 1 (fG a) j)
  | .bnz a j => some (ej 0 2 (fG a) j)
  | .bltz a j => some (ej 0 3 (fG a) j)
  | .bgez a j => some (ej 0 4 (fG a) j)
  | .call d j => some (ej (fG d) 5 0 j)
  | .loop a j => some (ej 0 6 (fG a) j)
  | .jmp a => some (e16 8 0 0 (fG a) 0 0)
  | .callr d a => some (e16 8 (fG d) 0 (fG a) 0 1)
  | .ld d q a off => some (e32 9 (fG d) q.code (fG a) 0 0 off)
  | .ldW d q a off => some (e64 9 (fG d) q.code (fG a) 0 0 off)
  | .ldAcq d q a off => some (e32 9 (fG d) q.code (fG a) 0 1 off)
  | .ldAcqW d q a off => some (e64 9 (fG d) q.code (fG a) 0 1 off)
  | .ldSync d sgn a off => some (e32 9 (fG d) (q64 sgn) (fG a) 0 2 off)
  | .ldSyncW d sgn a off => some (e64 9 (fG d) (q64 sgn) (fG a) 0 2 off)
  | .ldSynce d sgn a off => some (e32 9 (fG d) (q64 sgn) (fG a) 0 3 off)
  | .ldSynceW d sgn a off => some (e64 9 (fG d) (q64 sgn) (fG a) 0 3 off)
  | .st q a b col off => some (e32 10 0 q.code (fG a) (fG b) (stF 0 col) off)
  | .stW q a b col off => some (e64 10 0 q.code (fG a) (fG b) (stF 0 col) off)
  | .stRel q a b col off => some (e32 10 0 q.code (fG a) (fG b) (stF 1 col) off)
  | .stRelW q a b col off => some (e64 10 0 q.code (fG a) (fG b) (stF 1 col) off)
  | .stFe sgn a b col off => some (e32 10 0 (q64 sgn) (fG a) (fG b) (stF 2 col) off)
  | .stFeW sgn a b col off => some (e64 10 0 (q64 sgn) (fG a) (fG b) (stF 2 col) off)
  | .ldx d q x a i => some (e32 11 (fG d) q.code (fG a) 0 ((0 : BitVec 2) ++ (BitVec.ofFin x : BitVec 4) : BitVec 6) i)
  | .stx q x a b i => some (e32 11 0 q.code (fG a) (fG b) ((2 : BitVec 2) ++ (BitVec.ofFin x : BitVec 4) : BitVec 6) i)
  | .aadd d q a b o col sc => some (e32 12 (fG d) q.code (fG a) (fG b) (aF o 0) (aImm col sc))
  | .aand d q a b o col sc => some (e32 12 (fG d) q.code (fG a) (fG b) (aF o 1) (aImm col sc))
  | .aor d q a b o col sc => some (e32 12 (fG d) q.code (fG a) (fG b) (aF o 2) (aImm col sc))
  | .axor d q a b o col sc => some (e32 12 (fG d) q.code (fG a) (fG b) (aF o 3) (aImm col sc))
  | .amin d q a b o col sc => some (e32 12 (fG d) q.code (fG a) (fG b) (aF o 4) (aImm col sc))
  | .amax d q a b o col sc => some (e32 12 (fG d) q.code (fG a) (fG b) (aF o 5) (aImm col sc))
  | .aswap d q a b o col sc => some (e32 12 (fG d) q.code (fG a) (fG b) (aF o 6) (aImm col sc))
  | .acas d q a b o col sc => some (e32 12 (fG d) q.code (fG a) (fG b) (aF o 7) (aImm col sc))
  | .fence mask sc => some (e32 13 0 0 0 0 0 ((0 : BitVec 5) ++ sc.code ++ mask : BitVec 16))
  | .csrrd d c => some (e32 14 (fG d) 0 0 0 0 ((0 : BitVec 4) ++ c.num : BitVec 16))
  | .csrwr c a => some (e32 14 0 1 (fG a) 0 0 ((0 : BitVec 4) ++ c.num : BitVec 16))
  | .csrswp d c a => some (e32 14 (fG d) 2 (fG a) 0 0 ((0 : BitVec 4) ++ c.num : BitVec 16))
  | .csrset d c a => some (e32 14 (fG d) 3 (fG a) 0 0 ((0 : BitVec 4) ++ c.num : BitVec 16))
  | .csrclr d c a => some (e32 14 (fG d) 4 (fG a) 0 0 ((0 : BitVec 4) ++ c.num : BitVec 16))
  | .trap a => some (e16 15 0 0 (fG a) 0 0)
  | .trapI16 i => some (e32 15 0 0 0 0 0 i)
  | .time d => some (e16 15 (fG d) 0 0 0 1)
  | .featq d a => some (e16 15 (fG d) 0 (fG a) 0 2)
  | .migok v => some (e16 15 0 ((0 : BitVec 2) ++ BitVec.ofBool v : BitVec 3) 0 0 3)
  | .send d q a b n t => some (e32 16 (fG d) q.code (fG a) (fG b) 0 (sImm n t))
  | .senda d q a b n t => some (e32 16 (fG d) q.code (fG a) (fG b) 1 (sImm n t))
  | .sendp d q a b n t => some (e32 16 (fG d) q.code (fG a) (fG b) 2 (sImm n t))
  | .sendl d q a b n t => some (e32 16 (fG d) q.code (fG a) (fG b) 3 (sImm n t))
  | .reply d q b n t => some (e32 16 (fG d) q.code 0 (fG b) 4 (sImm n t))
  | .msgid d => some (e16 17 (fG d) 0 0 0 0)
  | .msgpay d a => some (e16 17 (fG d) 0 (fG a) 0 1)
  | .requeue => some (e16 17 0 0 0 0 2)
  | .chbind c a role => some (e32 18 (fV c) 0 (fG a) 0 0 ((0 : BitVec 14) ++ role : BitVec 16))
  | .chwaitf d c => some (e16 18 (fG d) 0 (fV c) 0 1)
  | .chwaite d c => some (e16 18 (fG d) 0 (fV c) 0 2)
  | .chadvh c n => some (e32 18 0 0 (fV c) 0 3 n)
  | .chadvt c n => some (e32 18 0 0 (fV c) 0 4 n)
  | .chstat d c => some (e16 18 (fG d) 0 (fV c) 0 5)
  | .chptr d c b off => some (e32 18 (fG d) 0 (fV c) (fG b) 6 off)
  | .tlook d a => some (e16 19 (fG d) 0 (fG a) 0 0)
  | .tset d a b => some (e16 19 (fG d) 0 (fG a) (fG b) 1)
  | .tclr d a => some (e16 19 (fG d) 0 (fG a) 0 2)
  | .tinv d a b => some (e16 19 (fG d) 0 (fG a) (fG b) 3)
  | .vadd d k a b f rm sat => some (e32 0x20 (fV d) (fQ k) (fV a) (fV b) 0 (vImm f rm sat 0))
  | .vsub d k a b f rm sat => some (e32 0x20 (fV d) (fQ k) (fV a) (fV b) 1 (vImm f rm sat 0))
  | .vmul d k a b f rm sat => some (e32 0x20 (fV d) (fQ k) (fV a) (fV b) 2 (vImm f rm sat 0))
  | .vdiv d k a b f rm sat => some (e32 0x20 (fV d) (fQ k) (fV a) (fV b) 3 (vImm f rm sat 0))
  | .vmin d k a b f => some (e32 0x20 (fV d) (fQ k) (fV a) (fV b) 4 (vImm f .rne false 0))
  | .vmax d k a b f => some (e32 0x20 (fV d) (fQ k) (fV a) (fV b) 5 (vImm f .rne false 0))
  | .vabs d k a f sat => some (e32 0x20 (fV d) (fQ k) (fV a) 0 6 (vImm f .rne sat 0))
  | .vneg d k a f sat => some (e32 0x20 (fV d) (fQ k) (fV a) 0 7 (vImm f .rne sat 0))
  | .vsqrt d k a f rm => some (e32 0x20 (fV d) (fQ k) (fV a) 0 8 (vImm f rm false 0))
  | .vand d k a b f => some (e32 0x20 (fV d) (fQ k) (fV a) (fV b) 9 (vImm f .rne false 0))
  | .vor d k a b f => some (e32 0x20 (fV d) (fQ k) (fV a) (fV b) 10 (vImm f .rne false 0))
  | .vxor d k a b f => some (e32 0x20 (fV d) (fQ k) (fV a) (fV b) 11 (vImm f .rne false 0))
  | .vshl d k a b f => some (e32 0x20 (fV d) (fQ k) (fV a) (fV b) 12 (vImm f .rne false 0))
  | .vshr d k a b f => some (e32 0x20 (fV d) (fQ k) (fV a) (fV b) 13 (vImm f .rne false 0))
  | .vsha d k a b f => some (e32 0x20 (fV d) (fQ k) (fV a) (fV b) 14 (vImm f .rne false 0))
  | .vfma d k a b f rm => some (e32 0x21 (fV d) (fQ k) (fV a) (fV b) 0 (vImm f rm false 0))
  | .vfms d k a b f rm => some (e32 0x21 (fV d) (fQ k) (fV a) (fV b) 1 (vImm f rm false 0))
  | .vfnma d k a b f rm => some (e32 0x21 (fV d) (fQ k) (fV a) (fV b) 2 (vImm f rm false 0))
  | .vcvt d k a f t rm sat => some (e32 0x22 (fV d) (fQ k) (fV a) 0 0 (vImm f rm sat (t.code ++ (0 : BitVec 4) : BitVec 8)))
  | .vcmpEq d k a b f => some (e32 0x23 (fK d) (fQ k) (fV a) (fV b) 0 (vImm f .rne false 0))
  | .vcmpNe d k a b f => some (e32 0x23 (fK d) (fQ k) (fV a) (fV b) 1 (vImm f .rne false 0))
  | .vcmpLt d k a b f => some (e32 0x23 (fK d) (fQ k) (fV a) (fV b) 2 (vImm f .rne false 0))
  | .vcmpLe d k a b f => some (e32 0x23 (fK d) (fQ k) (fV a) (fV b) 3 (vImm f .rne false 0))
  | .vcmpUnord d k a b f => some (e32 0x23 (fK d) (fQ k) (fV a) (fV b) 4 (vImm f .rne false 0))
  | .vsel d k a b f => some (e32 0x24 (fV d) (fQ k) (fV a) (fV b) 0 (vImm f .rne false 0))
  | .vmov d k a f => some (e32 0x24 (fV d) (fQ k) (fV a) 0 1 (vImm f .rne false 0))
  | .vbcast d k a f => some (e32 0x24 (fV d) (fQ k) (fG a) 0 2 (vImm f .rne false 0))
  | .vext d a b f => some (e32 0x24 (fG d) 0 (fV a) (fG b) 3 (vImm f .rne false 0))
  | .viota d k a f => some (e32 0x24 (fV d) (fQ k) (fG a) 0 4 (vImm f .rne false 0))
  | .vredSum d k a f rm sat => some (e32 0x25 (fG d) (fQ k) (fV a) 0 0 (vImm f rm sat 0))
  | .vredMin d k a f rm sat => some (e32 0x25 (fG d) (fQ k) (fV a) 0 0 (vImm f rm sat 1))
  | .vredMax d k a f rm sat => some (e32 0x25 (fG d) (fQ k) (fV a) 0 0 (vImm f rm sat 2))
  | .vdot d k a b f rm sat => some (e32 0x25 (fG d) (fQ k) (fV a) (fV b) 1 (vImm f rm sat 0))
  | .vshuf d k a b f => some (e32 0x26 (fV d) (fQ k) (fV a) (fV b) 0 (vImm f .rne false 0))
  | .vrot d k a b f => some (e32 0x26 (fV d) (fQ k) (fV a) (fG b) 1 (vImm f .rne false 0))
  | .vpack d k a b f sat => some (e32 0x26 (fV d) (fQ k) (fV a) (fV b) 2 (vImm f .rne sat 0))
  | .vunpack d k a b f => some (e32 0x26 (fV d) (fQ k) (fV a) (fG b) 3 (vImm f .rne false 0))
  | .vld d k a f rm sat => some (e32 0x27 (fV d) (fQ k) (fG a) 0 0 (vImm f rm sat 0))
  | .vst d k a f rm sat => some (e32 0x27 (fV d) (fQ k) (fG a) 0 1 (vImm f rm sat 0))
  | .vlds d k a b f rm sat => some (e32 0x27 (fV d) (fQ k) (fG a) (fG b) 2 (vImm f rm sat 0))
  | .vsts d k a b f rm sat => some (e32 0x27 (fV d) (fQ k) (fG a) (fG b) 3 (vImm f rm sat 0))
  | .vgather d k a b f rm sat => some (e32 0x28 (fV d) (fQ k) (fG a) (fV b) 0 (vImm f rm sat 0))
  | .vscatter d k a b f rm sat => some (e32 0x28 (fV d) (fQ k) (fG a) (fV b) 1 (vImm f rm sat 0))
  | .kand d a b => some (e16 0x29 (fK d) 0 (fK a) (fK b) 0)
  | .kor d a b => some (e16 0x29 (fK d) 0 (fK a) (fK b) 1)
  | .kxor d a b => some (e16 0x29 (fK d) 0 (fK a) (fK b) 2)
  | .knot d a => some (e16 0x29 (fK d) 0 (fK a) 0 3)
  | .kpop d a => some (e16 0x29 (fG d) 0 (fK a) 0 4)
  | .kset d a => some (e16 0x29 (fK d) 0 (fG a) 0 5)
  | .kget d a => some (e16 0x29 (fG d) 0 (fK a) 0 6)
  | .vscale d k a f t h => some (e32 0x2A (fG d) (fQ k) (fV a) 0 0 (vImm f .rne false (h ++ t.code : BitVec 8)))
  | .vquant d k a b f rm t => some (e32 0x2A (fV d) (fQ k) (fV a) (fG b) 1 (vImm f rm false ((0 : BitVec 4) ++ t.code : BitVec 8)))
  | .mput i a => some (e32 0x30 0 0 (fG a) 0 0 (BitVec.ofNat 16 i.val))
  | .mget d i => some (e32 0x30 (fG d) 0 0 0 1 (BitVec.ofNat 16 i.val))
  | .mgang d a tag => some (e32 0x30 (fG d) 0 (fG a) 0 2 tag)
  | .mwait a b => some (e16 0x30 0 0 (fG a) (fG b) 3)
  | .mstat d a => some (e16 0x30 (fG d) 0 (fG a) 0 4)
  | .cpreq a => some (e16 0x31 0 0 (fG a) 0 0)
  | .cptest d a => some (e16 0x31 (fG d) 0 (fG a) 0 1)
  | .cpwait d a => some (e16 0x31 (fG d) 0 (fG a) 0 2)
  | .lvbind d a b front => some (e32 0x32 (fG d) 0 (fG a) (fG b) 0 front)
  | .lvunbind d a => some (e16 0x32 (fG d) 0 (fG a) 0 1)
  | .lvread d a => some (e16 0x32 (fG d) 0 (fG a) 0 2)
  | .lvcommit a b => some (e16 0x32 0 0 (fG a) (fG b) 3)
  | .lvcmp d a b off => some (e32 0x32 (fG d) 0 (fG a) (fG b) 4 off)
  | .lvfreeze d a => some (e16 0x32 (fG d) 0 (fG a) 0 5)
  | .lvthaw d a => some (e16 0x32 (fG d) 0 (fG a) 0 6)
  | .lvstat d a => some (e16 0x32 (fG d) 0 (fG a) 0 7)
  | .rfence mask => some (e32 0x33 0 0 0 0 0 ((0 : BitVec 8) ++ mask : BitVec 16))
  | .wstat d a => some (e16 0x33 (fG d) 0 (fG a) 0 1)
  | .wseq d a => some (e16 0x33 (fG d) 0 (fG a) 0 2)
  | .rlcrun d a => some (e16 0x34 (fG d) 0 (fG a) 0 0)
  | .rlcnorm d a => some (e16 0x34 (fG d) 0 (fG a) 0 1)
  | .rlcstat d a => some (e16 0x34 (fG d) 0 (fG a) 0 2)
  | .rlcstop d a => some (e16 0x34 (fG d) 0 (fG a) 0 3)
  | .moduleReset _ | .recoveryImageWrite _ | .partitionConfigure _ _ | .modeSelect _ _ _ | .leaseRenew _ 
  | .leaseLapse _ _ | .voteRequest _ | .leaderDesignate _ | .queueResume _ _ | .packetChoose _ | .nopPacket _ 
  | .launch _ | .endPacket _ | .inval _ | .disposeRelease _ | .disposeDiscard _ | .disposeEnd _ | .trapDisposition _ 
  | .trheadWrite _ _ | .pageFaultService _ | .prgResponse _ _ | .priTimeout _ | .spdmRequest _ | .keyExchangeStart _ _ 
  | .keyExchangeComplete _ _ _ | .hostKeyWrite _ _ _ _ _ | .preemptRequest _ | .preemptComplete _ 
  | .preemptwaitExpiry _ | .preemptResume _ | .deadlockDetect _ | .requestReassembled _ | .slotFreedAdmit _ 
  | .activationStart _ _ | .queueAging _ | .budgetExpiry _ _ | .parkResume _ _ | .migrationShip _ _ 
  | .wayfarerArrive _ _ | .logicalQuantumEnd _ | .quantumEnd _ | .turnSwitch _ | .debugHold _ _ | .debugWrite _ _ _ _ 
  | .debugRelease _ _ | .breakpointSet _ _ | .breakpointMatch _ _ | .bkptRelease _ _ | .flitRoute _ _ | .poisonSink _ 
  | .throttle _ _ | .responseReceive _ | .nackReceive _ | .stayNoticeReceive _ | .retxTimeout _ _ _ 
  | .busyBackoff _ _ _ | .remoteRead _ | .remoteWrite _ | .remoteAtomic _ | .synceConfirm _ | .synceReturn _ 
  | .waitCancel _ | .lodgeService _ | .stayNoticeSend _ | .engineWrite _ | .xferReceive _ | .matrixFlip _ 
  | .copyAccept _ | .copyComplete _ _ | .copyFault _ _ | .transferBoardUpdate _ | .blockDispatch _ | .levelNotice _ 
  | .levelPublish _ _ | .windowPacketSend _ _ | .storePacketReceive _ | .windowAckReceive _ | .windowMissReceive _ 
  | .loopbackApply _ _ | .linkFlitReceive _ _ | .linkNak _ _ | .linkAck _ _ | .linkDown _ | .linkRetrained _ 
  | .linkDownTimeout _ | .windowEntryWrite _ _ _ _ | .receiveWindowWrite _ _ _ | .pathReopen _ _ | .sample _ 
  | .samplePeriodWrite _ _ | .ringHeadWrite _ _ _ | .dropWrite _ _ _ | .counterWrite _ _ _ | .timeWrap _ 
  | .tokenReallot | .tokenExhaust _ | .powerAllotWrite _ | .thermalSample _ _ | .registerWrite _ _ 
  | .decodingFault _ _ | .flashRewrite _ _ => Option.none

/-- The head, the tail (zero-extended) and the tail length in bytes of an instruction (R95, R96); `none` for an event. -/
def encode (i : Instr) : Option (Head × Word × Nat) :=
  match encodeFields i with
  | Option.none => Option.none
  | some x =>
    match formOf x.op.toNat x.tl.toNat with
    | Option.none => Option.none
    | some fm => some (joinHead x, joinTail fm x, tailLen x.tl.toNat)

/-! ### One instruction as a line, and the table's numbering -/

/-- A legal line that holds one instruction at head index 1 (R86, R87). -/
def oneLine (h : Head) (t : Word) : List Byte :=
  let n := tailLen (bitsNat h 8 2)
  [1, 0] ++ leBytes 2 h.toNat ++ List.replicate (60 - n) 0 ++ leBytes n t.toNat

/-- Decode of head `i` of a line, where the line is legal and holds that head (R88, R91). -/
def decodeLine (l : List Byte) (i : Nat) : Option Instr :=
  if lineLegal l && decide (1 ≤ i) && decide (i ≤ lineNH l) then (decode (lineHead l i) (lineTail l i)).toOption else none

/-- The head of a table word: the table numbers a row of `nbits` bits with the head above its tail, so that a 16-bit
row is the head alone and a 32-bit row has the head in bits 31..16 and the tail in bits 15..0 (DEDUCED, log 6). -/
def tableHead (nbits w : Nat) : Head := if nbits ≤ 16 then BitVec.ofNat 16 w else BitVec.ofNat 16 (w >>> (nbits - 16))

/-- The tail of a table word (log 6). -/
def tableTail (nbits w : Nat) : Word := if nbits ≤ 16 then 0 else BitVec.ofNat 64 (w % 2 ^ (nbits - 16))

/-- The instruction that the decoder reads from a word numbered as spec/opcode_table.json numbers it. -/
def decodeTableWord (nbits w : Nat) : Option Instr :=
  decodeLine (oneLine (tableHead nbits w) (tableTail nbits w)) 1

end Sys2Proof
end

