-- ==== Sys2Proof/Machine/State.lean ====
section
/-!
DEFINITION. The state of the machine as plain data, the outcomes that end a run, and the state right after module
reset. Sparse tables are association lists keyed by number; a number that is not listed holds the reset value.
-/

namespace Sys2Proof.Machine

/-- A sparse table. -/
abbrev AMap (α : Type) := List (Nat × α)

/-! ### Memory (R129, R130, R132, R146, R150) -/

/-- All memory of the package. `cells` is the canonical list of the bytes that differ from 0; the keys are physical
addresses below 2^52, and above them the local memories (log 3). `full` lists the words whose full-empty bit is full,
`poison` the poisoned words, `pending` the words that a SYNCE has taken and not confirmed (R261), `corr` the words that hold a
correctable error (R150, log 40). -/
structure Memory where
  cells   : List Host.Cell
  full    : List Nat
  poison  : List Nat
  pending : List Nat
  corr    : List Nat
  deriving DecidableEq, Repr

/-! ### Messages (R34, R35, R42, R329, R340, R395) -/

/-- The envelope of R35. -/
structure Env where
  src  : Nat
  sctx : Nat
  qsel : Nat
  tag  : Nat
  gen  : BitVec 16
  plen : Nat
  kind : Nat
  seq  : BitVec 16
  deriving DecidableEq, Repr

/-- What an engine's message stands for beside its words. -/
inductive MsgInfo where
  | plain
  | arrive
  | copyDone (xferid : Nat)
  | dispatch (block : Nat)
  | phase (cluster serial : Nat)
  | rlcExit (code : Nat) (trap : Bool)
  deriving DecidableEq, Repr

/-- A message: envelope, words 0 to 4 and payload words (R34). A refusal's payload is words 0-4 and payload of the
refused message. -/
structure Msg where
  env   : Env
  words : List Word
  pay   : List Word
  info  : MsgInfo
  deriving DecidableEq, Repr

/-- A message in an inbox slot (R38): its place in a queue, when it arrived (R40), since when its wait of R41 counts,
whether it is held (R46), and for a HELD message the interface and number that await its final response (R256). -/
structure QMsg where
  msg     : Msg
  slot    : Nat
  arrival : Nat
  since   : Nat
  held    : Bool
  origin  : Option (Nat × Nat)
  deriving DecidableEq, Repr

/-- A message that waits at the interface for a slot (R36), with the interface and number that await its response, whether a
launch injected it (R413), and when it came to the interface (R40). -/
structure AtIf where
  msg     : Msg
  origin  : Option (Nat × Nat)
  launch  : Bool
  arrival : Nat
  deriving DecidableEq, Repr

/-- What a sender's interface keeps beside a message to build its refusal (R42): the sending context, its REFUSE when the
message left, and the task entry and generation it runs under. -/
structure Sender where
  ctx    : Nat
  refuse : Word
  tag    : Nat
  gen    : BitVec 16
  deriving DecidableEq, Repr

/-! ### Contexts (R32, R33, R182) -/

/-- The state of a context (R32). -/
inductive CtxSt where
  | free | running | parked
  deriving DecidableEq, Repr

/-- What a parked context waits for (R47), with the awaited object of R424; `shipped` is a context whose activation is on its way to another core
(R53, R429). -/
inductive Await where
  | none
  | channelEmpty (desc : Word) | channelFull (desc : Word) (cap : Nat)
  | syncEmpty (p : Word)
  | xfer (id : Word)
  | clasp (p : Word)
  | phase (p : Word) (want : BitVec 32)
  | rfence
  | pageFault (va : Nat) (write : Bool)
  | lodge
  | migrate (home : Nat)
  | shipped
  | quantum
  | bkpt (instr : Bool)
  deriving DecidableEq, Repr

/-- A channel handle (R236). -/
structure Chan where
  valid   : Bool
  role    : BitVec 2
  desc    : Word
  base    : Word
  szlog   : BitVec 4
  slotlog : BitVec 4
  deriving DecidableEq, Repr

/-- The trap CSRs (R185). -/
structure TrapCsrs where
  cause : Word
  tval  : Word
  tip   : Word
  tmsg  : Word
  telem : Word
  ttile : Word
  tfmt  : Word
  deriving DecidableEq, Repr

/-- One TLB entry (R138-R140, R370): the base and size of the page in the virtual space, the leaf and the address of its
table word, and for a transmit page what the walker read of its window entry. -/
structure TlbE where
  base    : Nat
  size    : Nat
  slot    : Nat
  pte     : Word
  winOk   : Bool
  winSize : Nat
  deriving DecidableEq, Repr

/-- The activation of a context (R31): its message, the queue it left, the core and context of its slot, whether it is
a wayfarer (R53), whether it has retired an LVCOMMIT of its block (R355) and an RLCNORM (R402). -/
structure Act where
  m         : QMsg
  queue     : Nat
  core      : Nat
  ctx       : Nat
  wayfarer  : Bool
  committed : Bool
  reported  : Bool
  deriving DecidableEq, Repr

/-- What a read named at its home: the home, SIGNED, the address, the size and the virtual address (R259). -/
structure Taken where
  home : Nat
  sgn  : Bool
  pa   : Nat
  size : Nat
  va   : Word
  deriving DecidableEq, Repr

/-- An answer to a remote access of the instruction in hand: its value, or the cause that the home returned; for a read what it read, and
whether it has taken the word. -/
structure RAns where
  val   : Nat
  fault : Option Nat
  orig  : Option Taken
  taken : Bool
  deriving DecidableEq, Repr

/-- The instruction-cache fill of a context (R94): none outstanding, one requested of a home, or one that failed with a cause. -/
inductive Fill where
  | none | pending | failed (cause : Nat)
  deriving DecidableEq, Repr

/-- The instruction in hand: head, tail, NH of its line, and the IP of the instruction before it (R92, R105, R109). -/
structure Latch where
  head : Head
  tail : Word
  nh   : Nat
  prev : Word
  deriving DecidableEq, Repr

/-- A message of the send buffer (R44) with its target core. -/
structure OutMsg where
  dest : Nat
  msg  : Msg
  deriving DecidableEq, Repr

/-- One hardware context. `serial` numbers the activations that it has run (R386); `aborted` holds the numbers of those that aborted with window
stores outstanding, whose drops set no record (R375, R386). -/
structure Ctx where
  st        : CtxSt
  await     : Await
  act       : Option Act
  ip        : Word
  g         : Vector Word 32
  v         : Vector VWord 16
  k         : Vector (BitVec 32) 8
  c         : Vector Chan 16
  view      : Vector Word 16
  trap      : TrapCsrs
  vstart    : BitVec 7
  fcsr      : BitVec 9
  budget    : Word
  colour    : BitVec 3
  migok     : Bool
  migthresh : BitVec 16
  refuse    : Word
  xferid    : BitVec 16
  tasksel   : BitVec 3
  extsel    : BitVec 4
  seq       : BitVec 16
  sendBuf   : List OutMsg
  remote    : Vector Nat 8
  wout      : Vector Nat 8
  drops     : Vector (Option Word) 8
  aborted   : List Nat
  failed    : List (Nat × Nat)
  stall     : Nat
  issued    : Bool
  hold      : Bool
  step1     : Bool
  nobp   : Bool
  tlb       : List TlbE
  rbuf      : List RAns
  rcur      : Nat
  rpend     : Bool
  fill      : Fill
  elem      : List Nat
  latch     : Latch
  serial    : Nat
  deriving DecidableEq, Repr

/-- A wayfarer under way to a context (R53): what migration ships, with the activation that names the origin's core,
context and slot, and the core and context that ship it, which stays parked till it arrives (R47). -/
structure Wayfarer where
  ctx       : Nat
  g         : Vector Word 32
  k         : Vector (BitVec 32) 8
  ip        : Word
  budget    : Word
  colour    : BitVec 3
  fcsr      : BitVec 9
  migok     : Bool
  migthresh : BitVec 16
  refuse    : Word
  act       : Option Act
  prev      : Word
  hopCore   : Nat
  hopCtx    : Nat
  deriving DecidableEq, Repr

/-! ### Cores (R182, R189, R190) -/

/-- State of a task entry (R189). -/
inductive TaskSt where
  | invalid | binding | valid
  deriving DecidableEq, Repr

/-- A declared extent (R143) with the physical base that the front end recorded (R220). `repl` is 0 for ordinary pages, 1 for loose replicated
pages and 2 where one of them is atomic (R142). -/
structure Ext where
  base : Word
  len  : Nat
  wr   : Bool
  pa   : Nat
  repl : Nat
  deriving DecidableEq, Repr

/-- A task-table entry (R125, R189). -/
structure Task where
  st      : TaskSt
  base    : Nat
  lim     : Nat
  gen     : BitVec 16
  cline   : Bool
  featreq : Word
  budget  : Word
  views   : Vector Word 16
  exts    : List Ext
  keepLo  : Nat
  keepHi  : Nat
  digest  : BitVec 512
  deriving DecidableEq, Repr

/-- The kind of a store (R218). -/
inductive StKind where
  | plain | rel | fe
  deriving DecidableEq, Repr

/-- A store that has issued and is not yet acknowledged (R161, R176): its number among the core's pending stores, its context and
activation, colour, kind, address and bytes, whether it is on its way to its home, whether the memory that its core reads holds
it (R155), the other contexts that have read it (R157), the sign bit of its instruction (R259), the serial of its activation in its context
(R224), and what its core had retired in the quantum when it issued (log 58). -/
structure LaneE where
  id     : Nat
  ctx    : Nat
  msgid  : Nat
  tag    : Nat
  colour : BitVec 3
  kind   : StKind
  pa     : Nat
  va     : Word
  size   : Nat
  val    : Nat
  repl   : Nat
  sent   : Bool
  landed : Bool
  seen   : List Nat
  sgn    : Bool
  serial : Nat
  born   : Nat
  deriving DecidableEq, Repr

/-- States of a transfer-board entry (R325). -/
inductive XferSt where
  | issued | accepted | lodged | complete | faulted
  deriving DecidableEq, Repr

/-- A transfer-board entry (R321). `msgid` names the activation whose LVCOMMIT waits for the copy (R166); `waiters` lists the
contexts and activations of the CPWAITs that the final state resumes (R321, R331); `born` is TIME at its CPREQ, which gives its completion its
place in the issue order of R58. -/
structure BoardE where
  tag    : Nat
  xferid : Nat
  doneip : Bool
  st     : XferSt
  bytes  : Nat
  msgid  : Nat
  waiters : List (Nat × Nat)
  born   : Nat
  deriving DecidableEq, Repr

/-- An instruction breakpoint (R197). -/
structure Bp where
  on  : Bool
  ip  : Word
  tag : BitVec 3
  deriving DecidableEq, Repr

/-- A channel advance deferred to the quantum's end (R453), with its activation's serial and what a record of its failure names (R195). -/
structure Adv where
  ctx    : Nat
  serial : Nat
  msgid  : Nat
  tag    : Nat
  colour : BitVec 3
  pa    : Nat
  va    : Word
  n     : Nat
  deriving DecidableEq, Repr

/-- A write of a core in the current quantum of deterministic mode (R172, R173; log 58): the core (4,096 for an engine), what it had retired then, the
bytes before and after, and whether it made its word full. -/
structure QWrite where
  core : Nat
  born : Nat
  key  : Nat
  size : Nat
  old  : Nat
  new  : Nat
  fe   : Bool
  deriving DecidableEq, Repr

/-- A line in the instruction cache: its virtual address, its bytes, and the error that its SRAM ECC finds in it (R149): a correctable one, or an
uncorrectable one. -/
structure ILine where
  la   : Nat
  line : List Byte
  corr : Bool
  bad  : Bool
  deriving DecidableEq, Repr

/-- One logical core, keyed by its number in R14. `samples` holds those taken and not yet written (R430); `synced` says that an atomic or a
FENCE of the core has been performed in the quantum (log 58). -/
structure CoreSt where
  ctxs      : Vector Ctx 4
  tasks     : Vector Task 8
  tags      : AMap Word
  queues    : Vector (List QMsg) 5
  unbound   : List QMsg
  waiting   : List AtIf
  slotsHeld : List Nat
  qlim      : Vector Nat 5
  guest     : Bool
  featmask  : Word
  stage     : BitVec 8
  sampcfg   : BitVec 32
  quant     : BitVec 32
  lanes     : List LaneE
  advs      : List Adv
  icache    : List ILine
  board     : List BoardE
  shadow    : Vector Word 7
  bps       : Vector Bp 4
  rot       : Nat
  sampRot   : Nat
  sampCount : Nat
  retired   : Nat
  qdone     : Bool
  issued    : Bool
  arrivals  : List Wayfarer
  samples   : List (List Word)
  synced    : Bool
  deriving DecidableEq, Repr

/-! ### The fabric (R246-R258) and the homes (R260-R263) -/

/-- MODE of a remote operation (R259). -/
inductive RMode where
  | plain | sync | synce | fe | cancel | confirm | ret
  deriving DecidableEq, Repr

/-- How an engine's write lands: whether its words become full (R146), whether they are poisoned (R326), and the replication of
its page (R142: 0 none, 1 loose, 2 atomic). -/
structure WrHow where
  fe   : Bool
  bad  : Bool
  repl : Nat
  deriving DecidableEq, Repr

/-- A window store on its way or in the engine (R373): its source with the serial of the activation in its context (R386), colour, pointer,
sequence, window offset and bytes. -/
structure WStore where
  core   : Nat
  ctx    : Nat
  serial : Nat
  colour : Nat
  ptr    : Word
  seq    : BitVec 32
  off    : Nat
  bytes  : List Byte
  deriving DecidableEq, Repr

/-- A level notice under way (R333, R347): the block that it tells, the block whose level it gives with that block's binding, and the level. -/
structure Notice where
  dst   : Nat
  frm   : Nat
  bind  : Nat
  level : BitVec 32
  deriving DecidableEq, Repr

/-- The body of a request (R251, R259): a message, an engine request (R322), a remote read, write or atomic, an engine
write into a core's memory (R251), a window store (R373), or a transfer between engines, which is data, a phase of a replica write (R142) or a
level notice (R347). A remote read of a streamer names the channel in place of the context. `repl` of
a write or atomic is 0 for an ordinary page, 1 for a loose and 2 for an atomic replicated page. -/
inductive ReqBody where
  | msg (m : Msg)
  | copy (core ctx tag : Nat) (gen : BitVec 16) (rcd : List Word) (sv dv : Word)
  | rld (mode : RMode) (sgn : Bool) (ctx pa size : Nat) (va : Word)
  | rst (fe : Bool) (repl ctx pa size val : Nat) (colour : Nat) (va : Word) (lane : Nat) (sgn : Bool)
  | rat (op : Nat) (sgn : Bool) (repl ctx pa size opnd cmp : Nat) (va : Word)
  | repl (job phase pa size val : Nat) (fe bad : Bool)
  | ewr (key : Nat) (bytes : List Byte) (how : WrHow) (str ch : Nat)
  | xfer (pa : Nat) (bytes : List Byte) (how : WrHow) (str ch : Nat)
  | wst (xd entry : Nat) (st : WStore)
  | notice (part : Nat) (n : Notice)
  deriving DecidableEq, Repr

/-- STATUS of a response word (R256). -/
inductive RspSt where
  | done | busy | refused | held | fault
  deriving DecidableEq, Repr

/-- A response (R256): STATUS, CAUSE, the data of an atomic or of a CANCEL, the 64-byte block of a read, and whether a BUSY answers a
payload that failed its check, whose back-off has k = 0 (R258). -/
structure Rsp where
  st    : RspSt
  cause : Nat
  val   : Nat
  blk   : List Byte
  k0    : Bool
  deriving DecidableEq, Repr

/-- What a flit carries beside its header: one flit of a request, a response, a stay notice or a NACK. -/
inductive FlitBody where
  | req (body : ReqBody) | rsp (r : Rsp) | stay (reason : Nat) | nack
  deriving DecidableEq, Repr

/-- A flit (R249): its header, its 64 payload bytes, their CRC-16 (R250), and what the flit stands for (log 20). -/
structure Flit where
  hdr  : Word
  pay  : List Byte
  crc  : Nat
  body : FlitBody
  deriving DecidableEq, Repr

/-- Who learns the answer of a request: the one that its body names, an instruction-cache fill, or nobody any more (R267). -/
inductive OutUse where
  | reply | fill | orphan
  deriving DecidableEq, Repr

/-- A request that an endpoint has sent and keeps (R257): its destination, number, kind and body, its sender, who learns its answer, the
cycle at which its timer started, the BUSY responses so far and the cycle at which a back-off ends, and its retransmissions. -/
structure OutReq where
  dest    : Nat
  num     : Nat
  kind    : Nat
  body    : ReqBody
  snd     : Sender
  use     : OutUse
  timer   : Nat
  busy    : Nat
  backoff : Option Nat
  resends : Nat
  deriving DecidableEq, Repr

/-- A request that waits for a free number (R254). -/
structure Backlog where
  dest   : Nat
  kind   : Nat
  body   : ReqBody
  snd    : Sender
  use    : OutUse
  deriving DecidableEq, Repr

/-- A request whose flits are being collected (R255). -/
structure Asm where
  src  : Nat
  num  : Nat
  mlen : Nat
  got  : List Nat
  body : ReqBody
  kind : Nat
  deriving DecidableEq, Repr

/-- A reassembled request, with the cycle in which it was complete (R159). -/
structure InReq where
  src   : Nat
  num   : Nat
  kind  : Nat
  body  : ReqBody
  since : Nat
  deriving DecidableEq, Repr

/-- A response, stay notice or NACK in a reassembly buffer of the response plane (R255): its source, its SEQ message number, MLEN and
the flits that have come. -/
structure InRsp where
  src  : Nat
  num  : Nat
  mlen : Nat
  got  : List Nat
  body : FlitBody
  deriving DecidableEq, Repr

/-- A kept final response (R255). -/
structure Kept where
  src : Nat
  num : Nat
  rsp : Rsp
  deriving DecidableEq, Repr

/-- A network interface: core n is endpoint n, engine e is endpoint 4096 + e. `poison` holds the headers of POISON flits that a die
controller has received (R258). -/
structure Endp where
  out     : List OutReq
  backlog : List Backlog
  nextNum : AMap Nat
  expect  : AMap Nat
  asm     : List Asm
  ready   : List InReq
  rsps    : List InRsp
  kept    : List Kept
  poison  : List Word
  inj0    : List Flit
  inj1    : List Flit
  wait0   : Nat
  wait1   : Nat
  deriving DecidableEq, Repr

/-- A cluster router: the flits that arrive on its torus inputs in this cycle on each plane, those that arrive in the next, whether it
has placed this cycle's flits on a plane (R246), and the interface whose flit makes it assert throttle on each plane (R248). -/
structure Router where
  in0   : List Flit
  in1   : List Flit
  nx0   : List Flit
  nx1   : List Flit
  done0 : Bool
  done1 : Bool
  thr0  : Option Nat
  thr1  : Option Nat
  deriving DecidableEq, Repr

/-- A request in a wait list or a lodge, with the endpoint that sent it (R261, R262), when it came there and when its requester was
last told so (R263). -/
structure Lodged where
  src   : Nat
  num   : Nat
  body  : ReqBody
  since : Nat
  told  : Nat
  deriving DecidableEq, Repr

/-- A write to a replicated page in progress at the primary (R141, R142): the requester's answer that waits for it, the
bytes, whether propagation is atomic, its phase (0 mark, 1 write, 2 clear), the replicas that have not answered, the requester's lane
entry, and whether the bytes are poisoned (R150). -/
structure ReplJob where
  id     : Nat
  src    : Nat
  num    : Nat
  old    : Nat
  pa     : Nat
  size   : Nat
  val    : Nat
  atomic : Bool
  phase  : Nat
  left   : Nat
  fe     : Bool
  lane   : Nat
  bad    : Bool
  deriving DecidableEq, Repr

/-- A home (R260): its wait list and its lodge, the writes to replicated pages in
progress and the blocks that are marked (R142). -/
structure Home where
  wait  : List Lodged
  lodge : List Lodged
  jobs  : List ReplJob
  marks : List Nat
  deriving DecidableEq, Repr

/-! ### Engines -/

/-- A member's part of a gang operation: its snapshot of the shadow set, tag, barrier pointer, core and context. -/
structure Member where
  core    : Nat
  ctx     : Nat
  words   : List Word
  tag     : BitVec 16
  barrier : Word
  deriving DecidableEq, Repr

/-- A gang operation whose clasp has closed (R295, R305), with the cycle in which it did. -/
structure GOp where
  members : List Member
  target  : Nat
  quantum : Nat
  since   : Nat
  deriving DecidableEq, Repr

/-- A parity error of the ring that no correction mends (R307): in an accumulator or a cell, with the gang row and column of the output whose sum
meets it and the k at which it does. -/
structure RErr where
  acc : Bool
  row : Nat
  col : Nat
  k   : Nat
  deriving DecidableEq, Repr

/-- The matrix ring of a cluster (R295). `errs` are the parity errors of the running operation (R307). `queue` holds the members whose MGANG has issued and not joined, in issue order, `results` lists the members whose MGANG has not yet returned, with the target
serial or the mismatch mask. -/
structure Ring where
  running : Option GOp
  closed  : Option GOp
  queue   : List Member
  forming : List Member
  results : List (Nat × Nat × Bool × Nat)
  errs    : List RErr
  deriving DecidableEq, Repr

/-- A command of the refinement loop controller (R392, R394), with the memory keys of its words 14 and 15, one for each replica of
their page (R401, R141). -/
structure RCmd where
  blk  : List Word
  ptr  : Word
  k14  : List Nat
  k15  : List Nat
  tag  : Nat
  gen  : BitVec 16
  core : Nat
  ctx  : Nat
  deriving DecidableEq, Repr

/-- The phases of R395. -/
inductive RPhase where
  | factor | solveB | solveR | update | residual
  deriving DecidableEq, Repr

/-- The running command (R396): its phase, rung, counts and norms; `serial` names the phase in hand, `sent` lists the
serial and core of each dispatched activation that has not ended, `reports` the values reported in the phase. -/
structure RRun where
  cmd     : RCmd
  phase   : RPhase
  rung    : Nat
  i       : Nat
  s       : Nat
  total   : Nat
  prev    : Option Word
  norm    : Word
  restart : Bool
  serial  : Nat
  sent    : List (Nat × Nat)
  reports : AMap Word
  stop    : Option Nat
  deriving DecidableEq, Repr

/-- States of the latest command of a core (R403). -/
inductive RSt where
  | none | queued | running | stopping | ended
  deriving DecidableEq, Repr

/-- What RLCSTAT reports of the latest command of a core (R403). -/
structure RLatest where
  ptr  : Word
  st   : RSt
  exit : Nat
  iter : Nat
  rung : Nat
  deriving DecidableEq, Repr

/-- What reaches a controller (R394, R398, R402, R403): a command, a report, an ended activation, a stop. In
deterministic mode it waits for the quantum's end (R406). -/
inductive REv where
  | cmd (c : RCmd)
  | report (core serial : Nat) (v : Word)
  | ended (core serial : Nat) (faulty : Bool)
  | stop (core : Nat)
  deriving DecidableEq, Repr

/-- The refinement loop controller of a cluster (R394). -/
structure Rlc where
  queue  : List RCmd
  run    : Option RRun
  latest : AMap RLatest
  pend   : List REv
  serial : Nat
  deriving DecidableEq, Repr

/-- A translation that a channel holds for its current block (R328): of its source or its destination, the page of 4 KiB, the key of its first byte,
the table word that maps it, and its replication. -/
structure HeldT where
  write : Bool
  page  : Nat
  key   : Nat
  slot  : Option Nat
  repl  : Nat
  deriving DecidableEq, Repr

/-- One channel of a streamer (R317, R326): its request, the next element, the bytes of it that have been read, each with whether its word was
poisoned, and how many of them have been written, whether a read has not yet been answered, the bytes written, the writes not yet answered,
whether it is lodged, the pointer at which its lodge service has failed (R327), and the translations of its current block (R328). -/
structure StrChan where
  core   : Nat
  ctx    : Nat
  tag    : Nat
  gen    : BitVec 16
  rcd    : List Word
  sv     : Word
  dv     : Word
  num    : Nat
  next   : Nat
  got    : List (Byte × Bool)
  put    : Nat
  rpend  : Bool
  bytes  : Nat
  writes : Nat
  lodged : Bool
  failed : Option Word
  held   : List HeldT
  deriving DecidableEq, Repr

/-- A streamer (R317): channels, and the board updates on their way to issuers (R321). -/
structure Streamer where
  chans : AMap StrChan
  deriving DecidableEq, Repr

/-- A board update on its way (R321). -/
structure BoardUpd where
  core   : Nat
  tag    : Nat
  xferid : Nat
  st     : XferSt
  bytes  : Nat
  deriving DecidableEq, Repr

/-- States of a block (R332). -/
inductive BlkSt where
  | unbound | pending | waiting | dispatched | done | faulted
  deriving DecidableEq, Repr

/-- Relations (R335, R336). -/
inductive RelT where
  | none | sync | ahead | feed
  deriving DecidableEq, Repr

/-- A neighbour of a block: its id, relation and the copy of its level (R333). -/
structure Nbr where
  id   : Nat
  rel  : RelT
  copy : BitVec 32
  deriving DecidableEq, Repr

/-- A bound entry of a level board (R332, R335). `bind` numbers its binding: notices of an earlier one at its id are dropped (R333, R353). -/
structure Blk where
  st      : BlkSt
  core    : Nat
  tag     : Nat
  gen     : BitVec 16
  front   : Nat
  steplog : Nat
  stage   : Nat
  level   : BitVec 32
  endv    : Bool
  endl    : BitVec 32
  qsel    : Nat
  updip   : Word
  interp  : Word
  state   : Word
  face    : Word
  fsize   : Nat
  ssize   : Nat
  nbrs    : List Nbr
  count   : Nat
  bind    : Nat
  deriving DecidableEq, Repr

/-- A front unit: its board, the scan position of R340, the notices that have reached it, the cycle of its latest commit (R436), and the board at
the start of the quantum (R349). -/
structure FrontUnit where
  board   : AMap Blk
  scan    : Nat
  notices : List Notice
  doneAt  : Option Nat
  start   : AMap Blk
  deriving DecidableEq, Repr

/-- States of a front (R348). -/
inductive FrontSt where
  | running | freezing | frozen
  deriving DecidableEq, Repr

/-- A front: its partition, task, number and state (R332, R348). -/
structure Front where
  part  : Nat
  tag   : Nat
  num   : Nat
  st    : FrontSt
  deriving DecidableEq, Repr

/-- A window mapping entry (R371) with its stores not yet sent and sent but not acknowledged. -/
structure WEnt where
  v     : Bool
  loop  : Bool
  broken : Bool
  link  : Nat
  part  : Nat
  tpkg  : Nat
  trxw  : Nat
  size  : Nat
  acked : BitVec 32
  sent  : BitVec 32
  q     : List WStore
  outst : List WStore
  reopened : Bool
  deriving DecidableEq, Repr

/-- A receive window (R372). -/
structure RxWin where
  v      : Bool
  any    : Bool
  part   : Nat
  srcpkg : Nat
  size   : Nat
  vabase : Nat
  deriving DecidableEq, Repr

/-- The target's state of a path (R375): the next sequence it expects, and whether a MISS has closed it. -/
structure PathSt where
  exp    : BitVec 32
  closed : Bool
  deriving DecidableEq, Repr

/-- Kinds of a link packet (R377). -/
inductive PktKind where
  | store | ack | miss
  deriving DecidableEq, Repr

/-- A link packet (R377), with the link that it came by: none for one of a loop-back entry. -/
structure Pkt where
  via    : Option Nat
  kind   : PktKind
  dpkg   : Nat
  spkg   : Nat
  trxw   : Nat
  sentry : Nat
  sxd    : Nat
  off    : Nat
  seq    : BitVec 32
  nstore : Nat
  data   : List Byte
  deriving DecidableEq, Repr

/-- A window engine (R371, R375): its mapping table, the packets that it has accepted and not yet handled, and those in the
lodge of its home with the cycle of their arrival there. -/
structure WinEng where
  ents : AMap WEnt
  rxq  : List Pkt
  lodge : List (Nat × Pkt)
  deriving DecidableEq, Repr

/-- A key slot (R381). -/
structure KeySlot where
  key  : BitVec 256
  salt : BitVec 48
  ctr  : Nat
  deriving DecidableEq, Repr

/-- One direction's keys (R381, R382). -/
structure LinkDir where
  slot0 : Option KeySlot
  slot1 : Option KeySlot
  bit   : Bool
  switch : Bool
  hold  : Bool
  deriving DecidableEq, Repr

/-- A window link (R378-R383). `replay` holds the flits sent and not acknowledged, `sendq` the flits that wait to be
sent, `rxbuf` the bytes of the packet being received. A packet that a link forwards cut-through has an outgoing link to itself till it ends
(R380): `cut` is the outgoing link that this one feeds, `fed` the incoming one that feeds this one, and `late` what waits behind it. `ackAt` is the cycle
of the last acknowledgement (R383). -/
structure Link where
  up      : Bool
  tx      : LinkDir
  rx      : LinkDir
  replay  : List LinkFlit
  sendq   : List LinkFlit
  txseq   : Nat
  rxseq   : Nat
  rxbuf   : List Byte
  cut     : Option Nat
  fed     : Option Nat
  late    : List LinkFlit
  tagFail : Nat
  downAt  : Nat
  ackAt   : Nat
  exchTx  : Bool
  exchRx  : Bool
  deriving DecidableEq, Repr

/-! ### Partitions (R22-R29, R49, R56, R152, R407-R424, R430-R437) -/

/-- A command queue (R407). -/
structure CmdQ where
  base    : Nat
  en      : Bool
  die     : Nat
  sizelog : Nat
  err     : Nat
  head    : BitVec 32
  tail    : BitVec 32
  deriving DecidableEq, Repr

/-- The packet being walked (R408): its queue, its words and those of its EXTENTS packets. -/
structure Packet where
  q     : Nat
  words : List Word
  exts  : List (List Word)
  deriving DecidableEq, Repr

/-- A counter (R437); `wrote` is set in the cycle of a write to CVAL. -/
structure Ctr where
  en    : Bool
  die   : Nat
  dief  : Bool
  event : Nat
  val   : Word
  wrote : Bool
  deriving DecidableEq, Repr

/-- A sample or event ring (R432); `lost` counts the drops since the last marker (R433). -/
structure RingReg where
  base    : Nat
  en      : Bool
  sizelog : Nat
  mask    : BitVec 16
  head    : BitVec 32
  tail    : BitVec 32
  drop    : BitVec 32
  lost    : Nat
  deriving DecidableEq, Repr

/-- The trap-record ring of host-assisted disposition (R422). -/
structure TrRing where
  base    : Nat
  en      : Bool
  sizelog : Nat
  head    : BitVec 32
  tail    : BitVec 32
  deriving DecidableEq, Repr

/-- A trap record (R194) on its way to disposition: its die, whether it is of kind A with a held message, and the core,
queue and message identifier of that message. -/
structure TrapRec where
  words : List Word
  die   : Nat
  kindA : Bool
  held  : Bool
  core  : Nat
  queue : Nat
  msgid : Nat
  tag   : Nat
  deriving DecidableEq, Repr

/-- A page fault under service (R420, R421). -/
structure PFault where
  core  : Nat
  ctx   : Nat
  va    : Nat
  write : Bool
  asked : Bool
  deriving DecidableEq, Repr

/-- A page that holds frames of a partition (R152, R420): its VA and level, the backing frame that holds its contents as firmware brought them in,
and whether software mapped it and filled it itself. -/
structure Resident where
  va      : Nat
  lvl     : Nat
  backing : Option Nat
  host    : Bool
  deriving DecidableEq, Repr

/-- A delivery of the hardware task queue (R58): requester core and context, the message and its target. `back` is set for a
message that REQUEUE returns (R234): the queue that it left and the slot that it keeps; `born` is TIME at what raised it, the issue order. -/
structure Deliv where
  core   : Nat
  ctx    : Nat
  dest   : Nat
  msg    : Msg
  snd    : Sender
  back   : Option (Nat × Nat)
  born   : Nat
  deriving DecidableEq, Repr

/-- A front-unit event of a quantum that takes effect at its end (R349, R453): an instruction that parked for it with the
record that it read, a commit, the end of an update activation (an abort, and whether its LVCOMMIT had retired), a lease lost on a die, or
firmware's freeze or thaw for the host (R348, R357). -/
inductive FEv where
  | op (core ctx : Nat) (rcd : List Word)
  | commit (core ctx block : Nat) (lv : BitVec 32)
  | ended (core ctx block : Nat) (faulty committed : Bool)
  | lease (die : Nat)
  | host (block : Nat) (thaw : Bool)
  deriving DecidableEq, Repr

/-- Pre-emption of a partition (R49). -/
inductive PreSt where
  | running | asked | saved
  deriving DecidableEq, Repr

/-- A partition, keyed by its lowest die. `second` lists the second-tier ranges that firmware granted it (R23), `backing` what is free of them.
`mine` and `mineF` list the blocks and fronts (TAG and number) that a core has changed in the quantum, `fronts0` the fronts as they stood at its
start (R59, R349). -/
structure Part where
  dies        : Nat
  root        : Nat
  pfHost      : Bool
  trapHost    : Bool
  spreadHost  : Bool
  det         : Bool
  shape       : Nat
  quanta      : Nat
  taskq       : List Deliv
  fevs        : List FEv
  mine        : List (Nat × Nat)
  mineF       : List (Nat × Nat × Nat)
  fronts0     : List Front
  queues      : AMap CmdQ
  rr          : Nat
  packet      : Option Packet
  counters    : AMap Ctr
  samples     : RingReg
  events      : RingReg
  trRing      : TrRing
  recs        : List TrapRec
  dropped     : Nat
  retry       : Nat
  deadtime    : Nat
  preemptwait : Nat
  aborts      : AMap Nat
  evicted     : List (Nat × Nat)
  free        : List (Nat × Nat)
  resident    : List Resident
  backing     : List (Nat × Nat)
  second      : List (Nat × Nat)
  resData     : List Nat
  resTable    : List Nat
  granted     : Option (Nat × Nat)
  faults      : List PFault
  pre         : PreSt
  preSince    : Nat
  stopAt      : AMap Nat
  frozen      : Bool
  idleSince   : Nat
  fwlog       : List (List Word)
  msix        : List Nat
  manifest    : List Word
  manDigest   : BitVec 512
  period      : BitVec 32
  wraps       : Nat
  debugOn     : Bool
  deriving DecidableEq, Repr

/-! ### Firmware cores and the package (R417-R427, R441-R450) -/

/-- A firmware core (R417, R418). -/
structure FwCore where
  epoch   : Nat
  voted   : Nat
  expiry  : Nat
  leader  : Bool
  host    : Bool
  group   : BitVec 10
  retryAt : Nat
  asks    : List (Nat × Nat)
  votes   : List Nat
  lost    : Bool
  deriving DecidableEq, Repr

/-- Stages of bring-up (R450): `sram` is a module that runs from the recovery window's image (R427). -/
inductive Boot where
  | inReset | recovery | sram | running
  deriving DecidableEq, Repr

/-- A PRI request (R421): for the fault of a context, or with core 4,096 for firmware itself, for the front end (context 0) or the lodge of a
home (1 and up). -/
structure Pri where
  part  : Nat
  core  : Nat
  ctx   : Nat
  va    : Nat
  write : Bool
  since : Nat
  deriving DecidableEq, Repr

/-- What the package holds beside its dies. -/
structure Pkg where
  boot      : Boot
  flash     : Option FwImage
  fwVersion : Nat
  fwDigest  : BitVec 512
  number    : BitVec 12
  badDies   : BitVec 8
  fused     : List Nat
  turns     : AMap (Nat × Nat)
  powerHost : Bool
  keysHost  : Bool
  leaderHost : Bool
  leaderReg : Nat
  allot     : List Nat
  used      : List Nat
  tokenAt   : Nat
  outTok    : BitVec 8
  hot       : List Nat
  pri       : AMap Pri
  priAlloc  : Nat
  spdm      : List (List Byte)
  fwlog     : List (List Word)
  deriving DecidableEq, Repr

/-! ### The machine -/

/-- One turn of the schedule (log 2): a core's issue in the current cycle, the end of a cycle, or an event. -/
inductive Turn where
  | issue (core : Nat)
  | tick
  | event (i : Instr)
  deriving DecidableEq, Repr

/-- The machine. `lastAt` holds for each memory or engine the cycle, core and context of the latest operation there that R159, R224 and R334
order within a cycle, `takenAt` the words that a SYNCE has emptied with the cycle in which it did (R224), `wr` the writes of the quantum in deterministic mode (log 58). -/
structure State where
  mem      : Memory
  cores    : AMap CoreSt
  eps      : AMap Endp
  routers  : AMap Router
  fences   : List (Nat × Nat)
  homes    : AMap Home
  rings    : AMap Ring
  rlcs     : AMap Rlc
  strs     : AMap Streamer
  boardUpd : List BoardUpd
  fus      : AMap FrontUnit
  fronts   : List Front
  wins     : AMap WinEng
  rxwin    : AMap RxWin
  paths    : AMap PathSt
  routes   : AMap Nat
  links    : AMap Link
  parts    : AMap Part
  fws      : AMap FwCore
  pkg      : Pkg
  time     : Nat
  agenda   : List Turn
  cur      : Nat × Fin 4
  fresh    : Nat
  lastAt   : AMap (Nat × Nat × Nat)
  takenAt  : List (Nat × Nat)
  wr       : List QWrite
  deriving DecidableEq, Repr

/-- Why a step cannot be taken: raised by `step` alone, for an entry of the schedule that is no event of an existing
unit. Safe: no entry of a schedule that the outside world can present has this form. -/
inductive Fault where
  /-- Raised by `step` for an agenda entry that is a core instruction or names a unit that does not exist; safe. -/
  | illFormedEvent
  deriving DecidableEq, Repr

/-- Why an instruction has no meaning yet. -/
inductive Refusal where
  /-- Answered by an arm of `exec` whose instruction has no meaning yet; safe. -/
  | notModelled (mnemonic : String)
  deriving DecidableEq, Repr

/-! ### Reset -/

/-- An invalid channel handle (R33). -/
def Chan.reset : Chan := ⟨false, 0, 0, 0, 0, 0⟩

/-- A context right after module reset (log 4). -/
def Ctx.reset : Ctx where
  st := .free
  await := .none
  act := none
  ip := 0
  g := Vector.replicate 32 0
  v := Vector.replicate 16 0
  k := Vector.replicate 8 0
  c := Vector.replicate 16 Chan.reset
  view := Vector.replicate 16 0
  trap := ⟨0, 0, 0, 0, 0, 0, 0⟩
  vstart := 0
  fcsr := 0
  budget := 0
  colour := 0
  migok := false
  migthresh := 0
  refuse := 0
  xferid := 0
  tasksel := 0
  extsel := 0
  seq := 0
  sendBuf := []
  remote := Vector.replicate 8 0
  wout := Vector.replicate 8 0
  drops := Vector.replicate 8 none
  aborted := []
  failed := []
  stall := 0
  issued := false
  hold := false
  step1 := false
  nobp := false
  tlb := []
  rbuf := []
  rcur := 0
  rpend := false
  fill := .none
  elem := []
  latch := ⟨0, 0, 0, 0⟩
  serial := 0

/-- A task entry right after module reset: INVALID, every field 0 (R189). -/
def Task.reset : Task where
  st := .invalid
  base := 0
  lim := 0
  gen := 0
  cline := false
  featreq := 0
  budget := 0
  views := Vector.replicate 16 0
  exts := []
  keepLo := 0
  keepHi := 0
  digest := 0

/-- A core right after module reset: QLIM 12 (R190), FEATMASK 0x1FF (R188), QUANT 8,192 (R190), the rest 0. -/
def CoreSt.reset : CoreSt where
  ctxs := Vector.replicate 4 Ctx.reset
  tasks := Vector.replicate 8 Task.reset
  tags := []
  queues := Vector.replicate 5 []
  unbound := []
  waiting := []
  slotsHeld := []
  qlim := Vector.replicate 5 12
  guest := false
  featmask := 0x1FF
  stage := 0
  sampcfg := 0
  quant := 8192
  lanes := []
  advs := []
  icache := []
  board := []
  shadow := Vector.replicate 7 0
  bps := Vector.replicate 4 ⟨false, 0, 0⟩
  rot := 3
  sampRot := 0
  sampCount := 0
  retired := 0
  qdone := false
  issued := false
  arrivals := []
  samples := []
  synced := false

/-- A network interface right after module reset: nothing outstanding, every number 0. -/
def Endp.reset : Endp where
  out := []
  backlog := []
  nextNum := []
  expect := []
  asm := []
  ready := []
  rsps := []
  kept := []
  poison := []
  inj0 := []
  inj1 := []
  wait0 := 0
  wait1 := 0

/-- A router with no flit. -/
def Router.reset : Router := ⟨[], [], [], [], false, false, none, none⟩
/-- A home with nothing waiting. -/
def Home.reset : Home := ⟨[], [], [], []⟩
/-- A ring with no operation (R295). -/
def Ring.reset : Ring := ⟨none, none, [], [], [], []⟩
/-- A controller with no command. -/
def Rlc.reset : Rlc := ⟨[], none, [], [], 0⟩
/-- A streamer with every channel free. -/
def Streamer.reset : Streamer := ⟨[]⟩
/-- A front unit with every entry UNBOUND. -/
def FrontUnit.reset : FrontUnit := ⟨[], 0, [], none, []⟩
/-- A window mapping entry right after module reset (R371). -/
def WEnt.reset : WEnt := ⟨false, false, false, 0, 0, 0, 0, 0, 0, 0, [], [], true⟩
/-- A window engine right after module reset. -/
def WinEng.reset : WinEng := ⟨[], [], []⟩
/-- A receive window right after module reset (R372). -/
def RxWin.reset : RxWin := ⟨false, false, 0, 0, 0, 0⟩
/-- A path right after module reset (R375). -/
def PathSt.reset : PathSt := ⟨0, false⟩
/-- A link direction with both key slots empty. -/
def LinkDir.reset : LinkDir := ⟨none, none, false, false, false⟩
/-- A link right after module reset: not trained, no key (R450 step 6). -/
def Link.reset : Link where
  up := false
  tx := LinkDir.reset
  rx := LinkDir.reset
  replay := []
  sendq := []
  txseq := 0
  rxseq := 0
  rxbuf := []
  cut := none
  fed := none
  late := []
  tagFail := 0
  downAt := 0
  ackAt := 0
  exchTx := false
  exchRx := false

/-- A command queue right after reset (R407): SIZELOG 4, the rest 0. -/
def CmdQ.reset : CmdQ := ⟨0, false, 0, 4, 0, 0, 0⟩
/-- A counter right after reset (R437). -/
def Ctr.reset : Ctr := ⟨false, 0, false, 0, 0, false⟩
/-- A ring register block right after reset (R432): SIZELOG 8, the rest 0. -/
def RingReg.reset : RingReg := ⟨0, false, 8, 0, 0, 0, 0, 0⟩
/-- The trap ring right after reset (R422): SIZELOG 6, the rest 0. -/
def TrRing.reset : TrRing := ⟨0, false, 6, 0, 0⟩

/-- A partition as firmware first configures it (R29, R49, R423, R424). -/
def Part.reset : Part where
  dies := 1
  root := 0
  pfHost := false
  trapHost := false
  spreadHost := false
  det := false
  shape := 0
  quanta := 0
  taskq := []
  fevs := []
  mine := []
  mineF := []
  fronts0 := []
  queues := []
  rr := 63
  packet := none
  counters := []
  samples := RingReg.reset
  events := RingReg.reset
  trRing := TrRing.reset
  recs := []
  dropped := 0
  retry := 2
  deadtime := 2 ^ 20
  preemptwait := 2 ^ 24
  aborts := []
  evicted := []
  free := []
  resident := []
  backing := []
  second := []
  resData := []
  resTable := []
  granted := none
  faults := []
  pre := .running
  preSince := 0
  stopAt := []
  frozen := false
  idleSince := 0
  fwlog := []
  msix := []
  manifest := []
  manDigest := 0
  period := 0
  wraps := 0
  debugOn := false

/-- A firmware core right after reset: no leader, epoch 0. -/
def FwCore.reset : FwCore where
  epoch := 0
  voted := 0
  expiry := 0
  leader := false
  host := false
  group := 0
  retryAt := 0
  asks := []
  votes := []
  lost := false

/-- The package in reset (R450): nothing loaded, 2,000 tokens per die (R442). -/
def Pkg.reset : Pkg where
  boot := .inReset
  flash := none
  fwVersion := 0
  fwDigest := 0
  number := 0
  badDies := 0
  fused := []
  turns := []
  powerHost := false
  keysHost := false
  leaderHost := false
  leaderReg := 0
  allot := [2000, 2000, 2000, 2000, 2000, 2000, 2000, 2000]
  used := [0, 0, 0, 0, 0, 0, 0, 0]
  tokenAt := 0
  outTok := 0
  hot := []
  pri := []
  priAlloc := 512
  spdm := []
  fwlog := []

/-- Memory right after reset: every byte reads 0 (log 1), every full-empty bit empty (R146), no word in error. -/
def Memory.reset : Memory := ⟨[], [], [], [], []⟩

/-- The machine right after module reset: no partition, no core running, TIME 0 (R447, R450). -/
def State.reset : State where
  mem := Memory.reset
  cores := []
  eps := []
  routers := []
  fences := []
  homes := []
  rings := []
  rlcs := []
  strs := []
  boardUpd := []
  fus := []
  fronts := []
  wins := []
  rxwin := []
  paths := []
  routes := []
  links := []
  parts := []
  fws := []
  pkg := Pkg.reset
  time := 0
  agenda := []
  cur := (0, 0)
  fresh := 0
  lastAt := []
  takenAt := []
  wr := []

end Sys2Proof.Machine
end

