-- ==== Sys2Proof/Machine/Map.lean ====
section
/-!
DEFINITION. The sparse tables of the state, sorted sets of numbers, and the byte-level memory: reads, writes, the
full-empty bits and the canonical form (R3, R146, R150).
-/

namespace Sys2Proof.Machine

/-! ### Sparse tables -/

/-- The entry of a number, or the default. -/
def AMap.get {α : Type} (dflt : α) : AMap α → Nat → α
  | [], _ => dflt
  | (k', v) :: t, k => if k = k' then v else AMap.get dflt t k

/-- The entry of a number, if listed. -/
def AMap.find {α : Type} : AMap α → Nat → Option α
  | [], _ => none
  | (k', v) :: t, k => if k = k' then some v else AMap.find t k

/-- The table with the entry of `k` replaced by `v`. -/
def AMap.set {α : Type} : AMap α → Nat → α → AMap α
  | [], k, v => [(k, v)]
  | (k', v') :: t, k, v =>
    if k = k' then (k, v) :: t
    else if k < k' && (AMap.find t k).isNone then (k, v) :: (k', v') :: t else (k', v') :: AMap.set t k v

/-- The table without the entries of `k`. -/
def AMap.del {α : Type} (m : AMap α) (k : Nat) : AMap α := m.filter (fun e => e.1 != k)

/-- The table with `f` applied to every listed entry. -/
def AMap.mapVals {α : Type} (f : Nat → α → α) (m : AMap α) : AMap α := m.map (fun e => (e.1, f e.1 e.2))

/-! ### Lists -/

/-- The first entry that `p` accepts, and the list without it. -/
def takeFirst {α : Type} (p : α → Bool) : List α → Option (α × List α)
  | [] => none
  | x :: t =>
    if p x then some (x, t) else
      match takeFirst p t with
      | some (y, t') => some (y, x :: t')
      | none => none

/-- `x` inserted after every entry that `le` puts before it. -/
def insertBy {α : Type} (le : α → α → Bool) (x : α) : List α → List α
  | [] => [x]
  | y :: t => if le y x then y :: insertBy le x t else x :: y :: t

/-- The list ordered by `le`, entries that compare equal keeping their order. -/
def sortBy {α : Type} (le : α → α → Bool) (l : List α) : List α := l.foldl (fun acc x => insertBy le x acc) []

/-- The numbers 0 to n - 1. -/
def upTo (n : Nat) : List Nat := List.range n

/-- The sum of a list. -/
def sumNat (l : List Nat) : Nat := l.foldl (· + ·) 0

/-! ### Sorted sets of numbers -/

/-- A strictly rising list. -/
def rising : List Nat → Bool
  | [] => true
  | a :: t => (match t with | [] => true | b :: _ => decide (a < b)) && rising t

/-- `k` added to a rising list. -/
def sIns (k : Nat) : List Nat → List Nat
  | [] => [k]
  | a :: t => if k = a then a :: t else if k < a then k :: a :: t else a :: sIns k t

/-- `k` taken out of a list. -/
def sDel (k : Nat) (l : List Nat) : List Nat := l.filter (· != k)

/-- `k` is in the list. -/
def sMem (k : Nat) (l : List Nat) : Bool := l.contains k

/-! ### Bytes -/

/-- What an address that no write has reached reads as (log 1). -/
def unwritten : Byte := 0

/-- The byte at a key. -/
def readCell : List Host.Cell → Nat → Byte
  | [], _ => unwritten
  | (k', b) :: t, k => if k = k' then b else if k < k' then unwritten else readCell t k

/-- The cells with the byte at a key replaced, in canonical form. -/
def writeCell : List Host.Cell → Nat → Byte → List Host.Cell
  | [], k, b => if b = unwritten then [] else [(k, b)]
  | (k', b') :: t, k, b =>
    if k = k' then (if b = unwritten then t else (k, b) :: t)
    else if k < k' then (if b = unwritten then (k', b') :: t else (k, b) :: (k', b') :: t)
    else (k', b') :: writeCell t k b

/-- The canonical form of the cells: keys strictly rising, no byte equal to what an unlisted key reads as. -/
def cellsWf (l : List Host.Cell) : Bool := rising (l.map (·.1)) && l.all (fun e => e.2 != unwritten)

/-- The canonical form of memory. -/
def Memory.wf (m : Memory) : Bool := cellsWf m.cells && rising m.full && rising m.poison && rising m.pending && rising m.corr

/-- The byte at a key. -/
def Memory.byte (m : Memory) (k : Nat) : Byte := readCell m.cells k

/-- Memory with one byte replaced. -/
def Memory.setByte (m : Memory) (k : Nat) (b : Byte) : Memory := { m with cells := writeCell m.cells k b }

/-- The bytes from a key. -/
def Memory.bytes (m : Memory) (k : Nat) : Nat → List Byte
  | 0 => []
  | n + 1 => m.byte k :: m.bytes (k + 1) n

/-- Memory with a list of bytes written from a key. -/
def Memory.setBytes (m : Memory) (k : Nat) : List Byte → Memory
  | [] => m
  | b :: t => (m.setByte k b).setBytes (k + 1) t

/-- The little-endian value of `n` bytes (R3). -/
def Memory.read (m : Memory) (k n : Nat) : Nat := leNat (m.bytes k n)

/-- Memory with the low `n` bytes of a value written little-endian (R3). -/
def Memory.write (m : Memory) (k n v : Nat) : Memory := m.setBytes k (leBytes n v)

/-! ### Full-empty bits, poison and pending words (R146, R150, R261) -/

/-- The word that holds a key. -/
def wordOf (k : Nat) : Nat := k / 8 * 8

/-- The full-empty bit of the word at a key; a pending word reads as empty (R261). -/
def Memory.isFull (m : Memory) (k : Nat) : Bool := sMem (wordOf k) m.full && !sMem (wordOf k) m.pending

/-- The word at a key is pending (R261). -/
def Memory.isPending (m : Memory) (k : Nat) : Bool := sMem (wordOf k) m.pending

/-- The full-empty bit set. -/
def Memory.setFull (m : Memory) (k : Nat) : Memory := { m with full := sIns (wordOf k) m.full }

/-- The full-empty bit cleared. -/
def Memory.setEmpty (m : Memory) (k : Nat) : Memory := { m with full := sDel (wordOf k) m.full }

/-- The word made pending, or no longer pending. -/
def Memory.setPending (m : Memory) (k : Nat) (on : Bool) : Memory :=
  { m with pending := if on then sIns (wordOf k) m.pending else sDel (wordOf k) m.pending }

/-- The word at a key is poisoned (R150). -/
def Memory.isPoison (m : Memory) (k : Nat) : Bool := sMem (wordOf k) m.poison

/-- The word poisoned, or whole again. -/
def Memory.setPoison (m : Memory) (k : Nat) (on : Bool) : Memory :=
  { m with poison := if on then sIns (wordOf k) m.poison else sDel (wordOf k) m.poison }

/-- Some word of [k, k + n) is poisoned. -/
def Memory.poisoned (m : Memory) (k n : Nat) : Bool := m.poison.any (fun w => decide (w < k + n) && decide (k < w + 8))

/-- The words of [k, k + n) that hold a correctable error (R150). -/
def Memory.corrIn (m : Memory) (k n : Nat) : List Nat := m.corr.filter (fun w => decide (w < k + n) && decide (k < w + 8))

/-- The correctable errors of [k, k + n) corrected. -/
def Memory.scrub (m : Memory) (k n : Nat) : Memory := { m with corr := m.corr.filter (fun w => !(decide (w < k + n) && decide (k < w + 8))) }

/-- A whole word written again holds no error. -/
def Memory.renew (m : Memory) (k : Nat) : Memory := { m with poison := sDel (wordOf k) m.poison, corr := sDel (wordOf k) m.corr }

/-- A store of `n` bytes: the value, and a whole word written again is free of errors. -/
def Memory.store (m : Memory) (k n v : Nat) : Memory :=
  let m' := m.write k n v
  if n = 8 then m'.renew k else m'

/-- A store that makes its word full where `fe` is set (R146). -/
def Memory.storeFe (m : Memory) (k n v : Nat) (fe : Bool) : Memory :=
  let m' := m.store k n v
  if fe then m'.setFull k else m'

/-! ### The local memories' keys (log 3) -/

/-- The key of byte `b` of the physical scratchpad of a core (R130). -/
def scratchKey (core b : Nat) : Nat := 2 ^ 52 + core * 2 ^ 18 + b
/-- The key of byte `b` of a cluster's memory (R129). -/
def clusKey (cl b : Nat) : Nat := 2 ^ 53 + cl * 2 ^ 22 + b
/-- The key of byte `b` of a core's inbox (R130). -/
def inboxKey (core b : Nat) : Nat := 2 ^ 54 + core * 2 ^ 15 + b

/-! ### Addresses of pages that firmware has evicted (R152, R262) -/

/-- What stands for the physical address of a virtual one whose page is absent, with what waits for its page to come back: no memory lies there (log 17). -/
def goneAt (va : Nat) : Nat := 2 ^ 60 + va
/-- Such an address. -/
def isGone (pa : Nat) : Bool := decide (2 ^ 60 ≤ pa)

/-! ### The tiers of physical memory (R132) -/

/-- First-tier memory. -/
def firstTier (pa : Nat) : Bool := decide (pa < 2 ^ 39)
/-- Second-tier memory. -/
def secondTier (pa : Nat) : Bool := decide (2 ^ 44 ≤ pa) && decide (pa < 2 ^ 45)
/-- Host memory. -/
def hostMem (pa : Nat) : Bool := decide (2 ^ 51 ≤ pa) && decide (pa < 2 ^ 52)

end Sys2Proof.Machine
end

