-- ==== Sys2Proof/Machine/Flags.lean ====
section
/-!
DEFINITION. The number formats, the rounding and the exception flags of R62-R72: exact values, one rounding function
for every floating format, conversions, and the integer wrap and saturation of R63.
-/

namespace Sys2Proof

/-! ### Formats (R62, R64-R66) -/

/-- Fraction bits of a floating format (R64). -/
def Fmt.frac : Fmt → Nat
  | .f16 => 10 | .w16 => 7 | .f32 => 23 | .f64 => 52 | .f8a => 3 | .f8b => 2
  | .s8 | .s16 | .s32 | .s64 | .n8 | .n16 | .n32 | .n64 | .o4 => 0

/-- Exponent bits of a floating format (R64). -/
def Fmt.expBits : Fmt → Nat
  | .f16 => 5 | .w16 => 8 | .f32 => 8 | .f64 => 11 | .f8a => 4 | .f8b => 5
  | .s8 | .s16 | .s32 | .s64 | .n8 | .n16 | .n32 | .n64 | .o4 => 0

/-- The bias of a floating format (R64). -/
def Fmt.bias : Fmt → Int
  | .f16 => 15 | .w16 => 127 | .f32 => 127 | .f64 => 1023 | .f8a => 7 | .f8b => 15
  | .s8 | .s16 | .s32 | .s64 | .n8 | .n16 | .n32 | .n64 | .o4 => 0

/-- A signed integer format (R62). -/
def Fmt.signed : Fmt → Bool
  | .s8 | .s16 | .s32 | .s64 => true
  | .n8 | .n16 | .n32 | .n64 | .f16 | .w16 | .f32 | .f64 | .f8a | .f8b | .o4 => false

/-- The canonical NaN of a format (R66). -/
def Fmt.qnan : Fmt → Nat
  | .f16 => 0x7E00 | .w16 => 0x7FC0 | .f32 => 0x7FC00000 | .f64 => 0x7FF8000000000000 | .f8a => 0x7F | .f8b => 0x7E
  | .s8 | .s16 | .s32 | .s64 | .n8 | .n16 | .n32 | .n64 | .o4 => 0

/-- The smallest integer of a format. -/
def Fmt.imin (f : Fmt) : Int := if f.signed then -(2 ^ (f.width - 1)) else 0
/-- The largest integer of a format. -/
def Fmt.imax (f : Fmt) : Int := if f.signed then 2 ^ (f.width - 1) - 1 else 2 ^ f.width - 1

end Sys2Proof

namespace Sys2Proof.Machine

/-! ### Flags (R70, R186) -/

/-- The five sticky flags of FCSR, NV in bit 4 down to NX in bit 0 (R186). -/
abbrev Fl := BitVec 5

/-- No flag. -/
def flNone : Fl := 0
/-- Invalid. -/
def flNV : Fl := 16
/-- Divide by zero. -/
def flDZ : Fl := 8
/-- Overflow. -/
def flOF : Fl := 4
/-- Underflow. -/
def flUF : Fl := 2
/-- Inexact. -/
def flNX : Fl := 1

/-- FCSR with flags set sticky (R70). -/
def fcsrSet (f : BitVec 9) (fl : Fl) : BitVec 9 := f ||| fl.setWidth 9

/-- FCSR.NANTRAP. -/
def fcsrNanTrap (f : BitVec 9) : Bool := f.getLsbD 8

/-- FCSR.FRM. -/
def fcsrFrm (f : BitVec 9) : Nat := (f.toNat >>> 5) % 8

/-! ### Rounding modes (R68) -/

/-- The effective rounding modes. -/
inductive Mode where
  | rne | rtz | rdn | rup | rna
  deriving DecidableEq, Repr

/-- The mode that FRM holds (0 to 4 only, R186). -/
def Mode.ofFrm (n : Nat) : Mode :=
  match n with
  | 1 => .rtz | 2 => .rdn | 3 => .rup | 4 => .rna | _ => .rne

/-- EffRM of R108: the mode of an RM field under an FCSR. -/
def effRm (fcsr : BitVec 9) : Rm → Mode
  | .rne => .rne | .rtz => .rtz | .rdn => .rdn | .rup => .rup | .rna => .rna
  | .dyn => Mode.ofFrm (fcsrFrm fcsr)

/-! ### Values -/

/-- A value a unit computes with: a NaN (signalling or quiet), an infinity, or (-1)^s * m * 2^e. -/
inductive FV where
  | nan (signalling : Bool)
  | inf (s : Bool)
  | fin (s : Bool) (m : Nat) (e : Int)
  deriving DecidableEq, Repr

/-- The value of a pattern in a floating format (R65, R66). -/
def decodeF (f : Fmt) (x : Nat) : FV :=
  let fr := x % 2 ^ f.frac
  let e := (x >>> f.frac) % 2 ^ f.expBits
  let s := (x >>> (f.width - 1)) % 2 == 1
  let emax := 2 ^ f.expBits - 1
  if e = 0 then .fin s fr (1 - f.bias - f.frac)
  else if e = emax && f == .f8a then (if fr = 7 then .nan false else .fin s (8 + fr) (e - f.bias - f.frac))
  else if e = emax then (if fr = 0 then .inf s else .nan (decide (fr < 2 ^ (f.frac - 1))))
  else .fin s (2 ^ f.frac + fr) (e - f.bias - f.frac)

/-- The integer of a pattern in an integer format (R62). -/
def decodeI (f : Fmt) (x : Nat) : Int :=
  let y := x % 2 ^ f.width
  if f.signed && decide (2 ^ (f.width - 1) ≤ y) then (y : Int) - 2 ^ f.width else y

/-- The value of a pattern in an integer or floating format. -/
def decodeV (f : Fmt) (x : Nat) : FV :=
  if f.isInt then
    let i := decodeI f x
    .fin (decide (i < 0)) i.natAbs 0
  else decodeF f x

/-- Wrap of R63, R108: the low bits of an exact integer in a width. -/
def wrapN (w : Nat) (y : Int) : Nat := (y % 2 ^ w).toNat

/-- Wrap(y, fmt). -/
def wrapI (f : Fmt) (y : Int) : Nat := wrapN f.width y

/-- Saturate(y, fmt) of R63, R108, as a pattern. -/
def satI (f : Fmt) (y : Int) : Nat := wrapI f (if y < f.imin then f.imin else if f.imax < y then f.imax else y)

/-- An integer result: wrapped, or saturated with SAT = 1 (R63). -/
def intRes (f : Fmt) (sat : Bool) (y : Int) : Nat := if sat then satI f y else wrapI f y

/-! ### Rounding (R68, R69) -/

/-- Whether rounding the magnitude q + (rem + sticky) / (2 * half) goes up. `half` is 0 where nothing is dropped. -/
def roundsUp (mode : Mode) (s : Bool) (q rem half : Nat) (sticky : Bool) : Bool :=
  let inexact := rem != 0 || sticky
  match mode with
  | .rne => decide (half < rem) || (rem == half && half != 0 && (sticky || q % 2 == 1))
  | .rtz => false
  | .rdn => inexact && s
  | .rup => inexact && !s
  | .rna => half != 0 && decide (half ≤ rem)

/-- The number of bits of a magnitude; 0 for 0. -/
def bitLen (m : Nat) : Nat := if m = 0 then 0 else Nat.log2 m + 1

/-- The magnitude m * 2^e in units of 2^u: quotient, and whether it is inexact, rounded by a mode. -/
def roundTo (mode : Mode) (s : Bool) (m : Nat) (e u : Int) (sticky : Bool) : Nat × Bool :=
  if e < u then
    let d := (u - e).toNat
    let q := m >>> d
    let rem := m - (q <<< d)
    let half := 2 ^ (d - 1)
    (if roundsUp mode s q rem half sticky then q + 1 else q, rem != 0 || sticky)
  else (m <<< (e - u).toNat, sticky)

/-- The pattern of a sign, an exponent field and a fraction. -/
def packF (f : Fmt) (s : Bool) (ef fr : Nat) : Nat := (if s then 2 ^ (f.width - 1) else 0) + ef * 2 ^ f.frac + fr

/-- The pattern of an infinity: F8A has none and gives 448 (R69). -/
def infF (f : Fmt) (s : Bool) : Nat :=
  if f == .f8a then packF f s 15 6 else packF f s (2 ^ f.expBits - 1) 0

/-- The pattern of the largest finite magnitude (R64). -/
def maxF (f : Fmt) (s : Bool) : Nat :=
  if f == .f8a then packF f s 15 6 else packF f s (2 ^ f.expBits - 2) (2 ^ f.frac - 1)

/-- Overflow of R69: infinity, or the largest finite magnitude where the mode rounds away from infinity. -/
def overflowF (f : Fmt) (mode : Mode) (s : Bool) : Nat :=
  if f == .f8a || f == .f8b then infF f s
  else match mode with
    | .rne | .rna => infF f s
    | .rtz => maxF f s
    | .rdn => if s then infF f s else maxF f s
    | .rup => if s then maxF f s else infF f s

/-- Round of R108 on the magnitude m * 2^e (with `sticky` for a nonzero remainder below it): the pattern and the flags
of R69 and R70. Tininess is detected after rounding. -/
def roundMag (f : Fmt) (mode : Mode) (s : Bool) (m : Nat) (e : Int) (sticky : Bool) : Nat × Fl :=
  if m = 0 then (packF f s 0 0, if sticky then flNX ||| flUF else flNone)
  else
    let p := f.frac + 1
    let top := e + bitLen m - 1
    let emin := 1 - f.bias
    -- unbounded exponent range
    let u := top - f.frac
    let (q, inex) := roundTo mode s m e u sticky
    let big := decide (q = 2 ^ p)
    let top' := if big then top + 1 else top
    let emax : Int := if f == .f8a then 8 else f.bias
    let ovf := decide (emax < top') || (f == .f8a && decide (top' = 8) && !big && q == 15)
    if ovf then (overflowF f mode s, flOF ||| flNX)
    else if top' < emin then
      let (q2, inex2) := roundTo mode s m e (emin - f.frac) sticky
      (packF f s 0 0 + q2, if inex2 then flUF ||| flNX else flNone)
    else if top < emin then
      -- not tiny: the unbounded rounding reaches the smallest normal; the result is rounded at the subnormal unit
      let (q2, inex2) := roundTo mode s m e (emin - f.frac) sticky
      (packF f s 0 0 + q2, if inex2 then flNX else flNone)
    else
      let q' := if big then 2 ^ f.frac else q
      (packF f s ((top' + f.bias).toNat) (q' - 2 ^ f.frac), if inex then flNX else flNone)

/-- Round of R108: NaN gives the canonical NaN (R66); an infinity gives itself, or 448 with OF and NX in F8A (R69). -/
def roundF (f : Fmt) (mode : Mode) : FV → Nat × Fl
  | .nan _ => (f.qnan, flNone)
  | .inf s => (infF f s, if f == .f8a then flOF ||| flNX else flNone)
  | .fin s m e => roundMag f mode s m e false

/-! ### Exact operations (R69, R70) -/

/-- A NaN. -/
def FV.isNaN : FV → Bool
  | .nan _ => true
  | .inf _ | .fin _ _ _ => false

/-- A signalling NaN sets NV (R70). -/
def FV.snv : FV → Fl
  | .nan true => flNV
  | .nan false | .inf _ | .fin _ _ _ => flNone

/-- A zero. -/
def FV.isZero : FV → Bool
  | .fin _ 0 _ => true
  | .fin _ _ _ | .nan _ | .inf _ => false

/-- The sign. -/
def FV.sign : FV → Bool
  | .nan _ => false
  | .inf s => s
  | .fin s _ _ => s

/-- The value with its sign inverted. -/
def FV.neg : FV → FV
  | .nan q => .nan q
  | .inf s => .inf (!s)
  | .fin s m e => .fin (!s) m e

/-- The value with sign 0. -/
def FV.abs : FV → FV
  | .nan q => .nan q
  | .inf _ => .inf false
  | .fin _ m e => .fin false m e

/-- The value times 2^k. -/
def FV.scale (k : Int) : FV → FV
  | .nan q => .nan q
  | .inf s => .inf s
  | .fin s m e => .fin s m (e + k)

/-- The signed integer s * m. -/
def signedI (s : Bool) (m : Nat) : Int := if s then -(m : Int) else m

/-- The exact sum (R69): infinity minus infinity is invalid, a zero sum has the sign rule of R69. -/
def exAdd (mode : Mode) : FV → FV → FV × Fl
  | .nan a, .nan b => (.nan false, if a || b then flNV else flNone)
  | .nan a, .inf _ => (.nan false, if a then flNV else flNone)
  | .nan a, .fin _ _ _ => (.nan false, if a then flNV else flNone)
  | .inf _, .nan b => (.nan false, if b then flNV else flNone)
  | .fin _ _ _, .nan b => (.nan false, if b then flNV else flNone)
  | .inf s, .inf t => if s == t then (.inf s, flNone) else (.nan false, flNV)
  | .inf s, .fin _ _ _ => (.inf s, flNone)
  | .fin _ _ _, .inf t => (.inf t, flNone)
  | .fin s m e, .fin t n d =>
    let u := if e < d then e else d
    let v := signedI s (m <<< (e - u).toNat) + signedI t (n <<< (d - u).toNat)
    if v = 0 then (.fin (if s == t then s else (match mode with | .rdn => true | .rne | .rtz | .rup | .rna => false)) 0 u, flNone)
    else (.fin (decide (v < 0)) v.natAbs u, flNone)

/-- The exact product: 0 times infinity is invalid (R70). -/
def exMul (a b : FV) : FV × Fl :=
  if a.isNaN || b.isNaN then (.nan false, a.snv ||| b.snv)
  else match a, b with
    | .inf s, .inf t => (.inf (s != t), flNone)
    | .inf s, .fin t m _ => if m = 0 then (.nan false, flNV) else (.inf (s != t), flNone)
    | .fin s m _, .inf t => if m = 0 then (.nan false, flNV) else (.inf (s != t), flNone)
    | .fin s m e, .fin t n d => (.fin (s != t) (m * n) (e + d), flNone)
    | .nan _, .nan _ | .nan _, .inf _ | .nan _, .fin _ _ _ | .inf _, .nan _ | .fin _ _ _, .nan _ => (.nan false, flNone)

/-- Round(a + b). -/
def fAdd (f : Fmt) (mode : Mode) (a b : FV) : Nat × Fl :=
  let (v, fl) := exAdd mode a b
  let (r, fl') := roundF f mode v
  (r, fl ||| fl')

/-- Round(a * b). -/
def fMul (f : Fmt) (mode : Mode) (a b : FV) : Nat × Fl :=
  let (v, fl) := exMul a b
  let (r, fl') := roundF f mode v
  (r, fl ||| fl')

/-- Round(a * b + d), one rounding of the exact value (R279). -/
def fFma (f : Fmt) (mode : Mode) (a b d : FV) : Nat × Fl :=
  let (p, fl) := exMul a b
  let (v, fl2) := exAdd mode p d
  let (r, fl3) := roundF f mode v
  (r, fl ||| fl2 ||| fl3)

/-- Round(a / b): 0/0 and infinity/infinity are invalid, a finite nonzero value over 0 sets DZ (R70). -/
def fDiv (f : Fmt) (mode : Mode) (a b : FV) : Nat × Fl :=
  if a.isNaN || b.isNaN then (f.qnan, a.snv ||| b.snv)
  else match a, b with
    | .inf _, .inf _ => (f.qnan, flNV)
    | .inf s, .fin t _ _ => (infF f (s != t), flNone)
    | .fin s _ _, .inf t => (packF f (s != t) 0 0, flNone)
    | .fin s m e, .fin t n d =>
      if n = 0 then (if m = 0 then (f.qnan, flNV) else (infF f (s != t), flDZ))
      else
        let sh := 64 + bitLen n
        let x := m <<< sh
        roundMag f mode (s != t) (x / n) (e - d - sh) (x % n != 0)
    | .nan _, .nan _ | .nan _, .inf _ | .nan _, .fin _ _ _ | .inf _, .nan _ | .fin _ _ _, .nan _ => (f.qnan, flNone)

/-- floor(sqrt n), by bits from 2^i down. -/
def isqrtBits (n : Nat) : Nat → Nat → Nat
  | 0, r => r
  | i + 1, r => if (r + 2 ^ i) * (r + 2 ^ i) ≤ n then isqrtBits n i (r + 2 ^ i) else isqrtBits n i r

/-- floor(sqrt n). -/
def isqrt (n : Nat) : Nat := isqrtBits n (bitLen n / 2 + 1) 0

/-- Round(sqrt a): the root of -0 is -0, a negative gives NaN with NV (R277). -/
def fSqrt (f : Fmt) (mode : Mode) : FV → Nat × Fl
  | .nan q => (f.qnan, if q then flNV else flNone)
  | .inf s => if s then (f.qnan, flNV) else (infF f false, flNone)
  | .fin s m e =>
    if m = 0 then (packF f s 0 0, flNone)
    else if s then (f.qnan, flNV)
    else
      let sh := 128 + (if (e - 128) % 2 = 0 then 0 else 1)
      let x := m <<< sh
      let r := isqrt x
      roundMag f mode false r ((e - sh) / 2) (r * r != x)

/-- Exact comparison of two values that are no NaN, with -0 equal to +0. -/
def cmpLt : FV → FV → Bool
  | .inf s, .inf t => s && !t
  | .inf s, .fin _ _ _ => s
  | .fin _ _ _, .inf t => !t
  | .fin s m e, .fin t n d =>
    let u := if e < d then e else d
    decide (signedI s (m <<< (e - u).toNat) < signedI t (n <<< (d - u).toNat))
  | .nan _, _ => false
  | _, .nan _ => false

/-- Equality of values, with -0 equal to +0; false for a NaN. -/
def cmpEq (a b : FV) : Bool := !a.isNaN && !b.isNaN && !cmpLt a b && !cmpLt b a

/-- `a` below `b` with -0 below +0 (R277, R84). -/
def cmpBelow (a b : FV) : Bool := cmpLt a b || (cmpEq a b && a.sign && !b.sign)

/-! ### Conversions (R72) -/

/-- A value converted to an integer format (R72): NaN gives 0 with NV, a value outside the range the nearest end with
NV, an inexact value sets NX. -/
def toInt (f : Fmt) (mode : Mode) : FV → Nat × Fl
  | .nan _ => (0, flNV)
  | .inf s => (wrapI f (if s then f.imin else f.imax), flNV)
  | .fin s m e =>
    let (q, inex) := roundTo mode s m e 0 false
    let y := signedI s q
    if y < f.imin then (wrapI f f.imin, flNV)
    else if f.imax < y then (wrapI f f.imax, flNV)
    else (wrapI f y, if inex then flNX else flNone)

/-- Conversion of a value to a format (R72), as a float value. -/
def convV (t : Fmt) (mode : Mode) (x : FV) : Nat × Fl :=
  if t.isInt then toInt t mode x
  else
    let (r, fl) := roundF t mode x
    (r, fl ||| x.snv)

/-- Convert of R280 (R72): integer to integer wraps or saturates, everything else goes through the exact value. -/
def convert (s t : Fmt) (mode : Mode) (sat : Bool) (x : Nat) : Nat × Fl :=
  if s.isInt && t.isInt then (intRes t sat (decodeI s x), flNone) else convV t mode (decodeV s x)

/-- A pattern of a floating format is a NaN. -/
def isNaNPat (f : Fmt) (x : Nat) : Bool := f.isFloat && (decodeF f x).isNaN

end Sys2Proof.Machine
end

