-- ==== Sys2Proof/Machine/Cause.lean ====
section
/-!
DEFINITION. The cause codes of R195 with their kinds and raising engines, the layout of CAUSE (R185), and what a trap
carries.
-/

namespace Sys2Proof.Machine

/-- The causes of R195. -/
inductive Cause where
  | illegalOp | illegalLine | illegalIp | illegalReg | priv | unimpl | misalign | intDivzero | bkpt | swtrap | extentBounds
  | pageNotpresent | pageProt | spaceBad | spaceForeign | spaceBounds | loadTxw | remoteFault | frameExhausted
  | eccUncorrected | tagSlotBad
  | nanFirst | nanFirstMatrix | o4Malformed | scaleNan
  | badHandler | badTask | queueFull | codeLineDenied | flitHeader | payloadBounds
  | vstartBad | gangMismatch | matrixDataError | mparamBad
  | layoutBad | xferFault | xferIdBad
  | ruleInvalid | levelMisaligned | blockFaulted | frontFrozen | bindFull
  | windowBroken | windowMiss | keyHold | linkDown
  | rlcTrapExit | rlcBlockBad
  | budget | deadlock | preempt | leaseLost | featureMismatch
  deriving DecidableEq, Repr

/-- CODE (R195). -/
def Cause.code : Cause → Nat
  | .illegalOp => 0x001 | .illegalLine => 0x002 | .illegalIp => 0x003 | .illegalReg => 0x004 | .priv => 0x005
  | .unimpl => 0x006 | .misalign => 0x007 | .intDivzero => 0x008 | .bkpt => 0x009 | .swtrap => 0x00A
  | .extentBounds => 0x00B
  | .pageNotpresent => 0x040 | .pageProt => 0x041 | .spaceBad => 0x042 | .spaceForeign => 0x043 | .spaceBounds => 0x044
  | .loadTxw => 0x045 | .remoteFault => 0x046 | .frameExhausted => 0x047 | .eccUncorrected => 0x048 | .tagSlotBad => 0x049
  | .nanFirst => 0x080 | .nanFirstMatrix => 0x081 | .o4Malformed => 0x082 | .scaleNan => 0x083
  | .badHandler => 0x0C0 | .badTask => 0x0C1 | .queueFull => 0x0C2 | .codeLineDenied => 0x0C3 | .flitHeader => 0x0C4
  | .payloadBounds => 0x0C5
  | .vstartBad => 0x100 | .gangMismatch => 0x101 | .matrixDataError => 0x102 | .mparamBad => 0x103
  | .layoutBad => 0x140 | .xferFault => 0x141 | .xferIdBad => 0x142
  | .ruleInvalid => 0x180 | .levelMisaligned => 0x181 | .blockFaulted => 0x182 | .frontFrozen => 0x183 | .bindFull => 0x184
  | .windowBroken => 0x1C0 | .windowMiss => 0x1C1 | .keyHold => 0x1C2 | .linkDown => 0x1C3
  | .rlcTrapExit => 0x1E0 | .rlcBlockBad => 0x1E1
  | .budget => 0x1F0 | .deadlock => 0x1F1 | .preempt => 0x1F2 | .leaseLost => 0x1F3 | .featureMismatch => 0x1F5

/-- The cause of a refusal, by its code (R36, R37, R42). -/
def Cause.ofRefusal (n : Nat) : Option Cause :=
  [Cause.badHandler, .badTask, .queueFull, .codeLineDenied, .payloadBounds].find? (fun c => c.code == n)

/-- KIND (R185, R195): P, A, E, F. -/
inductive Kind where
  | p | a | e | f
  deriving DecidableEq, Repr

/-- The kind of a cause (R195). -/
def Cause.kind : Cause → Kind
  | .bkpt | .pageNotpresent => .p
  | .flitHeader | .xferFault | .blockFaulted | .frontFrozen | .windowMiss | .keyHold | .linkDown | .deadlock | .preempt
  | .leaseLost | .featureMismatch => .e
  | .badHandler | .badTask | .queueFull | .codeLineDenied | .payloadBounds => .f
  | .illegalOp | .illegalLine | .illegalIp | .illegalReg | .priv | .unimpl | .misalign | .intDivzero | .swtrap
  | .extentBounds | .pageProt | .spaceBad | .spaceForeign | .spaceBounds | .loadTxw | .remoteFault | .frameExhausted
  | .eccUncorrected | .tagSlotBad | .nanFirst | .nanFirstMatrix | .o4Malformed | .scaleNan | .vstartBad | .gangMismatch
  | .matrixDataError | .mparamBad | .layoutBad | .xferIdBad | .ruleInvalid | .levelMisaligned | .bindFull | .windowBroken
  | .rlcTrapExit | .rlcBlockBad | .budget => .a

/-- The code of a kind (R185). -/
def Kind.code : Kind → Nat
  | .p => 0 | .a => 1 | .e => 2 | .f => 3

/-- The raising engine (R195); where two stand in the table, engine 0 raises it at a fetch. -/
def Cause.engine (fetch : Bool) : Cause → Nat
  | .illegalOp | .illegalLine | .illegalIp | .illegalReg | .priv | .unimpl | .bkpt => 0
  | .intDivzero | .swtrap | .budget => 1
  | .misalign | .extentBounds | .spaceForeign | .spaceBounds | .loadTxw | .tagSlotBad => 2
  | .pageNotpresent | .pageProt | .spaceBad | .eccUncorrected => if fetch then 0 else 2
  | .nanFirst | .o4Malformed | .scaleNan | .vstartBad => 3
  | .nanFirstMatrix | .gangMismatch | .matrixDataError | .mparamBad => 4
  | .layoutBad | .xferFault | .xferIdBad => 5
  | .ruleInvalid | .levelMisaligned | .blockFaulted | .frontFrozen | .bindFull => 6
  | .windowBroken | .windowMiss | .keyHold | .linkDown => 7
  | .rlcTrapExit | .rlcBlockBad => 8
  | .remoteFault | .badHandler | .badTask | .queueFull | .codeLineDenied | .flitHeader | .payloadBounds => 9
  | .frameExhausted | .deadlock | .preempt | .leaseLost | .featureMismatch => 10

/-- CAUSE (R185). -/
def Cause.word (fetch : Bool) (c : Cause) : Word :=
  BitVec.ofNat 64 (c.engine fetch * 4096 + c.kind.code * 1024 + c.code)

/-- What a trap carries (R185, R195): the cause, whether a fetch raised it, TVAL, and TELEM, TTILE and TFMT where its row
names them. -/
structure TrapInfo where
  cause : Cause
  fetch : Bool
  tval  : Word
  telem : Nat
  ttile : Nat
  tfmt  : Nat
  deriving DecidableEq, Repr

/-- A trap with TVAL alone. -/
def mkTrap (c : Cause) (tval : Word) : TrapInfo := ⟨c, false, tval, 0, 0, 0⟩

/-- The stall reasons of R429. -/
inductive Stall where
  | none | fetch | chEmpty | chFull | syncEmpty | memory | fabric | inboxFull | clasp | matrixBusy | vector | fence
  | rfence | fault | lodge | migrating | quantum | keyHold | budgetNear
  deriving DecidableEq, Repr

/-- The code of a stall reason (R429). -/
def Stall.code : Stall → Nat
  | .none => 0 | .fetch => 1 | .chEmpty => 2 | .chFull => 3 | .syncEmpty => 4 | .memory => 5 | .fabric => 6
  | .inboxFull => 7 | .clasp => 8 | .matrixBusy => 9 | .vector => 10 | .fence => 11 | .rfence => 12 | .fault => 13
  | .lodge => 14 | .migrating => 15 | .quantum => 16 | .keyHold => 17 | .budgetNear => 18

/-- The stall reason of a park (R47, R429). -/
def Await.stall : Await → Stall
  | .none => .none
  | .channelEmpty _ => .chEmpty
  | .channelFull _ _ => .chFull
  | .syncEmpty _ => .syncEmpty
  | .xfer _ => .memory
  | .clasp _ => .clasp
  | .phase _ _ => .matrixBusy
  | .rfence => .rfence
  | .pageFault _ _ => .fault
  | .lodge => .lodge
  | .migrate _ => .migrating
  | .shipped => .migrating
  | .quantum => .quantum
  | .bkpt _ => .fault

/-- Whether a park counts against BUDGET (R47). -/
def Await.counts : Await → Bool
  | .channelEmpty _ | .channelFull _ _ | .syncEmpty _ | .xfer _ | .clasp _ | .phase _ _ | .rfence => true
  | .none | .pageFault _ _ | .lodge | .migrate _ | .shipped | .quantum | .bkpt _ => false

end Sys2Proof.Machine
end

