-- ==== Sys2Proof/Machine/Access.lean ====
section
/-!
DEFINITION. Accessors: cores, contexts, partitions, engines, the registers of the running context, logical numbers (R14,
R24, R27), TIME (R59, R172), COORD (R187) and the layouts of the envelope and the message identifier (R35).
-/

namespace Sys2Proof.Machine

/-! ### Cores and contexts -/

/-- A context index. -/
def c4 (n : Nat) : Fin 4 := ⟨n % 4, Nat.mod_lt _ (by decide)⟩

/-- A core. -/
def State.core (s : State) (n : Nat) : CoreSt := AMap.get CoreSt.reset s.cores n

/-- The machine with a core replaced. -/
def State.setCore (s : State) (n : Nat) (c : CoreSt) : State := { s with cores := AMap.set s.cores n c }

/-- The machine with a core changed. -/
def State.onCore (s : State) (n : Nat) (f : CoreSt → CoreSt) : State := s.setCore n (f (s.core n))

/-- A context of a core. -/
def CoreSt.ctx (k : CoreSt) (c : Nat) : Ctx := k.ctxs.get (c4 c)

/-- The core with a context replaced. -/
def CoreSt.setCtx (k : CoreSt) (c : Nat) (x : Ctx) : CoreSt := { k with ctxs := k.ctxs.set (c4 c).val x (c4 c).isLt }

/-- A context. -/
def State.ctx (s : State) (n c : Nat) : Ctx := (s.core n).ctx c

/-- The machine with a context changed. -/
def State.onCtx (s : State) (n c : Nat) (f : Ctx → Ctx) : State := s.onCore n (fun k => k.setCtx c (f (k.ctx c)))

/-- The running context. -/
def State.me (s : State) : Ctx := s.ctx s.cur.1 s.cur.2.val

/-- The machine with the running context changed. -/
def State.onMe (s : State) (f : Ctx → Ctx) : State := s.onCtx s.cur.1 s.cur.2.val f

/-- The running core. -/
def State.myCore (s : State) : CoreSt := s.core s.cur.1

/-- The machine with the running core changed. -/
def State.onMyCore (s : State) (f : CoreSt → CoreSt) : State := s.onCore s.cur.1 f

/-! ### Registers of the running context (R97) -/

/-- g[r]: g0 reads 0. -/
def Ctx.getG (x : Ctx) (r : GReg) : Word := if r = 0 then 0 else x.g.get r

/-- g[r] written: g0 discards. -/
def Ctx.putG (x : Ctx) (r : GReg) (v : Word) : Ctx := if r = 0 then x else { x with g := x.g.set r.val v r.isLt }

/-- k[r]: k0 reads all ones. -/
def Ctx.getK (x : Ctx) (r : KReg) : BitVec 32 := if r = 0 then 0xFFFFFFFF else x.k.get r

/-- k[r] written: k0 discards. -/
def Ctx.putK (x : Ctx) (r : KReg) (v : BitVec 32) : Ctx := if r = 0 then x else { x with k := x.k.set r.val v r.isLt }

/-- v[r]. -/
def Ctx.getV (x : Ctx) (r : VReg) : VWord := x.v.get r

/-- v[r] written. -/
def Ctx.putV (x : Ctx) (r : VReg) (v : VWord) : Ctx := { x with v := x.v.set r.val v r.isLt }

/-- c[r]. -/
def Ctx.getC (x : Ctx) (r : CReg) : Chan := x.c.get r

/-- c[r] written. -/
def Ctx.putC (x : Ctx) (r : CReg) (v : Chan) : Ctx := { x with c := x.c.set r.val v r.isLt }

/-- VIEW[n]: VIEW0 is hard-wired to 0 (R77). -/
def Ctx.getView (x : Ctx) (n : Fin 16) : Word := if n = 0 then 0 else x.view.get n

/-- VIEW[n] written: VIEW0 discards (R77). -/
def Ctx.putView (x : Ctx) (n : Fin 16) (v : Word) : Ctx := if n = 0 then x else { x with view := x.view.set n.val v n.isLt }

/-- G(n) of R108. -/
def State.g (s : State) (r : GReg) : Word := s.me.getG r
/-- SetG(n, x) of R108. -/
def State.setG (s : State) (r : GReg) (v : Word) : State := s.onMe (fun x => x.putG r v)
/-- K(n) of R108. -/
def State.k (s : State) (r : KReg) : BitVec 32 := s.me.getK r
/-- The mask register written. -/
def State.setK (s : State) (r : KReg) (v : BitVec 32) : State := s.onMe (fun x => x.putK r v)
/-- V(n) of R108. -/
def State.v (s : State) (r : VReg) : VWord := s.me.getV r
/-- The vector register written. -/
def State.setV (s : State) (r : VReg) (v : VWord) : State := s.onMe (fun x => x.putV r v)
/-- C(n) of R108. -/
def State.c (s : State) (r : CReg) : Chan := s.me.getC r
/-- The channel register written. -/
def State.setC (s : State) (r : CReg) (v : Chan) : State := s.onMe (fun x => x.putC r v)

/-- SetFlag of R108: flags set sticky in FCSR (R70). -/
def State.flags (s : State) (fl : Fl) : State := s.onMe (fun x => { x with fcsr := fcsrSet x.fcsr fl })

/-- An activation with nothing in it, for a context that holds none. -/
def Act.none : Act := ⟨⟨⟨⟨0, 0, 0, 0, 0, 0, 0, 0⟩, [], [], .plain⟩, 0, 0, 0, false, Option.none⟩, 0, 0, 0, false, false, false⟩

/-- The activation of a context. -/
def Ctx.activation (x : Ctx) : Act := x.act.getD Act.none

/-- The TAG of the running activation. -/
def Ctx.tag (x : Ctx) : Nat := x.activation.m.msg.env.tag

/-- A task entry. -/
def CoreSt.task (k : CoreSt) (t : Nat) : Task := k.tasks.get ⟨t % 8, Nat.mod_lt _ (by decide)⟩

/-- The core with a task entry replaced. -/
def CoreSt.setTask (k : CoreSt) (t : Nat) (x : Task) : CoreSt :=
  { k with tasks := k.tasks.set (t % 8) x (Nat.mod_lt _ (by decide)) }

/-- The task of the running activation. -/
def State.myTask (s : State) : Task := s.myCore.task s.me.tag

/-- A queue, 0 to 3 and 4 for QG. -/
def CoreSt.queue (k : CoreSt) (q : Nat) : List QMsg := k.queues.get ⟨q % 5, Nat.mod_lt _ (by decide)⟩

/-- The core with a queue replaced. -/
def CoreSt.setQueue (k : CoreSt) (q : Nat) (l : List QMsg) : CoreSt :=
  { k with queues := k.queues.set (q % 5) l (Nat.mod_lt _ (by decide)) }

/-- A queue limit. -/
def CoreSt.lim (k : CoreSt) (q : Nat) : Nat := k.qlim.get ⟨q % 5, Nat.mod_lt _ (by decide)⟩

/-- The slots of the inbox in use (R38). -/
def CoreSt.usedSlots (k : CoreSt) : List Nat :=
  k.slotsHeld ++ k.unbound.map (·.slot) ++ (k.queue 0).map (·.slot) ++ (k.queue 1).map (·.slot) ++
    (k.queue 2).map (·.slot) ++ (k.queue 3).map (·.slot) ++ (k.queue 4).map (·.slot)

/-- The lowest slot that is free (log 12). -/
def CoreSt.freeSlot (k : CoreSt) : Option Nat := (upTo 64).find? (fun n => !k.usedSlots.contains n)

/-- An entry of a vector of eight counts. -/
def get8 (v : Vector Nat 8) (n : Nat) : Nat := v.get ⟨n % 8, Nat.mod_lt _ (by decide)⟩

/-- A vector of eight counts with one replaced. -/
def set8 (v : Vector Nat 8) (n x : Nat) : Vector Nat 8 := v.set (n % 8) x (Nat.mod_lt _ (by decide))

/-! ### Partitions (R22-R24) -/

/-- The die of a core (R14). -/
def dieOf (core : Nat) : Nat := core / 512 % 8

/-- The cluster of a core (R14). -/
def clusOf (core : Nat) : Nat := core / 16

/-- The partition of a die, named by its lowest die (R22); the die itself where none is configured. -/
def partKey (parts : AMap Part) (die : Nat) : Nat :=
  match parts.find? (fun e => decide (e.1 ≤ die) && decide (die < e.1 + e.2.dies)) with
  | some e => e.1
  | none => die

/-- The partition of a die. -/
def State.partKey (s : State) (die : Nat) : Nat := Machine.partKey s.parts die

/-- A partition by its lowest die. -/
def State.part (s : State) (p : Nat) : Part := AMap.get Part.reset s.parts p

/-- The machine with a partition changed; where there is no such partition, nothing changes. -/
def State.onPart (s : State) (p : Nat) (f : Part → Part) : State :=
  match AMap.find s.parts p with
  | some P => { s with parts := AMap.set s.parts p (f P) }
  | none => s

/-- The partition of a core. -/
def State.pOf (s : State) (core : Nat) : Nat := s.partKey (dieOf core)

/-- The partition of the running core. -/
def State.myPart (s : State) : Part := s.part (s.pOf s.cur.1)

/-- The partition of a core is in deterministic mode (R61). -/
def State.detAt (s : State) (core : Nat) : Bool := (s.part (s.pOf core)).det

/-- The logical core number of a core (R14, R24). -/
def State.lnum (s : State) (core : Nat) : Nat := if s.detAt core then core - 512 * s.pOf core else core

/-- The core that a logical number names in the partition of a core (R24, R27). -/
def State.knum (s : State) (core l : Nat) : Nat := if s.detAt core then l + 512 * s.pOf core else l

/-- First number and count of the core range of a core's partition (R24, R213). -/
def State.coreRange (s : State) (core : Nat) : Nat × Nat :=
  let p := s.pOf core
  let P := s.part p
  if P.det then (0, P.shape) else (512 * p, 512 * P.dies)

/-- The cores of a partition. -/
def State.partCores (s : State) (p : Nat) : List Nat := (upTo (512 * (s.part p).dies)).map (512 * p + ·)

/-- The first-tier stack of a physical address is in a partition (R132, R137). -/
def stackIn (p dies pa : Nat) : Bool :=
  decide (pa < 2 ^ 39) && decide (p ≤ pa / 2 ^ 36) && decide (pa / 2 ^ 36 < p + dies)

/-! ### TIME (R59, R172) and COORD (R187) -/

/-- TIME at a core: the package's one count, which stands for the counter of every die (log 59), or in deterministic mode the logical time of R59,
at hosted cores too (log 58). -/
def State.timeAt (s : State) (core : Nat) : Nat :=
  let P := s.part (s.pOf core)
  if P.det then P.quanta * (s.core core).quant.toNat + (s.core core).retired else s.time

/-- TIME in the records of a partition's engines: the count, or in deterministic mode the logical time of the quantum end
(R440). -/
def State.engTime (s : State) (p : Nat) : Nat :=
  if (s.part p).det then (s.part p).quanta * (s.core (512 * p)).quant.toNat else s.time

/-- COORD of a core and context (R187). -/
def State.coord (s : State) (core ctx : Nat) : Word :=
  let l := s.lnum core
  BitVec.ofNat 64 ((s.core core).stage.toNat * 2 ^ 40 + l / 16 * 2 ^ 32 + l * 2 ^ 20 + l / 512 * 2 ^ 17 +
    l / 16 % 32 * 2 ^ 12 + l % 16 * 2 ^ 8 + ctx % 4)

/-! ### The envelope (R35) -/

/-- The envelope as a word (R35). -/
def Env.word (e : Env) : Word :=
  BitVec.ofNat 64 (e.src % 4096 * 2 ^ 52 + e.sctx % 4 * 2 ^ 50 + e.qsel % 8 * 2 ^ 47 + e.tag % 8 * 2 ^ 44 +
    e.gen.toNat * 2 ^ 28 + e.plen % 512 * 2 ^ 19 + e.kind % 8 * 2 ^ 16 + e.seq.toNat)

/-- The message identifier (R35). -/
def Env.id (e : Env) : Nat := e.src % 4096 * 2 ^ 18 + e.sctx % 4 * 2 ^ 16 + e.seq.toNat

/-- The message identifier of a context's activation. -/
def Ctx.msgId (x : Ctx) : Nat := x.activation.m.msg.env.id

/-! ### Engines -/

/-- A network interface. -/
def State.ep (s : State) (n : Nat) : Endp := AMap.get Endp.reset s.eps n
/-- The machine with an interface changed. -/
def State.onEp (s : State) (n : Nat) (f : Endp → Endp) : State := { s with eps := AMap.set s.eps n (f (s.ep n)) }
/-- A home. -/
def State.home (s : State) (n : Nat) : Home := AMap.get Home.reset s.homes n
/-- The machine with a home changed. -/
def State.onHome (s : State) (n : Nat) (f : Home → Home) : State := { s with homes := AMap.set s.homes n (f (s.home n)) }
/-- A ring. -/
def State.ring (s : State) (n : Nat) : Ring := AMap.get Ring.reset s.rings n
/-- The machine with a ring changed. -/
def State.onRing (s : State) (n : Nat) (f : Ring → Ring) : State := { s with rings := AMap.set s.rings n (f (s.ring n)) }
/-- A controller. -/
def State.rlc (s : State) (n : Nat) : Rlc := AMap.get Rlc.reset s.rlcs n
/-- The machine with a controller changed. -/
def State.onRlc (s : State) (n : Nat) (f : Rlc → Rlc) : State := { s with rlcs := AMap.set s.rlcs n (f (s.rlc n)) }
/-- A streamer. -/
def State.str (s : State) (n : Nat) : Streamer := AMap.get Streamer.reset s.strs n
/-- The machine with a streamer changed. -/
def State.onStr (s : State) (n : Nat) (f : Streamer → Streamer) : State := { s with strs := AMap.set s.strs n (f (s.str n)) }
/-- A front unit. -/
def State.fu (s : State) (n : Nat) : FrontUnit := AMap.get FrontUnit.reset s.fus n
/-- The machine with a front unit changed. -/
def State.onFu (s : State) (n : Nat) (f : FrontUnit → FrontUnit) : State := { s with fus := AMap.set s.fus n (f (s.fu n)) }
/-- A window engine. -/
def State.win (s : State) (n : Nat) : WinEng := AMap.get WinEng.reset s.wins n
/-- The machine with a window engine changed. -/
def State.onWin (s : State) (n : Nat) (f : WinEng → WinEng) : State := { s with wins := AMap.set s.wins n (f (s.win n)) }
/-- A window link. -/
def State.link (s : State) (n : Nat) : Link := AMap.get Link.reset s.links n
/-- The machine with a link changed. -/
def State.onLink (s : State) (n : Nat) (f : Link → Link) : State := { s with links := AMap.set s.links n (f (s.link n)) }
/-- A firmware core. -/
def State.fw (s : State) (n : Nat) : FwCore := AMap.get FwCore.reset s.fws n
/-- The machine with a firmware core changed. -/
def State.onFw (s : State) (n : Nat) (f : FwCore → FwCore) : State := { s with fws := AMap.set s.fws n (f (s.fw n)) }
/-- A router. -/
def State.router (s : State) (n : Nat) : Router := AMap.get Router.reset s.routers n
/-- The machine with a router changed. -/
def State.onRouter (s : State) (n : Nat) (f : Router → Router) : State :=
  { s with routers := AMap.set s.routers n (f (s.router n)) }
/-- The machine with the package's state changed. -/
def State.onPkg (s : State) (f : Pkg → Pkg) : State := { s with pkg := f s.pkg }
/-- The machine with memory changed. -/
def State.onMem (s : State) (f : Memory → Memory) : State := { s with mem := f s.mem }
/-- The next value of the fresh counter (log 5). -/
def State.tick (s : State) : State := { s with fresh := s.fresh + 1 }

/-- The partition and front entry of a task's front (R332, R348). -/
def State.frontAt (s : State) (p tag num : Nat) : Option Front :=
  s.fronts.find? (fun f => f.part == p && f.tag == tag && f.num == num)

end Sys2Proof.Machine
end

