-- ==== Sys2Proof/Machine/Record.lean ====
section
/-!
DEFINITION. Observation and trap records: counters (R437, R438), the rings (R432-R435), and the trap record of R194 on its
way to disposition (R192, R422).
-/

namespace Sys2Proof.Machine

/-- A counter that counts an event of a die, raised by `n` (R437). -/
def Ctr.bump (c : Ctr) (die ev n : Nat) : Ctr :=
  if c.en && !c.wrote && c.event == ev && (!c.dief || c.die == die) then { c with val := c.val + BitVec.ofNat 64 n } else c

/-- `n` occurrences of a counter event on a die (R438). The counters of a saved partition are saved with it (R439). -/
def State.count (s : State) (die ev n : Nat) : State :=
  match AMap.find s.parts (s.partKey die) with
  | none => s
  | some P =>
    if P.pre = PreSt.saved then s else
    let P' : Part := { P with counters := AMap.mapVals (fun _ c => c.bump die ev n) P.counters }
    { s with parts := AMap.set s.parts (s.partKey die) P' }

/-! ### Rings (R432, R433) -/

/-- A ring of R432 holds as many records as it has slots (R433). -/
def RingReg.isFull (r : RingReg) : Bool := (r.tail - r.head).toNat == 2 ^ r.sizelog

/-- The bytes of a list of words. -/
def wordsBytes (ws : List Word) : List Byte := ws.flatMap (fun w => leBytes 8 w.toNat)

/-- The address of the slot at TAIL (R433). -/
def RingReg.slotAt (r : RingReg) (size : Nat) : Nat := r.base + size * (r.tail.toNat % 2 ^ r.sizelog)

/-- A record written at TAIL, or counted in DROP where the ring is full (R433). -/
def RingReg.put (r : RingReg) (m : Memory) (size : Nat) (ws : List Word) : RingReg × Memory × Bool :=
  if r.isFull then
    ({ r with drop := if r.drop = 0xFFFFFFFF then r.drop else r.drop + 1, lost := r.lost + 1 }, m, false)
  else
    ({ r with tail := r.tail + 1 }, m.setBytes (r.slotAt size) (wordsBytes ws), true)

/-- A record is stored: its slot lies in host memory or in the partition's own first-tier frames (R432, R439). Elsewhere it reaches no memory (log
64). -/
def State.ringOwn (s : State) (p a : Nat) : Bool := hostMem a || stackIn p (s.part p).dies a

/-- A record that is stored in a partition's own frames is a block written to its stacks (R438 0x10). -/
def State.ringCount (s : State) (a : Nat) : State := if firstTier a then s.count (a / 2 ^ 36) 0x10 1 else s

/-- A record put in a ring of a partition (R433): the ring, what it leaves, and whether there was room. -/
def State.putRing (s : State) (p : Nat) (r : RingReg) (size : Nat) (ws : List Word) : RingReg × State × Bool :=
  let (r', m, ok) := r.put s.mem size ws
  (r', if ok && s.ringOwn p (r.slotAt size) then ({ s with mem := m }).ringCount (r.slotAt size) else s, ok)

/-- Word 0 of an event record (R434). -/
def eventWord (time src ev : Nat) : Word := BitVec.ofNat 64 (time % 2 ^ 48 * 2 ^ 16 + src * 2 ^ 12 + ev * 2 ^ 8)

/-- Word 1 of an event record (R434). -/
def eventData (unit data : Nat) : Word := BitVec.ofNat 64 (unit % 4096 * 2 ^ 52 + data % 2 ^ 52)

/-- The die on which an event is raised (R435, R438 0x16): that of the unit, for a streamer of an I/O die that of the copy's issuer (R439), and for
a marker the partition's lowest. -/
def State.eventDie (s : State) (p src unit data : Nat) : Nat :=
  let base := if (s.part p).det then p else 0
  match src with
  | 0 => if 8 ≤ unit ∧ unit < 16 then unit - 8 else base + data / 2 ^ 40 / 512
  | 1 => base + unit / 32
  | 2 => unit
  | 3 => base + unit / 512
  | _ => p

/-- An event record of a partition, preceded by the DROP marker that R433 gives. The flit that carries it costs only time (R440; log 66). -/
def State.putEvent (s : State) (p time src ev unit data : Nat) : State :=
  let r := (s.part p).events
  let (r1, s1, ok1) :=
    if r.lost != 0 && !r.isFull then
      let (r', s', ok) := s.putRing p r 16 [eventWord time 4 0, eventData 0 (r.lost % 2 ^ 32)]
      ({ r' with lost := 0 }, s', ok)
    else (r, s, true)
  let (r2, s2, ok2) := s1.putRing p r1 16 [eventWord time src ev, eventData unit data]
  let s3 := s2.onPart p (fun P => { P with events := r2 })
  if ok1 && ok2 then s3 else s3.count (s.eventDie p src unit data) 0x16 1

/-- An event of a source, recorded where the partition's event ring is on and enables the source (R432, R434); none while the partition is
saved (R436). -/
def State.event (s : State) (p time src ev unit data : Nat) : State :=
  let r := (s.part p).events
  if r.en && (s.part p).pre != PreSt.saved && (src == 4 || r.mask.getLsbD src) then s.putEvent p time src ev unit data else s

/-- An event of a core (R435 source 3), with its logical time (R440). -/
def State.coreEvent (s : State) (core ev data : Nat) : State :=
  s.event (s.pOf core) (s.timeAt core) 3 ev (s.lnum core) data

/-! ### Trap records (R192, R194, R422) -/

/-- The eight words of R194. -/
def recordWords (t : TrapInfo) (tip tmsg : Word) (queue tag p : Nat) (coord : Word) (time : Nat) : List Word :=
  [t.cause.word t.fetch, t.tval, tip, tmsg,
   BitVec.ofNat 64 (t.telem % 2 ^ 16 + t.tfmt % 2 ^ 12 * 2 ^ 16 + queue % 8 * 2 ^ 44 + tag % 8 * 2 ^ 47),
   BitVec.ofNat 64 (t.ttile % 2 ^ 32 + p % 8 * 2 ^ 32), coord, BitVec.ofNat 64 time]

/-- One of the four MSI-X vectors of a partition signalled (R422): 0 trap records, 1 queue status, 2 LEASE-LOST and DEADLOCK, 3 firmware
log entries. -/
def State.msi (s : State) (p k : Nat) : State := s.onPart p (fun P => { P with msix := P.msix ++ [4 * p + k] })

/-- Records written to the host's trap ring while it has room (R422): the record, then TRTAIL, then the vector where TRTAIL moves away
from TRHEAD. -/
def State.trFlush (s : State) (p : Nat) : Nat → State
  | 0 => s
  | n + 1 =>
    let P := s.part p
    let r := P.trRing
    match P.recs with
    | [] => s
    | x :: t =>
      if !P.trapHost || !r.en || 2 ^ r.sizelog ≤ (r.tail - r.head).toNat then s
      else
        let s1 := s.onMem (fun m => m.setBytes (r.base + 64 * (r.tail.toNat % 2 ^ r.sizelog)) (wordsBytes x.words))
        let s2 := s1.onPart p (fun P => { P with recs := t, trRing := { r with tail := r.tail + 1 } })
        (if r.tail = r.head then s2.msi p 0 else s2).trFlush p n

/-- A trap record on its way to disposition. In host-assisted mode a die whose 64 records wait for ring space drops its E records
and counts them (R422). -/
def State.pushRec (s : State) (p : Nat) (r : TrapRec) : State :=
  let P := s.part p
  if P.trapHost && !r.kindA && decide (64 ≤ (P.recs.filter (fun x => x.die == r.die)).length) then
    (s.onPart p (fun P => { P with dropped := P.dropped + 1 })).count r.die 0x17 1
  else (s.onPart p (fun P => { P with recs := P.recs ++ [r] })).trFlush p (P.recs.length + 1)

/-- An E record of a compute die without context (R192, R194), with the engines' time (R440). R193 gives an E record of a context that context's
words, and no rule says which E causes are of one: XFER-FAULT of a copy and BLOCK-FAULTED of an update name none (log 69). -/
def State.recordE (s : State) (p die : Nat) (c : Cause) (tval : Word) (telem : Nat) : State :=
  let t : TrapInfo := ⟨c, false, tval, telem, 0, 0⟩
  s.pushRec p ⟨recordWords t 0 0 0 0 p (BitVec.ofNat 64 (die * 2 ^ 17)) (s.engTime p), die, false, false, 0, 0, 0, 0⟩

/-- An E record of an I/O die (R194 word 6), with the engines' time (R440). -/
def State.recordX (s : State) (p xd : Nat) (c : Cause) (tval : Word) (telem : Nat) : State :=
  let t : TrapInfo := ⟨c, false, tval, telem, 0, 0⟩
  s.pushRec p ⟨recordWords t 0 0 0 0 p (BitVec.ofNat 64 (2 ^ 63 + xd * 2 ^ 17)) (s.engTime p), p, false, false, 0, 0, 0, 0⟩

end Sys2Proof.Machine
end

