-- ==== Sys2Proof/Machine/Net.lean ====
section
/-!
DEFINITION. The network interfaces: the flit header and its CRC-8 (R249, R250), requests and their numbers (R254, R257),
responses (R256), admission (R36-R39), refusals (R42) and the ways a message leaves (R44, R58, R231, R232).
-/

namespace Sys2Proof.Machine

/-! ### CRCs (R250, R377, R378) -/

/-- One step of an MSB-first CRC of width `w`. -/
def crcBit (w poly c : Nat) (bit : Bool) : Nat :=
  let top := (c >>> (w - 1)) % 2 == 1
  let c' := (c <<< 1) % 2 ^ w
  if top != bit then c' ^^^ poly else c'

/-- The CRC of the `n` low bits of a number, most significant first. -/
def crcBits (w poly init x : Nat) : Nat → Nat
  | 0 => init
  | n + 1 => crcBits w poly (crcBit w poly init (x.testBit n)) x n

/-- The header CRC-8: bits 63 down to 8 (R250). -/
def hdrCrc (h : Word) : Nat := crcBits 8 0x07 0 (h.toNat / 256) 56

/-- A header with its CRC. -/
def withCrc (h : Word) : Word := setField h 0 8 (hdrCrc h)

/-- A header (R249) with AGE 0. -/
def mkHdr (dest src kind num idx mlen : Nat) : Word :=
  withCrc (BitVec.ofNat 64 (dest % 4096 * 2 ^ 52 + src % 4096 * 2 ^ 40 + kind % 16 * 2 ^ 24 + num % 32 * 2 ^ 19 +
    idx % 8 * 2 ^ 16 + (if 8 ≤ kind then 2 ^ 15 else 0) + mlen % 8 * 2 ^ 12))

/-- The CRC-16 of a flit's payload: bytes in order, each most significant bit first (R250). -/
def payCrc (l : List Byte) : Nat :=
  crcBits 16 0x1021 0xFFFF (l.foldl (fun a b => a * 256 + b.toNat) 0) (8 * l.length)

/-- 64 payload bytes: those given, then zeros. -/
def pad64 (l : List Byte) : List Byte := (l ++ List.replicate 64 0).take 64

/-- A flit with its payload CRC (R250). -/
def mkFlit (hdr : Word) (pay : List Byte) (b : FlitBody) : Flit := ⟨hdr, pad64 pay, payCrc (pad64 pay), b⟩

/-- The payload check of a flit at ejection (R250). -/
def Flit.crcOk (f : Flit) : Bool := payCrc f.pay == f.crc

/-- An interface's number in a header: core n is n, engine e is e (R252). -/
def epNum (ep : Nat) : Nat := ep % 4096

/-- An interface is an engine's. -/
def isEng (ep : Nat) : Bool := decide (4096 ≤ ep)

/-! ### Requests (R251, R254) -/

/-- The flits of a request (R254, R259). -/
def ReqBody.flits : ReqBody → Nat
  | .msg m => (48 + m.env.plen + 63) / 64
  | .copy _ _ _ _ _ _ _ => 3
  | .rld _ _ _ _ _ _ => 1
  | .rst _ _ _ _ _ _ _ _ _ _ => 2
  | .rat _ _ _ _ _ _ _ _ _ => 1
  | .repl _ _ _ _ _ _ _ => 2
  | .ewr _ bytes _ _ _ => 1 + (bytes.length + 63) / 64
  | .xfer _ bytes _ _ _ => 1 + (bytes.length + 63) / 64
  | .wst _ _ _ => 2
  | .notice _ _ => 1

/-- The bytes of a message at the offsets of R34; a refusal's bytes are the refused message's from offset 8 (R42). -/
def Msg.bytes (m : Msg) : List Byte :=
  wordsBytes (if m.env.kind = 2 then m.env.word :: m.pay else m.env.word :: m.words ++ m.pay)

/-- MODE (R259). -/
def RMode.code : RMode → Nat
  | .plain => 0 | .sync => 1 | .synce => 2 | .fe => 3 | .cancel => 4 | .confirm => 5 | .ret => 6

/-- Word 0 of a remote operation (R259). -/
def remWord (aop : Nat) (sgn : Bool) (asize mode colour ctx : Nat) : Word :=
  BitVec.ofNat 64 (aop % 8 * 2 ^ 45 + (if sgn then 2 ^ 44 else 0) + asize % 4 * 2 ^ 42 + mode % 8 * 2 ^ 39 + colour % 8 * 2 ^ 36 +
    ctx % 4 * 2 ^ 34)

/-- The byte mask of an access within its 64-byte block (R259). -/
def byteMask (pa size : Nat) : Word := BitVec.ofNat 64 ((2 ^ size - 1) * 2 ^ (pa % 64))

/-- The envelope of a request that is no message of R34: source and context. -/
def reqEnv (src ctx : Nat) : Word := (Env.mk (src % 4096) (ctx % 4) 0 0 0 0 0 0).word

/-- A value of `size` bytes at its place in its 64-byte block. -/
def inBlock (pa size val : Nat) : List Byte := leBytes 64 (val % 2 ^ (8 * size) * 2 ^ (8 * (pa % 64)))

/-- The bytes of a request, flit after flit: R34 for a message, R259 for a remote operation, and for a CPREQ an envelope with TAG and TASKGEN and the
16 words of R322. The spec gives no layout for the others (log 20). -/
def ReqBody.bytes (src : Nat) : ReqBody → List Byte
  | .msg m => m.bytes
  | .copy core ctx tag gen rcd sv dv =>
    wordsBytes ((Env.mk (core % 4096) (ctx % 4) 0 tag gen 128 0 0).word :: rcd ++ [sv, dv])
  | .rld m sgn ctx pa size va =>
    wordsBytes [reqEnv src ctx, remWord 0 sgn 0 m.code 0 ctx, BitVec.ofNat 64 pa, va, byteMask pa size, 0]
  | .rst fe _ ctx pa size val col va _ sgn =>
    pad64 (wordsBytes [reqEnv src ctx, remWord 0 sgn 0 (if fe then 3 else 0) col ctx, BitVec.ofNat 64 pa, va, byteMask pa size, 0]) ++
      inBlock pa size val
  | .rat op sgn _ ctx pa size opnd cmp va =>
    wordsBytes [reqEnv src ctx, remWord op sgn (if size = 8 then 3 else 2) 0 0 ctx, BitVec.ofNat 64 pa, va, BitVec.ofNat 64 opnd,
      if op = 7 then BitVec.ofNat 64 cmp else 0]
  | .repl job phase pa size val _ _ =>
    pad64 (wordsBytes [reqEnv src 0, BitVec.ofNat 64 job, BitVec.ofNat 64 pa, BitVec.ofNat 64 phase, byteMask pa size, 0]) ++
      inBlock pa size val
  | .ewr key bytes _ str ch => pad64 (wordsBytes [reqEnv src 0, BitVec.ofNat 64 key, BitVec.ofNat 64 (16 * str + ch)]) ++ bytes
  | .xfer pa bytes _ str ch => pad64 (wordsBytes [reqEnv src 0, BitVec.ofNat 64 pa, BitVec.ofNat 64 (16 * str + ch)]) ++ bytes
  | .wst xd entry st =>
    pad64 (wordsBytes [reqEnv src st.ctx, BitVec.ofNat 64 (512 * xd + entry), st.seq.setWidth 64, BitVec.ofNat 64 st.off, st.ptr]) ++ st.bytes
  | .notice part n =>
    wordsBytes [reqEnv src 0, BitVec.ofNat 64 part, BitVec.ofNat 64 n.dst, BitVec.ofNat 64 n.frm, BitVec.ofNat 64 n.bind, n.level.setWidth 64]

/-- The flits of one request, in index order: flit `i` carries bytes 64 `i` to 64 `i` + 63 (R254). -/
def reqFlits (dest src kind num : Nat) (body : ReqBody) : List Flit :=
  (upTo body.flits).map (fun i =>
    mkFlit (mkHdr (epNum dest) (epNum src) kind num i (body.flits - 1)) ((body.bytes (epNum src)).drop (64 * i)) (.req body))

/-- A number is free for a destination: at most 16 outstanding of one pair and 64 in all, and every outstanding one of the pair among the
16 before the next, so that R255 tells it from a new one (R254, R266). -/
def Endp.canSend (e : Endp) (dest : Nat) : Bool :=
  let mine := e.out.filter (fun o => o.dest == dest)
  decide (mine.length < 16) && decide (e.out.length < 64) && mine.all (fun o => decide ((AMap.get 0 e.nextNum dest + 32 - o.num) % 32 < 16))

/-- A request put on its way with the pair's next number. -/
def Endp.send (e : Endp) (ep now dest kind : Nat) (body : ReqBody) (snd : Sender) (use : OutUse) : Endp :=
  let num := AMap.get 0 e.nextNum dest
  { e with
    nextNum := AMap.set e.nextNum dest ((num + 1) % 32)
    out := e.out ++ [⟨dest, num, kind, body, snd, use, now, 0, none, 0⟩]
    inj0 := e.inj0 ++ reqFlits dest ep kind num body }

/-- Waiting requests put on their way while numbers are free, in order. -/
def Endp.drain (ep now : Nat) : List Backlog → Endp → Endp
  | [], e => { e with backlog := [] }
  | b :: t, e =>
    if e.canSend b.dest then Endp.drain ep now t (e.send ep now b.dest b.kind b.body b.snd b.use)
    else { e with backlog := b :: t }

/-- A request of an interface for whoever learns its answer, sent or left waiting for a number (R248, R254). -/
def State.sendUse (s : State) (ep dest kind : Nat) (body : ReqBody) (snd : Sender) (use : OutUse) : State :=
  s.onEp ep (fun e =>
    if e.backlog.isEmpty && e.canSend dest then e.send ep s.time dest kind body snd use
    else { e with backlog := e.backlog ++ [⟨dest, kind, body, snd, use⟩] })

/-- A request of an interface whose answer goes to the one that its body names. -/
def State.sendReq (s : State) (ep dest kind : Nat) (body : ReqBody) (snd : Sender) : State := s.sendUse ep dest kind body snd .reply

/-- A sender that keeps nothing for a refusal. -/
def Sender.none : Sender := ⟨0, 0, 0, 0⟩

/-! ### Responses (R255, R256) -/

/-- The response kind between two interfaces (R251). -/
def rspKind (dst src : Nat) : Nat :=
  match isEng dst, isEng src with
  | false, true => 8
  | false, false => 9
  | true, false => 10
  | true, true => 11

/-- STATUS (R256). -/
def RspSt.code : RspSt → Nat
  | .done => 0 | .busy => 1 | .refused => 2 | .held => 3 | .fault => 4

/-- The response word (R256): CAUSE is 0 but with REFUSED and FAULT. -/
def Rsp.word (r : Rsp) : Word :=
  BitVec.ofNat 64 (r.st.code * 2 ^ 60 + (if r.st = .refused ∨ r.st = .fault then r.cause % 512 * 2 ^ 51 else 0))

/-- The flits of a response: the response word with the data of an atomic in word 1, and for a read a second flit with the block (R256). -/
def rspFlits (dst ep num : Nat) (r : Rsp) : List Flit :=
  let n := if r.blk.isEmpty then 0 else 1
  let h := fun i => mkHdr (epNum dst) (epNum ep) (rspKind dst ep) num i n
  mkFlit (h 0) (wordsBytes [r.word, BitVec.ofNat 64 r.val]) (.rsp r) ::
    (if r.blk.isEmpty then [] else [mkFlit (h 1) r.blk (.rsp r)])

/-- The final responses that an interface keeps, with one more: the last 16 of each pair, where an earlier answer under the same number makes room
for the new one (R255). -/
def keepRsp (l : List Kept) (k : Kept) : List Kept :=
  let mine := l.filter (fun x => x.src == k.src && x.num != k.num)
  l.filter (fun x => x.src != k.src) ++ mine.drop (mine.length - 15) ++ [k]

/-- A response put on its way. -/
def State.sendRsp (s : State) (ep dst num : Nat) (r : Rsp) : State := s.onEp ep (fun e => { e with inj1 := e.inj1 ++ rspFlits dst ep num r })

/-- The response to a request: it is put on its way, and kept where it is final (R255). -/
def State.respond (s : State) (ep dst num : Nat) (r : Rsp) : State :=
  (s.sendRsp ep dst num r).onEp ep (fun e =>
    { e with kept := if r.st == .done || r.st == .refused || r.st == .fault then keepRsp e.kept ⟨dst, num, r⟩ else e.kept })

/-- A response without data. -/
def Rsp.plain (st : RspSt) (cause : Nat) : Rsp := ⟨st, cause, 0, [], false⟩

/-- DONE without data. -/
def Rsp.ok : Rsp := Rsp.plain .done 0

/-- A response to whoever waits for it. -/
def State.respondTo (s : State) (ep : Nat) (o : Option (Nat × Nat)) (r : Rsp) : State :=
  match o with
  | none => s
  | some (dst, num) => s.respond ep dst num r

/-! ### Requests that have come in order (R255) -/

/-- The sorts of request that an interface takes apart. -/
inductive ReqSort where
  | msg | copy | read | write | atomic | repl | ewr | xfer | wst | notice
  deriving DecidableEq, Repr

/-- The sort of a request. -/
def ReqBody.sort : ReqBody → ReqSort
  | .msg _ => .msg | .copy _ _ _ _ _ _ _ => .copy | .rld _ _ _ _ _ _ => .read | .rst _ _ _ _ _ _ _ _ _ _ => .write
  | .rat _ _ _ _ _ _ _ _ _ => .atomic | .repl _ _ _ _ _ _ _ => .repl | .ewr _ _ _ _ _ => .ewr | .xfer _ _ _ _ _ => .xfer
  | .wst _ _ _ => .wst | .notice _ _ => .notice

/-- The request of an interface that is next for its pair and that `p` accepts, with the ones left (R255). -/
def Endp.due (e : Endp) (p : InReq → Bool) : Option (InReq × List InReq) :=
  takeFirst (fun r => r.num == AMap.get 0 e.expect r.src && p r) e.ready

/-- A request taken: the pair's expected number advances (R255). -/
def State.took (s : State) (ep : Nat) (r : InReq) (left : List InReq) : State :=
  s.onEp ep (fun e => { e with ready := left, expect := AMap.set e.expect r.src ((r.num + 1) % 32) })

/-- A request answered BUSY: it is not taken, and its source sends it again (R255, R257). -/
def State.busy (s : State) (ep : Nat) (r : InReq) (left : List InReq) : State :=
  (s.onEp ep (fun e => { e with ready := left })).respond ep r.src r.num (Rsp.plain .busy 0)

/-! ### Admission (R36-R39) -/

/-- The outcome of admission. -/
inductive Adm where
  | queued | unbound | refused (c : Cause) | discarded | waits
  deriving DecidableEq, Repr

/-- The queue of a message (R39). -/
def queueOf (die : Nat) (e : Env) : Nat :=
  if e.kind = 2 then 0
  else if 3 ≤ e.kind then e.qsel % 5
  else if e.src / 512 != die || e.qsel == 4 then 4 else e.qsel % 5

/-- The handler of a message lies in the task's bounds (R36 step 5). -/
def inBounds (t : Task) (ip : Word) : Bool :=
  let la := bitsNat ip 6 54 * 64
  decide (t.base ≤ la) && decide (la < t.lim)

/-- A failed check of admission: kinds 2 to 5 are discarded and counted, the others refused (R36). -/
def State.admFail (s : State) (core kind : Nat) (c : Cause) : State × Adm :=
  if 2 ≤ kind then (s.count (dieOf core) 0x07 1, .discarded) else (s, .refused c)

/-- A message placed by its arrival among those of a queue that are not held (R40, R41, R46). -/
def placeIn (l : List QMsg) (m : QMsg) : List QMsg :=
  l.filter (·.held) ++ insertBy (fun x y => decide (x.arrival ≤ y.arrival)) m (l.filter (fun x => !x.held))

/-- A message placed in a slot and a queue, where its arrival at the interface puts it (R36 step 7, R40). -/
def State.enqueue (s : State) (core slot : Nat) (m : Msg) (arrival : Nat) : State :=
  let q := queueOf (s.lnum core / 512) m.env
  let x : QMsg := ⟨m, slot, arrival, s.timeAt core, false, none⟩
  (s.onCore core (fun k => k.setQueue q (placeIn (k.queue q) x))).onMem (fun mm => mm.setBytes (inboxKey core (512 * slot)) m.bytes)

/-- Steps 3 to 7 of R36. `slot` is the slot that the message already holds in the unbound queue, `arrival` when it came to the interface. -/
def State.admitFrom3 (s : State) (core : Nat) (m : Msg) (slot : Option Nat) (arrival : Nat) : State × Adm :=
  let k := s.core core
  let t := k.task m.env.tag
  let e := m.env
  if e.gen != t.gen then s.admFail core e.kind .badTask
  else if e.kind = 1 && !t.cline then s.admFail core e.kind .codeLineDenied
  else if e.kind = 1 && decide (e.plen < 80) then s.admFail core e.kind .payloadBounds
  else if e.kind != 1 && !inBounds t (m.words.getD 0 0) then s.admFail core e.kind .badHandler
  else
    let sl := match slot with | some n => some n | none => k.freeSlot
    if e.kind ≤ 1 then
      let q := queueOf (s.lnum core / 512) e
      match sl with
      | some n => if (k.queue q).length < k.lim q then (s.enqueue core n m arrival, .queued) else (s, .refused .queueFull)
      | none => (s, .refused .queueFull)
    else match sl with
      | some n => (s.enqueue core n m arrival, .queued)
      | none => (s, .waits)

/-- R36 and R37: one message at the interface of a core. -/
def State.enters (s : State) (core : Nat) (m : Msg) (o : Option (Nat × Nat)) (arrival : Nat) : State × Adm :=
  let k := s.core core
  let t := k.task m.env.tag
  match t.st with
  | .invalid => s.admFail core m.env.kind .badTask
  | .binding =>
    match k.freeSlot with
    | some n =>
      if k.unbound.length < 16 then
        (((s.onCore core (fun k => { k with unbound := k.unbound ++ [⟨m, n, arrival, s.timeAt core, false, o⟩] })).onMem
          (fun mm => mm.setBytes (inboxKey core (512 * n)) m.bytes)), .unbound)
      else if m.env.kind ≤ 1 then (s, .refused .queueFull) else (s, .waits)
    | none => if m.env.kind ≤ 1 then (s, .refused .queueFull) else (s, .waits)
  | .valid => s.admitFrom3 core m none arrival

/-- A message of kind 2 to 5 at the interface of a core: admitted, discarded, or left to wait there behind the messages
that wait already (R36). The sender's answer follows when the message leaves the interface. -/
def State.deliverHere (s : State) (core : Nat) (m : Msg) (o : Option (Nat × Nat)) : State :=
  let w : AtIf := ⟨m, o, false, s.timeAt core⟩
  if !(s.core core).waiting.isEmpty then s.onCore core (fun k => { k with waiting := k.waiting ++ [w] })
  else
    match s.enters core m o w.arrival with
    | (s', .queued) => s'.respondTo core o .ok
    | (s', .unbound) => s'.respondTo core o (Rsp.plain .held 0)
    | (s', .discarded) => s'.respondTo core o .ok
    | (s', .refused _) => s'.respondTo core o .ok
    | (s', .waits) => s'.onCore core (fun k => { k with waiting := k.waiting ++ [w] })

/-- A launch message at the interface of a core (R413): it skips step 6 of R36 and waits for a slot; one whose task has ended
meanwhile is discarded and counted (R414). -/
def State.admitLaunch (s : State) (core : Nat) (m : Msg) (arrival : Nat) : State × Adm :=
  let k := s.core core
  let t := k.task m.env.tag
  if t.st != .valid || m.env.gen != t.gen then (s.count (dieOf core) 0x07 1, .discarded)
  else match k.freeSlot with
    | some n => (s.enqueue core n m arrival, .queued)
    | none => (s, .waits)

/-- A launch message injected at a core. -/
def State.launchHere (s : State) (core : Nat) (m : Msg) : State :=
  let w : AtIf := ⟨m, none, true, s.timeAt core⟩
  if !(s.core core).waiting.isEmpty then s.onCore core (fun k => { k with waiting := k.waiting ++ [w] })
  else
    match s.admitLaunch core m w.arrival with
    | (s', .waits) => s'.onCore core (fun k => { k with waiting := k.waiting ++ [w] })
    | (s', .queued) | (s', .unbound) | (s', .refused _) | (s', .discarded) => s'

/-! ### Refusals (R42) -/

/-- The refusal of a message: built from the sender's copy, with the REFUSE in force when it left (R42). `target` is the
target's logical number. R42 gives KIND, SRC, SCTX, PLEN and SEQ of its own envelope and no QSEL: it keeps that of the refused message (log 69). -/
def refusalMsg (m : Msg) (snd : Sender) (target : Nat) (c : Cause) : Msg :=
  ⟨{ m.env with kind := 2, tag := snd.tag, gen := snd.gen, plen := 40 + m.env.plen },
   [snd.refuse, BitVec.ofNat 64 c.code, BitVec.ofNat 64 m.env.id, BitVec.ofNat 64 (target % 4096 + m.env.qsel * 4096), m.words.getD 0 0],
   m.words ++ m.pay, .plain⟩

/-- A message refused: the refusal goes to the sender's own core, or is discarded and counted where REFUSE held 0. In
deterministic mode it is held for the quantum's end (R58). -/
def State.refuse (s : State) (core : Nat) (m : Msg) (snd : Sender) (target : Nat) (c : Cause) : State :=
  if snd.refuse = 0 then s.count (dieOf core) 0x07 1
  else
    let r := refusalMsg m snd target c
    let s1 := (s.count (dieOf core) 0x06 1).coreEvent core 2 (c.code * 2 ^ 32 + m.env.id)
    if s.detAt core then
      s1.onPart (s.pOf core) (fun P => { P with taskq := P.taskq ++ [⟨core, snd.ctx, core, r, Sender.none, none, s.timeAt core⟩] })
    else s1.deliverHere core r none

/-! ### Messages leaving (R44, R58, R231, R232) -/

/-- A message leaves a core for a logical number of its core range (R24). A number outside the range is refused by the
sender's own interface with BAD-TASK (R231). In deterministic mode the message waits in the hardware task queue (R58). -/
def State.leave (s : State) (core : Nat) (snd : Sender) (o : OutMsg) : State :=
  let s := s.count (dieOf core) 0x05 1
  let (b, n) := s.coreRange core
  if o.dest < b || b + n ≤ o.dest then s.refuse core o.msg snd o.dest .badTask
  else if s.detAt core then
    s.onPart (s.pOf core) (fun P => { P with taskq := P.taskq ++ [⟨core, snd.ctx, s.knum core o.dest, o.msg, snd, none, s.timeAt core⟩] })
  else s.sendReq core (s.knum core o.dest) 0 (.msg o.msg) snd

/-- Messages leave in order. -/
def State.leaveAll (s : State) (core : Nat) (snd : Sender) (l : List OutMsg) : State := l.foldl (fun s o => s.leave core snd o) s

/-- A core's interface can keep the messages that are to leave (R232, R254). In deterministic mode the task queue takes every message. -/
def State.canLeave (s : State) (core : Nat) (l : List OutMsg) : Bool :=
  let e := s.ep core
  s.detAt core || l.isEmpty || (decide (e.out.length + l.length ≤ 64) && e.backlog.isEmpty &&
    l.all (fun o =>
      let k := (l.filter (fun x => x.dest == o.dest)).length
      let mine := e.out.filter (fun x => x.dest == o.dest)
      decide (mine.length + k ≤ 16) && mine.all (fun x => decide ((AMap.get 0 e.nextNum o.dest + 32 - x.num) % 32 + k ≤ 16))))

/-- A message of an engine to a core (EMSG of R251), on behalf of a requester (R58); `born` is TIME at what asked for it. -/
def State.engineMsg (s : State) (eng core ctx dest : Nat) (m : Msg) (born : Nat) : State :=
  if s.detAt dest then
    s.onPart (s.pOf dest) (fun P => { P with taskq := P.taskq ++ [⟨core, ctx, dest, m, Sender.none, none, born⟩] })
  else s.sendReq (4096 + eng) dest 1 (.msg m) Sender.none

end Sys2Proof.Machine
end

