-- ==== Sys2Proof/Machine/FrontOps.lean ====
section
/-!
DEFINITION. The level boards: blocks, neighbours, fronts and their states, the end of an update activation, commits and
notices (R332-R349).
-/

namespace Sys2Proof.Machine

/-- SerialGE of R108, R339. -/
def serialGE (a b : BitVec 32) : Bool := decide ((a - b).toNat < 2 ^ 31)

/-- The die whose front unit holds a block of a partition (R332). -/
def State.fuOf (s : State) (p id : Nat) : Nat := if (s.part p).det then p + id / 4096 else id / 4096

/-- A bound block of a partition: an id of a die outside it is bound to nothing. -/
def State.blk (s : State) (p id : Nat) : Option Blk :=
  let d := s.fuOf p id
  if p ≤ d && d < p + (s.part p).dies then AMap.find (s.fu d).board (id % 4096) else none

/-- The board with a block written. -/
def State.setBlk (s : State) (p id : Nat) (b : Blk) : State :=
  s.onFu (s.fuOf p id) (fun u => { u with board := AMap.set u.board (id % 4096) b })

/-- The board with an entry UNBOUND. -/
def State.delBlk (s : State) (p id : Nat) : State :=
  s.onFu (s.fuOf p id) (fun u => { u with board := AMap.del u.board (id % 4096) })

/-- The blocks bound in a partition with their ids, in ascending id. -/
def State.blks (s : State) (p : Nat) : List (Nat × Blk) :=
  (upTo (s.part p).dies).flatMap (fun i =>
    (s.fu (p + i)).board.map (fun e => ((if (s.part p).det then i else p + i) * 4096 + e.1, e.2)))

/-- The step of a block (R332). -/
def Blk.step (b : Blk) : BitVec 32 := BitVec.ofNat 32 (2 ^ b.steplog)

/-- A block is of a front. -/
def Blk.inFront (b : Blk) (tag num : Nat) : Bool := b.tag == tag && b.front == num

/-- The blocks of a front. -/
def State.frontBlks (s : State) (p tag num : Nat) : List (Nat × Blk) := (s.blks p).filter (fun e => e.2.inFront tag num)

/-- The state of a front; RUNNING where none is recorded (R348). -/
def State.frontSt (s : State) (p tag num : Nat) : FrontSt :=
  match s.frontAt p tag num with
  | some f => f.st
  | none => .running

/-- The state of a front set. -/
def State.setFront (s : State) (p tag num : Nat) (st : FrontSt) : State :=
  { s with fronts := s.fronts.filter (fun f => !(f.part == p && f.tag == tag && f.num == num)) ++ [⟨p, tag, num, st⟩] }

/-- FREEZING becomes FROZEN when no block of the front is DISPATCHED: FRONT-FROZEN, raised at the partition's lowest die (log 53), and
its event (R348, R435). -/
def State.checkFrozen (s : State) (p tag num : Nat) : State :=
  let bs := s.frontBlks p tag num
  if s.frontSt p tag num = .freezing && !bs.any (fun e => e.2.st == .dispatched) then
    ((s.setFront p tag num .frozen).recordE p p .frontFrozen (BitVec.ofNat 64 bs.length) 0).event p (s.engTime p) 2 2 p num
  else s

/-- RUNNING becomes FREEZING (R348). -/
def State.freezeFront (s : State) (p tag num : Nat) : State :=
  let s1 := if s.frontSt p tag num = .running then s.setFront p tag num .freezing else s
  s1.checkFrozen p tag num

/-- Some neighbour that a block names is unbound. -/
def State.nbrUnbound (s : State) (p : Nat) (b : Blk) : Bool := b.nbrs.any (fun n => (s.blk p n.id).isNone)

/-- A block has reached its end level. -/
def Blk.atEnd (b : Blk) : Bool := b.endv && b.level == b.endl

/-- The state of a block that is bound, or that hears of a binding (R351). -/
def State.bindSt (s : State) (p : Nat) (b : Blk) : BlkSt :=
  if s.nbrUnbound p b then .pending else if b.atEnd then .done else .waiting

/-- The state of a block whose update has ended without an abort, after its LVCOMMIT or not (R342); PENDING in place of WAITING where a linked
neighbour has been unbound meanwhile (R353). -/
def State.endSt (s : State) (p : Nat) (b : Blk) (committed : Bool) : BlkSt :=
  if committed && b.atEnd then .done
  else if b.nbrs.any (fun n => n.rel != .none && (s.blk p n.id).isNone) then .pending else .waiting

/-- The end of an update activation (R342), with the freeze of R348 where it aborted. -/
def State.updateEnd (s : State) (p id : Nat) (faulty committed : Bool) : State :=
  match s.blk p id with
  | none => s
  | some b =>
    if b.st != .dispatched then s
    else if faulty then
      ((s.setBlk p id { b with st := .faulted }).recordE p (s.fuOf p id) .blockFaulted (BitVec.ofNat 64 id) 0).freezeFront
        p b.tag b.front
    else (s.setBlk p id { b with st := s.endSt p b committed }).checkFrozen p b.tag b.front

/-- A neighbour entry of `b` for `n`, or NONE (R337). -/
def Blk.relTo (b : Blk) (n : Nat) : RelT :=
  match b.nbrs.find? (fun x => x.id == n) with
  | some x => x.rel
  | none => .none

/-- A notice that has reached the front unit of a die. -/
def State.hearNotice (s : State) (die : Nat) (n : Notice) : State := s.onFu die (fun u => { u with notices := u.notices ++ [n] })

/-- The notices of a commit, one for each linked neighbour (R347): to an entry of the block's own front unit at once, to that of another die as
a transfer on the fabric. A neighbour that names the block with NONE gets none. -/
def State.sendNotices (s : State) (p id : Nat) (b : Blk) : State :=
  let d := s.fuOf p id
  b.nbrs.foldl (fun s n =>
    match s.blk p n.id with
    | none => s
    | some nb =>
      let d' := s.fuOf p n.id
      if nb.relTo id = .none then s
      else if d' = d then s.hearNotice d ⟨n.id, id, b.bind, b.level⟩
      else s.sendReq (4096 + 0x20 + d) (4096 + 0x20 + d') 7 (.notice p ⟨n.id, id, b.bind, b.level⟩) Sender.none) s

/-- A block's new level on the board, its commit event and its counter (R347, R355, R435). Its front unit dispatches nothing more in this cycle, so
that what depends on the level carries a greater TIME (R436). -/
def State.setLevel (s : State) (p id : Nat) (lv : BitVec 32) : State :=
  match s.blk p id with
  | none => s
  | some b =>
    (((s.setBlk p id { b with level := lv }).onFu (s.fuOf p id) (fun u => { u with doneAt := some s.time })).event p (s.engTime p) 2 1 (s.fuOf p id) (id * 2 ^ 32 + lv.toNat)).count (s.fuOf p id) 0x14 1

/-- A notice applied: the copy moves only forward (R333). One to a freed id (R353), or of a binding that has gone, is dropped. -/
def State.applyNotice (s : State) (p : Nat) (n : Notice) : State :=
  match s.blk p n.dst with
  | none => s
  | some b => if (s.blk p n.frm).all (fun f => f.bind != n.bind) then s else s.setBlk p n.dst { b with nbrs := b.nbrs.map (fun x =>
      if x.id == n.frm && serialGE n.level x.copy then { x with copy := n.level } else x) }

/-- The notices of a commit applied at once, as at a quantum's end (R349). -/
def State.tellNbrs (s : State) (p id : Nat) (lv : BitVec 32) : State :=
  match s.blk p id with
  | none => s
  | some b => b.nbrs.foldl (fun s n =>
      match s.blk p n.id with
      | none => s
      | some nb => if nb.relTo id = .none then s else s.applyNotice p ⟨n.id, id, b.bind, lv⟩) s

/-- Rule-ready for a neighbour (R336). -/
def Blk.ready (b : Blk) (n : Nbr) : Bool :=
  match n.rel with
  | .none => true
  | .sync => serialGE n.copy b.level
  | .ahead | .feed => serialGE n.copy (b.level + b.step)

/-- Runnable (R340). -/
def State.runnable (s : State) (p : Nat) (b : Blk) : Bool :=
  s.frontSt p b.tag b.front == .running && b.st == .waiting && b.nbrs.all b.ready

/-- The code of a block's state (R332). -/
def BlkSt.code : BlkSt → Nat
  | .unbound => 0 | .pending => 1 | .waiting => 2 | .dispatched => 3 | .done => 4 | .faulted => 5

/-- FSTATE (R354). -/
def FrontSt.code : FrontSt → Nat
  | .running => 0 | .freezing => 1 | .frozen => 2

/-- The code of a relation (R335). -/
def RelT.code : RelT → Nat
  | .none => 0 | .sync => 1 | .ahead => 2 | .feed => 3

/-- The pointer `k` bytes on, within 60 bits. -/
def ptrAdd (p : Word) (k : Nat) : Word := setField p 0 60 (p.toNat % 2 ^ 60 + k)

/-- The face buffer of a level (R344). -/
def Blk.faceAt (b : Blk) (lv : BitVec 32) : Word := if lv.getLsbD b.steplog then ptrAdd b.face b.fsize else b.face

/-- Word 0 of a snapshot entry (R341). -/
def Nbr.word0 (n : Nbr) (steplog : Nat) : Word := BitVec.ofNat 64 (n.copy.toNat * 2 ^ 32 + steplog % 32 * 2 ^ 24 + n.rel.code * 2 ^ 16 + n.id)

/-- The snapshot entries of a dispatch (R341). What one would hold of the binding of a neighbour that LVUNBIND has freed is a free value (log 5). -/
def State.snapshot (s : State) (p : Nat) (b : Blk) : List Word :=
  b.nbrs.flatMap (fun n =>
    match s.blk p n.id with
    | none => n.word0 (Config.freeNbr s.fresh n.id 0).toNat :: [1, 2, 3].map (Config.freeNbr s.fresh n.id)
    | some nb => [n.word0 nb.steplog, nb.interp, nb.faceAt (n.copy - nb.step), nb.faceAt n.copy])

/-- The dispatch message of a block (R340). g4 is set at the activation's start. -/
def State.dispatchMsg (s : State) (p id : Nat) (b : Blk) : Msg :=
  ⟨⟨s.lnum b.core, 0, b.qsel, b.tag, b.gen, 32 * b.nbrs.length, 4, BitVec.ofNat 16 b.count⟩,
   [b.updip, BitVec.ofNat 64 id, b.level.setWidth 64, b.step.setWidth 64, 0], s.snapshot p b, .dispatch id⟩

/-- A block dispatched by its front unit (R340): DISPATCHED, its message, event and counter. -/
def State.dispatch (s : State) (p id : Nat) (b : Blk) : State :=
  let d := s.fuOf p id
  let s1 := s.setBlk p id { b with st := .dispatched, count := b.count + 1 }
  let s2 := (s1.onFu d (fun u => { u with scan := (id + 1) % 4096 })).engineMsg (0x20 + d) b.core 0 b.core (s.dispatchMsg p id b) (s.engTime p)
  ((s2.event p (s.engTime p) 2 0 d (id * 2 ^ 32 + b.level.toNat)).count d 0x13 1).tick

end Sys2Proof.Machine
end

