-- ==== Sys2Proof/Machine/RlcOps.lean ====
section
/-!
DEFINITION. The refinement loop controller: its command block, phases, tests and exits (R392-R399), as events that act at
once, or in deterministic mode at the quantum's end (R406).
-/

namespace Sys2Proof.Machine

/-- A word of a command block. -/
def RCmd.w (c : RCmd) (n : Nat) : Word := c.blk.getD n 0

/-- The code of a phase (R395). -/
def RPhase.code : RPhase → Nat
  | .factor => 0 | .solveB => 1 | .solveR => 2 | .update => 3 | .residual => 4

/-- The mask of a phase (R392 word 7). -/
def RCmd.mask (c : RCmd) : RPhase → Nat
  | .factor => bitsNat (c.w 7) 0 16
  | .solveB | .solveR => bitsNat (c.w 7) 16 16
  | .update => bitsNat (c.w 7) 32 16
  | .residual => bitsNat (c.w 7) 48 16

/-- The handler of a phase (R392 words 8-11). -/
def RCmd.handler (c : RCmd) : RPhase → Word
  | .factor => c.w 8
  | .solveB | .solveR => c.w 9
  | .update => c.w 10
  | .residual => c.w 11

/-- The cores of a mask, in ascending order. -/
def maskCores (m : Nat) : List Nat := (upTo 16).filter (fun i => m.testBit i)

/-- An envelope of a controller's message (R394): SRC the issuing core; the SEQ is a free value (log 5). -/
def State.rlcEnv (s : State) (c : RCmd) (q kind : Nat) : Env :=
  ⟨s.lnum c.core, c.ctx, q, c.tag, c.gen, 0, kind, Config.freeSeq s.fresh⟩

/-- A phase dispatched (R395): one message to each core of its mask. -/
def State.rlcDispatch (s : State) (cl : Nat) (r : RRun) (ph : RPhase) : State :=
  let serial := (s.rlc cl).serial + 1
  let cores := maskCores (r.cmd.mask ph)
  let r' : RRun := { r with phase := ph, serial := serial, reports := [], sent := r.sent ++ cores.map (fun k => (serial, k)) }
  let s1 := s.onRlc cl (fun x => { x with run := some r', serial := serial })
  let g2 : Word := BitVec.ofNat 64 (ph.code + r.rung * 2 ^ 8 + r.i % 2 ^ 32 * 2 ^ 16)
  let g3 : Word := BitVec.ofNat 64 (bitsNat (r.cmd.w 0) (32 + 4 * r.rung) 4)
  cores.foldl (fun s k =>
    (s.engineMsg (0x100 + cl) r.cmd.core r.cmd.ctx (16 * cl + k)
      ⟨s.rlcEnv r.cmd (bitsNat (r.cmd.w 0) 26 3) 5, [r.cmd.handler ph, r.cmd.ptr, g2, g3, r.cmd.w 13], [], .phase cl serial⟩ (s.engTime (s.pOf (16 * cl)))).tick) s1

/-- A command starts at rung 0 with FACTOR (R396). -/
def State.rlcStart (s : State) (cl : Nat) (c : RCmd) : State :=
  let r : RRun := ⟨c, .factor, 0, 0, 0, 0, none, 0, true, 0, [], [], none⟩
  (s.onRlc cl (fun x => { x with latest := AMap.set x.latest c.core ⟨c.ptr, .running, 0, 0, 0⟩ })).rlcDispatch cl r .factor

/-- A command that ends (R399): words 14 and 15 written, then the exit message. -/
def State.rlcFinish (s : State) (cl : Nat) (c : RCmd) (code rung i total : Nat) (norm : Word) : State :=
  let w14 : Nat := code + rung * 2 ^ 8 + total % 2 ^ 32 * 2 ^ 16
  let s1 := s.onMem (fun m => c.k15.foldl (fun m k => m.store k 8 norm.toNat) (c.k14.foldl (fun m k => m.store k 8 w14) m))
  let s2 := s1.onRlc cl (fun x => { x with latest := AMap.set x.latest c.core ⟨c.ptr, .ended, code, i, rung⟩ })
  (s2.engineMsg (0x100 + cl) c.core c.ctx (16 * cl + bitsNat (c.w 0) 19 4)
    ⟨s.rlcEnv c (bitsNat (c.w 0) 23 3) 3, [c.w 12, c.ptr, BitVec.ofNat 64 w14, norm, c.w 13], [],
      .rlcExit code ((c.w 1).getLsbD (6 + code))⟩ (s.engTime (s.pOf (16 * cl)))).tick

/-- The command at the head of the queue starts when none runs (R394, R396), unless pre-emption holds dispatch (R406). -/
def State.rlcNext (s : State) (cl : Nat) : State :=
  match (s.rlc cl).run, (s.rlc cl).queue with
  | none, c :: t =>
    if (s.part (s.pOf (16 * cl))).pre = .running then (s.onRlc cl (fun x => { x with queue := t })).rlcStart cl c else s
  | _, _ => s

/-- EXIT of R396. -/
def State.rlcExit (s : State) (cl : Nat) (r : RRun) (code : Nat) : State :=
  ((s.onRlc cl (fun x => { x with run := none })).rlcFinish cl r.cmd code r.rung r.i r.total r.norm).rlcNext cl

/-- The norm of R397: the reports summed in ascending core order, then the square root where SQRT is set. -/
def RRun.formNorm (r : RRun) : Word :=
  let sum := (maskCores (r.cmd.mask .residual)).foldl
    (fun acc k => (fAdd .f64 .rne (decodeF .f64 acc) (decodeF .f64 ((AMap.get 0 r.reports k).toNat))).1) 0
  BitVec.ofNat 64 (if (r.cmd.w 0).getLsbD 29 then (fSqrt .f64 .rne (decodeF .f64 sum)).1 else sum)

/-- ν > ρ · ν′, exactly (R397). -/
def normAbove (nu rho prev : Word) : Bool :=
  let p := (exMul (decodeF .f64 rho.toNat) (decodeF .f64 prev.toNat)).1
  !(decodeF .f64 nu.toNat).isNaN && !p.isNaN && cmpLt p (decodeF .f64 nu.toNat)

/-- The test after RESIDUAL (R397): the exit, if any, and the new count of stagnating iterations. -/
def RRun.test (r : RRun) (nu : Word) : Option Nat × Nat :=
  let v := decodeF .f64 nu.toNat
  let tol := (exMul (decodeF .f64 (r.cmd.w 3).toNat) (decodeF .f64 (r.cmd.w 6).toNat)).1
  if v.isNaN then (some 4, r.s)
  else if cmpLt v tol || cmpEq v tol then (some 1, r.s)
  else
    let limit := if r.i = bitsNat (r.cmd.w 2) 0 32 then some 5 else none
    match r.prev with
    | none => (limit, r.s)
    | some pv =>
      if normAbove nu (r.cmd.w 5) pv then (some 3, r.s)
      else
        let s' := if normAbove nu (r.cmd.w 4) pv then r.s + 1 else 0
        if s' = bitsNat (r.cmd.w 2) 32 16 then (some 2, s') else (limit, s')

/-- ESCALATE is set for an exit code (R392, R393). -/
def RCmd.escalates (c : RCmd) (e : Nat) : Bool := decide (2 ≤ e) && decide (e ≤ 5) && (c.w 1).getLsbD (e - 2)

/-- A phase completes (R396). -/
def State.rlcComplete (s : State) (cl : Nat) (r : RRun) : State :=
  match r.phase with
  | .factor =>
    if r.restart then s.rlcDispatch cl { r with restart := false } .solveB
    else s.rlcDispatch cl { r with i := r.i + 1, total := r.total + 1 } .solveR
  | .solveB => s.rlcDispatch cl r .residual
  | .solveR => s.rlcDispatch cl r .update
  | .update => s.rlcDispatch cl r .residual
  | .residual =>
    let nu := r.formNorm
    let (e, st) := r.test nu
    let r1 : RRun := { r with norm := nu, prev := some nu, s := st }
    match e with
    | none => s.rlcDispatch cl { r1 with i := r1.i + 1, total := r1.total + 1 } .solveR
    | some code =>
      if r.cmd.escalates code && decide (r.rung < bitsNat (r.cmd.w 0) 30 2) then
        let fresh := code == 3 || code == 4
        s.rlcDispatch cl { r1 with rung := r1.rung + 1, i := 0, s := 0, restart := fresh, prev := if fresh then none else r1.prev } .factor
      else s.rlcExit cl r1 code

/-- The progress that RLCSTAT shows follows the run (R403). -/
def State.rlcLatest (s : State) (cl : Nat) : State :=
  match (s.rlc cl).run with
  | none => s
  | some r =>
    let l : RLatest := ⟨r.cmd.ptr, if r.stop.isSome then .stopping else .running, 0, r.i, r.rung⟩
    s.onRlc cl (fun x => { x with latest := AMap.set x.latest r.cmd.core l })

/-- STOPPING ends when every activation dispatched for the phase has ended (R396). -/
def State.rlcStopCheck (s : State) (cl : Nat) : State :=
  match (s.rlc cl).run with
  | none => s
  | some r =>
    match r.stop with
    | none => s
    | some code => if r.sent.any (fun x => x.1 == r.serial) then s else s.rlcExit cl r code

/-- A run enters STOPPING (R396); the first reason stays (R406). -/
def State.rlcStop (s : State) (cl : Nat) (r : RRun) (code : Nat) : State :=
  (s.onRlc cl (fun x => { x with run := some { r with stop := some (r.stop.getD code) } })).rlcStopCheck cl

/-- What reaches a controller, applied (R394-R398, R402, R403). Under pre-emption a completed phase waits for the resumption
(R406). -/
def State.rlcApply (s : State) (cl : Nat) (e : REv) : State :=
  let s1 :=
    match e with
    | .cmd c =>
      (s.onRlc cl (fun x => { x with queue := x.queue ++ [c], latest := AMap.set x.latest c.core ⟨c.ptr, .queued, 0, 0, 0⟩ })).rlcNext cl
    | .report core serial v =>
      match (s.rlc cl).run with
      | none => s
      | some r =>
        if r.serial != serial || r.stop.isSome then s
        else
          let r' : RRun := { r with reports := AMap.set r.reports core v }
          let s1 := s.onRlc cl (fun x => { x with run := some r' })
          if (maskCores (r.cmd.mask r.phase)).all (fun k => (AMap.find r'.reports k).isSome) &&
             (s.part (s.pOf (16 * cl))).pre == PreSt.running then s1.rlcComplete cl r' else s1
    | .ended core serial faulty =>
      match (s.rlc cl).run with
      | none => s
      | some r =>
        if !r.sent.contains (serial, core) then s
        else
          let r' : RRun := { r with sent := r.sent.filter (· != (serial, core)) }
          let s1 := s.onRlc cl (fun x => { x with run := some r' })
          if faulty then s1.rlcStop cl r' 7 else s1.rlcStopCheck cl
    | .stop core =>
      match takeFirst (fun (c : RCmd) => c.core == core) (s.rlc cl).queue with
      | some (c, t) => (s.onRlc cl (fun x => { x with queue := t })).rlcFinish cl c 6 0 0 0 0
      | none =>
        match (s.rlc cl).run with
        | none => s
        | some r => if r.cmd.core = core then s.rlcStop cl r 6 else s
  s1.rlcLatest cl

/-- A fault (R398). -/
def REv.isFault : REv → Bool
  | .ended _ _ faulty => faulty
  | .cmd _ | .report _ _ _ | .stop _ => false

/-- What reaches a controller: applied at once, a fault at the end of the cycle, so that an RLCSTOP of the same cycle takes effect first, and in
deterministic mode kept for the quantum's end (R406). -/
def State.rlcPost (s : State) (cl : Nat) (e : REv) : State :=
  if s.detAt (16 * cl) || e.isFault then s.onRlc cl (fun x => { x with pend := x.pend ++ [e] }) else s.rlcApply cl e

end Sys2Proof.Machine
end

