-- ==== Sys2Proof/Machine/Ops.lean ====
section
/-!
DEFINITION. The named operations that every instruction ends in: retiring (R90, R106, R109), waiting and parking (R47, R57),
taking an exception (R46, R191-R193) and returning from one (R197, R424), the end of an activation (R45, R46, R234), and the
migration test (R50-R52).
-/

namespace Sys2Proof.Machine

/-! ### What an instruction comes to -/

/-- Why an instruction does not retire: a trap, a page fault (P), a park of R47, or a wait that does not park (R57). -/
inductive Stop where
  | trap (t : TrapInfo)
  | pageFault (va : Nat) (write fetch : Bool) (telem : Nat)
  | park (a : Await)
  | wait (r : Stall)
  deriving DecidableEq, Repr

/-- A computation of an instruction: a result and the state after it, or a stop with the effects performed before it (R6,
R191). -/
inductive Res (α : Type) where
  | ok (a : α) (s : State)
  | stop (k : Stop) (s : State)

/-- One computation after another. -/
def Res.bind {α β : Type} (r : Res α) (f : α → State → Res β) : Res β :=
  match r with
  | .ok a s => f a s
  | .stop k s => .stop k s

/-- A stop of a vector access at an element: TELEM names it (R185). -/
def Res.atElem {α : Type} (i : Nat) : Res α → Res α
  | .ok a s => .ok a s
  | .stop (.trap t) s => .stop (.trap { t with telem := i }) s
  | .stop (.pageFault va w f _) s => .stop (.pageFault va w f i) s
  | .stop (.park a) s => .stop (.park a) s
  | .stop (.wait r) s => .stop (.wait r) s

/-- A stop keeps what the element or record in hand needs, for firmware's eviction (R152). -/
def Res.needs {α : Type} (l : List Nat) : Res α → Res α
  | .ok a s => .ok a s
  | .stop k s => .stop k (s.onMe (fun x => { x with elem := l }))

/-- A trap. -/
def trapAt {α : Type} (c : Cause) (tval : Word) (s : State) : Res α := .stop (.trap (mkTrap c tval)) s

/-! ### Instruction pointers (R109) -/

/-- NextIP of an IP in a line of `nh` heads (R109). -/
def nextIp (nh : Nat) (ip : Word) : Word :=
  if ip.toNat % 64 < nh then ip + 1 else BitVec.ofNat 64 ((ip.toNat / 64 % 2 ^ 54 + 1) * 64 + 1)

/-- BranchTarget(ip, j) (R109). -/
def branchTarget (ip : Word) (j : BitVec 27) : Word :=
  let d := (field j 5 22).toInt
  BitVec.ofInt 64 (((ip.toNat / 64 % 2 ^ 54 : Nat) + d) * 64 + (bitsNat j 0 5 : Nat))

/-- TVAL of a fault at steps 2 to 8 of R104 (R105), from the instruction in hand. -/
def Latch.tval (l : Latch) : Word := BitVec.ofNat 64 (l.head.toNat + l.tail.toNat % 2 ^ 32 * 2 ^ 16)

/-! ### The end of an activation (R45, R46, R53, R234) -/

/-- A request whose answer a context waits for: its reads and atomics (R267). -/
def ReqBody.ofCtx (c : Nat) : ReqBody → Bool
  | .rld _ _ ctx _ _ _ => ctx == c
  | .rat _ _ _ ctx _ _ _ _ _ => ctx == c
  | .msg _ | .copy _ _ _ _ _ _ _ | .rst _ _ _ _ _ _ _ _ _ _ | .repl _ _ _ _ _ _ _ | .ewr _ _ _ _ _ | .xfer _ _ _ _ _ | .wst _ _ _ | .notice _ _ => false

/-- A SYNC or SYNCE read of a context. -/
def ReqBody.isSync (c : Nat) : ReqBody → Bool
  | .rld m _ ctx _ _ _ => ctx == c && (m == .sync || m == .synce)
  | .msg _ | .copy _ _ _ _ _ _ _ | .rst _ _ _ _ _ _ _ _ _ _ | .rat _ _ _ _ _ _ _ _ _ | .repl _ _ _ _ _ _ _ | .ewr _ _ _ _ _
  | .xfer _ _ _ _ _ | .wst _ _ _ | .notice _ _ => false

/-- A request with nobody left to learn its answer, where it is one of the reads, fills and atomics of a context (R94, R267). -/
def OutReq.disown (c : Nat) (o : OutReq) : OutReq := if o.use != .orphan && o.body.ofCtx c then { o with use := .orphan } else o

/-- A waiting request likewise. -/
def Backlog.disown (c : Nat) (o : Backlog) : Backlog := if o.use != .orphan && o.body.ofCtx c then { o with use := .orphan } else o

/-- CANCEL for each SYNC or SYNCE read that an aborted context leaves waiting at another home (R261, R267). Answers to its reads and
atomics are discarded. -/
def State.cancelSync (s : State) (core ctx : Nat) : State :=
  let l := ((s.ep core).out.filter (fun o => o.use == .reply && o.body.isSync ctx))
  let s1 := if (s.ep core).out.any (fun o => o.body.ofCtx ctx) || (s.ep core).backlog.any (fun o => o.body.ofCtx ctx) then
      s.onEp core (fun e => { e with out := e.out.map (OutReq.disown ctx), backlog := e.backlog.map (Backlog.disown ctx) })
    else s
  l.foldl (fun s o =>
    match o.body with
    | .rld _ sgn _ pa size va => s.sendReq core o.dest 3 (.rld .cancel sgn ctx pa size va) Sender.none
    | .msg _ | .copy _ _ _ _ _ _ _ | .rst _ _ _ _ _ _ _ _ _ _ | .rat _ _ _ _ _ _ _ _ _ | .repl _ _ _ _ _ _ _ | .ewr _ _ _ _ _ | .xfer _ _ _ _ _ | .wst _ _ _ | .notice _ _ => s) s1

/-- The number under which a home's wait list holds a request of a context of its own die (log 8). -/
def ownNum (ctx : Nat) : Nat := 32 + ctx % 4

/-- A home stands on the die of a core, which reaches it without the fabric (R217, R219; log 8). -/
def ownHome (core home : Nat) : Bool := decide (home < 8) && home == dieOf core

/-- A read of the own die that an aborted context leaves waiting is taken out of the wait list (R261). -/
def State.cancelOwn (s : State) (core ctx : Nat) : State :=
  if (s.home (dieOf core)).wait.any (fun l => l.src == core && l.num == ownNum ctx) then
    s.onHome (dieOf core) (fun h => { h with wait := h.wait.filter (fun l => !(l.src == core && l.num == ownNum ctx)) })
  else s

/-- A word that a SYNCE has taken is full again with its value unchanged (R224, R261): RETURN goes to its home, that of the own die too. -/
def State.giveBack (s : State) (core ctx : Nat) (o : Option Taken) : State :=
  match o with
  | none => s
  | some t => s.sendReq core (4096 + t.home) 3 (.rld .ret t.sgn ctx t.pa t.size t.va) Sender.none

/-- The words taken by the SYNCE in hand of a context that is freed are given back (R224, R261). -/
def State.giveBackAll (s : State) (core ctx : Nat) : State :=
  ((s.ctx core ctx).rbuf.filter (fun a => a.taken)).foldl (fun s a => s.giveBack core ctx a.orig) s

/-- The event record of an activation's end: 0 DONE, 1 abort, 2 REQUEUE, 3 migration (R435). -/
def State.endEvent (s : State) (core ctx how : Nat) : State :=
  s.coreEvent core 1 (ctx % 4 * 2 ^ 50 + how * 2 ^ 32 + (s.ctx core ctx).msgId)

/-- A posted store that failed and that no instruction has reported is reported in a record only (R195, R224): its TIP is 0, its queue the
activation's (log 53). -/
def State.failedRecords (s : State) (core ctx : Nat) : State :=
  let x := s.ctx core ctx
  let p := s.pOf core
  x.failed.foldl (fun s f =>
    s.pushRec p ⟨recordWords (mkTrap .remoteFault (BitVec.ofNat 64 f.2)) 0 (BitVec.ofNat 64 x.msgId) x.activation.queue x.tag p
      (s.coord core ctx) (s.timeAt core), dieOf core, false, false, core, 0, x.msgId, x.tag⟩) s

/-- A posted store or channel advance that failed: kept for the instruction of its activation that waits for it, or reported in a record where
that activation, which its serial names, has ended (R195, R224, R453): its TIP and queue are 0 (log 53). -/
def State.storeFault (s : State) (core ctx serial msgid tag colour va : Nat) : State :=
  let x := s.ctx core ctx
  let p := s.pOf core
  if x.st != .free && x.serial == serial then s.onCtx core ctx (fun x => { x with failed := x.failed ++ [(colour, va)] })
  else s.pushRec p ⟨recordWords (mkTrap .remoteFault (BitVec.ofNat 64 va)) 0 (BitVec.ofNat 64 msgid) 0 tag p
    (s.coord core ctx) (s.timeAt core), dieOf core, false, false, core, 0, msgid, tag⟩

/-- A final state. -/
def XferSt.final : XferSt → Bool
  | .complete | .faulted => true
  | .issued | .accepted | .lodged => false

/-- An activation that ends waits for no copy any more (R321, R331): its marks go, and with them an entry that was kept for it alone. -/
def State.unwait (s : State) (core ctx : Nat) : State :=
  if (s.core core).board.any (fun e => e.waiters.any (fun w => w.1 == ctx % 4)) then
    s.onCore core (fun k => { k with board := k.board.filterMap (fun e =>
      let w := e.waiters.filter (fun w => w.1 != ctx % 4)
      if e.waiters.length != w.length && w.isEmpty && e.doneip && e.st.final then none else some { e with waiters := w }) })
  else s

/-- A member that has joined an operation whose clasp has not closed withdraws (R316). -/
def State.withdraw (s : State) (core ctx : Nat) : State :=
  s.onRing (clusOf core) (fun r =>
    { r with forming := r.forming.filter (fun m => !(m.core == core && m.ctx == ctx))
             queue := r.queue.filter (fun m => !(m.core == core && m.ctx == ctx))
             results := r.results.filter (fun x => !(x.1 == core && x.2.1 == ctx)) })

/-- A front-unit change that a context has asked for at the quantum's end (R453) is given up. -/
def State.unask (s : State) (core ctx : Nat) : State :=
  s.onPart (s.pOf core) (fun P => { P with fevs := P.fevs.filter (fun e => match e with
    | .op k c _ => !(k == core && c == ctx % 4)
    | .commit _ _ _ _ | .ended _ _ _ _ _ | .lease _ | .host _ _ => true) })

/-- What a context waits for given up: its reads of memory, the words that a SYNCE has taken for it, its part in a matrix operation that has
not begun, its marks on the transfer board, its front-unit change. -/
def State.giveUp (s : State) (core ctx : Nat) : State :=
  (((((s.cancelSync core ctx).cancelOwn core ctx).giveBackAll core ctx).withdraw core ctx).unwait core ctx).unask core ctx

/-- The reserve is no longer granted to a context (R152). -/
def State.ungrant (s : State) (core ctx : Nat) : State :=
  { s with parts := AMap.mapVals (fun _ P => if P.granted = some (core, ctx) then { P with granted := none } else P) s.parts }

/-- The context freed (R32): nothing of the activation remains in it but its registers. -/
def State.freeCtx (s : State) (core ctx : Nat) : State :=
  ((s.giveUp core ctx).ungrant core ctx).onCtx core ctx (fun x =>
    { x with st := .free, await := .none, act := none, sendBuf := [], failed := [], rbuf := [], rcur := 0, rpend := false,
             fill := .none, stall := 0, hold := false, nobp := false })

/-- The slot of a triggering message freed at its core (R38, R45, R53). -/
def State.freeSlotOf (s : State) (a : Act) : State :=
  s.onCore a.core (fun k => { k with slotsHeld := k.slotsHeld.filter (· != a.m.slot) })

/-- What a front unit or a controller learns of the end of its dispatch (R342, R398). `faulty` is an abort. -/
def State.tellDispatcher (s : State) (core ctx : Nat) (a : Act) (faulty : Bool) : State :=
  match a.m.msg.info with
  | .dispatch id =>
    let p := s.pOf a.core
    if (s.part p).det then s.onPart p (fun P => { P with fevs := P.fevs ++ [.ended core ctx id faulty a.committed] })
    else s.updateEnd p id faulty a.committed
  | .phase cl serial => s.rlcPost cl (.ended (a.core % 16) serial (faulty || !a.reported))
  | .plain | .arrive | .copyDone _ | .rlcExit _ _ => s

/-- A message placed at the head of a queue as held, among the held ones in order of arrival (R46). -/
def holdIn (l : List QMsg) (m : QMsg) : List QMsg :=
  insertBy (fun x y => decide (x.arrival ≤ y.arrival)) m (l.filter (·.held)) ++ l.filter (fun x => !x.held)

/-- The task of a message still holds its entry on a core (R414). -/
def State.taskLive (s : State) (core : Nat) (m : Msg) : Bool :=
  let t := (s.core core).task m.env.tag
  t.st == .valid && t.gen == m.env.gen

/-- An abort holds the message of an activation: not a dispatch of kind 4 or 5 (R342, R398), nor a message whose task has ended, which
is refused at once (R414). -/
def State.holds (s : State) (a : Act) : Bool :=
  a.m.msg.env.kind != 4 && a.m.msg.env.kind != 5 && s.taskLive a.core a.m.msg

/-- An aborted message returned to the queue that it left (R46), where the abort holds it. One of an ended task is discarded and
counted. -/
def State.returnMsg (s : State) (a : Act) : State :=
  let s1 := s.freeSlotOf a
  if a.m.msg.env.kind = 4 || a.m.msg.env.kind = 5 then s1
  else if !s.holds a then s1.count (dieOf a.core) 0x07 1
  else s1.onCore a.core (fun k => k.setQueue a.queue (holdIn (k.queue a.queue) { a.m with held := true }))

/-- The trap CSRs written (R192). -/
def State.setTrap (s : State) (core ctx : Nat) (t : TrapInfo) (tip : Word) : State :=
  s.onCtx core ctx (fun x => { x with trap :=
    ⟨t.cause.word t.fetch, t.tval, tip, BitVec.ofNat 64 x.msgId, BitVec.ofNat 64 (t.telem % 2 ^ 16),
     BitVec.ofNat 64 (t.ttile % 2 ^ 32), BitVec.ofNat 64 (t.tfmt % 2 ^ 12)⟩ })

/-- The serial of an activation that aborts with window stores outstanding, whose drops no record takes in (R386). -/
def Ctx.noteAbort (x : Ctx) : Ctx :=
  if x.wout.toList.all (· == 0) then { x with aborted := [] } else { x with aborted := x.aborted ++ [x.serial] }

/-- The activation of a context aborts (R46): trap CSRs and one record (R192, R194), held messages discarded, the message
returned as held, the context freed. -/
def State.abort (s : State) (core ctx : Nat) (t : TrapInfo) (tip : Word) : State :=
  let x := s.ctx core ctx
  let a := x.activation
  let p := s.pOf core
  let q := if a.m.msg.env.kind = 4 then a.m.msg.env.qsel else a.queue
  let r : TrapRec := ⟨recordWords t tip (BitVec.ofNat 64 x.msgId) q x.tag p (s.coord core ctx) (s.timeAt core),
    dieOf core, true, s.holds a, a.core, a.queue, x.msgId, x.tag⟩
  let s1 := ((s.setTrap core ctx t tip).pushRec p r).endEvent core ctx 1
  let s2 := (s1.count (dieOf core) 0x03 1).count (dieOf core) 0x04 (if t.cause = .budget then 1 else 0)
  ((((s2.failedRecords core ctx).returnMsg a).onCtx core ctx Ctx.noteAbort).freeCtx core ctx).tellDispatcher core ctx a true

/-! ### Taking and leaving an exception (R192, R47, R197) -/

/-- A context parked at its IP (R47). -/
def State.parkAt (s : State) (core ctx : Nat) (a : Await) : State :=
  s.onCtx core ctx (fun x =>
    { x with st := .parked, await := a, stall := a.stall.code, rcur := 0
             rbuf := match a with
             | .syncEmpty _ | .lodge => x.rbuf
             | .none | .channelEmpty _ | .channelFull _ _ | .xfer _ | .clasp _ | .phase _ _ | .rfence | .pageFault _ _ | .migrate _
             | .shipped | .quantum | .bkpt _ => [] })

/-- A trap is taken (R192): kind P writes the trap CSRs and parks at TIP, kind A aborts, kind E leaves a record only, and kind F
reaches no context. -/
def State.takeTrap (s : State) (core ctx : Nat) (t : TrapInfo) (tip : Word) : State :=
  match t.cause.kind with
  | .p => (s.setTrap core ctx t tip).parkAt core ctx (.bkpt (t.tval == 0))
  | .a => s.abort core ctx t tip
  | .e => s.recordE (s.pOf core) (dieOf core) t.cause t.tval t.telem
  | .f => s

/-- PAGE-NOTPRESENT (R136, R152): the trap CSRs, a park, and a fault for firmware to serve. -/
def State.takePageFault (s : State) (core ctx va : Nat) (write fetch : Bool) (telem : Nat) : State :=
  let t : TrapInfo := ⟨.pageNotpresent, fetch, BitVec.ofNat 64 va, telem, 0, 0⟩
  (((s.setTrap core ctx t (s.ctx core ctx).ip).parkAt core ctx (.pageFault va write))).onPart (s.pOf core)
    (fun P => { P with faults := P.faults ++ [⟨core, ctx, va, write, false⟩] })

/-- A parked context runs again at its IP (R32, R47). -/
def State.resume (s : State) (core ctx : Nat) : State :=
  s.onCtx core ctx (fun x => { x with st := .running, await := .none, stall := 0 })

/-- The return from a BKPT park (R197): after a BKPT instruction at NextIP(TIP) where `skip` is set, otherwise at TIP. The
resumed instruction issues without matching again. A BKPT instruction is the one that precedes what is fetched then (R92). -/
def State.bkptReturn (s : State) (core ctx : Nat) (skip : Bool) : State :=
  (s.resume core ctx).onCtx core ctx (fun x =>
    { x with ip := if skip then nextIp x.latch.nh x.trap.tip else x.trap.tip
             latch := if skip then { x.latch with prev := x.trap.tip } else x.latch
             nobp := true })

/-! ### Migration (R50-R52) -/

/-- A context that R52 may choose: free, and no wayfarer is on its way to it. -/
def CoreSt.openCtx (k : CoreSt) (c : Nat) : Bool :=
  (k.ctx c).st == .free && !k.arrivals.any (fun w => w.ctx == c) && !(k.guest && c == 3)

/-- The target of R52 for a home: the lowest core that may take the task, and on that core the lowest free context; none where that core
has none free. -/
def State.migTarget (s : State) (core ctx home : Nat) : Option (Nat × Nat) :=
  let x := s.ctx core ctx
  let t := (s.core core).task x.tag
  if home = dieOf core || s.partKey home != s.pOf core then none
  else
    let base := 512 * home + core % 512 / 16 * 16
    let takes := fun (i : Nat) =>
      let k := s.core (base + i)
      let e := k.task x.tag
      k.featmask &&& t.featreq == t.featreq && e.st == .valid && e.gen == x.activation.m.msg.env.gen
    match (upTo 16).find? takes with
    | none => none
    | some i => ((upTo 4).find? (fun c => (s.core (base + i)).openCtx c)).map (fun c => (base + i, c))

/-- The home whose count is highest, the lowest number among equals (R51). -/
def topHome (v : Vector Nat 8) : Nat := (upTo 8).foldl (fun b h => if get8 v b < get8 v h then h else b) 0

/-- The migration test after an instruction retires (R51): the context parks to migrate, or its count resets. -/
def State.migTest (s : State) (core ctx : Nat) : State :=
  let x := s.ctx core ctx
  let h := topHome x.remote
  if x.migok && x.migthresh != 0 && decide (x.migthresh.toNat < get8 x.remote h) && !s.detAt core then
    match s.migTarget core ctx h with
    | some _ => s.parkAt core ctx (.migrate h)
    | none => s.onCtx core ctx (fun x => { x with remote := set8 x.remote h 0 })
  else s

/-! ### Retiring (R57, R90, R197) -/

/-- The bookkeeping of a retired instruction: IP, the IP before it (R92), BUDGET and the quantum's count in deterministic
mode (R57, R59), the grant of the reserve (R152), the counter of R438. -/
def State.advance (s : State) (ip' : Word) : State :=
  let det := s.detAt s.cur.1
  let s1 := s.onMe (fun x => { x with
    latch := { x.latch with prev := x.ip }, ip := ip', rbuf := [], rcur := 0, elem := [], stall := 0, issued := true, nobp := false,
    budget := if det && x.budget != 0 then x.budget - 1 else x.budget })
  let s2 := if det then s1.onMyCore (fun k => { k with retired := k.retired + 1 }) else s1
  (s2.ungrant s.cur.1 s.cur.2.val).count (dieOf s.cur.1) 0x01 1

/-- An instruction retires with the next IP: then the single step of R197, else the migration test of R51. -/
def State.retireTo (s : State) (ip' : Word) : State :=
  let s1 := s.advance ip'
  if s1.me.step1 then s1.takeTrap s.cur.1 s.cur.2.val (mkTrap .bkpt 5) ip'
  else s1.migTest s.cur.1 s.cur.2.val

/-- An instruction retires in sequence (R90). -/
def State.retire (s : State) : State := s.retireTo (nextIp s.me.latch.nh s.me.ip)

/-- An instruction waits without parking (R57): it issues again. -/
def State.waitAt (s : State) (r : Stall) : State := s.onMe (fun x => { x with stall := r.code, rcur := 0 })

/-- The running context has issued in this cycle (R431). -/
def State.noteIssue (s : State) : State := s.onMe (fun x => { x with issued := true })

/-- A stop of the running context, taken. One that traps or parks has issued (R431). -/
def State.takeStop (s : State) : Stop → State
  | .trap t => s.noteIssue.takeTrap s.cur.1 s.cur.2.val t s.me.ip
  | .pageFault va w f i => s.noteIssue.takePageFault s.cur.1 s.cur.2.val va w f i
  | .park a => s.noteIssue.parkAt s.cur.1 s.cur.2.val a
  | .wait r => s.waitAt r

/-- The outcome of an instruction's computation: `fin` where it completes, the stop otherwise. -/
def runWith (fin : State → State) : Res Unit → Host.Outcome State Fault Refusal
  | .ok _ s => .next (fin s)
  | .stop k s => .next (s.takeStop k)

/-- The outcome of an instruction that retires in sequence. -/
def run (r : Res Unit) : Host.Outcome State Fault Refusal := runWith State.retire r

/-- The outcome of an instruction that only writes registers. -/
def retired (s : State) : Host.Outcome State Fault Refusal := .next s.retire

end Sys2Proof.Machine
end

