-- ==== Sys2Proof/Machine/Operands.lean ====
section
/-!
DEFINITION. Operand forms: the integer operands and results of R199, offsets (R216), the decoding of an address (R128-R131),
pointers of the running context (R212), the launch owner (R213) and the vector lanes (R271).
-/

namespace Sys2Proof.Machine

/-! ### Integer operands (R199) -/

/-- sz of R199, in bits. -/
def szOf (q : IQ) : Nat := 8 * 2 ^ q.size.toNat

/-- The sz-bit pattern of a register. -/
def patOf (q : IQ) (x : Word) : Nat := x.toNat % 2 ^ szOf q

/-- The two's complement value of an n-bit pattern. -/
def toSigned (n x : Nat) : Int := if 2 ^ (n - 1) ≤ x then (x : Int) - 2 ^ n else x

/-- Opnd of R199. -/
def opnd (q : IQ) (x : Word) : Int := if q.sgn then toSigned (szOf q) (patOf q x) else patOf q x

/-- Ext of R199: wrapped to sz bits and extended as Q[2] says. -/
def extR (q : IQ) (y : Int) : Word :=
  let p := wrapN (szOf q) y
  if q.sgn then BitVec.ofInt 64 (toSigned (szOf q) p) else BitVec.ofNat 64 p

/-! ### Pointers (R209, R216) -/

/-- The virtual address of a pointer. -/
def vaOf (p : Word) : Nat := p.toNat % 2 ^ 60

/-- A pointer with an offset added within 60 bits, the view kept (R209, R216). -/
def ptrOff (p off : Word) : Word := setField p 0 60 ((vaOf p + off.toNat) % 2 ^ 60)

/-- A local pointer (R128). -/
def isLocal (p : Word) : Bool := bitsNat p 48 12 == 0xFFF

/-- The space code of a pointer (R129). -/
def spaceOf (p : Word) : Nat := bitsNat p 44 4

/-- ISSPC of a pointer (R211). -/
def isspc (p : Word) : Nat :=
  if !isLocal p then 0
  else if 3 < spaceOf p || (spaceOf p == 2 && bitsNat p 40 4 != 0) then 7
  else spaceOf p + 1

/-! ### Decoding an address (R128-R130) -/

/-- The kinds of an access. -/
inductive Acc where
  | fetch | load | copy | sync | store | stfe | atomic
  deriving DecidableEq, Repr

/-- An access writes. -/
def Acc.writes : Acc → Bool
  | .store | .stfe | .atomic => true
  | .fetch | .load | .copy | .sync => false

/-- What a decoded address names: a byte of local memory by its key, or a global virtual address. -/
inductive Loc where
  | loc (key : Nat)
  | glob (va : Nat)
  deriving DecidableEq, Repr

/-- Owner of R129: the owner field of a local pointer. -/
def ownerOf (sp : Nat) (p : Word) : Nat :=
  match sp with
  | 0 => bitsNat p 32 12 * 4 + bitsNat p 30 2
  | 2 => bitsNat p 32 8
  | _ => bitsNat p 32 12

/-- Accessor of R129: the running context's own number for a space. -/
def State.accessor (s : State) (sp : Nat) : Nat :=
  let l := s.lnum s.cur.1
  match sp with
  | 0 => l * 4 + s.cur.2.val
  | 2 => l / 16
  | _ => l

/-- Offset of R129. -/
def offsetOf (sp : Nat) (p : Word) : Nat := if sp = 0 then bitsNat p 0 30 else bitsNat p 0 32

/-- The limit check of R129 and, for the inbox, of R130: the access lies in its space. -/
def State.inSpace (s : State) (sp off size : Nat) : Bool :=
  match sp with
  | 0 => decide (off + size ≤ Config.privLimit)
  | 1 => decide (off + size ≤ Config.scratchLimit)
  | 2 => decide (off + size ≤ Config.clusLimit)
  | _ =>
    let b := 512 * s.me.activation.m.slot
    decide (b ≤ off) && decide (off + size ≤ b + 512)

/-- The memory key of a byte of a local space of a core and context (R130). -/
def localKey (core ctx sp off : Nat) : Nat :=
  match sp with
  | 0 => scratchKey core (16384 * ctx + off)
  | 1 => scratchKey core (65536 + off)
  | 2 => clusKey (clusOf core) off
  | _ => inboxKey core off

/-- R128 up to the translation: the first check that fails decides the cause, with TVAL the pointer. -/
def State.decodeAddr (s : State) (p : Word) (size : Nat) (acc : Acc) : Except Cause Loc :=
  if isLocal p then
    let sp := spaceOf p
    let off := offsetOf sp p
    if s.me.activation.wayfarer then .error .spaceForeign
    else if 3 < sp then .error .spaceBad
    else if sp == 2 && bitsNat p 40 4 != 0 then .error .spaceBad
    else if sp == 3 && acc == .sync then .error .spaceBad
    else if ownerOf sp p != s.accessor sp then .error .spaceForeign
    else if !s.inSpace sp off size then .error .spaceBounds
    else if sp == 3 && acc.writes then .error .pageProt
    else if off % size != 0 then .error .misalign
    else .ok (.loc (localKey s.cur.1 s.cur.2.val sp off))
  else if vaOf p % size != 0 then .error .misalign
  else .ok (.glob (vaOf p))

/-! ### Pointers of the running context and launch owners (R212, R213) -/

/-- The generic pointer of an offset in one of the running context's spaces (R212 CASTSPC.G), with view 0. -/
def State.genericPtr (s : State) (sp : Nat) (off : Nat) : Word :=
  let l := s.lnum s.cur.1
  let owner :=
    match sp with
    | 0 => l % 4096 * 2 ^ 32 + s.cur.2.val * 2 ^ 30 + off % 2 ^ 30
    | 2 => l / 16 % 256 * 2 ^ 32 + off % 2 ^ 32
    | _ => l % 4096 * 2 ^ 32 + off % 2 ^ 32
  BitVec.ofNat 64 (0xFFF * 2 ^ 48 + sp % 4 * 2 ^ 44 + owner)

/-- The hash of R213. -/
def hownHash (va : Nat) : Nat :=
  let h := va / 2 ^ 12 % 2 ^ 48
  let h := h ^^^ (h >>> 12)
  let h := h ^^^ (h >>> 24)
  h ^^^ (h >>> 36)

/-- HOWN of an address in a core range (R213). -/
def hownIn (b n va : Nat) : Nat := b + hownHash va % n

/-! ### Vector lanes (R271, R108) -/

/-- Lanes of a format in a vector register. -/
def lanesOf (f : Fmt) : Nat := 1024 / f.width

/-- Lane(x, fmt, i). -/
def lane (x : VWord) (w i : Nat) : Nat := (x.toNat >>> (w * i)) % 2 ^ w

/-- SetLane. -/
def setLane (x : VWord) (w i v : Nat) : VWord :=
  let m := 2 ^ w - 1
  BitVec.ofNat 1024 ((x.toNat &&& (2 ^ 1024 - 1 - (m <<< (w * i)))) ||| ((v % 2 ^ w) <<< (w * i)))

/-- Active(q, i). -/
def State.active (s : State) (q : KReg) (i : Nat) : Bool := (s.k q).getLsbD i

end Sys2Proof.Machine
end

