-- ==== Sys2Proof/Machine/Walk.lean ====
section
/-!
DEFINITION. Translation: page-table entries (R135), the walk (R136), attributes (R137), the TLB with the A and D bits
(R138-R140), transmit leaves (R369-R371), homes and replicas (R132, R141).
-/

namespace Sys2Proof.Machine

/-! ### Page-table entries (R135) -/

/-- V. -/
def pteV (e : Word) : Bool := e.getLsbD 0
/-- LEAF. -/
def pteLeaf (e : Word) : Bool := e.getLsbD 1
/-- R. -/
def pteR (e : Word) : Bool := e.getLsbD 2
/-- W. -/
def pteW (e : Word) : Bool := e.getLsbD 3
/-- X. -/
def pteX (e : Word) : Bool := e.getLsbD 4
/-- D. -/
def pteD (e : Word) : Bool := e.getLsbD 6
/-- PROP. -/
def pteProp (e : Word) : Bool := e.getLsbD 7
/-- REPL. -/
def pteRepl (e : Word) : Bool := e.getLsbD 8
/-- TXW. -/
def pteTxw (e : Word) : Bool := e.getLsbD 9
/-- RXW. -/
def pteRxw (e : Word) : Bool := e.getLsbD 10
/-- FE. -/
def pteFe (e : Word) : Bool := e.getLsbD 11
/-- PIN. -/
def ptePin (e : Word) : Bool := e.getLsbD 52
/-- CONTIG. -/
def pteContig (e : Word) : Bool := e.getLsbD 53
/-- The address that PFN gives. -/
def pteAddr (e : Word) : Nat := bitsNat e 12 40 * 4096
/-- Bits [63:54]. -/
def pteReserved (e : Word) : Bool := bitsNat e 54 10 != 0

/-! ### Physical addresses (R132) -/

/-- The engine that is the home of a physical address (R132, R252). -/
def homeOf (pa : Nat) : Nat :=
  if firstTier pa then pa / 2 ^ 36 else if hostMem pa || decide (pa / 2 ^ 42 % 4 < 2) then 0x10 else 0x11

/-- The replica of a first-tier address on a die (R141). -/
def replicaAt (pa die : Nat) : Nat := pa % 2 ^ 36 + die * 2 ^ 36

/-! ### The walk (R134, R136) -/

/-- The page size of a level. -/
def pageSize (lvl : Nat) : Nat :=
  match lvl with
  | 1 => 2 ^ 39 | 2 => 2 ^ 30 | 3 => 2 ^ 21 | _ => 2 ^ 12

/-- The byte offset of a VA's entry in the table of a level. -/
def tableOffset (lvl va : Nat) : Nat :=
  match lvl with
  | 0 => va / 2 ^ 48 % 4096 * 8
  | 1 => va / 2 ^ 39 % 512 * 8
  | 2 => va / 2 ^ 30 % 512 * 8
  | 3 => va / 2 ^ 21 % 512 * 8
  | _ => va / 2 ^ 12 % 512 * 8

/-- What a walk comes to: a leaf with its level and the address of its table word, an entry with V = 0, or PAGE-PROT. -/
inductive Walk where
  | leaf (lvl slot : Nat) (e : Word)
  | absent (lvl slot : Nat) (e : Word)
  | bad
  deriving DecidableEq, Repr

/-- The walk of R136 from the table word at `slot` of level `lvl`, with `n` levels below it. -/
def walkAt (m : Memory) (p dies va : Nat) : Nat → Nat → Nat → Walk
  | n, lvl, slot =>
    let e : Word := BitVec.ofNat 64 (m.read slot 8)
    if !pteV e then .absent lvl slot e
    else if pteLeaf e then
      if lvl = 0 then .bad
      else if pteReserved e || pteAddr e % pageSize lvl != 0 then .bad
      else .leaf lvl slot e
    else if pteReserved e || !stackIn p dies (pteAddr e) then .bad
    else
      match n with
      | 0 => .bad
      | n' + 1 => walkAt m p dies va n' (lvl + 1) (pteAddr e + tableOffset (lvl + 1) va)

/-- The table words that a walk reads (R136). -/
def walkSlots (m : Memory) (p dies va : Nat) : Nat → Nat → Nat → List Nat
  | n, lvl, slot =>
    let e : Word := BitVec.ofNat 64 (m.read slot 8)
    if !pteV e || pteLeaf e || pteReserved e || !stackIn p dies (pteAddr e) then [slot]
    else
      match n with
      | 0 => [slot]
      | n' + 1 => slot :: walkSlots m p dies va n' (lvl + 1) (pteAddr e + tableOffset (lvl + 1) va)

/-- The blocks of its tables that a core's walk reads, counted on their dies (R438 0x0F). -/
def State.countWalk (s : State) (p va : Nat) : State :=
  let P := s.part p
  if va / 2 ^ 48 % 4096 = 0xFFF then s
  else (walkSlots s.mem p P.dies va 4 0 (P.root + tableOffset 0 va)).foldl (fun s a => if firstTier a then s.count (a / 2 ^ 36) 0x0F 1 else s) s

/-- The walk of a VA in a partition (R136); a local address has none (R134). The spec names no request by which the walker reads a table on
another die's stack: the step reads it (log 51). -/
def State.walk (s : State) (p va : Nat) : Walk :=
  let P := s.part p
  if va / 2 ^ 48 % 4096 = 0xFFF then .bad
  else walkAt s.mem p P.dies va 4 0 (P.root + tableOffset 0 va)

/-! ### Attributes (R137, R369, R371) -/

/-- XD of a window designator (R369). -/
def winXd (e : Word) : Nat := bitsNat e 42 1
/-- ENTRY of a window designator. -/
def winEntry (e : Word) : Nat := bitsNat e 33 9
/-- PAGE of a window designator. -/
def winPage (e : Word) : Nat := bitsNat e 12 21

/-- A window mapping entry (R371). -/
def State.went (s : State) (xd n : Nat) : WEnt := AMap.get WEnt.reset (s.win xd).ents n

/-- A transmit leaf that the walk refuses: reserved bits, a page above 2 MiB, or an entry of another partition (R369, R371). -/
def State.txBad (s : State) (p lvl : Nat) (e : Word) : Bool :=
  bitsNat e 43 9 != 0 || lvl == 1 || lvl == 2 || (s.went (winXd e) (winEntry e)).part != p

/-- Every frame of a leaf is one that a core may reach (R137): a leaf of 512 GiB covers eight stacks. -/
def frameOk (p dies lvl : Nat) (e : Word) : Bool :=
  let pa := pteAddr e
  (stackIn p dies pa && stackIn p dies (pa + pageSize lvl - 1)) || secondTier pa

/-- R137 in order. `lvl` is 4 for a leaf taken from a TLB, which was checked when it was put there. A CPREQ may find host memory behind the first
byte of its source (R317). -/
def State.checkAttr (s : State) (p lvl : Nat) (e : Word) (acc : Acc) : Option Cause :=
  let pa := pteAddr e
  let P := s.part p
  if (pteTxw e && pteRxw e) || (pteTxw e && (pteX e || pteRepl e || pteFe e)) || (pteRxw e && pteRepl e) ||
     (!pteTxw e && (pteRepl e || pteFe e) && !firstTier pa) || (pteRepl e && pa / 2 ^ 36 != p) then some .pageProt
  else if (if pteTxw e then s.txBad p lvl e else !(frameOk p P.dies lvl e || (acc == .copy && hostMem pa))) then some .pageProt
  else
    match acc with
    | .fetch => if pteTxw e || !pteX e then some .pageProt else none
    | .load | .copy => if pteTxw e then some .loadTxw else if pteR e then none else some .pageProt
    | .sync => if pteTxw e then some .loadTxw else if pteR e && pteFe e then none else some .pageProt
    | .store => if !pteW e || pteRxw e then some .pageProt else none
    | .stfe => if !pteW e || pteRxw e || !pteFe e then some .pageProt else none
    | .atomic => if pteTxw e then some .loadTxw else if !pteR e || !pteW e || pteRxw e then some .pageProt else none

/-! ### The TLB (R138-R140, R370) -/

/-- The leaves of a 64 KiB group stand at the sixteen words from here (R140). Transmit leaves name no frames and make no group (R369). -/
def groupOk (m : Memory) (base : Nat) : Bool :=
  let mask : Word := 0xFFF0000000000F9F
  let e0 : Word := BitVec.ofNat 64 (m.read base 8)
  pteV e0 && pteLeaf e0 && pteContig e0 && !pteTxw e0 && pteAddr e0 % 65536 == 0 &&
    (upTo 16).all (fun i =>
      let e : Word := BitVec.ofNat 64 (m.read (base + 8 * i) 8)
      pteV e && pteLeaf e && pteContig e && (e &&& mask) == (e0 &&& mask) && pteAddr e == pteAddr e0 + 4096 * i)

/-- The TLB entry of a VA. -/
def Ctx.tlbHit (x : Ctx) (va : Nat) : Option TlbE := x.tlb.find? (fun t => decide (t.base ≤ va) && decide (va < t.base + t.size))

/-- A table word with bits set (R138). -/
def Memory.orWord (m : Memory) (slot : Nat) (bits : Nat) : Memory := m.write slot 8 (m.read slot 8 ||| bits)

/-- The entry that the walker installs for a leaf: the 64 KiB group of R140, or the page; a transmit page with what the walker
reads of its window entry (R370). -/
def State.tlbEntry (s : State) (va lvl slot : Nat) (e : Word) : TlbE :=
  let w := s.went (winXd e) (winEntry e)
  if lvl = 4 && pteContig e && groupOk s.mem (slot / 128 * 128) then
    ⟨va / 65536 * 65536, 65536, slot / 128 * 128, BitVec.ofNat 64 (s.mem.read (slot / 128 * 128) 8), false, 0⟩
  else ⟨va / pageSize lvl * pageSize lvl, pageSize lvl, slot, e, w.v && !w.broken, w.size⟩

/-- What translation gives: the physical address, the leaf, and for a transmit page the entry's state as the walker read it. -/
structure Xl where
  pa      : Nat
  pte     : Word
  off     : Nat
  winOk   : Bool
  winSize : Nat
  deriving DecidableEq, Repr

/-- The D bit set at the first store that an entry translates (R138); every store through a 64 KiB group sets the D of its own
leaf. -/
def State.setDirty (s : State) (va : Nat) (t : TlbE) : State :=
  if t.size = 65536 then s.onMem (fun m => m.orWord (t.slot + 8 * ((va - t.base) / 4096)) 64)
  else if pteD t.pte then s
  else (s.onMem (fun m => m.orWord t.slot 64)).onMe (fun x =>
    { x with tlb := x.tlb.map (fun u => if u.base == t.base && u.size == t.size then { u with pte := u.pte ||| 64 } else u) })

/-- An access through a TLB entry: attributes, the D bit, the address. -/
def State.viaTlb (s : State) (p : Word) (va : Nat) (t : TlbE) (lvl : Nat) (acc : Acc) : Res Xl :=
  match s.checkAttr (s.pOf s.cur.1) lvl t.pte acc with
  | some c => .stop (.trap ⟨c, acc == .fetch, p, 0, 0, 0⟩) s
  | none =>
    .ok ⟨pteAddr t.pte + (va - t.base), t.pte, va - t.base, t.winOk, t.winSize⟩ (if acc.writes then s.setDirty va t else s)

/-- Translate of R136-R140 for the running context: `p` is the pointer for TVAL. A is set in the leaf of the address alone, also where the leaf
stands in a 64 KiB group (log 48), and in the step wherever the table stands, as D is (log 51). -/
def State.translate (s : State) (p : Word) (va : Nat) (acc : Acc) : Res Xl :=
  match s.me.tlbHit va with
  | some t => s.viaTlb p va t 4 acc
  | none =>
    match s.walk (s.pOf s.cur.1) va with
    | .bad => .stop (.trap ⟨.pageProt, acc == .fetch, p, 0, 0, 0⟩) (s.countWalk (s.pOf s.cur.1) va)
    | .absent _ _ _ => .stop (.pageFault va acc.writes (acc == .fetch) 0) (s.countWalk (s.pOf s.cur.1) va)
    | .leaf lvl slot e =>
      let s := s.countWalk (s.pOf s.cur.1) va
      match s.checkAttr (s.pOf s.cur.1) lvl e acc with
      | some c => .stop (.trap ⟨c, acc == .fetch, p, 0, 0, 0⟩) s
      | none =>
        let s1 := s.onMem (fun m => m.orWord slot 32)
        let t := s.tlbEntry va lvl slot e
        (s1.onMe (fun x => { x with tlb := t :: x.tlb })).viaTlb p va t lvl acc

end Sys2Proof.Machine
end

