-- ==== Sys2Proof/Machine/HomeOps.lean ====
section
/-!
DEFINITION. What a home does with a request (R259-R263): reads, writes and atomics in home order (R159), the wait list and
pending words (R261), the lodge (R262), and the writes to replicated pages (R141, R142). Engine n is interface 4096 + n.
-/

namespace Sys2Proof.Machine

/-! ### Atomics (R221) -/

/-- The new value of an atomic operation on an n-bit location; none where ACAS fails (R221). -/
def atomicNew (op : Nat) (sgn : Bool) (n old opnd cmp : Nat) : Option Nat :=
  let o : Int := if sgn then toSigned n old else old
  let b : Int := if sgn then toSigned n opnd else opnd
  match op with
  | 0 => some ((old + opnd) % 2 ^ n)
  | 1 => some (old &&& opnd)
  | 2 => some (old ||| opnd)
  | 3 => some (old ^^^ opnd)
  | 4 => some (if o ≤ b then old else opnd)
  | 5 => some (if b ≤ o then old else opnd)
  | 6 => some opnd
  | _ => if old = cmp then some opnd else none

/-- An atomic on memory: the old value and the memory after it. -/
def Memory.atomic (m : Memory) (pa size op : Nat) (sgn : Bool) (opnd cmp : Nat) : Nat × Memory :=
  let old := m.read pa size
  match atomicNew op sgn (8 * size) old opnd cmp with
  | some v => (old, m.store pa size v)
  | none => (old, m)

/-! ### The wait list (R261) -/

/-- The 64-byte block of an address (R260). -/
def blockOf (pa : Nat) : Nat := pa / 64

/-- A write to a replicated page is in progress on the block of an address (R141). -/
def Home.busyBlock (h : Home) (pa : Nat) : Bool := h.jobs.any (fun j => blockOf j.pa == blockOf pa)

/-- The 64-byte block that a request names, of the requests that name one. -/
def ReqBody.block : ReqBody → Option Nat
  | .rld _ _ _ pa _ _ => some (blockOf pa)
  | .rst _ _ _ pa _ _ _ _ _ _ => some (blockOf pa)
  | .rat _ _ _ _ pa _ _ _ _ => some (blockOf pa)
  | .msg _ | .copy _ _ _ _ _ _ _ | .ewr _ _ _ _ _ | .xfer _ _ _ _ _ | .wst _ _ _ | .notice _ _ | .repl _ _ _ _ _ _ _ => none

/-- What a request waits for by itself: SYNC and SYNCE for a full word and for the mark of its line to clear (R142), an FE write for a word that is
not pending, writes and atomics of a replicated page for the end of the write in progress on their line (R141, R261), and any of them for a page
that has been evicted meanwhile (R152). -/
def ReqBody.blocked (m : Memory) (h : Home) : ReqBody → Bool
  | .rld .sync _ _ pa _ _ | .rld .synce _ _ pa _ _ => isGone pa || !m.isFull pa || sMem (blockOf pa) h.marks
  | .rst fe rp _ pa _ _ _ _ _ _ => isGone pa || (fe && m.isPending pa) || (rp != 0 && h.busyBlock pa)
  | .rat _ _ rp _ pa _ _ _ _ => isGone pa || (rp != 0 && h.busyBlock pa)
  | .rld .plain _ _ _ _ _ | .rld .fe _ _ _ _ _ | .rld .cancel _ _ _ _ _ | .rld .confirm _ _ _ _ _ | .rld .ret _ _ _ _ _ | .msg _
  | .copy _ _ _ _ _ _ _ | .ewr _ _ _ _ _ | .xfer _ _ _ _ _ | .wst _ _ _ | .notice _ _ | .repl _ _ _ _ _ _ _ => false

/-- A request of the same pair that waits for the same block (R260). -/
def Lodged.meets (l : Lodged) (src : Nat) (b : ReqBody) : Bool := l.src == src && l.body.block.isSome && l.body.block == b.block

/-- The oldest entry of a wait list that can be served, and the list without it: it waits for nothing itself, and no entry of its pair for
its block stands before it (R260, R261). `ahead` are the entries before. -/
def takeServable (m : Memory) (h : Home) (ahead : List Lodged) : List Lodged → Option (Lodged × List Lodged)
  | [] => none
  | l :: t =>
    if !l.body.blocked m h && !ahead.any (fun x => x.meets l.src l.body) then some (l, ahead ++ t)
    else takeServable m h (ahead ++ [l]) t

/-! ### Who learns an answer (R256) -/

/-- DONE with the data of an atomic. -/
def Rsp.data (v : Nat) : Rsp := ⟨.done, 0, v, [], false⟩

/-- DONE with the 64-byte block of a read (R256). -/
def Rsp.block (l : List Byte) : Rsp := ⟨.done, 0, 0, l, false⟩

/-- Where the 64 bytes begin that answer a read: its block, or for a quad that two blocks share its own first byte, so that it is one event (R160; log
62). -/
def blockBase (pa size : Nat) : Nat := if pa % 64 + size ≤ 64 then 64 * blockOf pa else pa

/-- The bytes of an access in the 64 bytes that answer it, as a value. -/
def fromBlock (blk : List Byte) (pa size : Nat) : Nat := leNat ((blk.drop (pa - blockBase pa size)).take size)

/-- What a context learns from the answer to its read or atomic. -/
def Rsp.ans (r : Rsp) (home : Nat) (b : ReqBody) : RAns :=
  let f := if r.st == .fault then some r.cause else none
  match b with
  | .rld m sgn _ pa size va => ⟨fromBlock r.blk pa size, f, some ⟨home, sgn, pa, size, va⟩, m == .synce && f.isNone⟩
  | .rat _ _ _ _ _ _ _ _ _ | .msg _ | .copy _ _ _ _ _ _ _ | .rst _ _ _ _ _ _ _ _ _ _ | .repl _ _ _ _ _ _ _ | .ewr _ _ _ _ _
  | .xfer _ _ _ _ _ | .wst _ _ _ | .notice _ _ => ⟨r.val, f, none, false⟩

/-- A context's outstanding read or atomic answered. -/
def State.answerCtx (s : State) (core ctx : Nat) (a : RAns) : State :=
  s.onCtx core ctx (fun x => if x.rpend then { x with rbuf := x.rbuf ++ [a], rpend := false } else x)

/-- The answer of a home: to a context of its own die at once (log 8), to any other interface as a response. -/
def State.reply (s : State) (h src num : Nat) (b : ReqBody) (r : Rsp) : State :=
  if 32 ≤ num then s.answerCtx src (num - 32) (r.ans h b) else s.respond (4096 + h) src num r

/-! ### Pending stores over memory (R155, R176) -/

/-- Two byte ranges meet. -/
def meets (a n b m : Nat) : Bool := decide (a < b + m) && decide (b < a + n)

/-- A value of `size` bytes at `pa` with one pending store laid over it. -/
def LaneE.lay (e : LaneE) (pa size v : Nat) : Nat :=
  if meets e.pa e.size pa size then
    leNat ((upTo size).map (fun i =>
      BitVec.ofNat 8 (if e.pa ≤ pa + i ∧ pa + i < e.pa + e.size then e.val >>> (8 * (pa + i - e.pa)) else v >>> (8 * i))))
  else v

/-- A global load meets the lanes of all four contexts of its core (R176): the stores that memory does not hold yet lie over it, in the order in
which they issued. -/
def overlay (l : List LaneE) (pa size v : Nat) : Nat := (l.filter (fun e => !e.landed)).foldl (fun v e => e.lay pa size v) v

/-- The pending stores of an interface, where it is a core's. -/
def State.lanesOf (s : State) (ep : Nat) : List LaneE := if ep < 4096 then (s.core ep).lanes else []

/-- The memory that the core reads holds a pending store. -/
def State.landed (s : State) (core lane : Nat) : State :=
  if (s.lanesOf core).any (fun e => e.id == lane) then
    s.onCore core (fun k => { k with lanes := k.lanes.map (fun e => if e.id == lane then { e with landed := true } else e) })
  else s

/-! ### What a quantum hides (R27, R172, R173; log 58) -/

/-- A write that a core performs in deterministic mode noted before it is performed; `born` is what the core had retired when it issued. -/
def State.noteWrite (s : State) (core born k size new : Nat) (fe : Bool) : State :=
  if decide (core < 4096) && s.detAt core then
    { s with wr := s.wr ++ [⟨core, born, k, size, s.mem.read k size, new % 2 ^ (8 * size), fe⟩] }
  else s

/-- What the core of a store had retired when it issued. -/
def State.bornOf (s : State) (src lane : Nat) : Nat :=
  match (s.lanesOf src).find? (fun e => e.id == lane) with
  | some e => e.born
  | none => (s.core src).retired

/-- A write of the quantum issued later, in the order of log 41, than a core has come: one of another core, which ran before the reader had its
turn. -/
def State.later (s : State) (core : Nat) (w : QWrite) : Bool :=
  let r := (s.core core).retired
  w.core != core && (decide (r < w.born) || (r == w.born && decide (core < w.core)))

/-- Some write over these bytes is hidden from a plain load of a core. -/
def State.hidden (s : State) (core k n : Nat) : Bool :=
  decide (core < 4096) && s.detAt core && !(s.core core).synced && s.wr.any (fun w => meets w.key w.size k n && s.later core w)

/-- A byte of a write's value. -/
def QWrite.byteAt (w : QWrite) (k v : Nat) : Byte := BitVec.ofNat 8 (v >>> (8 * (k - w.key)))

/-- A byte as a core finds it where later writes are hidden: what it was before the quantum, and then what the others have written in it. -/
def State.byteFor (s : State) (core k : Nat) : Byte :=
  let l := s.wr.filter (fun w => decide (w.key ≤ k) && decide (k < w.key + w.size))
  (l.filter (fun w => !s.later core w)).foldl (fun _ w => w.byteAt k w.new) (match l with | [] => s.mem.byte k | w :: _ => w.byteAt k w.old)

/-- The bytes of a plain load of a core. -/
def State.readFor (s : State) (core k n : Nat) : Nat :=
  if s.hidden core k n then leNat ((upTo n).map (fun i => s.byteFor core (k + i))) else s.mem.read k n

/-- A word is full for a SYNC or SYNCE of a core: in deterministic mode one that another core has made full in the quantum is so from its end on. -/
def State.fullFor (s : State) (core k : Nat) : Bool :=
  s.mem.isFull k && !(s.detAt core && s.wr.any (fun w => w.fe && w.core != core && wordOf w.key == wordOf k))

/-- An atomic or a FENCE of a core has been performed: it sees from now on what the others have written in the quantum (log 58). -/
def State.noteSync (s : State) (core : Nat) : State :=
  if decide (core < 4096) && s.detAt core then s.onCore core (fun k => { k with synced := true }) else s

/-! ### Errors in memory (R150) -/

/-- The correctable errors that a read finds corrected, and counted on a die (R150, R438 0x0A). -/
def State.scrub (s : State) (die k n : Nat) : State :=
  match s.mem.corrIn k n with
  | [] => s
  | l => (s.onMem (fun m => m.scrub k n)).count die 0x0A l.length

/-! ### What one memory does within a cycle (R159, R224, R334) -/

/-- The memory or engine of a key: the stack of a first-tier address, the memory of a cluster; none for memory that one core alone reaches. -/
def unitOf (k : Nat) : Option Nat :=
  if k < 2 ^ 39 then some (k / 2 ^ 36) else if 2 ^ 53 ≤ k ∧ k < 2 ^ 54 then some (0x1000 + (k - 2 ^ 53) / 2 ^ 22)
  else if k < 2 ^ 52 then some 0x10 else none

/-- The latest operation of a unit that counts came in an earlier cycle, or from a core and context that go first: of two that arrive in one
cycle the lower logical core goes first, then the lower context (R159). -/
def State.inTurn (s : State) (u : Option Nat) (core ctx : Nat) : Bool :=
  match u with
  | none => true
  | some u =>
    match AMap.find s.lastAt u with
    | none => true
    | some (t, c, x) => t != s.time || decide (c < core) || (c == core && decide (x ≤ ctx % 4))

/-- The operation noted. -/
def State.noteTurn (s : State) (u : Option Nat) (core ctx : Nat) : State :=
  match u with
  | none => s
  | some u => { s with lastAt := AMap.set s.lastAt u (s.time, core, ctx % 4) }

/-- A remote atomic or FE write stands ready at the stack's home that came before an operation of its own die in this cycle, or with it and from a
core and context that go first (R159). -/
def State.remoteFirst (s : State) (u : Option Nat) (core ctx : Nat) : Bool :=
  match u with
  | none => false
  | some u => decide (u < 8) && (s.ep (4096 + u)).ready.any (fun r =>
      let first := fun (c : Nat) => decide (r.since < s.time) || decide (r.src < core) || (r.src == core && decide (c % 4 < ctx % 4))
      r.num == AMap.get 0 (s.ep (4096 + u)).expect r.src && (match r.body with
        | .rat _ _ _ c _ _ _ _ _ => first c
        | .rst fe _ c _ _ _ _ _ _ _ => fe && first c
        | .rld _ _ _ _ _ _ | .msg _ | .copy _ _ _ _ _ _ _ | .ewr _ _ _ _ _ | .xfer _ _ _ _ _ | .wst _ _ _ | .notice _ _
        | .repl _ _ _ _ _ _ _ => false))

/-- A SYNCE has emptied the word in this cycle: an ST.FE that comes now would have gone first (R224). -/
def State.takenNow (s : State) (k : Nat) : Bool := s.takenAt.contains (wordOf k, s.time)

/-- A word emptied by a SYNCE. -/
def State.noteTaken (s : State) (k : Nat) : State :=
  { s with takenAt := (s.takenAt.filter (fun e => e.2 == s.time)) ++ [(wordOf k, s.time)] }

/-! ### Performing requests (R260) -/

/-- The dies of a partition other than its lowest. -/
def State.otherDies (s : State) (p : Nat) : List Nat := (upTo ((s.part p).dies - 1)).map (p + 1 + ·)

/-- A phase of a replica write sent from the primary to every other replica (R142). -/
def State.replPhase (s : State) (h p : Nat) (j : ReplJob) : State :=
  (s.otherDies p).foldl (fun s d => s.sendReq (4096 + h) (4096 + d) 7 (.repl j.id j.phase (replicaAt j.pa d) j.size j.val j.fe j.bad) Sender.none) s

/-- A value written to a replica; a poisoned one poisons its word (R150, R326). -/
def Memory.storeRepl (m : Memory) (pa size val : Nat) (fe bad : Bool) : Memory :=
  let m1 := m.storeFe pa size val fe
  if bad then m1.setPoison pa true else m1

/-- A value written to a replica on a die, noted and counted there (R438 0x10). -/
def State.writeRepl (s : State) (die src lane pa size val : Nat) (fe bad : Bool) : State :=
  let s1 := ((s.noteWrite src (s.bornOf src lane) pa size val fe).onMem (fun m => m.storeRepl pa size val fe bad)).count die 0x10 1
  if dieOf src = die then s1.landed src lane else s1

/-- A write at the primary of a replicated page (R141, R142): performed there and forwarded; the requester's answer waits for
every replica. With atomic propagation the line is marked first. -/
def State.replStart (s : State) (h src num rp pa size val old : Nat) (fe bad : Bool) (lane : Nat) : State :=
  let p := s.partKey h
  let write := fun (s : State) => s.writeRepl h src lane pa size val fe bad
  if (s.otherDies p).isEmpty then ((write s).landed src lane).respond (4096 + h) src num (.data old)
  else
    let j : ReplJob := ⟨s.fresh, src, num, old, pa, size, val, rp == 2, if rp = 2 then 0 else 1, (s.otherDies p).length, fe, lane, bad⟩
    let s1 := if rp = 2 then s else write s
    ((s1.onHome h (fun x => { x with jobs := x.jobs ++ [j], marks := if rp = 2 then sIns (blockOf pa) x.marks else x.marks })).replPhase
      h p j).tick

/-- The blocks that a request reads from and writes to its stack (R438 0x0F, 0x10): an ACAS that fails writes none. A write to a replicated page is
counted where each replica is written. -/
def State.homeCount (s : State) (h : Nat) : ReqBody → State
  | .rld m _ _ _ _ _ => if h < 8 && (m == .plain || m == .sync || m == .synce) then s.count h 0x0F 1 else s
  | .rst _ rp _ _ _ _ _ _ _ _ => if h < 8 && rp == 0 then s.count h 0x10 1 else s
  | .rat op sgn rp _ pa size opnd cmp _ =>
    if h < 8 then
      let s1 := s.count h 0x0F 1
      if rp == 0 && !s.mem.poisoned pa size && (atomicNew op sgn (8 * size) (s.mem.read pa size) opnd cmp).isSome then s1.count h 0x10 1 else s1
    else s
  | .msg _ | .copy _ _ _ _ _ _ _ | .ewr _ _ _ _ _ | .xfer _ _ _ _ _ | .wst _ _ _ | .notice _ _ | .repl _ _ _ _ _ _ _ => s

/-- The 64 bytes that answer a read as its reader sees them: memory, with the reader's own pending stores over it (R155). -/
def State.blockFor (s : State) (src pa size : Nat) : List Byte :=
  leBytes 64 (overlay (s.lanesOf src) (blockBase pa size) 64 (s.readFor src (blockBase pa size) 64))

/-- A context reads bytes that another context's store, still in a lane of their core, has given or may have given: what it writes from now on
waits for that store (R156, R157, R174). -/
def State.see (s : State) (core ctx pa size : Nat) : State :=
  if (s.lanesOf core).any (fun e => e.ctx != ctx && meets e.pa e.size pa size) then
    s.onCore core (fun k => { k with lanes := k.lanes.map (fun e =>
      if e.ctx != ctx && meets e.pa e.size pa size && !e.seen.contains ctx then { e with seen := e.seen ++ [ctx] } else e) })
  else s

/-- Firmware has evicted the page of a virtual address in a core's partition: it may have come back elsewhere (R262). -/
def State.hasMoved (s : State) (core : Nat) (va : Word) : Bool :=
  (s.part (s.pOf core)).evicted.any (fun e => decide (e.1 ≤ vaOf va) && decide (vaOf va < e.1 + e.2))

/-- The keys of a word that a SYNCE takes: of a replicated page the word of every replica, whose full-empty bits change together (R141, R146; log
61). -/
def State.keysOf (s : State) (src pa : Nat) (va : Word) : List Nat :=
  match s.walk (s.pOf src) (vaOf va) with
  | .leaf _ _ e =>
    if pteRepl e && firstTier pa then pa :: ((upTo (s.part (s.pOf src)).dies).map (fun i => replicaAt pa (s.pOf src + i))).filter (· != pa) else [pa]
  | .absent _ _ _ | .bad => [pa]

/-- CONFIRM performed (R261): the pending word becomes empty. -/
def State.emptied (s : State) (src pa : Nat) (va : Word) : State :=
  s.onMem (fun m => (s.keysOf src pa va).foldl (fun m k => (m.setPending k false).setEmpty k) m)

/-- RETURN performed (R261): the pending word is full with its value unchanged. -/
def State.refilled (s : State) (src pa : Nat) (va : Word) : State :=
  s.onMem (fun m => (s.keysOf src pa va).foldl (fun m k => (m.setPending k false).setFull k) m)

/-- A word that a SYNCE has taken waits for CONFIRM or RETURN (R261). -/
def State.pend (s : State) (src pa : Nat) (va : Word) : State :=
  (s.onMem (fun m => (s.keysOf src pa va).foldl (fun m k => m.setPending k true) m)).noteTaken pa

/-- A write finds its page brought back after an eviction: the page is dirty again (R138, R152). -/
def State.redirty (s : State) (src : Nat) (va : Word) : State :=
  if s.hasMoved src va then
    match s.walk (s.pOf src) (vaOf va) with
    | .leaf _ slot _ => s.onMem (fun m => m.orWord slot 64)
    | .absent _ _ _ | .bad => s
  else s

/-- A read performed at its home (R217, R261). A SYNC or SYNCE takes the word as memory holds it (R165). -/
def State.readAtHome (s : State) (h src num : Nat) (b : ReqBody) (m : RMode) (ctx pa size : Nat) (va : Word) : State :=
  if s.mem.poisoned pa size then s.reply h src num b (.plain .fault Cause.eccUncorrected.code)
  else
    let s1 := s.scrub (if h < 8 then h else dieOf src) pa size
    let s2 := if m = .synce then s1.pend src pa va else s1
    if m = .sync ∨ m = .synce then s2.reply h src num b (.block (s.mem.bytes (64 * blockOf pa) 64))
    else (s2.see src ctx pa size).reply h src num b (.block (s.blockFor src pa size))

/-- A request performed at a home that can perform it now (R260, R261). -/
def State.homeDo (s : State) (h src num : Nat) (b : ReqBody) : State :=
  match b with
  | .rld .confirm _ _ pa _ va => (s.emptied src pa va).respond (4096 + h) src num .ok
  | .rld .ret _ _ pa _ va => (s.refilled src pa va).respond (4096 + h) src num .ok
  | .rld .plain _ ctx pa size va => s.readAtHome h src num b .plain ctx pa size va
  | .rld .sync _ ctx pa size va => s.readAtHome h src num b .sync ctx pa size va
  | .rld .synce _ ctx pa size va => s.readAtHome h src num b .synce ctx pa size va
  | .rld .fe _ ctx pa size va => s.readAtHome h src num b .fe ctx pa size va
  | .rld .cancel _ ctx pa size va => s.readAtHome h src num b .cancel ctx pa size va
  | .rst fe rp ctx pa size val _ va lane _ =>
    let s0 := (if fe then s.noteTurn (unitOf pa) src ctx else s).redirty src va
    if rp = 0 then (((s0.noteWrite src (s.bornOf src lane) pa size val fe).onMem (fun m => m.storeFe pa size val fe)).landed src lane).respond
      (4096 + h) src num .ok
    else s0.replStart h src num rp pa size val 0 fe false lane
  | .rat op sgn rp ctx pa size opnd cmp va =>
    if s.mem.poisoned pa size then s.respond (4096 + h) src num (.plain .fault Cause.eccUncorrected.code)
    else
      let s0 := ((s.scrub (if h < 8 then h else dieOf src) pa size).noteTurn (unitOf pa) src ctx).noteSync src
      let old := s.mem.read pa size
      match atomicNew op sgn (8 * size) old opnd cmp with
      | none => s0.respond (4096 + h) src num (.data old)
      | some v =>
        let s1 := s0.redirty src va
        if rp = 0 then ((s1.noteWrite src (s.core src).retired pa size v false).onMem (fun m => m.store pa size v)).respond (4096 + h) src num (.data old)
        else s1.replStart h src num rp pa size v old false false 0
  | .msg _ | .copy _ _ _ _ _ _ _ | .ewr _ _ _ _ _ | .xfer _ _ _ _ _ | .wst _ _ _ | .notice _ _ | .repl _ _ _ _ _ _ _ => s

/-- Waiting requests of a home served, oldest first, while some can be (R261). -/
def State.serveWait (s : State) (h : Nat) : Nat → State
  | 0 => s
  | n + 1 =>
    match takeServable s.mem (s.home h) [] (s.home h).wait with
    | none => s
    | some (l, t) => (((s.onHome h (fun x => { x with wait := t })).homeCount h l.body).homeDo h l.src l.num l.body).serveWait h n

/-- Every waiting request that can be served, served. -/
def State.serveAll (s : State) (h : Nat) : State := s.serveWait h (s.home h).wait.length

/-! ### Requests (R260-R262) -/

/-- The address, and the virtual address that the request carries, of a remote operation. -/
def ReqBody.addr : ReqBody → Nat × Word
  | .rld _ _ _ pa _ va => (pa, va)
  | .rst _ _ _ pa _ _ _ va _ _ => (pa, va)
  | .rat _ _ _ _ pa _ _ _ va => (pa, va)
  | .msg _ | .copy _ _ _ _ _ _ _ | .ewr _ _ _ _ _ | .xfer _ _ _ _ _ | .wst _ _ _ | .notice _ _ | .repl _ _ _ _ _ _ _ => (0, 0)

/-- The request with another physical address. -/
def ReqBody.setPa (pa : Nat) : ReqBody → ReqBody
  | .rld m sgn c _ size va => .rld m sgn c pa size va
  | .rst fe rp c _ size val col va id sgn => .rst fe rp c pa size val col va id sgn
  | .rat op sgn rp c _ size o cm va => .rat op sgn rp c pa size o cm va
  | .msg m => .msg m
  | .copy a b c d e f g => .copy a b c d e f g
  | .ewr a b c d e => .ewr a b c d e
  | .xfer a b c d e => .xfer a b c d e
  | .wst a b c => .wst a b c
  | .notice a b => .notice a b
  | .repl a b c d e f g => .repl a b c d e f g

/-- A request to a frame that firmware evicted while it was on its way (R262, R267): none where the page is still absent,
otherwise the address that its page has now. LDX and STX carry no virtual address: their pages are pinned (R143). -/
def State.retranslate (s : State) (src : Nat) (pa : Nat) (va : Word) : Option Nat :=
  let v := vaOf va
  if s.hasMoved src va then
    match s.walk (s.pOf src) v with
    | .leaf lvl _ e => some (pteAddr e + v % pageSize lvl)
    | .absent _ _ _ | .bad => none
  else some pa

/-- The address that a request names now. -/
def State.nowAt (s : State) (src : Nat) (b : ReqBody) : Nat := (s.retranslate src b.addr.1 b.addr.2).getD b.addr.1

/-- A lodged request of the same pair waits for the same block, at the addresses that both have now (R260, R262). -/
def State.lodgeMeets (s : State) (l : Lodged) (src : Nat) (b : ReqBody) : Bool :=
  l.src == src && Lodged.meets { l with body := l.body.setPa (s.nowAt l.src l.body) } src b

/-! ### Waiting at a home (R47, R261-R263) -/

/-- A context whose read or atomic waits at its home parks (R47, R263): in the lodge it is not charged, in the wait list it waits as for an
empty word. The reason is 0 for the lodge and 1 for the wait list, as in a stay notice. -/
def State.stayPark (s : State) (core : Nat) (b : ReqBody) (reason : Nat) : State :=
  let park := fun (ctx : Nat) (va : Word) =>
    let x := s.ctx core ctx
    let a : Await := if reason = 0 then .lodge else .syncEmpty va
    let waits := match x.st, x.await with
      | .running, _ | .parked, .lodge | .parked, .syncEmpty _ => true
      | .free, _ | .parked, _ => false
    if waits && x.rpend then s.onCtx core ctx (fun x => { x with st := .parked, await := a, stall := a.stall.code, rcur := 0 }) else s
  match b with
  | .rld .plain _ ctx _ _ va | .rld .sync _ ctx _ _ va | .rld .synce _ ctx _ _ va | .rld .fe _ ctx _ _ va => park ctx va
  | .rat _ _ _ ctx _ _ _ _ va => park ctx va
  | .rld .cancel _ _ _ _ _ | .rld .confirm _ _ _ _ _ | .rld .ret _ _ _ _ _ | .msg _ | .copy _ _ _ _ _ _ _ | .rst _ _ _ _ _ _ _ _ _ _ | .repl _ _ _ _ _ _ _ | .ewr _ _ _ _ _ | .xfer _ _ _ _ _ | .wst _ _ _ | .notice _ _ => s

/-- The requester of a request that begins to wait at a home: a core whose context still waits for the answer. -/
def State.stayAt (s : State) (h : Nat) (l : Lodged) (reason : Nat) : State :=
  if 4096 ≤ l.src then s
  else if 32 ≤ l.num then s.stayPark l.src l.body reason
  else match (s.ep l.src).out.find? (fun o => o.dest == 4096 + h && o.num == l.num && o.use == .reply) with
    | some o => s.stayPark l.src o.body reason
    | none => s

/-- A request put at the tail of a wait list. -/
def State.joinWait (s : State) (h src num : Nat) (b : ReqBody) : State :=
  let l : Lodged := ⟨src, num, b, s.time, s.time⟩
  (s.onHome h (fun x => { x with wait := x.wait ++ [l] })).stayAt h l 1

/-- A request put at the tail of a lodge. -/
def State.joinLodge (s : State) (h src num : Nat) (b : ReqBody) : State :=
  let l : Lodged := ⟨src, num, b, s.time, s.time⟩
  (s.onHome h (fun x => { x with lodge := x.lodge ++ [l] })).stayAt h l 0

/-- The second-tier device of an address does not answer (R262): a free value. -/
def State.deviceDown (s : State) (pa : Nat) : Bool := secondTier pa && !Config.deviceAnswers (pa / 2 ^ 42 % 4) s.fresh

/-- The entries in the lodge of a home: at an I/O die those of its window engine count with them (R262, R375). -/
def State.lodgeCount (s : State) (h : Nat) : Nat := (s.home h).lodge.length + (if h < 0x10 then 0 else (s.win (h - 0x10)).lodge.length)

/-- What a home does with a request (R260-R262). -/
inductive Plan where
  | perform (b : ReqBody)
  | wait (b : ReqBody)
  | lodge (b : ReqBody)
  deriving DecidableEq, Repr

/-- A CONFIRM or RETURN: it passes the waiting requests of its pair, as CANCEL does, since R261 has them act at once on the word that those wait for,
where R260 speaks of every request (log 69). -/
def ReqBody.passes : ReqBody → Bool
  | .rld .confirm _ _ _ _ _ | .rld .ret _ _ _ _ _ => true
  | .rld .plain _ _ _ _ _ | .rld .sync _ _ _ _ _ | .rld .synce _ _ _ _ _ | .rld .fe _ _ _ _ _ | .rld .cancel _ _ _ _ _ | .msg _
  | .copy _ _ _ _ _ _ _ | .rst _ _ _ _ _ _ _ _ _ _ | .rat _ _ _ _ _ _ _ _ _ | .repl _ _ _ _ _ _ _ | .ewr _ _ _ _ _ | .xfer _ _ _ _ _ | .wst _ _ _
  | .notice _ _ => false

/-- The plan for a remote read, write or atomic: behind a request of its pair for the same block that waits, it waits there (R260); where its
frame is gone or its device does not answer, it goes to the lodge (R262). -/
def State.homePlan (s : State) (h src : Nat) (b : ReqBody) : Plan :=
  let (pa0, va) := b.addr
  match s.retranslate src pa0 va with
  | none => .lodge b
  | some pa =>
    let b' := b.setPa pa
    if s.deviceDown pa || (s.home h).lodge.any (fun l => s.lodgeMeets l src b') then .lodge b'
    else if (!b'.passes && (s.home h).wait.any (fun l => l.meets src b')) || b'.blocked s.mem (s.home h) then .wait b'
    else .perform b'

/-- A request that R159 or R224 puts behind one that has been performed in this cycle: it is performed in a later one. -/
def State.tooEarly (s : State) (src : Nat) (b : ReqBody) : Bool :=
  match b with
  | .rat _ _ _ ctx pa _ _ _ _ => !s.inTurn (unitOf pa) src ctx
  | .rst fe _ ctx pa _ _ _ _ _ _ => fe && (!s.inTurn (unitOf pa) src ctx || s.takenNow pa)
  | .rld _ _ _ _ _ _ | .msg _ | .copy _ _ _ _ _ _ _ | .ewr _ _ _ _ _ | .xfer _ _ _ _ _ | .wst _ _ _ | .notice _ _ | .repl _ _ _ _ _ _ _ => false

/-- An atomic or FE write that came in this cycle waits for the others that came in it (R159). -/
def State.justCame (s : State) (r : InReq) : Bool :=
  r.since == s.time && (match r.body with
    | .rat _ _ _ _ _ _ _ _ _ => true
    | .rst fe _ _ _ _ _ _ _ _ _ => fe
    | .rld _ _ _ _ _ _ | .msg _ | .copy _ _ _ _ _ _ _ | .ewr _ _ _ _ _ | .xfer _ _ _ _ _ | .wst _ _ _ | .notice _ _ | .repl _ _ _ _ _ _ _ => false)

/-- A remote read, write or atomic in order of admission (R260); BUSY where its list or lodge holds 64 (R261, R262). -/
def State.homeServe (s : State) (h : Nat) (r : InReq) (left : List InReq) : State :=
  let ep := 4096 + h
  let s' := if secondTier r.body.addr.1 then s.tick else s
  match s.homePlan h r.src r.body with
  | .perform b => if s.tooEarly r.src b || s.justCame r then s else ((((s'.took ep r left).homeCount h b).homeDo h r.src r.num b)).serveAll h
  | .wait b =>
    if 64 ≤ (s.home h).wait.length then s'.busy ep r left else (s'.took ep r left).joinWait h r.src r.num b
  | .lodge b =>
    if 64 ≤ s.lodgeCount h then s'.busy ep r left else (s'.took ep r left).joinLodge h r.src r.num b

/-- A read that a CANCEL names: of its source, context and virtual address, waiting for a full word (R261). Its page may have moved since (R262). -/
def Lodged.cancelled (l : Lodged) (src : Nat) (b : ReqBody) : Bool :=
  match l.body, b with
  | .rld m _ ctx _ _ va, .rld _ _ ctx' _ _ va' => l.src == src && (m == .sync || m == .synce) && ctx == ctx' && va == va'
  | _, _ => false

/-- CANCEL (R261): the waiting entry is removed. The spec names no word that tells its sender whether one was there: word 1 of the answer does, 1
or 0, and on 1 the sender frees the read that it kept (log 56). -/
def State.homeCancel (s : State) (h src num : Nat) (b : ReqBody) : State :=
  let hit := ((s.home h).wait ++ (s.home h).lodge).any (fun l => l.cancelled src b)
  ((s.onHome h (fun x => { x with wait := x.wait.filter (fun l => !l.cancelled src b), lodge := x.lodge.filter (fun l => !l.cancelled src b) })).respond
    (4096 + h) src num (.data (if hit then 1 else 0))).serveAll h

/-- A replica applies a phase of a write that its primary forwards (R142), and serves those who wait there for its word or its mark. A core of its
die that wrote it reads it from then on. -/
def State.replicaApply (s : State) (h primary job phase pa size val : Nat) (fe bad : Bool) : State :=
  match phase with
  | 0 => s.onHome h (fun x => { x with marks := sIns (blockOf pa) x.marks })
  | 1 =>
    let s1 := match (s.home primary).jobs.find? (fun j => j.id == job) with
      | some j => s.writeRepl h j.src j.lane pa size val fe bad
      | none => (s.onMem (fun m => m.storeRepl pa size val fe bad)).count h 0x10 1
    s1.serveAll h
  | _ => (s.onHome h (fun x => { x with marks := sDel (blockOf pa) x.marks })).serveAll h

/-- Every replica has answered a phase (R142): the next phase, or the requester's answer and the waiting requests. -/
def State.replNext (s : State) (h : Nat) (j : ReplJob) : State :=
  let p := s.partKey h
  let drop := fun (x : Home) => { x with jobs := x.jobs.filter (fun i => i.id != j.id) }
  if j.atomic && j.phase < 2 then
    let j' : ReplJob := { j with phase := j.phase + 1, left := (s.otherDies p).length }
    let s1 := if j.phase = 0 then s.writeRepl h j.src j.lane j.pa j.size j.val j.fe j.bad else s
    let s2 := if j.phase = 1 then s1.onHome h (fun x => { x with marks := sDel (blockOf j.pa) x.marks }) else s1
    ((s2.onHome h (fun x => { x with jobs := x.jobs.map (fun i => if i.id == j.id then j' else i) })).replPhase h p j').serveAll h
  else ((s.onHome h drop).respond (4096 + h) j.src j.num (.data j.old)).serveAll h

/-- An answer of one replica. -/
def State.replAck (s : State) (h job : Nat) : State :=
  match (s.home h).jobs.find? (fun j => j.id == job) with
  | none => s
  | some j =>
    if j.left ≤ 1 then s.replNext h { j with left := 0 }
    else s.onHome h (fun x => { x with jobs := x.jobs.map (fun i => if i.id == job then { i with left := i.left - 1 } else i) })

end Sys2Proof.Machine
end

