-- ==== Sys2Proof/Machine/Mem.lean ====
section
/-!
DEFINITION. The load-store unit: ReadMem and WriteMem of R108, remote accesses (R20, R259), the store lanes (R161, R174-R179),
window stores (R370, R373), atomics (R221, R222), full-empty words (R146, R165), releases (R155, R195) and fetching a line
(R91).
-/

namespace Sys2Proof.Machine

/-! ### Remote accesses -/

/-- A block read from or written to a stack is counted on its die (R438 0x0F, 0x10). -/
def State.countBlk (s : State) (pa ev : Nat) : State := if firstTier pa then s.count (pa / 2 ^ 36) ev 1 else s

/-- A count of R50 raised: the access names a stack of another die. -/
def State.countHome (s : State) (pa : Nat) : State :=
  if firstTier pa && pa / 2 ^ 36 != dieOf s.cur.1 then
    s.onMe (fun x => { x with remote := set8 x.remote (pa / 2 ^ 36) (get8 x.remote (pa / 2 ^ 36) + 1) })
  else s

/-- A store of the running context waits in its lane to leave: a later request of the context does not leave before it (R265). -/
def State.laneUnsent (s : State) : Bool := s.myCore.lanes.any (fun e => e.ctx == s.cur.2.val && !e.sent)

/-- The answer of the next remote access of the instruction in hand; where it has none yet, the request is sent once and the
context waits (R176 b, R217). -/
def State.remote (s : State) (dest kind pa : Nat) (b : ReqBody) : Res RAns :=
  match s.me.rbuf[s.me.rcur]? with
  | some a => .ok a (s.onMe (fun x => { x with rcur := x.rcur + 1 }))
  | none =>
    if s.me.rpend || s.laneUnsent then .stop (.wait .memory) s
    else if (s.ep s.cur.1).backlog.isEmpty && (s.ep s.cur.1).canSend dest then
      .stop (.wait .memory) (((s.countHome pa).sendReq s.cur.1 dest kind b ⟨s.cur.2.val, 0, 0, 0⟩).onMe (fun x => { x with rpend := true, issued := true }))
    else .stop (.wait .fabric) s

/-- An answer's fault raised at the instruction (R195, R217): ECC-UNCORRECTED with the pointer, REMOTE-FAULT with the VA. -/
def RAns.value (a : RAns) (p : Word) (s : State) : Res Nat :=
  match a.fault with
  | none => .ok a.val s
  | some c =>
    if c = Cause.eccUncorrected.code then trapAt .eccUncorrected p s
    else trapAt .remoteFault (BitVec.ofNat 64 (vaOf p)) s

/-! ### The store lanes (R161, R176) -/

/-- An earlier pending store that a store may not pass: of its core, one to its address (R174, R176), of its context one of its colour
or a release on either side (R161, R179), of another context one that its own has read (R156, R177: an earlier load is kept before a store). -/
def LaneE.blocks (e f : LaneE) : Bool :=
  meets e.pa e.size f.pa f.size || (e.ctx == f.ctx && (e.colour == f.colour || e.kind != .plain || f.kind != .plain)) ||
    (e.ctx != f.ctx && e.seen.contains f.ctx)

/-- The home of a store stands on the core's own die (log 8). -/
def State.isOwn (s : State) (core : Nat) (e : LaneE) : Bool :=
  firstTier e.pa && e.pa / 2 ^ 36 == dieOf core && (e.repl == 0 || (s.part (s.pOf core)).dies == 1)

/-- A store to a home on the core's own die is performed at once (log 8). An ST.FE waits while its word is pending, and for the next cycle
where R224 puts it behind or before what the home has done in this one. -/
def State.isDirect (s : State) (core : Nat) (e : LaneE) : Bool :=
  s.isOwn core e && !(e.kind == .fe && (s.mem.isPending e.pa || s.takenNow e.pa || !s.inTurn (unitOf e.pa) core e.ctx || s.remoteFirst (unitOf e.pa) core e.ctx))

/-- A store performed at its home on the core's own die. -/
def State.performDirect (s : State) (core : Nat) (e : LaneE) : State :=
  let s0 := (s.redirty core e.va).noteWrite core e.born e.pa e.size e.val (e.kind == .fe)
  let s1 := s0.onMem (fun m => m.storeFe e.pa e.size e.val (e.kind == .fe))
  let s2 := s1.countBlk e.pa 0x10
  if e.kind == .fe then (s2.noteTurn (unitOf e.pa) core e.ctx).serveAll (homeOf e.pa) else s2

/-- The remote write of a store (R259). -/
def LaneE.body (e : LaneE) : ReqBody := .rst (e.kind == .fe) e.repl e.ctx e.pa e.size e.val e.colour.toNat e.va e.id e.sgn

/-- The interface that a store leaves for: its home, which for a page that firmware has evicted is that of the own die, where it is lodged (R262). -/
def LaneE.dest (e : LaneE) (core : Nat) : Nat := 4096 + (if isGone e.pa then dieOf core else homeOf e.pa)

/-- The lanes of a core moved on: each store that no earlier pending one blocks is performed or sent. `kept` are the pending
ones before it. -/
def State.drainFrom (s : State) (core : Nat) (kept : List LaneE) : List LaneE → State
  | [] => s.onCore core (fun k => { k with lanes := kept })
  | e :: t =>
    if e.sent || kept.any (fun f => f.blocks e) then s.drainFrom core (kept ++ [e]) t
    else if s.isDirect core e then (s.performDirect core e).drainFrom core kept t
    else if s.isOwn core e then s.drainFrom core (kept ++ [e]) t
    else if (s.ep core).backlog.isEmpty && (s.ep core).canSend (e.dest core) then
      (s.sendReq core (e.dest core) 4 e.body ⟨e.ctx, 0, 0, 0⟩).drainFrom core (kept ++ [{ e with sent := true }]) t
    else s.drainFrom core (kept ++ [e]) t

/-- The lanes of a core moved on. -/
def State.drain (s : State) (core : Nat) : State := s.drainFrom core [] (s.core core).lanes

/-- A number that no pending store of a list has. -/
def newId (l : List LaneE) : Nat := l.foldl (fun n e => max n e.id) 0 + 1

/-- A global store enters its lane (R161, R219), with SIGNED of its instruction (R259). R219 speaks of a lane's capacity and no rule gives a number: the
model's lanes take every store (log 70). -/
def State.pushLane (s : State) (pa : Nat) (va : Word) (size val : Nat) (colour : BitVec 3) (kind : StKind) (repl : Nat) (sgn : Bool) : State :=
  let e : LaneE := ⟨newId s.myCore.lanes, s.cur.2.val, s.me.msgId, s.me.tag, colour, kind, pa, va, size, val, repl, false, false, [], sgn,
    s.me.serial, s.myCore.retired⟩
  ((s.countHome pa).onMyCore (fun k => { k with lanes := k.lanes ++ [e] })).drain s.cur.1

/-- The running context has a pending store of a colour, or any release, or has read another's pending store (R156, R177). -/
def State.laneBusy (s : State) (colour : BitVec 3) : Bool :=
  s.myCore.lanes.any (fun e => (e.ctx == s.cur.2.val && (e.colour == colour || e.kind != .plain)) || e.seen.contains s.cur.2.val)

/-- The running context has a pending store, or has read another's. -/
def State.lanesMine (s : State) : Bool := s.myCore.lanes.any (fun e => e.ctx == s.cur.2.val || e.seen.contains s.cur.2.val)

/-! ### Releases (R155, R167, R195) -/

/-- REMOTE-FAULT of a posted store that failed, raised at an instruction that waits for it (R195). -/
def State.failCheck (s : State) : Res Unit :=
  match s.me.failed with
  | [] => .ok () s
  | f :: t => trapAt .remoteFault (BitVec.ofNat 64 f.2) (s.onMe (fun x => { x with failed := t }))

/-- A release at PKG scope: every earlier store and atomic write of the context is performed (R155, R167). -/
def State.release (s : State) (r : Stall) : Res Unit :=
  s.failCheck.bind fun _ s => if s.lanesMine then .stop (.wait r) s else .ok () s

/-! ### Reading (R216, R217) -/

/-- The full-empty operation of a read: none, SYNC, or SYNCE which takes the word. -/
inductive Fe where
  | none | sync | synce
  deriving DecidableEq, Repr

/-- The access kind of a read. -/
def Fe.acc : Fe → Acc
  | .none => .load
  | .sync | .synce => .sync

/-- MODE of a remote read (R259). -/
def Fe.mode : Fe → RMode
  | .none => .plain | .sync => .sync | .synce => .synce

/-- In deterministic mode the loads of a logical core add its pending channel advances to the words they read (R453). -/
def advLay (m : Memory) (l : List Adv) (pa size v : Nat) : Nat :=
  let n := sumNat ((l.filter (fun a => a.pa == wordOf pa)).map (·.n))
  if n = 0 then v else
    let o := pa % 8
    ((v * 2 ^ (8 * o) + m.read (wordOf pa) o + n) / 2 ^ (8 * o)) % 2 ^ (8 * size)

/-- The replication of a leaf: none, loose, atomic (R142). -/
def replOf (e : Word) : Nat := if pteRepl e then (if pteProp e then 2 else 1) else 0

/-- A read of memory that the core reaches itself: `k` is the key, `p` the pointer, `o` the pending stores over `pa`. What a quantum hides from it is
log 58's. -/
def State.readDirect (s : State) (p : Word) (k size : Nat) (fe : Fe) (o : List LaneE) (pa : Nat) : Res Nat :=
  if fe != .none && !s.fullFor s.cur.1 k then .stop (.park (.syncEmpty p)) s
  else if s.mem.poisoned k size then trapAt .eccUncorrected p s
  else
    let s1 := (s.scrub (dieOf s.cur.1) k size).see s.cur.1 s.cur.2.val pa size
    .ok (advLay s.mem s.myCore.advs pa size (overlay o pa size (if fe = .none then s.readFor s.cur.1 k size else s.mem.read k size)))
      (if fe = .synce then (s1.onMem (fun m => (s.keysOf s.cur.1 k p).foldl (fun m k => m.setEmpty k) m)).noteTaken k else s1)

/-- Another context of the core has an atomic outstanding on these bytes: its result is not seen before it returns (R176 b). -/
def State.atomicOut (s : State) (pa size : Nat) : Bool :=
  (s.ep s.cur.1).out.any (fun o =>
    match o.body with
    | .rat _ _ _ _ a n _ _ _ => meets a n pa size
    | .rld _ _ _ _ _ _ | .rst _ _ _ _ _ _ _ _ _ _ | .msg _ | .copy _ _ _ _ _ _ _ | .repl _ _ _ _ _ _ _ | .ewr _ _ _ _ _ | .xfer _ _ _ _ _ | .wst _ _ _ | .notice _ _ => false)

/-- A pending store of any context of the core lies over these bytes. -/
def State.laneOver (s : State) (pa size : Nat) : Bool := s.myCore.lanes.any (fun e => !e.landed && meets e.pa e.size pa size)

/-- A SYNC or SYNCE read of a word whose home is on the core's own die (R217, R261), or of the own die's replica of it; `k` is its key. It waits for a
mark to clear (R142), and a SYNCE for the end of a write in progress on its line. A full word is taken at once; for an empty one the read joins the
home's wait list, or waits to do so while that holds 64. In deterministic mode it parks and reads again (R59). -/
def State.syncOwn (s : State) (p : Word) (sgn : Bool) (va pa k size : Nat) (fe : Fe) : Res Nat :=
  let d := dieOf s.cur.1
  if s.me.rpend || s.laneOver pa size || sMem (blockOf k) (s.home d).marks || (fe == .synce && (s.home d).busyBlock k) then .stop (.wait .memory) s
  else if s.fullFor s.cur.1 k || s.detAt s.cur.1 then (s.readDirect p k size fe [] pa).bind fun v s => .ok v (s.countBlk k 0x0F)
  else if 64 ≤ (s.home d).wait.length then .stop (.wait .memory) s
  else .stop (.park (.syncEmpty p)) ((s.onMe (fun x => { x with rpend := true })).joinWait d s.cur.1 (ownNum s.cur.2.val)
    (.rld fe.mode sgn s.cur.2.val k size (BitVec.ofNat 64 va)))

/-- A read of a global physical address: a replicated page (`rp` is 1 loose, 2 atomic) reads the replica of the core's die (R141, R142), a
word of the own die is read at once (log 8), every other home is asked (R217). With atomic propagation a read waits for the marks, and for
the core's own pending stores to the line (R168). LD.SYNC of such a page reads the replica too, and LD.SYNCE, which writes the full-empty bit, goes to
the primary; neither counts a home (R141, R146, log 61). A SYNC or SYNCE waits for its core's stores to the word before it finds it empty (R174,
R216). In deterministic mode the park for an empty word is taken at issue (R59). -/
def State.readGlobal (s : State) (p : Word) (sgn : Bool) (va pa size rp : Nat) (fe : Fe) : Res Nat :=
  let d := dieOf s.cur.1
  if s.atomicOut pa size then .stop (.wait .memory) s
  else if rp != 0 && fe == .none then
    if sMem (blockOf (replicaAt pa d)) (s.home d).marks || (rp == 2 && s.laneOver pa size) then .stop (.wait .memory) s
    else (s.readDirect p (replicaAt pa d) size fe s.myCore.lanes pa).bind fun v s => .ok v (s.countBlk (replicaAt pa d) 0x0F)
  else if rp != 0 && fe == .sync then s.syncOwn p sgn va pa (replicaAt pa d) size fe
  else if firstTier pa && pa / 2 ^ 36 == d then
    if fe != .none then s.syncOwn p sgn va pa pa size fe
    else (s.readDirect p pa size fe s.myCore.lanes pa).bind fun v s => .ok v (s.countBlk pa 0x0F)
  else if fe != .none && s.laneOver pa size && !s.me.rpend then .stop (.wait .memory) s
  else if fe != .none && s.detAt s.cur.1 && !s.me.rpend && !s.fullFor s.cur.1 pa then .stop (.park (.syncEmpty p)) s
  else
    (s.remote (4096 + homeOf pa) 3 (if rp = 0 then pa else replicaAt pa d) (.rld fe.mode sgn s.cur.2.val pa size (BitVec.ofNat 64 va))).bind fun a s =>
      (a.value p s).bind fun v s => .ok (advLay s.mem s.myCore.advs pa size v) s

/-- CONFIRM of a SYNCE whose load retires (R261): at a home on the own die at once, where the word's page has not moved (R262), else as a request. -/
def State.confirm (s : State) (t : Taken) : State :=
  if ownHome s.cur.1 t.home && !s.hasMoved s.cur.1 t.va then (s.emptied s.cur.1 t.pa t.va).serveAll t.home
  else s.sendReq s.cur.1 (4096 + t.home) 3 (.rld .confirm t.sgn s.cur.2.val t.pa t.size t.va) Sender.none

/-- The answer of a SYNC or SYNCE that has come: the load takes it, with no second translation, and confirms a word that it took. -/
def State.takeSync (s : State) (p : Word) (a : RAns) : Res Nat :=
  (a.value p (s.onMe (fun x => { x with rcur := x.rcur + 1 }))).bind fun v s =>
    match a.orig with
    | none => .ok v s
    | some t => .ok (advLay s.mem s.myCore.advs t.pa t.size v) (if a.taken then s.confirm t else s)

/-- ReadMem of R108 with the checks of R128, R136 and R137 first; a request carries SIGNED (R259). -/
def State.readMemQ (s : State) (p : Word) (sgn : Bool) (size : Nat) (fe : Fe) : Res Nat :=
  match fe, s.me.rbuf[s.me.rcur]? with
  | .sync, some a => s.takeSync p a
  | .synce, some a => s.takeSync p a
  | .none, _ | .sync, none | .synce, none =>
    match s.decodeAddr p size fe.acc with
    | .error c => trapAt c p s
    | .ok (.loc k) => s.readDirect p k size fe [] k
    | .ok (.glob va) => (s.translate p va fe.acc).bind fun x s => s.readGlobal p sgn va x.pa size (replOf x.pte) fe

/-- ReadMem of an access without a signed form. -/
def State.readMem (s : State) (p : Word) (size : Nat) (fe : Fe) : Res Nat := s.readMemQ p false size fe

/-- `n` words of a record read from a pointer, in ascending address (R230, R322, R351, R401); `acc` holds those read before. -/
def State.readWords (s : State) (p : Word) (acc : List Word) : Nat → Res (List Word)
  | 0 => .ok acc s
  | n + 1 =>
    ((s.readMem (ptrOff p (BitVec.ofNat 64 (8 * acc.length))) 8 .none).needs
      [vaOf p, vaOf (ptrOff p (BitVec.ofNat 64 (8 * (acc.length + n))))]).bind fun v s => s.readWords p (acc ++ [BitVec.ofNat 64 v]) n

/-! ### Writing (R218, R219, R370, R373) -/

/-- The window stores of a core on their way to the engines (R373). -/
def State.wstOut (s : State) (core : Nat) : List (Nat × Nat × WStore) :=
  let e := s.ep core
  (e.out.map (·.body) ++ e.backlog.map (·.body)).filterMap (fun b =>
    match b with
    | .wst xd n st => some (xd, n, st)
    | .msg _ | .copy _ _ _ _ _ _ _ | .rld _ _ _ _ _ _ | .rst _ _ _ _ _ _ _ _ _ _ | .rat _ _ _ _ _ _ _ _ _ | .repl _ _ _ _ _ _ _ | .ewr _ _ _ _ _
    | .xfer _ _ _ _ _ | .notice _ _ => none)

/-- The window stores of a core that fill its lane: on their way to an engine, or there and not yet sent. -/
def State.laneFill (s : State) (core : Nat) : Nat :=
  let held := fun (w : WEnt) => w.q.filter (fun q => q.core == core)
  sumNat ((s.win 0).ents.map (fun e => (held e.2).length)) + sumNat ((s.win 1).ents.map (fun e => (held e.2).length)) +
    ((s.wstOut core).filter (fun x => !(s.went x.1 x.2.1).q.contains x.2.2)).length

/-- A direction that sends nothing for want of a key: in KEY-HOLD (R382), or with no key in either slot, which is treated alike (R450, log 67). -/
def LinkDir.keyHold (d : LinkDir) : Bool := d.hold || (d.slot0.isNone && d.slot1.isNone)

/-- A window store (R370, R373): it takes the next sequence of its entry and leaves for the engine as an engine request (R251). -/
def State.windowStore (s : State) (p : Word) (x : Xl) (size val : Nat) (colour : BitVec 3) : Res Unit :=
  let xd := winXd x.pte
  let n := winEntry x.pte
  let off := winPage x.pte * 4096 + x.off
  let w := s.went xd n
  let held := !w.loop && (s.link w.link).tx.keyHold
  if !x.winOk then trapAt .windowBroken p s
  else if x.winSize * 4096 < off + size then trapAt .pageProt p s
  else if 32 ≤ s.laneFill s.cur.1 || 4095 ≤ get8 s.me.wout colour.toNat then .stop (.wait (if held then .keyHold else .fabric)) s
  else
    let st : WStore := ⟨s.cur.1, s.cur.2.val, s.me.serial, colour.toNat, p, w.sent, off, leBytes size val⟩
    .ok () (((s.onWin xd (fun e => { e with ents := AMap.set e.ents n { w with sent := w.sent + 1 } })).sendReq s.cur.1 (4096 + 0x14 + xd) 2
      (.wst xd n st) ⟨s.cur.2.val, 0, 0, 0⟩).onMe (fun c => { c with wout := set8 c.wout colour.toNat (get8 c.wout colour.toNat + 1) }))

/-- A write to a local memory performed. -/
def State.localStore (s : State) (k size val : Nat) (fe : Bool) : State :=
  (s.noteWrite s.cur.1 s.myCore.retired k size val fe).onMem (fun m => m.storeFe k size val fe)

/-- A write to a local memory; it waits for the earlier stores that may not be passed (R177, R219), and an ST.FE for the next cycle where R224
puts it behind or before what the memory has done in this one. -/
def State.writeLocal (s : State) (k size val : Nat) (colour : BitVec 3) (kind : StKind) : Res Unit :=
  if (if kind = .plain then s.laneBusy colour else s.lanesMine) then .stop (.wait .memory) s
  else if kind = .fe then
    if s.takenNow k || !s.inTurn (unitOf k) s.cur.1 s.cur.2.val then .stop (.wait .memory) s
    else .ok () ((s.localStore k size val true).noteTurn (unitOf k) s.cur.1 s.cur.2.val)
  else .ok () (s.localStore k size val false)

/-- WriteMem of R108; a request carries SIGNED (R259). -/
def State.writeMem (s : State) (p : Word) (sgn : Bool) (size val : Nat) (colour : BitVec 3) (kind : StKind) : Res Unit :=
  let acc := if kind = .fe then Acc.stfe else Acc.store
  match s.decodeAddr p size acc with
  | .error c => trapAt c p s
  | .ok (.loc k) => s.writeLocal k size val colour kind
  | .ok (.glob va) => (s.translate p va acc).bind fun x s =>
    if pteTxw x.pte then
      if (if kind = .plain then s.laneBusy colour else s.lanesMine) then .stop (.wait .memory) s
      else s.windowStore p x size val colour
    else .ok () (s.pushLane x.pa (BitVec.ofNat 64 va) size val colour kind (replOf x.pte) sgn)

/-! ### Atomics (R221, R222) -/

/-- An atomic's operation and operands. -/
structure AOp where
  op   : Nat
  sgn  : Bool
  size : Nat
  opnd : Nat
  cmp  : Nat
  deriving DecidableEq, Repr

/-- An atomic performed at once; it waits for a later cycle where an atomic of a later core or context has been performed in this one, or one that
came first stands ready (R159). -/
def State.atomicDirect (s : State) (p : Word) (k : Nat) (o : AOp) : Res Nat :=
  if !s.inTurn (unitOf k) s.cur.1 s.cur.2.val || s.remoteFirst (unitOf k) s.cur.1 s.cur.2.val then .stop (.wait .memory) s
  else if s.mem.poisoned k o.size then trapAt .eccUncorrected p s
  else
    let (old, m) := s.mem.atomic k o.size o.op o.sgn o.opnd o.cmp
    let s1 := (s.noteWrite s.cur.1 s.myCore.retired k o.size (m.read k o.size) false).noteSync s.cur.1
    .ok old (((s1.scrub (dieOf s.cur.1) k o.size).onMem (fun m' => { m with corr := m'.corr.filter (m.corr.contains ·) })).noteTurn (unitOf k)
      s.cur.1 s.cur.2.val)

/-- An atomic of the running context: it waits for the stores that it may not pass, for all of them where it releases, for an atomic of its core on
the same bytes to return (R176 b), and is performed at its home (R159, R161, R222). An answer that has come is taken with no second translation. -/
def State.atomicMem (s : State) (p : Word) (o : AOp) (colour : BitVec 3) (rel : Bool) : Res Nat :=
  match s.me.rbuf[s.me.rcur]? with
  | some a => a.value p (s.onMe (fun x => { x with rcur := x.rcur + 1 }))
  | none =>
    (if rel then s.release .memory else .ok () s).bind fun _ s =>
    match s.decodeAddr p o.size .atomic with
    | .error c => trapAt c p s
    | .ok (.loc k) => if s.laneBusy colour then .stop (.wait .memory) s else s.atomicDirect p k o
    | .ok (.glob va) => (s.translate p va .atomic).bind fun x s =>
      if s.laneBusy colour || s.atomicOut x.pa o.size || s.myCore.lanes.any (fun e => meets e.pa e.size x.pa o.size) then .stop (.wait .memory) s
      else
        let rp := if (s.part (s.pOf s.cur.1)).dies = 1 then 0 else replOf x.pte
        if rp = 0 && firstTier x.pa && x.pa / 2 ^ 36 == dieOf s.cur.1 then
          (s.atomicDirect p x.pa o).bind fun v s =>
            let s1 := s.countBlk x.pa 0x0F
            .ok v (if (atomicNew o.op o.sgn (8 * o.size) v o.opnd o.cmp).isSome then s1.countBlk x.pa 0x10 else s1)
        else
          (s.remote (4096 + homeOf x.pa) 5 x.pa
            (.rat o.op o.sgn rp s.cur.2.val x.pa o.size o.opnd o.cmp (BitVec.ofNat 64 va))).bind fun a s => a.value p s

/-! ### Fetching a line (R91-R94) -/

/-- InboxLineAddress of R93: the generic address of the line of a code-line activation. -/
def State.inboxLine (s : State) (a : Act) : Nat :=
  0xFFF * 2 ^ 48 + 3 * 2 ^ 44 + s.lnum a.core % 4096 * 2 ^ 32 + (512 * a.m.slot + 64)

/-- The activation is a code-line activation (R93). -/
def Act.codeLine (a : Act) : Bool := a.m.msg.env.kind == 1

/-- A line put into a core's instruction cache, which holds 512 lines by their virtual addresses (R13, R94; log 50). -/
def State.cacheLine (s : State) (core la : Nat) (l : List Byte) : State :=
  let c := (s.core core).icache.filter (fun e => e.la != la)
  let c' := if c.length < 512 then c else c.eraseIdx (Config.icVictim s.fresh % c.length)
  let s1 := s.onCore core (fun k => { k with icache := c' ++ [⟨la, l, false, false⟩] })
  if c.length < 512 then s1 else s1.tick

/-- ECC-UNCORRECTED of a fetch (R150). -/
def fetchPoison {α : Type} (p : Word) (s : State) : Res α := .stop (.trap ⟨.eccUncorrected, true, p, 0, 0, 0⟩) s

/-- A line that the instruction cache holds, read with its SRAM ECC (R149, R150): a correctable error is corrected and counted, an uncorrectable one
raises ECC-UNCORRECTED. -/
def State.cached (s : State) (p : Word) (e : ILine) : Res (List Byte) :=
  if e.bad then fetchPoison p s
  else if e.corr then
    .ok e.line ((s.onMyCore (fun k => { k with icache := k.icache.map (fun x => if x.la == e.la then { x with corr := false } else x) })).count
      (dieOf s.cur.1) 0x0A 1)
  else .ok e.line s

/-- A fill of the instruction cache (R20, R94) of the line at a key: at once from the stack of the own die, from any other home by a request to
the interface `dest`. -/
def State.fillFrom (s : State) (p : Word) (la k dest : Nat) : Res (List Byte) :=
  let d := dieOf s.cur.1
  match s.me.fill with
  | .pending => .stop (.wait .fetch) s
  | .failed c =>
    .stop (.trap ⟨if c = Cause.eccUncorrected.code then .eccUncorrected else .remoteFault, true, p, 0, 0, 0⟩)
      (s.onMe (fun x => { x with fill := .none }))
  | .none =>
    if sMem (blockOf k) (s.home d).marks then .stop (.wait .fetch) s
    else if firstTier k && k / 2 ^ 36 == d then
      if s.mem.poisoned k 64 then fetchPoison p s
      else .ok (s.mem.bytes k 64) (((s.scrub d k 64).countBlk k 0x0F).cacheLine s.cur.1 la (s.mem.bytes k 64))
    else if (s.ep s.cur.1).backlog.isEmpty && (s.ep s.cur.1).canSend dest then
      .stop (.wait .fetch) ((s.sendUse s.cur.1 dest 3 (.rld .plain false s.cur.2.val k 64 p) ⟨s.cur.2.val, 0, 0, 0⟩ .fill).onMe
        (fun x => { x with fill := .pending }))
    else .stop (.wait .fabric) s

/-- A line of memory: of a replicated page the own die's replica (R141). -/
def State.fillLine (s : State) (p : Word) (la pa : Nat) (repl : Bool) : Res (List Byte) :=
  let k := if repl then replicaAt pa (dieOf s.cur.1) else pa
  s.fillFrom p la k (4096 + homeOf k)

/-- The line of a code-line activation in its inbox slot (R93): of the own core read at once with its ECC (R149, R150), a wayfarer's by a request
to the home of its origin's die (R20; log 60). -/
def State.inboxFetch (s : State) (p : Word) (la : Nat) (a : Act) : Res (List Byte) :=
  let k := inboxKey a.core (512 * a.m.slot + 64)
  if a.core = s.cur.1 then
    if s.mem.poisoned k 64 then fetchPoison p s else .ok (s.mem.bytes k 64) (s.scrub (dieOf s.cur.1) k 64)
  else match s.myCore.icache.find? (fun e => e.la == la) with
    | some e => s.cached p e
    | none => s.fillFrom p la k (4096 + dieOf a.core)

/-- The bytes of a line of the running context (R91 FetchLine): those that the instruction cache holds, or a fill (R94;
log 50). -/
def State.fetchLine (s : State) (la : Nat) : Res (List Byte) :=
  let a := s.me.activation
  let p : Word := BitVec.ofNat 64 la
  if a.codeLine && la == s.inboxLine a then s.inboxFetch p la a
  else if isLocal p then .stop (.trap ⟨.spaceBad, true, p, 0, 0, 0⟩) s
  else (s.translate p la .fetch).bind fun x s =>
    match s.myCore.icache.find? (fun e => e.la == la) with
    | some e => s.cached p e
    | none => s.fillLine p la x.pa (pteRepl x.pte)

/-- What a fetch gives: the head, its tail and NH of the line. -/
structure Fetched where
  head : Head
  tail : Word
  nh   : Nat
  deriving DecidableEq, Repr

/-- The fetch of R91 at the running context's IP; faults carry the TVAL of R92. -/
def State.fetch (s : State) : Res Fetched :=
  let x := s.me
  let ip := x.ip
  let a := x.activation
  let t := s.myTask
  let la := bitsNat ip 6 54 * 64
  let i := ip.toNat % 64
  if bitsNat ip 60 4 != 0 then trapAt .illegalIp x.latch.prev s
  else if !(a.codeLine && la == s.inboxLine a) && (la < t.base || t.lim ≤ la) then trapAt .illegalIp x.latch.prev s
  else (s.fetchLine la).bind fun l s =>
    if !lineLegal l then trapAt .illegalLine (lineTval l) s
    else if i = 0 || lineNH l < i then trapAt .illegalIp x.latch.prev s
    else .ok ⟨lineHead l i, lineTail l i, lineNH l⟩ s

end Sys2Proof.Machine
end

