-- ==== Sys2Proof/Machine/Pointer.lean ====
section
/-!
DEFINITION. Pointers, views and spaces (R208-R213).
-/

namespace Sys2Proof.Machine

/-- PADD d, a, b (R209). -/
def execPadd (d a b : GReg) (s : State) : Host.Outcome State Fault Refusal :=
  retired (s.setG d (ptrOff (s.g a) (s.g b)))

/-- PADD d, a, imm (R209). -/
def execPaddI16 (d a : GReg) (i : BitVec 16) (s : State) : Host.Outcome State Fault Refusal :=
  retired (s.setG d (ptrOff (s.g a) (sext64 i)))

/-- The signed distance of two addresses within 60 bits (R209). -/
def ptrDiff (a b : Word) : Word := sext64 (BitVec.ofInt 60 ((vaOf a : Int) - vaOf b))

/-- PSUB d, a, b (R209). -/
def execPsub (d a b : GReg) (s : State) : Host.Outcome State Fault Refusal :=
  retired (s.setG d (ptrDiff (s.g a) (s.g b)))

/-- A value that no view register may hold (R78, R210). -/
def viewBad (v : Word) : Bool :=
  bitsNat v 0 4 == 0xF || bitsNat v 4 2 == 3 || bitsNat v 9 7 != 0 ||
    (bitsNat v 4 2 != 0 && !(match Fmt.ofCode (field v 0 4) with
      | some .s8 | some .f16 | some .w16 | some .f8a | some .f8b | some .o4 => true
      | some .s16 | some .s32 | some .s64 | some .n8 | some .n16 | some .n32 | some .n64 | some .f32 | some .f64 | none => false))

/-- A view value whose reserved bits are ignored (R5, R77). -/
def viewClean (v : Word) : Word := setField v 9 7 0

/-- VIEWSET n, a (R210): view 0 checks the value and discards it. -/
def execViewset (n : Fin 16) (a : GReg) (s : State) : Host.Outcome State Fault Refusal :=
  if viewBad (s.g a) then .next (s.takeStop (.trap (mkTrap .illegalOp s.me.latch.tval)))
  else retired (s.onMe (fun x => x.putView n (s.g a)))

/-- The view that a pointer selects (R131). -/
def State.viewOf (s : State) (p : Word) : Word := s.me.getView (field p 60 4).toFin

/-- VIEWOF d, a (R210). -/
def execViewof (d a : GReg) (s : State) : Host.Outcome State Fault Refusal := retired (s.setG d (s.viewOf (s.g a)))

/-- ISSPC d, a (R211). -/
def execIsspc (d a : GReg) (s : State) : Host.Outcome State Fault Refusal :=
  retired (s.setG d (BitVec.ofNat 64 (isspc (s.g a))))

/-- The offset that a pointer names in one of the running context's own spaces, else all ones (R212 CASTSPC.Q). -/
def State.castToOffset (s : State) (sp : Nat) (p : Word) : Word :=
  if isLocal p && spaceOf p == sp && ownerOf sp p == s.accessor sp && (sp != 2 || bitsNat p 40 4 == 0) then
    BitVec.ofNat 64 (offsetOf sp p)
  else 0xFFFFFFFFFFFFFFFF

/-- CASTSPC.dir.sp d, a (R212). -/
def execCastspc (d : GReg) (toGeneric : Bool) (sp : Space) (a : GReg) (s : State) : Host.Outcome State Fault Refusal :=
  let n := sp.code.toNat
  retired (s.setG d (if toGeneric then s.genericPtr n (s.g a).toNat else s.castToOffset n (s.g a)))

/-- HOWN d, a (R213). -/
def execHown (d a : GReg) (s : State) : Host.Outcome State Fault Refusal :=
  let (b, n) := s.coreRange s.cur.1
  retired (s.setG d (BitVec.ofNat 64 (hownIn b n (vaOf (s.g a)))))

end Sys2Proof.Machine
end

