-- ==== Sys2Proof/Machine/Vector.lean ====
section
/-!
DEFINITION. The vector unit's arithmetic, moves, reductions, permutes and masks (R271-R284, R289).
-/

namespace Sys2Proof.Machine

/-! ### Lanes and masks (R271, R272) -/

/-- Act(i) of R271 for lanes of a width. -/
def State.act (s : State) (q : KReg) (w i : Nat) : Bool := s.active q (if w = 64 then i else i * w / 32)

/-- The active lanes of a width, among the first `n`, ascending. -/
def State.actLanes (s : State) (q : KReg) (w n : Nat) : List Nat := (upTo n).filter (s.act q w)

/-- VSTART-BAD where VSTART is not 0 (R273): every vector instruction but the memory ones. -/
def vecRun (s : State) (k : Host.Outcome State Fault Refusal) : Host.Outcome State Fault Refusal :=
  if s.me.vstart != 0 then .next (s.takeStop (.trap (mkTrap .vstartBad (s.me.vstart.setWidth 64)))) else k

/-- TFMT (R185). -/
def tfmtOf (a b d : Nat) : Nat := d * 256 + b * 16 + a

/-- The code of a format. -/
def fcode (f : Fmt) : Nat := f.code.toNat

/-- One lane's result: its index, pattern and flags. -/
structure LaneR where
  i  : Nat
  v  : Nat
  fl : Fl
  deriving DecidableEq, Repr

/-- The flags of all results. -/
def flagsOf (l : List LaneR) : Fl := l.foldl (fun a r => a ||| r.fl) flNone

/-- The results laid into a register. -/
def layLanes (w : Nat) (x : VWord) (l : List LaneR) : VWord := l.foldl (fun x r => setLane x w r.i r.v) x

/-- A value operation's delivery (R70, R71, R274): the flags of every active lane, then NAN-FIRST with the lowest NaN lane under
NANTRAP and the destination unchanged, else the lanes. -/
def deliver (d : VReg) (t : Fmt) (base : VWord) (tfmt : Nat) (l : List LaneR) (s : State) : Host.Outcome State Fault Refusal :=
  let s1 := s.flags (flagsOf l)
  match l.find? (fun r => isNaNPat t r.v) with
  | some r =>
    if fcsrNanTrap s.me.fcsr then .next (s1.takeStop (.trap ⟨.nanFirst, false, 0, r.i, 0, tfmt⟩))
    else retired (s1.setV d (layLanes t.width base l))
  | none => retired (s1.setV d (layLanes t.width base l))

/-! ### Arithmetic (R277, R278) -/

/-- A lane operation: the pattern and flags of two lane patterns. -/
abbrev LaneOp := Nat → Nat → Nat × Fl

/-- A lane operation applied to the active lanes (R277). -/
def laneOp (d : VReg) (q : KReg) (a b : VReg) (f : Fmt) (bf : Nat) (op : LaneOp) (s : State) : Host.Outcome State Fault Refusal :=
  let w := f.width
  let x := s.v a
  let y := s.v b
  vecRun s (deliver d f (s.v d) (tfmtOf (fcode f) bf (fcode f))
    ((s.actLanes q w (lanesOf f)).map (fun i => let r := op (lane x w i) (lane y w i); ⟨i, r.1, r.2⟩)) s)

/-- A rounded exact value, with the flags of both. -/
def roundPair (f : Fmt) (mode : Mode) (p : FV × Fl) : Nat × Fl :=
  let r := roundF f mode p.1
  (r.1, r.2 ||| p.2)

/-- A two-source operation with a float and an integer meaning. -/
def arith2 (f : Fmt) (fl : FV → FV → Nat × Fl) (int : Int → Int → Nat) : LaneOp := fun x y =>
  if f.isInt then (int (decodeI f x) (decodeI f y), flNone) else fl (decodeF f x) (decodeF f y)

/-- VADD. -/
def laneAdd (f : Fmt) (mode : Mode) (sat : Bool) : LaneOp := arith2 f (fAdd f mode) (fun a b => intRes f sat (a + b))
/-- VSUB. -/
def laneSub (f : Fmt) (mode : Mode) (sat : Bool) : LaneOp := arith2 f (fun a b => fAdd f mode a b.neg) (fun a b => intRes f sat (a - b))
/-- VMUL. -/
def laneMul (f : Fmt) (mode : Mode) (sat : Bool) : LaneOp := arith2 f (fMul f mode) (fun a b => intRes f sat (a * b))

/-- Integer VDIV (R278). -/
def intDiv (f : Fmt) (sat : Bool) (a b : Int) : Nat :=
  if b = 0 then wrapI f (if !f.signed then f.imax else if 0 ≤ a then f.imax else f.imin) else intRes f sat (a.tdiv b)

/-- VDIV. -/
def laneDiv (f : Fmt) (mode : Mode) (sat : Bool) : LaneOp := arith2 f (fDiv f mode) (intDiv f sat)

/-- The lesser or the greater of two values, -0 below +0, a NaN where either is one (R84, R277). -/
def fMinMax (f : Fmt) (big : Bool) (a b : FV) : Nat × Fl :=
  if a.isNaN || b.isNaN then (f.qnan, a.snv ||| b.snv)
  else roundF f .rne (if cmpBelow a b == big then b else a)

/-- VMIN and VMAX. -/
def laneMinMax (f : Fmt) (big : Bool) : LaneOp :=
  arith2 f (fMinMax f big) (fun a b => wrapI f (if big then (if a ≤ b then b else a) else (if a ≤ b then a else b)))

/-- VABS. -/
def laneAbs (f : Fmt) (sat : Bool) : LaneOp := arith2 f (fun a _ => roundPair f .rne (a.abs, a.snv)) (fun a _ => intRes f sat a.natAbs)
/-- VNEG. -/
def laneNeg (f : Fmt) (sat : Bool) : LaneOp := arith2 f (fun a _ => roundPair f .rne (a.neg, a.snv)) (fun a _ => intRes f sat (-a))
/-- VSQRT. -/
def laneSqrt (f : Fmt) (mode : Mode) : LaneOp := fun x _ => fSqrt f mode (decodeF f x)
/-- A bitwise or shift operation on patterns. -/
def laneBit (f : Fmt) (op : Nat → Nat → Nat) : LaneOp := fun x y => (op x y % 2 ^ f.width, flNone)

/-- VADD (R277). -/
def execVadd (d : VReg) (k : KReg) (a b : VReg) (f : Fmt) (rm : Rm) (sat : Bool) (s : State) : Host.Outcome State Fault Refusal :=
  laneOp d k a b f (fcode f) (laneAdd f (effRm s.me.fcsr rm) sat) s
/-- VSUB (R277). -/
def execVsub (d : VReg) (k : KReg) (a b : VReg) (f : Fmt) (rm : Rm) (sat : Bool) (s : State) : Host.Outcome State Fault Refusal :=
  laneOp d k a b f (fcode f) (laneSub f (effRm s.me.fcsr rm) sat) s
/-- VMUL (R277). -/
def execVmul (d : VReg) (k : KReg) (a b : VReg) (f : Fmt) (rm : Rm) (sat : Bool) (s : State) : Host.Outcome State Fault Refusal :=
  laneOp d k a b f (fcode f) (laneMul f (effRm s.me.fcsr rm) sat) s
/-- VDIV (R277, R278). -/
def execVdiv (d : VReg) (k : KReg) (a b : VReg) (f : Fmt) (rm : Rm) (sat : Bool) (s : State) : Host.Outcome State Fault Refusal :=
  laneOp d k a b f (fcode f) (laneDiv f (effRm s.me.fcsr rm) sat) s
/-- VMIN (R277). -/
def execVmin (d : VReg) (k : KReg) (a b : VReg) (f : Fmt) (s : State) : Host.Outcome State Fault Refusal :=
  laneOp d k a b f (fcode f) (laneMinMax f false) s
/-- VMAX (R277). -/
def execVmax (d : VReg) (k : KReg) (a b : VReg) (f : Fmt) (s : State) : Host.Outcome State Fault Refusal :=
  laneOp d k a b f (fcode f) (laneMinMax f true) s
/-- VABS (R277). -/
def execVabs (d : VReg) (k : KReg) (a : VReg) (f : Fmt) (sat : Bool) (s : State) : Host.Outcome State Fault Refusal :=
  laneOp d k a a f 0 (laneAbs f sat) s
/-- VNEG (R277). -/
def execVneg (d : VReg) (k : KReg) (a : VReg) (f : Fmt) (sat : Bool) (s : State) : Host.Outcome State Fault Refusal :=
  laneOp d k a a f 0 (laneNeg f sat) s
/-- VSQRT (R277). -/
def execVsqrt (d : VReg) (k : KReg) (a : VReg) (f : Fmt) (rm : Rm) (s : State) : Host.Outcome State Fault Refusal :=
  laneOp d k a a f 0 (laneSqrt f (effRm s.me.fcsr rm)) s
/-- VAND (R277). -/
def execVand (d : VReg) (k : KReg) (a b : VReg) (f : Fmt) (s : State) : Host.Outcome State Fault Refusal :=
  laneOp d k a b f (fcode f) (laneBit f (· &&& ·)) s
/-- VOR (R277). -/
def execVor (d : VReg) (k : KReg) (a b : VReg) (f : Fmt) (s : State) : Host.Outcome State Fault Refusal :=
  laneOp d k a b f (fcode f) (laneBit f (· ||| ·)) s
/-- VXOR (R277). -/
def execVxor (d : VReg) (k : KReg) (a b : VReg) (f : Fmt) (s : State) : Host.Outcome State Fault Refusal :=
  laneOp d k a b f (fcode f) (laneBit f (· ^^^ ·)) s
/-- VSHL (R204, R277). -/
def execVshl (d : VReg) (k : KReg) (a b : VReg) (f : Fmt) (s : State) : Host.Outcome State Fault Refusal :=
  laneOp d k a b f (fcode f) (laneBit f (fun x y => x * 2 ^ (y % f.width))) s
/-- VSHR (R204, R277). -/
def execVshr (d : VReg) (k : KReg) (a b : VReg) (f : Fmt) (s : State) : Host.Outcome State Fault Refusal :=
  laneOp d k a b f (fcode f) (laneBit f (fun x y => x / 2 ^ (y % f.width))) s
/-- VSHA: the lane is read as two's complement (R204, R277). -/
def execVsha (d : VReg) (k : KReg) (a b : VReg) (f : Fmt) (s : State) : Host.Outcome State Fault Refusal :=
  laneOp d k a b f (fcode f) (laneBit f (fun x y => wrapN f.width (toSigned f.width x / 2 ^ (y % f.width)))) s

/-! ### Fused multiply-add (R279) -/

/-- One rounding of an exact product and addend on each active lane, counted per lane (R438 0x0D, 0x0E). -/
def fmaOp (d : VReg) (q : KReg) (a b : VReg) (f : Fmt) (op : FV → FV → FV → Nat × Fl) (s : State) :
    Host.Outcome State Fault Refusal :=
  let w := f.width
  let x := s.v a
  let y := s.v b
  let z := s.v d
  let n := (s.actLanes q w (lanesOf f)).length
  let ev := match f with | .f32 => 0x0D | .f64 => 0x0E | .s8 | .s16 | .s32 | .s64 | .n8 | .n16 | .n32 | .n64 | .f16 | .w16 | .f8a | .f8b | .o4 => 0xFF
  vecRun s (deliver d f z (tfmtOf (fcode f) (fcode f) (fcode f)) ((s.actLanes q w (lanesOf f)).map (fun i =>
    let r := op (decodeF f (lane x w i)) (decodeF f (lane y w i)) (decodeF f (lane z w i)); ⟨i, r.1, r.2⟩))
    (s.count (dieOf s.cur.1) ev n))

/-- VFMA (R279). -/
def execVfma (d : VReg) (k : KReg) (a b : VReg) (f : Fmt) (rm : Rm) (s : State) : Host.Outcome State Fault Refusal :=
  fmaOp d k a b f (fun a b d => fFma f (effRm s.me.fcsr rm) a b d) s
/-- VFMS (R279). -/
def execVfms (d : VReg) (k : KReg) (a b : VReg) (f : Fmt) (rm : Rm) (s : State) : Host.Outcome State Fault Refusal :=
  fmaOp d k a b f (fun a b d => fFma f (effRm s.me.fcsr rm) a b d.neg) s
/-- VFNMA (R279). -/
def execVfnma (d : VReg) (k : KReg) (a b : VReg) (f : Fmt) (rm : Rm) (s : State) : Host.Outcome State Fault Refusal :=
  fmaOp d k a b f (fun a b d => fFma f (effRm s.me.fcsr rm) a.neg b d) s

/-! ### Conversion (R280) -/

/-- VCVT (R280): lanes beyond the converted ones become 0. -/
def execVcvt (d : VReg) (k : KReg) (a : VReg) (f t : Fmt) (rm : Rm) (sat : Bool) (s : State) : Host.Outcome State Fault Refusal :=
  let w := if f.width < t.width then t.width else f.width
  let m := 1024 / w
  let x := s.v a
  let base := BitVec.ofNat 1024 ((s.v d).toNat % 2 ^ (m * t.width))
  vecRun s (deliver d t base (tfmtOf (fcode f) 0 (fcode t)) ((s.actLanes k w m).map (fun i =>
    let r := convert f t (effRm s.me.fcsr rm) sat (lane x f.width i); ⟨i, r.1, r.2⟩)) s)

/-! ### Comparison (R281) -/

/-- A comparison of two lanes: the bit, and the flag. -/
abbrev CmpOp := FV → FV → Bool

/-- VCMP (R281): `anyNaN` says whether any NaN sets NV, or a signalling one only. -/
def vcmp (d : KReg) (q : KReg) (a b : VReg) (f : Fmt) (anyNaN : Bool) (op : CmpOp) (s : State) : Host.Outcome State Fault Refusal :=
  let w := f.width
  let x := s.v a
  let y := s.v b
  let l := s.actLanes q w (lanesOf f)
  let bit := fun i => op (decodeV f (lane x w i)) (decodeV f (lane y w i))
  let bad := l.any (fun i =>
    let u := decodeV f (lane x w i)
    let v := decodeV f (lane y w i)
    u.snv != flNone || v.snv != flNone || (anyNaN && (u.isNaN || v.isNaN)))
  vecRun s (retired ((s.flags (if bad then flNV else flNone)).setK d
    (BitVec.ofNat 32 (sumNat ((l.filter bit).map (fun i => 2 ^ i))))))

/-- VCMP.EQ (R281). -/
def execVcmpEq (d k : KReg) (a b : VReg) (f : Fmt) (s : State) : Host.Outcome State Fault Refusal := vcmp d k a b f false cmpEq s
/-- VCMP.NE (R281). -/
def execVcmpNe (d k : KReg) (a b : VReg) (f : Fmt) (s : State) : Host.Outcome State Fault Refusal :=
  vcmp d k a b f false (fun x y => !cmpEq x y) s
/-- VCMP.LT (R281). -/
def execVcmpLt (d k : KReg) (a b : VReg) (f : Fmt) (s : State) : Host.Outcome State Fault Refusal := vcmp d k a b f true cmpLt s
/-- VCMP.LE (R281). -/
def execVcmpLe (d k : KReg) (a b : VReg) (f : Fmt) (s : State) : Host.Outcome State Fault Refusal :=
  vcmp d k a b f true (fun x y => cmpLt x y || cmpEq x y) s
/-- VCMP.UNORD (R281). -/
def execVcmpUnord (d k : KReg) (a b : VReg) (f : Fmt) (s : State) : Host.Outcome State Fault Refusal :=
  vcmp d k a b f false (fun x y => x.isNaN || y.isNaN) s

/-! ### Moves and permutes (R282, R284) -/

/-- Lane patterns moved into the active lanes; no value is read (R274). -/
def moveOp (d : VReg) (q : KReg) (f : Fmt) (src : Nat → Nat) (s : State) : Host.Outcome State Fault Refusal :=
  vecRun s (retired (s.setV d (layLanes f.width (s.v d) ((s.actLanes q f.width (lanesOf f)).map (fun i => ⟨i, src i, flNone⟩)))))

/-- A register with a lane, extended as its format says (R282, R283). -/
def extLane (f : Fmt) (v : Nat) : Word := if f.signed then BitVec.ofInt 64 (toSigned f.width v) else BitVec.ofNat 64 v

/-- VSEL (R282): every lane is written. -/
def execVsel (d : VReg) (k : KReg) (a b : VReg) (f : Fmt) (s : State) : Host.Outcome State Fault Refusal :=
  let w := f.width
  let x := s.v a
  let y := s.v b
  moveOp d 0 f (fun i => if s.act k w i then lane x w i else lane y w i) s
/-- VMOV (R282). -/
def execVmov (d : VReg) (k : KReg) (a : VReg) (f : Fmt) (s : State) : Host.Outcome State Fault Refusal :=
  let x := s.v a
  moveOp d k f (fun i => lane x f.width i) s
/-- VBCAST (R282). -/
def execVbcast (d : VReg) (k : KReg) (a : GReg) (f : Fmt) (s : State) : Host.Outcome State Fault Refusal :=
  let x := (s.g a).toNat
  moveOp d k f (fun _ => x % 2 ^ f.width) s
/-- VEXT (R282). -/
def execVext (d : GReg) (a : VReg) (b : GReg) (f : Fmt) (s : State) : Host.Outcome State Fault Refusal :=
  vecRun s (retired (s.setG d (extLane f (lane (s.v a) f.width ((s.g b).toNat % lanesOf f)))))
/-- VIOTA (R282). -/
def execViota (d : VReg) (k : KReg) (a : GReg) (f : Fmt) (s : State) : Host.Outcome State Fault Refusal :=
  let x := (s.g a).toNat
  moveOp d k f (fun i => (x + i) % 2 ^ f.width) s

/-- VSHUF (R284). -/
def execVshuf (d : VReg) (k : KReg) (a b : VReg) (f : Fmt) (s : State) : Host.Outcome State Fault Refusal :=
  let w := f.width
  let x := s.v a
  let y := s.v b
  moveOp d k f (fun i => lane x w (lane y w i % lanesOf f)) s
/-- VROT (R284). -/
def execVrot (d : VReg) (k : KReg) (a : VReg) (b : GReg) (f : Fmt) (s : State) : Host.Outcome State Fault Refusal :=
  let x := s.v a
  let r := (s.g b).toNat
  moveOp d k f (fun i => lane x f.width ((i + r) % lanesOf f)) s
/-- VPACK (R284). -/
def execVpack (d : VReg) (k : KReg) (a b : VReg) (f : Fmt) (sat : Bool) (s : State) : Host.Outcome State Fault Refusal :=
  let w := f.width
  let n := lanesOf f
  let x := s.v a
  let y := s.v b
  moveOp d k f (fun i =>
    let v := if i < n / 2 then lane x (2 * w) i else lane y (2 * w) (i - n / 2)
    intRes f sat (if f.signed then toSigned (2 * w) v else v)) s
/-- VUNPACK (R284). -/
def execVunpack (d : VReg) (k : KReg) (a : VReg) (b : GReg) (f : Fmt) (s : State) : Host.Outcome State Fault Refusal :=
  let w := f.width
  let n := lanesOf f
  let x := s.v a
  let h := (s.g b).toNat % 2
  moveOp d k f (fun i =>
    let v := lane x (w / 2) (n * h + i)
    wrapN w (if f.signed then toSigned (w / 2) v else v)) s

/-! ### Reductions (R84, R283) -/

/-- A running reduction: its value, its flags, and the lane at which it first became NaN. -/
structure RedSt where
  val : Option Nat
  fl  : Fl
  nan : Option Nat
  deriving DecidableEq, Repr

/-- One step of a reduction (R84). -/
def redStep (f : Fmt) (first : Nat → Nat × Fl) (next : Nat → Nat → Nat × Fl) (r : RedSt) (i : Nat) : RedSt :=
  let v := match r.val with
    | none => first i
    | some a => next a i
  ⟨some v.1, r.fl ||| v.2, if r.nan.isNone && isNaNPat f v.1 then some i else r.nan⟩

/-- A reduction over the active lanes, ascending, with its value where there is none (R283). -/
def reduce (d : GReg) (q : KReg) (f : Fmt) (tfmt : Nat) (empty : Nat) (first : Nat → Nat × Fl) (next : Nat → Nat → Nat × Fl)
    (s : State) : Host.Outcome State Fault Refusal :=
  let r := (s.actLanes q f.width (lanesOf f)).foldl (redStep f first next) ⟨none, flNone, none⟩
  let s1 := s.flags r.fl
  vecRun s (match r.nan with
    | some i =>
      if fcsrNanTrap s.me.fcsr then .next (s1.takeStop (.trap ⟨.nanFirst, false, 0, i, 0, tfmt⟩))
      else retired (s1.setG d (extLane f (r.val.getD empty)))
    | none => retired (s1.setG d (extLane f (r.val.getD empty))))

/-- The delivery of the first active lane (R84): a NaN becomes canonical, and a signalling one sets NV. -/
def firstLane (f : Fmt) (x : Nat) : Nat × Fl := if f.isInt then (x, flNone) else roundPair f .rne (decodeF f x, (decodeF f x).snv)

/-- VRED.SUM (R84, R283). -/
def execVredSum (d : GReg) (k : KReg) (a : VReg) (f : Fmt) (rm : Rm) (sat : Bool) (s : State) : Host.Outcome State Fault Refusal :=
  let x := s.v a
  reduce d k f (tfmtOf (fcode f) 0 (fcode f)) 0 (fun i => firstLane f (lane x f.width i))
    (fun r i => laneAdd f (effRm s.me.fcsr rm) sat r (lane x f.width i)) s

/-- The result of a minimum or maximum over no lane (R283). -/
def emptyMinMax (f : Fmt) (big : Bool) : Nat := if f.isInt then wrapI f (if big then f.imin else f.imax) else f.qnan

/-- VRED.MIN (R84, R283). -/
def execVredMin (d : GReg) (k : KReg) (a : VReg) (f : Fmt) (_rm : Rm) (_sat : Bool) (s : State) : Host.Outcome State Fault Refusal :=
  let x := s.v a
  reduce d k f (tfmtOf (fcode f) 0 (fcode f)) (emptyMinMax f false) (fun i => firstLane f (lane x f.width i))
    (fun r i => laneMinMax f false r (lane x f.width i)) s
/-- VRED.MAX (R84, R283). -/
def execVredMax (d : GReg) (k : KReg) (a : VReg) (f : Fmt) (_rm : Rm) (_sat : Bool) (s : State) : Host.Outcome State Fault Refusal :=
  let x := s.v a
  reduce d k f (tfmtOf (fcode f) 0 (fcode f)) (emptyMinMax f true) (fun i => firstLane f (lane x f.width i))
    (fun r i => laneMinMax f true r (lane x f.width i)) s

/-- One later step of VDOT: the product exact before the one rounding (R84). -/
def dotNext (f : Fmt) (mode : Mode) (sat : Bool) (r x y : Nat) : Nat × Fl :=
  if f.isInt then (intRes f sat (decodeI f r + decodeI f x * decodeI f y), flNone)
  else fFma f mode (decodeF f x) (decodeF f y) (decodeF f r)

/-- VDOT (R84, R283). -/
def execVdot (d : GReg) (k : KReg) (a b : VReg) (f : Fmt) (rm : Rm) (sat : Bool) (s : State) : Host.Outcome State Fault Refusal :=
  let w := f.width
  let x := s.v a
  let y := s.v b
  let mode := effRm s.me.fcsr rm
  reduce d k f (tfmtOf (fcode f) (fcode f) (fcode f)) 0 (fun i => laneMul f mode sat (lane x w i) (lane y w i))
    (fun r i => dotNext f mode sat r (lane x w i) (lane y w i)) s

/-! ### Masks (R289) -/

/-- A mask result. -/
def maskOp (d : KReg) (v : BitVec 32) (s : State) : Host.Outcome State Fault Refusal := vecRun s (retired (s.setK d v))

/-- KAND (R289). -/
def execKand (d a b : KReg) (s : State) : Host.Outcome State Fault Refusal := maskOp d (s.k a &&& s.k b) s
/-- KOR (R289). -/
def execKor (d a b : KReg) (s : State) : Host.Outcome State Fault Refusal := maskOp d (s.k a ||| s.k b) s
/-- KXOR (R289). -/
def execKxor (d a b : KReg) (s : State) : Host.Outcome State Fault Refusal := maskOp d (s.k a ^^^ s.k b) s
/-- KNOT (R289). -/
def execKnot (d a : KReg) (s : State) : Host.Outcome State Fault Refusal := maskOp d (~~~(s.k a)) s
/-- KPOP (R289). -/
def execKpop (d : GReg) (a : KReg) (s : State) : Host.Outcome State Fault Refusal :=
  vecRun s (retired (s.setG d (BitVec.ofNat 64 ((upTo 32).filter (fun i => (s.k a).getLsbD i)).length)))
/-- KSET (R289). -/
def execKset (d : KReg) (a : GReg) (s : State) : Host.Outcome State Fault Refusal := maskOp d ((s.g a).setWidth 32) s
/-- KGET (R289). -/
def execKget (d : GReg) (a : KReg) (s : State) : Host.Outcome State Fault Refusal :=
  vecRun s (retired (s.setG d ((s.k a).setWidth 64)))

end Sys2Proof.Machine
end

