-- ==== Sys2Proof/Machine/VecMem.lean ====
section
/-!
DEFINITION. Vector loads and stores, gather and scatter (R151, R273, R274, R285-R288), the views and O4 quads they decode
through (R73-R80), and quantisation (R290-R292).
-/

namespace Sys2Proof.Machine

/-! ### Views (R77-R79) -/

/-- FMT of a view. -/
def viewFmt (v : Word) : Fmt := (Fmt.ofCode (field v 0 4)).getD .s8
/-- SMODE of a view. -/
def viewSmode (v : Word) : Nat := bitsNat v 4 2
/-- L of a view: elements in a block. -/
def viewLen (v : Word) : Nat := 2 ^ (bitsNat v 6 3 + 3)
/-- SCALEVA of a view, as an address. -/
def viewScale (v : Word) : Nat := bitsNat v 16 48 * 4096
/-- B of R79: data bytes of a block. -/
def blockBytes (v : Word) : Nat := viewLen v * (viewFmt v).width / 8

/-- Where an element lies: its pointer, and that of its scale byte. -/
structure Elem where
  ptr   : Word
  scale : Option Word
  deriving DecidableEq, Repr

/-- A pointer `k` bytes on (R209). -/
def ptrPlus (p : Word) (k : Nat) : Word := ptrOff p (BitVec.ofNat 64 k)

/-- Element `e` of a region through a view (R79). -/
def elemAt (v p : Word) (e : Nat) : Elem :=
  let w := (viewFmt v).width
  let l := viewLen v
  let b := blockBytes v
  match viewSmode v with
  | 1 =>
    let base := ptrPlus p (e / l * (b + 1))
    ⟨ptrPlus base (1 + e % l * w / 8), some base⟩
  | 2 =>
    let a := ptrPlus p (e * w / 8)
    ⟨a, some (ptrPlus (BitVec.ofNat 64 (viewScale v)) (bitsNat a 0 32 / b))⟩
  | _ => ⟨ptrPlus p (e * w / 8), none⟩

/-! ### O4 quads (R74-R76) -/

/-- S4. -/
def s4 (n : Nat) : FV := let v := toSigned 4 n; .fin (decide (v < 0)) v.natAbs 0

/-- Slot `j` of a quad. -/
def quadSlot (q j : Nat) : Nat := q / 16 ^ j % 16

/-- The four elements of a quad, and whether it is malformed (R75). -/
def quadDecode (q : Nat) : List FV × Bool :=
  match (upTo 4).find? (fun j => quadSlot q j == 8) with
  | none => ((upTo 4).map (fun j => s4 (quadSlot q j)), false)
  | some m =>
    let p := if m % 2 = 0 then m + 1 else m - 1
    if quadSlot q p = 8 then ((upTo 4).map (fun _ => FV.fin false 0 0), true)
    else
      let other := if m < 2 then q / 256 % 256 else q % 256
      ((upTo 4).map (fun j =>
        if j = m then decodeF .f8a other else if j = p then s4 (quadSlot q p) else FV.fin false 0 0), false)

/-- A quad that an instruction has read: its first element's index, its elements, whether it is malformed, the address of its
first byte, its block's scale byte. -/
structure Quad where
  first : Nat
  vals  : List FV
  bad   : Bool
  ptr   : Word
  scale : Option Nat
  deriving DecidableEq, Repr

/-! ### Elements (R286) -/

/-- A value, scaled, converted to a lane format (R72, R286 Conv): with a scale, or from O4, an integer lane takes a float to
integer conversion. The spec gives an O4 element read without a scale no conversion of its own (log 57). -/
def convLane (e t : Fmt) (mode : Mode) (sat : Bool) (scaled : Bool) (x : Nat) (v : FV) : Nat × Fl :=
  if scaled || e == .o4 then convV t mode v else convert e t mode sat x

/-- A value times its E8 scale (R73). -/
def scaleBy (s : Option Nat) (v : FV) : FV :=
  match s with
  | none => v
  | some 0xFF => .nan false
  | some n => v.scale ((n : Int) - 127)

/-- What a memory form does with its elements. -/
structure VMem where
  q     : KReg
  d     : VReg
  f     : Fmt
  e     : Fmt
  move  : Bool
  mode  : Mode
  sat   : Bool
  elem  : Nat → Elem

/-- The bytes of a memory element; an O4 element is a byte of its quad. -/
def elemBytes (e : Fmt) : Nat := if e == .o4 then 1 else e.width / 8

/-- A trap of an element with its lane and formats (R274). -/
def elemTrap {α : Type} (c : Cause) (tval : Word) (i tfmt : Nat) (s : State) : Res α := .stop (.trap ⟨c, false, tval, i, 0, tfmt⟩) s

/-- A lane written by a load, with NAN-FIRST where it is a produced NaN under NANTRAP (R274). BFMT is 0: the second source, an index register, has no
FMT field of its own (log 57). -/
def putLane (m : VMem) (i : Nat) (r : Nat × Fl) (s : State) : Res Unit :=
  let s1 := s.flags r.2
  if !m.move && isNaNPat m.f r.1 && fcsrNanTrap s.me.fcsr then elemTrap .nanFirst 0 i (tfmtOf (fcode m.e) 0 (fcode m.f)) s1
  else .ok () (s1.setV m.d (setLane (s1.v m.d) m.f.width i r.1))

/-- SCALE-NAN of a scale byte under NANTRAP; NV without it (R73). -/
def scaleCheck (m : VMem) (i : Nat) (el : Elem) (sb : Option Nat) (s : State) : Res Unit :=
  if sb = some 0xFF then
    let s1 := s.flags flNV
    if fcsrNanTrap s.me.fcsr then elemTrap .scaleNan (el.scale.getD 0) i (tfmtOf (fcode m.e) 0 (fcode m.f)) s1 else .ok () s1
  else .ok () s

/-- The scale byte of an element, read as an ordinary load (R79). -/
def readScale (el : Elem) (s : State) : Res (Option Nat) :=
  match el.scale with
  | none => .ok none s
  | some p => (s.readMem p 1 .none).bind fun v s => .ok (some v) s

/-- The two bytes of a quad, one event (R160), also where two 64-byte blocks share it. Across two pages, which may have two homes, it is read a byte at
a time (log 62). -/
def State.readQuad (s : State) (p : Word) : Res Nat :=
  if p.toNat % 4096 = 4095 then
    (s.readMem p 1 .none).bind fun lo s => (s.readMem (ptrPlus p 1) 1 .none).bind fun hi s => .ok (lo + 256 * hi) s
  else match s.decodeAddr p 1 .load with
    | .error c => trapAt c p s
    | .ok (.loc k) => s.readDirect p k 2 .none [] k
    | .ok (.glob va) => (s.translate p va .load).bind fun x s => s.readGlobal p false va x.pa 2 (replOf x.pte) .none

/-- The quad of an O4 element: the one in hand, or read now with its scale byte (R75, R286). -/
def quadOf (m : VMem) (i : Nat) (c : Option Quad) (s : State) : Res Quad :=
  let q0 := i / 4 * 4
  let fresh : Res Quad :=
    (readScale (m.elem i) s).bind fun sb s =>
    let p := (m.elem q0).ptr
    (s.readQuad p).bind fun w s =>
      let r := quadDecode w
      .ok ⟨q0, r.1, r.2, p, sb⟩ s
  match c with
  | some q => if q.first = q0 then .ok q s else fresh
  | none => fresh

/-- A malformed quad sets NV, and traps under NANTRAP, at the element at which it is read (R75, R286). -/
def quadCheck (m : VMem) (i : Nat) (new : Bool) (q : Quad) (s : State) : Res Unit :=
  if new && q.bad then
    let s1 := s.flags flNV
    if fcsrNanTrap s.me.fcsr then elemTrap .o4Malformed q.ptr i (tfmtOf (fcode m.e) 0 (fcode m.f)) s1 else .ok () s1
  else .ok () s

/-- A load of one element (R286). -/
def loadElem (m : VMem) (i : Nat) (c : Option Quad) (s : State) : Res (Option Quad) :=
  let el := m.elem i
  if m.e == .o4 then
    (quadOf m i c s).bind fun q s =>
    (scaleCheck m i el q.scale s).bind fun _ s =>
    (quadCheck m i (match c with | some o => o.first != q.first | none => true) q s).bind fun _ s =>
    (putLane m i (convLane .o4 m.f m.mode m.sat q.scale.isSome 0 (scaleBy q.scale (q.vals.getD (i % 4) (.fin false 0 0)))) s).bind
      fun _ s => .ok (some q) s
  else
    (readScale el s).bind fun sb s => (s.readMemQ el.ptr (m.q.val.testBit 2) (elemBytes m.e) .none).bind fun x s =>
    (scaleCheck m i el sb s).bind fun _ s =>
    (putLane m i (if m.move then (x, flNone) else convLane m.e m.f m.mode m.sat sb.isSome x (scaleBy sb (decodeV m.e x))) s).bind
      fun _ s => .ok c s

/-- A store of one element (R286): a NaN converted into memory under NANTRAP is not written (R274); BFMT is 0
(log 57). -/
def storeElem (m : VMem) (i : Nat) (c : Option Quad) (s : State) : Res (Option Quad) :=
  let x := lane (s.v m.d) m.f.width i
  let r := if m.move then (x, flNone) else convert m.f m.e m.mode m.sat x
  if !m.move && isNaNPat m.e r.1 && fcsrNanTrap s.me.fcsr then
    elemTrap .nanFirst 0 i (tfmtOf (fcode m.f) 0 (fcode m.e)) (s.flags r.2)
  else (s.writeMem (m.elem i).ptr (m.q.val.testBit 2) (elemBytes m.e) r.1 s.me.colour .plain).bind fun _ s => .ok c (s.flags r.2)

/-- The virtual addresses that an element needs (R152): its scale byte's, and its own or that of its quad. -/
def elemVas (m : VMem) (i : Nat) : List Nat :=
  let el := m.elem i
  vaOf (if m.e == .o4 then (m.elem (i / 4 * 4)).ptr else el.ptr) :: (el.scale.toList.map vaOf)

/-- The elements of a list performed in order, VSTART naming the one in hand (R151, R273). An element that has been performed is
not performed again when the instruction waits at a later one. -/
def elemLoop (m : VMem) (one : VMem → Nat → Option Quad → State → Res (Option Quad)) :
    List Nat → Option Quad → State → Res Unit
  | [], _, s => .ok () (s.onMe (fun x => { x with vstart := 0 }))
  | i :: t, c, s =>
    if s.act m.q m.f.width i then
      (((one m i c (s.onMe (fun x => { x with vstart := BitVec.ofNat 7 i }))).atElem i).needs (elemVas m i)).bind fun c s =>
        elemLoop m one t c (s.onMe (fun x => { x with rbuf := [], rcur := 0 }))
    else elemLoop m one t c s

/-- A memory form from VSTART on (R286). -/
def elemRun (m : VMem) (one : VMem → Nat → Option Quad → State → Res (Option Quad)) (s : State) : Res Unit :=
  elemLoop m one ((upTo (lanesOf m.f)).drop s.me.vstart.toNat) none s

/-- ILLEGAL-OP of a view breach (R285, R288). -/
def viewTrap (s : State) : Host.Outcome State Fault Refusal := .next (s.takeStop (.trap (mkTrap .illegalOp s.me.latch.tval)))

/-- A pointer's own raw or typed elements through the view it selects: the memory format, and whether a scale applies (R285). -/
def memFmt (s : State) (p : Word) (f : Fmt) : Fmt := if bitsNat p 60 4 = 0 then f else viewFmt (s.viewOf p)

/-- A memory form: the checks of R285, then its elements. `plain` forms take no scale and no O4. Where several apply, a breach of the view goes before
VSTART-BAD, and that before MISALIGN (log 57). -/
def vecMem (plain : Bool) (one : VMem → Nat → Option Quad → State → Res (Option Quad)) (d : VReg) (q : KReg) (p : Word) (f : Fmt)
    (rm : Rm) (sat : Bool) (elem : Fmt → Nat → Elem) (s : State) : Host.Outcome State Fault Refusal :=
  let raw := bitsNat p 60 4 == 0
  let v := s.viewOf p
  let e := memFmt s p f
  let scaled := !raw && viewSmode v != 0
  if (sat && !(f.isInt && e.isInt)) || (plain && (scaled || e == .o4)) then viewTrap s
  else if lanesOf f ≤ s.me.vstart.toNat then .next (s.takeStop (.trap (mkTrap .vstartBad (s.me.vstart.setWidth 64))))
  else if e == .o4 && viewSmode v != 1 && p.toNat % 2 != 0 then .next (s.takeStop (.trap (mkTrap .misalign p)))
  else run (elemRun ⟨q, d, f, e, e == f && !scaled, effRm s.me.fcsr rm, sat, elem e⟩ one s)

/-- Elements of a region through its view, or raw through view 0 (R285). -/
def regionElem (s : State) (p : Word) (e : Fmt) (i : Nat) : Elem :=
  if bitsNat p 60 4 = 0 then ⟨ptrPlus p (i * e.width / 8), none⟩ else elemAt (s.viewOf p) p i

/-- Elements at a stride (R285). -/
def strideElem (p b : Word) (i : Nat) : Elem := ⟨ptrOff p (BitVec.ofInt 64 (i * b.toInt)), none⟩

/-- Elements at indices in a register (R288). -/
def indexElem (p : Word) (x : VWord) (w : Nat) (e : Fmt) (i : Nat) : Elem :=
  ⟨ptrOff p (BitVec.ofInt 64 (toSigned w (lane x w i) * (e.width / 8 : Nat))), none⟩

/-- VLD (R285). -/
def execVld (d : VReg) (k : KReg) (a : GReg) (f : Fmt) (rm : Rm) (sat : Bool) (s : State) : Host.Outcome State Fault Refusal :=
  vecMem false loadElem d k (s.g a) f rm sat (regionElem s (s.g a)) s
/-- VST (R285). -/
def execVst (d : VReg) (k : KReg) (a : GReg) (f : Fmt) (rm : Rm) (sat : Bool) (s : State) : Host.Outcome State Fault Refusal :=
  vecMem true storeElem d k (s.g a) f rm sat (regionElem s (s.g a)) s
/-- VLDS (R285). -/
def execVlds (d : VReg) (k : KReg) (a b : GReg) (f : Fmt) (rm : Rm) (sat : Bool) (s : State) : Host.Outcome State Fault Refusal :=
  vecMem true loadElem d k (s.g a) f rm sat (fun _ => strideElem (s.g a) (s.g b)) s
/-- VSTS (R285). -/
def execVsts (d : VReg) (k : KReg) (a b : GReg) (f : Fmt) (rm : Rm) (sat : Bool) (s : State) : Host.Outcome State Fault Refusal :=
  vecMem true storeElem d k (s.g a) f rm sat (fun _ => strideElem (s.g a) (s.g b)) s
/-- VGATHER (R288). -/
def execVgather (d : VReg) (k : KReg) (a : GReg) (b : VReg) (f : Fmt) (rm : Rm) (sat : Bool) (s : State) :
    Host.Outcome State Fault Refusal :=
  vecMem true loadElem d k (s.g a) f rm sat (indexElem (s.g a) (s.v b) f.width) s
/-- VSCATTER (R288). -/
def execVscatter (d : VReg) (k : KReg) (a : GReg) (b : VReg) (f : Fmt) (rm : Rm) (sat : Bool) (s : State) :
    Host.Outcome State Fault Refusal :=
  vecMem true storeElem d k (s.g a) f rm sat (indexElem (s.g a) (s.v b) f.width) s

/-! ### Quantisation (R290-R292) -/

/-- The format of a target; O4 is no lane format. -/
def tgtFmt : QTgt → Fmt
  | .s8 => .s8 | .f8a => .f8a | .f8b => .f8b | .o4 => .o4

/-- M of R291. -/
def tgtMax : QTgt → Nat
  | .s8 => 127 | .f8a => 448 | .f8b => 57344 | .o4 => 7

/-- The lane value of a source register. -/
def laneV (x : VWord) (f : Fmt) (i : Nat) : FV := decodeF f (lane x f.width i)

/-- A finite value. -/
def FV.isFin : FV → Bool
  | .fin _ _ _ => true
  | .nan _ | .inf _ => false

/-- The E8 scale of a maximum magnitude, or none where no scale is large enough (R291). -/
def fitScale (m : FV) (M h : Nat) : Option Nat :=
  if m.isZero then some 127 else (upTo 255).find? (fun e => !cmpLt (.fin false M ((h : Int) + e - 127)) m)

/-- VSCALE (R291). -/
def execVscale (d : GReg) (k : KReg) (a : VReg) (f : Fmt) (t : QTgt) (h : BitVec 4) (s : State) :
    Host.Outcome State Fault Refusal :=
  let x := s.v a
  let l := s.actLanes k f.width (lanesOf f)
  vecRun s (match l.find? (fun i => !(laneV x f i).isFin) with
    | some i =>
      let s1 := s.flags flNV
      if fcsrNanTrap s.me.fcsr then
        .next (s1.takeStop (.trap ⟨.nanFirst, false, 0, i, 0, tfmtOf (fcode f) 0 t.code.toNat⟩))
      else retired (s1.setG d 0xFF)
    | none =>
      let m := l.foldl (fun b i => if cmpLt b (laneV x f i).abs then (laneV x f i).abs else b) (FV.fin false 0 0)
      match fitScale m (tgtMax t) h.toNat with
      | some e => retired (s.setG d (BitVec.ofNat 64 e))
      | none => retired ((s.flags flOF).setG d 254))

/-- A value rounded to an integer; none for a NaN or an infinity (R292). -/
def roundI (mode : Mode) : FV → Option (Int × Bool)
  | .fin s m e => let r := roundTo mode s m e 0 false; some (signedI s r.1, r.2)
  | .nan _ | .inf _ => none

/-- A slot that must be an outlier: NaN, infinite, or beyond 7 once rounded. -/
def slotBig (mode : Mode) (y : FV) : Bool :=
  match roundI mode y with
  | none => true
  | some r => 7 < r.1.natAbs

/-- `a` has a larger magnitude than `b`, a NaN largest. -/
def magAbove (a b : FV) : Bool :=
  if a.isNaN then !b.isNaN else !b.isNaN && cmpLt b.abs a.abs

/-- A byte that holds the nibble 0x8. -/
def has8 (b : Nat) : Bool := b % 16 == 8 || b / 16 % 16 == 8

/-- The nearest F8A byte toward zero from magnitude `n` down, of a sign, with no nibble 0x8 (R292). -/
def towardZero (sign : Nat) : Nat → Nat
  | 0 => if has8 sign then 0 else sign
  | n + 1 => if has8 (sign + (n + 1)) then towardZero sign n else sign + (n + 1)

/-- The coding of one quad (R292): its two bytes, its flags, and the slot of a NaN outlier. -/
def quadCode (mode : Mode) (ys : List FV) : List Nat × Fl × Option Nat :=
  let y := fun j => ys.getD j (FV.fin false 0 0)
  let sn := ys.foldl (fun a v => a ||| v.snv) flNone
  let nx := fun j => match roundI mode (y j) with | some (_, true) => flNX | some (_, false) | none => flNone
  let nib := fun j => match roundI mode (y j) with | some (r, _) => wrapN 4 r | none => 0
  match (upTo 4).filter (fun j => slotBig mode (y j)) with
  | [] => ([nib 0 + 16 * nib 1, nib 2 + 16 * nib 3], sn ||| nx 0 ||| nx 1 ||| nx 2 ||| nx 3, none)
  | j0 :: t =>
    let m := t.foldl (fun b j => if magAbove (y j) (y b) then j else b) j0
    let p := if m % 2 = 0 then m + 1 else m - 1
    let c := roundF .f8a mode (y m)
    let bad := decide (2 ≤ m) && has8 c.1
    let b := if bad then towardZero (c.1 / 128 * 128) (c.1 % 128) else c.1
    let part : Nat × Fl := match y p with
      | .nan _ => (0, flNV)
      | .inf sg => (wrapN 4 (if sg then -7 else 7), flNX)
      | .fin sg mm ee =>
        let r := roundTo mode sg mm ee 0 false
        let v := signedI sg r.1
        let cl : Int := if v < -7 then -7 else if 7 < v then 7 else v
        (wrapN 4 cl, if r.2 || cl != v then flNX else flNone)
    let lost := (if m < 2 then [2, 3] else [0, 1]).foldl (fun a j => if (y j).isZero then a else a ||| flNX) flNone
    let pair := if m % 2 = 0 then 8 + 16 * part.1 else part.1 + 16 * 8
    (if m < 2 then [pair, b] else [b, pair], sn ||| c.2 ||| (if bad then flNX else flNone) ||| part.2 ||| lost,
      if (y m).isNaN then some m else none)

/-- The quads of a list of values from element `i`. -/
def quadCodes (mode : Mode) : Nat → List FV → List Nat × Fl × Option Nat
  | i, a :: b :: c :: d :: t =>
    let q := quadCode mode [a, b, c, d]
    let r := quadCodes mode (i + 4) t
    (q.1 ++ r.1, q.2.1 ||| r.2.1, match q.2.2 with | some m => some (i + m) | none => r.2.2)
  | _, _ => ([], flNone, none)

/-- The codes of values in an 8-bit format: bytes, flags, the lowest lane that produced a NaN. -/
def byteCodes (t : Fmt) (mode : Mode) (ys : List FV) : List Nat × Fl × Option Nat :=
  let l := ys.map (convV t mode)
  (l.map (·.1), l.foldl (fun a r => a ||| r.2) flNone, (upTo l.length).find? (fun i => isNaNPat t (l.getD i (0, flNone)).1))

/-- VQUANT (R292). BFMT of its traps is 0. R292 gives its SCALE-NAN the TVAL 0 and no element: the model gives it TELEM 0, whatever lanes are active
(log 57). -/
def execVquant (d : VReg) (k : KReg) (a : VReg) (b : GReg) (f : Fmt) (rm : Rm) (t : QTgt) (s : State) :
    Host.Outcome State Fault Refusal :=
  let x := s.v a
  let sc := bitsNat (s.g b) 0 8
  let mode := effRm s.me.fcsr rm
  let trap := fcsrNanTrap s.me.fcsr
  let tf := tfmtOf (fcode f) 0 t.code.toNat
  let s1 := if sc = 0xFF then s.flags flNV else s
  vecRun s (if sc = 0xFF && trap then .next (s1.takeStop (.trap ⟨.scaleNan, false, 0, 0, 0, tf⟩))
    else
      let ys := (upTo (lanesOf f)).map (fun i =>
        if s.act k f.width i then (if sc = 0xFF then FV.nan false else (laneV x f i).scale (127 - (sc : Int))) else FV.fin false 0 0)
      let r := match t with
        | .o4 => quadCodes mode 0 ys
        | .s8 => byteCodes .s8 mode ys
        | .f8a => byteCodes .f8a mode ys
        | .f8b => byteCodes .f8b mode ys
      let s2 := s1.flags r.2.1
      let v := BitVec.ofNat 1024 (leNat (r.1.map (fun n => BitVec.ofNat 8 n)))
      match r.2.2 with
      | some i => if trap then .next (s2.takeStop (.trap ⟨.nanFirst, false, 0, i, 0, tf⟩)) else retired (s2.setV d v)
      | none => retired (s2.setV d v))

end Sys2Proof.Machine
end

