-- ==== Sys2Proof/Machine/StreamOps.lean ====
section
/-!
DEFINITION. The streamer: the layout record and its checks (R319, R320, R323, R324), pages as a streamer translates them (R318,
R327), the movement of one element (R326), and the transfer board (R321). Streamers 0 to 7 stand on the stacks, 8 and 9 on X0 and
X1.
-/

namespace Sys2Proof.Machine

/-- The engine number of a streamer (R317). -/
def strEng (n : Nat) : Nat := if n < 8 then 8 + n else 10 + n
/-- The streamer of an engine number. -/
def engStr (n : Nat) : Nat := if n < 16 then n - 8 else n - 10
/-- The home beside a streamer. -/
def strHome (n : Nat) : Nat := if n < 8 then n else 8 + n

/-! ### The layout record (R319) -/

/-- A field of word 2 of a record. -/
def rf (r : List Word) (lo n : Nat) : Nat := bitsNat (r.getD 2 0) lo n
/-- XFERID. -/
def recId (r : List Word) : Nat := rf r 48 16
/-- The element size in bytes. -/
def recEs (r : List Word) : Nat := 2 ^ rf r 9 3
/-- TRANS. -/
def recTrans (r : List Word) : Nat := rf r 14 2
/-- COUNT of a dimension. -/
def recCount (r : List Word) (i : Nat) : Nat := bitsNat (r.getD (3 + i / 2) 0) (32 * (i % 2)) 32
/-- SSTRIDE of a dimension 1 to 3. -/
def recS (r : List Word) (i : Nat) : Int := (r.getD (4 + i) 0).toInt
/-- DSTRIDE of a dimension 1 to 3. -/
def recD (r : List Word) (i : Nat) : Int := (r.getD (7 + i) 0).toInt

/-- A view that makes a copy a block copy (R320). -/
def viewBlocks (v : Word) : Bool := viewSmode v != 0 || viewFmt v == .o4

/-- A block copy (R320). -/
def isBlockCopy (sv dv : Word) : Bool := viewBlocks sv || viewBlocks dv

/-- Bytes of one block that a block copy moves (R320). -/
def blockMoved (v : Word) : Nat := blockBytes v + (if viewSmode v = 1 then 1 else 0)

/-- What a copy moves: the size of a unit, the number of units, and the ends of unit `k` (R320, R326). A block copy's unit is a
byte. -/
structure CopyPlan where
  unit  : Nat
  total : Nat
  src   : Nat → Word
  dst   : Nat → Word

/-- The byte offset of an element at an end. -/
def dimOffset (es : Nat) (s1 s2 s3 : Int) (i0 i1 i2 i3 : Nat) : Int := i0 * es + i1 * s1 + i2 * s2 + i3 * s3

/-- A pointer with a signed offset, as by PADD (R320). -/
def ptrInt (p : Word) (d : Int) : Word := ptrOff p (BitVec.ofInt 64 d)

/-- The plan of a record with its views. -/
def planOf (r : List Word) (sv dv : Word) : CopyPlan :=
  let s := r.getD 0 0
  let d := r.getD 1 0
  if isBlockCopy sv dv then
    ⟨1, recCount r 0 / viewLen sv * blockMoved sv, fun k => ptrAdd s k, fun k => ptrAdd d k⟩
  else
    let es := recEs r
    let c0 := recCount r 0
    let c1 := recCount r 1
    let c2 := recCount r 2
    let i0 := fun k => k % c0
    let i1 := fun k => k / c0 % c1
    let i2 := fun k => k / (c0 * c1) % c2
    let i3 := fun k => k / (c0 * c1 * c2)
    ⟨es, c0 * c1 * c2 * recCount r 3,
     fun k => ptrInt s (dimOffset es (recS r 1) (recS r 2) (recS r 3) (i0 k) (i1 k) (i2 k) (i3 k)),
     fun k =>
      if recTrans r = 0 then ptrInt d (dimOffset es (recD r 1) (recD r 2) (recD r 3) (i0 k) (i1 k) (i2 k) (i3 k))
      else ptrInt d (dimOffset es (recD r 1) (recD r 2) (recD r 3) (i1 k) (i0 k) (i2 k) (i3 k))⟩

/-! ### Spans (R323, R324) -/

/-- Lowest and highest byte offset of the elements along one dimension. -/
def dimSpan (c : Nat) (st : Int) : Int × Int := let x : Int := (c - 1) * st; if x < 0 then (x, 0) else (0, x)

/-- The span of an end: offsets of its lowest and highest byte from the end's pointer. -/
def spanOf (r : List Word) (sv dv : Word) (dst : Bool) : Int × Int :=
  if isBlockCopy sv dv then (0, (recCount r 0 / viewLen sv * blockMoved sv : Nat) - 1)
  else
    let st := if dst then recD r else recS r
    let sw := dst && recTrans r != 0
    let a := dimSpan (recCount r (if sw then 1 else 0)) (recEs r)
    let b := dimSpan (recCount r (if sw then 0 else 1)) (st 1)
    let c := dimSpan (recCount r 2) (st 2)
    let d := dimSpan (recCount r 3) (st 3)
    (a.1 + b.1 + c.1 + d.1, a.2 + b.2 + c.2 + d.2 + recEs r - 1)

/-- Two spans overlap, as addresses that wrap within 60 bits. -/
def spansMeet (a b : Nat) (sa sb : Int × Int) : Bool :=
  let la := (a : Int) + sa.1
  let lb := (b : Int) + sb.1
  decide ((lb - la) % 2 ^ 60 < sa.2 - sa.1 + 1) || decide ((la - lb) % 2 ^ 60 < sb.2 - sb.1 + 1)

/-- The offsets of a local space that a streamer may read or write (R129): in the inbox those of the slot of the issuing activation (R130). -/
def State.spaceRange (s : State) (sp : Nat) : Nat × Nat :=
  match sp with
  | 0 => (0, Config.privLimit) | 1 => (0, Config.scratchLimit) | 2 => (0, Config.clusLimit)
  | _ => let b := 512 * s.me.activation.m.slot; (b, b + 512)

/-- The logical core that owns a local pointer: for the cluster space, the cluster's lowest. -/
def localOwner (p : Word) : Nat := if spaceOf p = 2 then 16 * bitsNat p 32 8 else bitsNat p 32 12

/-- The check of a local span, with no owner check (R128, R324). -/
def State.spanCheck (s : State) (p : Word) (sp : Int × Int) (dst : Bool) : Option Cause :=
  let k := spaceOf p
  if !isLocal p then none
  else if 3 < k || (k == 2 && bitsNat p 40 4 != 0) || (dst && k == 3) then some .spaceBad
  else
    let (lo, hi) := s.spaceRange k
    if (offsetOf k p : Int) + sp.1 < lo || (hi : Int) ≤ offsetOf k p + sp.2 then some .spaceBounds else none

/-! ### CheckLayout (R323) -/

/-- A handler IP that is set and lies outside the task's bounds. -/
def handlerBad (t : Task) (ip : Word) : Bool := ip != 0 && !inBounds t ip

/-- A dimension beyond NDIM that is used (R319). -/
def dimBad (r : List Word) (i : Nat) : Bool :=
  decide (rf r 12 2 < i) && (recCount r i != 1 || recS r i != 0 || recD r i != 0)

/-- The shape of a block copy is wrong (R320). -/
def blockBad (r : List Word) (sv dv : Word) : Bool :=
  isBlockCopy sv dv && (bitsNat sv 0 9 != bitsNat dv 0 9 || rf r 12 2 != 0 || recTrans r != 0 || rf r 9 3 != 0 ||
    recCount r 0 % viewLen sv != 0)

/-- LAYOUT-BAD (R323). -/
def layoutBad (t : Task) (board : List BoardE) (tag : Nat) (r : List Word) (sv dv : Word) : Bool :=
  let p := planOf r sv dv
  rf r 23 25 != 0 || rf r 0 9 != 0 || recId r == 0 || rf r 9 3 == 7 || recTrans r == 3 || decide (4 < rf r 20 3) ||
  decide (4 < rf r 17 3) || (upTo 4).any (fun i => recCount r i == 0) || dimBad r 1 || dimBad r 2 || dimBad r 3 ||
  (recTrans r != 0 && (rf r 12 2 == 0 || decide (64 < recCount r 0) || decide (64 < recCount r 1) || rf r 9 3 + 1 != recTrans r)) ||
  blockBad r sv dv || decide (2 ^ 36 < p.total * p.unit) || handlerBad t (r.getD 11 0) || handlerBad t (r.getD 12 0) ||
  board.any (fun e => e.tag == tag && e.xferid == recId r) ||
  spansMeet (vaOf (r.getD 0 0)) (vaOf (r.getD 1 0)) (spanOf r sv dv false) (spanOf r sv dv true)

/-! ### Pages as a streamer sees them (R318, R327) -/

/-- What a streamer finds at an address: its key with the table word that maps it, its replication, and the core for a local
space; a page that is not present; or a failure. -/
inductive SPage where
  | here (key : Nat) (slot : Option Nat) (repl : Nat) (core : Option Nat)
  | absent
  | bad
  deriving DecidableEq, Repr

/-- An owner field that names a core of the partition (R128). -/
def State.ownerIn (s : State) (core : Nat) (p : Word) : Bool :=
  let (b, n) := s.coreRange core
  decide (b ≤ localOwner p) && decide (localOwner p < b + n)

/-- The key of a local address of the core that the owner field names (R128, R130); a number outside the partition names no memory (log 24). -/
def State.localOf (s : State) (core : Nat) (p : Word) : SPage :=
  let k := s.knum core (localOwner p)
  if s.ownerIn core p then .here (localKey k (bitsNat p 30 2) (spaceOf p) (offsetOf (spaceOf p) p)) none 0 (some k) else .bad

/-- The key of host memory that ATS gives for a frame (R318). -/
def hostKey (pa : Nat) : Option Nat := (Config.ats (pa / 4096)).map (fun f => 2 ^ 51 + f % 2 ^ 39 * 4096 + pa % 4096)

/-- A host page through X0 (R133, R318, R327): plain reads and writes only. -/
def hostPage (str pa : Nat) (e : Word) (write fe : Bool) : SPage :=
  if str != 8 || fe || pteTxw e || pteRepl e || pteFe e || (if write then !pteW e || pteRxw e else !pteR e) then .bad
  else match hostKey pa with
    | some k => .here k none 0 none
    | none => .bad

/-- The page of a pointer (R318, R327, R141): a read takes the replica of the streamer's die. -/
def State.strPage (s : State) (str core : Nat) (write fe : Bool) (p : Word) : SPage :=
  if isLocal p then s.localOf core p
  else
    let q := s.pOf core
    match s.walk q (vaOf p) with
    | .bad => .bad
    | .absent _ _ _ => .absent
    | .leaf lvl slot e =>
      let pa := pteAddr e + vaOf p % pageSize lvl
      if hostMem (pteAddr e) then hostPage str pa e write fe
      else if pteTxw e || (s.checkAttr q lvl e (if !write then .load else if fe then .stfe else .store)).isSome then .bad
      else .here (if !write && pteRepl e && decide (str < 8) then replicaAt pa str else pa) (some slot) (if write then replOf e else 0) none

/-- The page of a pointer as a channel sees it: a held translation stands till its block is done (R328). -/
def State.pageFor (s : State) (str core : Nat) (held : List HeldT) (write fe : Bool) (p : Word) : SPage :=
  match (if isLocal p then none else held.find? (fun h => h.write == write && h.page == vaOf p / 4096)) with
  | some h => .here (h.key + vaOf p % 4096) h.slot h.repl none
  | none => s.strPage str core write fe p

/-- The pages that an element of `n` bytes lies in, with their pointers: two at most. -/
def State.pagesOfElem (s : State) (str core : Nat) (held : List HeldT) (write fe : Bool) (p : Word) (n : Nat) : List (SPage × Word) :=
  let r := 4096 - vaOf p % 4096
  (if isLocal p || n ≤ r then [p] else [p, ptrAdd p r]).map (fun q => (s.pageFor str core held write fe q, q))

/-- The first page of a list that is absent or fails. -/
def firstBad (l : List (SPage × Word)) : Option (SPage × Word) :=
  l.find? (fun x => match x.1 with | .here _ _ _ _ => false | .absent | .bad => true)

/-- The translations that pages of one end give. -/
def holdPages (write : Bool) (l : List (SPage × Word)) : List HeldT :=
  l.filterMap (fun x => match x.1 with
    | .here k sl rp none => if isLocal x.2 then none else some ⟨write, vaOf x.2 / 4096, k - vaOf x.2 % 4096, sl, rp⟩
    | .here _ _ _ (some _) | .absent | .bad => none)

/-! ### Moving an element (R326) -/

/-- A and D of the page of a piece (R138). -/
def State.touch (s : State) (write : Bool) : SPage → State
  | .here _ (some slot) _ _ => s.onMem (fun m => m.orWord slot (if write then 96 else 32))
  | .here _ none _ _ | .absent | .bad => s

/-- The words that a run of bytes covers. -/
def wordsIn (k n : Nat) : List Nat := (upTo ((k + n - 1) / 8 - k / 8 + 1)).map (fun i => wordOf k + 8 * i)

/-- Bytes written by an engine: words that become full, words poisoned, and whole words that are whole again (R146, R150). -/
def Memory.engineWrite (m : Memory) (k : Nat) (bytes : List Byte) (how : WrHow) : Memory :=
  let m1 := m.setBytes k bytes
  (wordsIn k bytes.length).foldl (fun m w =>
    let m2 := if how.fe then m.setFull w else m
    if how.bad then m2.setPoison w true
    else if k ≤ w && w + 8 ≤ k + bytes.length then m2.renew w else m2) m1

/-- An engine's write performed in memory, and the requests that waited for a full word at its home (R261). -/
def State.engineWrite (s : State) (k : Nat) (bytes : List Byte) (how : WrHow) : State :=
  let s1 := s.onMem (fun m => m.engineWrite k bytes how)
  if how.fe && decide (k < 2 ^ 52) then s1.serveAll (homeOf k) else s1

/-- A write of a full word meets a pending word (R261). -/
def pendingIn (m : Memory) (k n : Nat) : Bool := (wordsIn k n).any (fun w => m.isPending w)

/-- A channel changed. -/
def State.onChan (s : State) (str ch : Nat) (f : StrChan → StrChan) : State :=
  s.onStr str (fun x => { x with chans := AMap.mapVals (fun k c => if k = ch then f c else c) x.chans })

/-- A board entry shows the bytes that its copy has written (R325). -/
def State.boardShow (s : State) (c : StrChan) : State :=
  s.onCore c.core (fun k => { k with board := k.board.map (fun e =>
    if e.tag == c.tag && e.xferid == recId c.rcd && !e.st.final then { e with bytes := max e.bytes c.bytes } else e) })

/-- The bytes that a board entry shows follow the copy (R325); in deterministic mode they stand still till the quantum's end (R331). -/
def State.boardBytes (s : State) (c : StrChan) : State := if s.detAt c.core then s else s.boardShow c

/-- Bytes of a channel that have been written. -/
def State.wrote (s : State) (str ch n : Nat) : State :=
  let s1 := s.onChan str ch (fun c => { c with bytes := c.bytes + n })
  match AMap.find (s1.str str).chans ch with
  | some c => s1.boardBytes c
  | none => s1

/-- The answer to a write of a channel. -/
def State.strAck (s : State) (str ch n : Nat) : State := (s.onChan str ch (fun c => { c with writes := c.writes - 1 })).wrote str ch n

/-- A write of a channel before its core has ended its quantum, while LVCOMMIT waits for it (R331, R349), noted like that core's own (log 58). -/
def State.noteCopy (s : State) (core k : Nat) (bytes : List Byte) (fe : Bool) : State :=
  if (s.core core).qdone then s else s.noteWrite core (s.core core).retired k bytes.length (leNat bytes) fe

/-- The part of a run of `n` bytes at a pointer that lies in its naturally aligned word: one event of a copy (R326). -/
def wordPart (p : Word) (n : Nat) : Nat := min n (8 - vaOf p % 8)

/-- Bytes read for a channel's element. -/
def StrChan.take (c : StrChan) (bytes : List Byte) (bad : Bool) : StrChan :=
  { c with got := c.got ++ bytes.map (fun b => (b, bad)), rpend := false }

/-- The piece of a copy that begins at a pointer begins a 64-byte block: the piece before it lies in another one (R438 0x0F, 0x10). `at0` says that
no byte of the element comes before it, `pl` gives the end's pointers. -/
def StrChan.freshBlock (c : StrChan) (pl : Nat → Word) (unit : Nat) (at0 : Bool) (p : Word) : Bool :=
  let last := if at0 then ptrAdd (pl (c.next - 1)) (unit - 1) else ptrAdd p (2 ^ 60 - 1)
  (at0 && c.next == 0) || vaOf last / 64 != vaOf p / 64

/-- The die on which a streamer's corrected errors are counted: its own, or at the I/O dies that of the core that asked for the copy (R439). -/
def strDie (str core : Nat) : Nat := if str < 8 then str else dieOf core

/-- A word or part-word of an element read: at the streamer's own home, in a local memory or in host memory at once, otherwise by an XFER of the
home (R318; log 24). -/
def State.readPart (s : State) (str ch n : Nat) (c : StrChan) (p : Word) : SPage → State
  | .here k sl rp co =>
    let pl := planOf c.rcd c.sv c.dv
    let s0 := s.touch false (.here k sl rp co)
    let s1 := if c.freshBlock pl.src pl.unit c.got.isEmpty p then s0.countBlk k 0x0F else s0
    if co.isSome || homeOf k == strHome str then
      (s1.scrub (strDie str c.core) k n).onChan str ch (fun c => c.take (s.mem.bytes k n) (s.mem.poisoned k n))
    else
      (s1.sendReq (4096 + strEng str) (4096 + homeOf k) 7 (.rld .plain false ch k n p) Sender.none).onChan str ch (fun c => { c with rpend := true })
  | .absent | .bad => s

/-- The bytes of an element written: the next element follows the last of them. -/
def StrChan.gave (c : StrChan) (n unit : Nat) : StrChan :=
  if c.put + n < unit then { c with put := c.put + n } else { c with put := 0, got := [], next := c.next + 1 }

/-- A word or part-word of an element written: at the streamer's own home at once, otherwise by XFER or EWR (R318). A poisoned byte poisons its
word (R326). -/
def State.writePart (s : State) (str ch : Nat) (c : StrChan) (n unit : Nat) (p : Word) (pg : SPage) : State :=
  let l := (c.got.drop c.put).take n
  let bytes := l.map (·.1)
  let how : WrHow := ⟨rf c.rcd 16 1 == 1, l.any (·.2), 0⟩
  let s0 := match pg with
    | .here k _ _ none => if c.freshBlock (planOf c.rcd c.sv c.dv).dst unit (c.put == 0) p then s.countBlk k 0x10 else s
    | .here _ _ _ (some _) | .absent | .bad => s
  let s1 := (s0.touch true pg).onChan str ch (fun c => c.gave n unit)
  match pg with
  | .here k _ rp none =>
    if (rp == 0) && homeOf k == strHome str then ((s1.noteCopy c.core k bytes how.fe).engineWrite k bytes how).wrote str ch n
    else (s1.sendReq (4096 + strEng str) (4096 + homeOf k) 7 (.xfer k bytes { how with repl := rp } str ch) Sender.none).onChan str ch
      (fun c => { c with writes := c.writes + 1 })
  | .here k _ _ (some core) =>
    (s1.sendReq (4096 + strEng str) core 6 (.ewr k bytes how str ch) Sender.none).onChan str ch (fun c => { c with writes := c.writes + 1 })
  | .absent | .bad => s

/-- What a channel does next. -/
inductive CopyNext where
  | ended
  | waits
  | read (p : Word) (pg : SPage) (n : Nat) (held : List HeldT)
  | write (p : Word) (pg : SPage) (n : Nat)
  | absent (p : Word)
  | fault (p : Word)
  deriving DecidableEq, Repr

/-- A read of a line that is marked at the streamer's own home waits (R142); every other home does so itself. -/
def State.markedHere (s : State) (str : Nat) : SPage → Bool
  | .here k _ _ none => homeOf k == strHome str && sMem (blockOf k) (s.home (strHome str)).marks
  | .here _ _ _ (some _) | .absent | .bad => false

/-- A write of a full word at the streamer's own home waits while the word is pending (R261); every other home does so itself. -/
def State.pendingHere (s : State) (str n : Nat) : SPage → Bool
  | .here k _ rp none => rp == 0 && homeOf k == strHome str && pendingIn s.mem k n
  | .here _ _ _ (some _) | .absent | .bad => false

/-- The next thing that a channel does (R326, R327): every page of an element is found before its first byte is read, anew where the element begins a
block (R328), and a failure ends the copy once the elements before it are written. -/
def State.copyNext (s : State) (str : Nat) (c : StrChan) : CopyNext :=
  let pl := planOf c.rcd c.sv c.dv
  let fe := rf c.rcd 16 1 == 1
  let last := fun (x : CopyNext) => if c.writes = 0 then x else .waits
  let src := pl.src c.next
  let dst := pl.dst c.next
  let reading := decide (c.got.length < pl.unit)
  if pl.total ≤ c.next then last .ended
  else if c.failed.isSome then last (.fault (c.failed.getD 0))
  else if c.rpend then .waits
  else
    let start := c.got.isEmpty
    let keep := fun (write : Bool) (f : Nat → Word) => if start && c.freshBlock f pl.unit true (f c.next) then [] else c.held.filter (·.write == write)
    let hs := keep false pl.src
    let hd := keep true pl.dst
    let ps := if start then s.pagesOfElem str c.core hs false false src pl.unit else []
    let pd := if start then s.pagesOfElem str c.core hd true fe dst pl.unit else []
    match firstBad (ps ++ pd) with
    | some (.absent, p) => .absent p
    | some (_, p) => last (.fault p)
    | none =>
      if reading then
        let p := ptrAdd src c.got.length
        let held := if start then hs ++ holdPages false ps ++ hd ++ holdPages true pd else c.held
        let pg := s.pageFor str c.core held false false p
        if s.markedHere str pg then .waits else .read p pg (wordPart p (pl.unit - c.got.length)) held
      else
        let p := ptrAdd dst c.put
        let n := wordPart p (pl.unit - c.put)
        let pg := s.pageFor str c.core c.held true fe p
        if fe && s.pendingHere str n pg then .waits else .write p pg n

/-- A channel that has begun its current 64-byte block at either end and has not finished it (R328): an access is on its way, an element is half
moved, or the next element lies in the block of the one before. A lodged channel finishes only the writes that are on their way. -/
def StrChan.midBlock (c : StrChan) : Bool :=
  let pl := planOf c.rcd c.sv c.dv
  let goes := fun (f : Nat → Word) => !c.freshBlock f pl.unit true (f c.next)
  c.writes != 0 || (!c.lodged && (c.rpend || !c.got.isEmpty || (decide (c.next < pl.total) && (goes pl.src || goes pl.dst))))

/-- The pages whose translations a channel uses for the block that it has begun. -/
def StrChan.blockVas (c : StrChan) : List Nat := if c.midBlock then c.held.map (fun h => 4096 * h.page) else []

/-- The channels of a partition. -/
def State.chansOf (s : State) (p : Nat) : List StrChan := s.strs.flatMap (fun e => (e.2.chans.map (·.2)).filter (fun c => s.pOf c.core == p))

/-! ### The transfer board (R321, R325) -/

/-- The partition's event of a copy (R435); in deterministic mode it takes effect at the end of the quantum (R331, R440). -/
def State.copyEvent (s : State) (str ev : Nat) (c : StrChan) : State :=
  let p := s.pOf c.core
  let P := s.part p
  s.event p (if P.det then (P.quanta + 1) * (s.core (512 * p)).quant.toNat else s.time) 0 ev (strEng str) (s.lnum c.core * 2 ^ 40 + min c.bytes (2 ^ 24 - 1) * 2 ^ 16 + recId c.rcd)

/-- A change of state on its way to the issuer's board (R321). -/
def State.boardPush (s : State) (c : StrChan) (st : XferSt) : State :=
  { s with boardUpd := s.boardUpd ++ [⟨c.core, c.tag, recId c.rcd, st, c.bytes⟩] }

/-- STATE of R325. -/
def XferSt.code : XferSt → Nat
  | .issued => 0 | .accepted => 1 | .lodged => 2 | .complete => 3 | .faulted => 4

/-- A change of state reaches a board (R321): a final state frees an entry with DONEIP set once no CPWAIT waits for it. Fewer bytes than the
board shows are older news. -/
def State.boardApply (s : State) (u : BoardUpd) : State :=
  s.onCore u.core (fun k => { k with board := k.board.filterMap (fun e =>
    if e.tag == u.tag && e.xferid == u.xferid && !e.st.final then
      if u.st.final && e.doneip && e.waiters.isEmpty then none else some { e with st := u.st, bytes := max e.bytes u.bytes }
    else some e) })

/-- The entry of the running task with an identifier. -/
def CoreSt.entry (k : CoreSt) (tag id : Nat) : Option BoardE := k.board.find? (fun e => e.tag == tag && e.xferid == id)

/-- The word of R325. -/
def BoardE.word (e : BoardE) : Word := BitVec.ofNat 64 (e.bytes % 2 ^ 40 * 2 ^ 8 + e.st.code)

/-! ### Where a copy goes (R317, R324) -/

/-- A global pointer whose page is mapped to host memory (R133). -/
def State.hostAt (s : State) (p : Word) : Bool :=
  !isLocal p && (match s.walk (s.pOf s.cur.1) (vaOf p) with
    | .leaf _ _ e => hostMem (pteAddr e) && !pteTxw e
    | .absent _ _ _ | .bad => false)

/-- The serving streamer (R317): by the first byte of the source, which a global source has translated, or X0 for host memory at either end. An
owner field that names no core of the partition leaves the choice to the issuer's die (log 24). -/
def State.strChoose (s : State) (src dst : Word) : Res Nat :=
  let x0 := s.hostAt dst
  if isLocal src then .ok (if x0 then 8 else dieOf (if s.ownerIn s.cur.1 src then s.knum s.cur.1 (localOwner src) else s.cur.1)) s
  else (s.translate src (vaOf src) .copy).bind fun x s =>
    .ok (if x0 || hostMem x.pa then 8
      else if pteRepl x.pte then dieOf s.cur.1
      else if firstTier x.pa then x.pa / 2 ^ 36 else homeOf x.pa - 8) s

end Sys2Proof.Machine
end

