-- ==== Sys2Proof/Machine/BindOps.lean ====
section
/-!
DEFINITION. Binding, unbinding, freezing and thawing of blocks (R334-R338, R348, R351-R353).
-/

namespace Sys2Proof.Machine

/-! ### The binding record (R335) -/

/-- A neighbour's entry of a record: its id, as an integer, and its relation. -/
def recNbr (r : List Word) (b i : Nat) : Int × RelT :=
  let w := r.getD (7 + i) 0
  ((b : Int) - bitsNat (r.getD 0 0) 0 16 + bitsNat w 0 16,
   match bitsNat w 16 2 with | 0 => .none | 1 => .sync | 2 => .ahead | _ => .feed)

/-- NN of a record. -/
def recNN (r : List Word) : Nat := bitsNat (r.getD 0 0) 32 4
/-- STEPLOG of a record. -/
def recStep (r : List Word) : Nat := bitsNat (r.getD 0 0) 24 5
/-- LEVEL of a record. -/
def recLevel (r : List Word) : Nat := bitsNat (r.getD 1 0) 0 32
/-- END of a record. -/
def recEnd (r : List Word) : Nat := bitsNat (r.getD 1 0) 32 32

/-- Some entry of a list stands in it twice. -/
def twice : List Int → Bool
  | [] => false
  | a :: t => t.contains a || twice t

/-- CheckRecord (R352): the first cause that applies, with its TVAL. -/
def State.checkRecord (s : State) (r : List Word) (b : Nat) : Option (Cause × Word) :=
  let bw : Word := BitVec.ofNat 64 b
  let w0 := r.getD 0 0
  let ids := (upTo (min (recNN r) 8)).map (fun i => (recNbr r b i).1)
  let st := r.getD 4 0
  let fc := r.getD 5 0
  let ss := bitsNat (r.getD 6 0) 0 32
  let fs := bitsNat (r.getD 6 0) 32 32
  if bitsNat w0 40 24 != 0 || bitsNat w0 29 3 != 0 || 8 < recNN r || 20 < recStep r || 4 < bitsNat w0 36 3 ||
     (upTo (recNN r)).any (fun i => bitsNat (r.getD (7 + i) 0) 18 46 != 0) then some (.ruleInvalid, bw)
  else if ids.any (fun i => decide (i < 0) || decide (32767 < i) || i == (b : Int)) || twice ids then some (.ruleInvalid, bw)
  else if recLevel r % 2 ^ recStep r != 0 then some (.levelMisaligned, BitVec.ofNat 64 (recLevel r))
  else if w0.getLsbD 39 && (recEnd r % 2 ^ recStep r != 0 || !serialGE (BitVec.ofNat 32 (recEnd r)) (BitVec.ofNat 32 (recLevel r))) then
    some (.levelMisaligned, BitVec.ofNat 64 (recEnd r))
  else if !inBounds s.myTask (r.getD 2 0) || (r.getD 3 0 != 0 && !inBounds s.myTask (r.getD 3 0)) then some (.ruleInvalid, bw)
  else if isspc st != 2 || ownerOf 1 st != s.accessor 1 || Config.scratchLimit < offsetOf 1 st + 2 * ss then some (.ruleInvalid, bw)
  else if !(isspc fc == 0 || (isspc fc == 3 && ownerOf 2 fc == s.accessor 2)) || ss == 0 || ss % 8 != 0 || fs == 0 || fs % 8 != 0 then
    some (.ruleInvalid, bw)
  else none

/-- The entry that a record binds. -/
def State.blkOf (s : State) (p : Nat) (r : List Word) (b front : Nat) : Blk where
  st := .waiting
  core := s.cur.1
  tag := s.me.tag
  gen := s.me.activation.m.msg.env.gen
  front := front
  steplog := recStep r
  stage := bitsNat (r.getD 0 0) 16 8
  level := BitVec.ofNat 32 (recLevel r)
  endv := (r.getD 0 0).getLsbD 39
  endl := BitVec.ofNat 32 (recEnd r)
  qsel := bitsNat (r.getD 0 0) 36 3
  updip := r.getD 2 0
  interp := r.getD 3 0
  state := r.getD 4 0
  face := r.getD 5 0
  fsize := bitsNat (r.getD 6 0) 32 32
  ssize := bitsNat (r.getD 6 0) 0 32
  nbrs := (upTo (recNN r)).map (fun i =>
    let n := recNbr r b i
    ⟨n.1.toNat, n.2, match s.blk p n.1.toNat with | some m => m.level | none => 0⟩)
  count := 0
  bind := s.fresh

/-! ### Pairs (R336-R338) -/

/-- A relation that R336 does not allow from X to N. -/
def relBad (rel : RelT) (x n : Blk) : Bool :=
  match rel with
  | .none | .sync => false
  | .ahead => decide (n.steplog ≤ x.steplog)
  | .feed => !(decide (n.stage < x.stage) && decide (x.steplog ≤ n.steplog))

/-- CheckPair (R338). -/
def pairBad (x : Blk) (b : Nat) (m : Blk) (mid : Nat) : Bool :=
  let rx := x.relTo mid
  let rm := m.relTo b
  let linked := rx != .none || rm != .none
  relBad rx x m || relBad rm m x ||
    (linked && (rx == .none || rm == .none ||
      x.tag != m.tag || x.front != m.front || x.endv != m.endv || (x.endv && x.endl != m.endl) ||
      ((isspc x.face == 3 || isspc m.face == 3) && clusOf x.core != clusOf m.core) ||
      !(serialGE x.level (m.level - m.step) && serialGE m.level (x.level - x.step))))

/-- A block names an id. -/
def Blk.names (b : Blk) (id : Nat) : Bool := b.nbrs.any (fun n => n.id == id)

/-! ### Performing the instructions -/

/-- A block changed by the binding of `b` at a level: its copy, and PENDING left when none of its neighbours is unbound (R351). -/
def State.hearBind (s : State) (p b : Nat) (lv : BitVec 32) (mid : Nat) : State :=
  match s.blk p mid with
  | none => s
  | some m =>
    let m1 : Blk := { m with nbrs := m.nbrs.map (fun n => if n.id == b then { n with copy := lv } else n) }
    s.setBlk p mid (if m.st == .pending then { m1 with st := s.bindSt p m } else m1)

/-- LVBIND at the front unit, once its record has been read (R351). -/
def State.lvbindDo (s : State) (d : GReg) (bw : Word) (front : BitVec 16) (r : List Word) : Res Unit :=
  let p := s.pOf s.cur.1
  let b := bw.toNat
  if bitsNat bw 15 49 != 0 || b / 4096 != s.lnum s.cur.1 / 512 then trapAt .ruleInvalid bw s
  else match s.checkRecord r b with
    | some (c, v) => trapAt c v s
    | none =>
      if (s.blk p b).isSome then trapAt .bindFull bw s
      else
        let x := s.blkOf p r b front.toNat
        let near := (s.blks p).filter (fun e => x.names e.1 || e.2.names b)
        if near.any (fun e => pairBad x b e.2 e.1) then trapAt .ruleInvalid bw s
        else
          let s1 := (s.setBlk p b { x with st := s.bindSt p x }).tick
          let s2 := near.foldl (fun s e => s.hearBind p b x.level e.1) s1
          .ok () (s2.setG d (BitVec.ofNat 64 (x.nbrs.filter (fun n => (s.blk p n.id).isNone)).length))

/-- The block that an operand names; none for an operand that names no block (R350). -/
def State.blkAt (s : State) (a : Word) : Option Blk :=
  if bitsNat a 15 49 != 0 then none else s.blk (s.pOf s.cur.1) a.toNat

/-- An entry freed: each linked neighbour that is neither DONE nor DISPATCHED becomes PENDING (R353). -/
def State.unbind (s : State) (p id : Nat) (b : Blk) : State :=
  (s.blks p).foldl (fun s e =>
    if e.1 != id && (e.2.relTo id != .none || b.relTo e.1 != .none) && !(e.2.st == .done || e.2.st == .dispatched) then
      s.setBlk p e.1 { e.2 with st := .pending }
    else s) (s.delBlk p id)

/-- LVUNBIND at the front unit (R353). -/
def State.lvunbindDo (s : State) (d : GReg) (a : Word) : State :=
  let p := s.pOf s.cur.1
  match s.blkAt a with
  | none => s.setG d 0x10
  | some b =>
    if b.st == .pending || b.st == .done || (s.frontSt p b.tag b.front == .frozen && (b.st == .waiting || b.st == .faulted)) then
      (s.unbind p a.toNat b).setG d 0
    else s.setG d (BitVec.ofNat 64 (0x10 + b.st.code))

/-- LVFREEZE at the front unit (R348, R357). -/
def State.lvfreezeDo (s : State) (d : GReg) (a : Word) : State :=
  let p := s.pOf s.cur.1
  match s.blkAt a with
  | none => s.setG d 3
  | some b => (s.freezeFront p b.tag b.front).setG d (BitVec.ofNat 64 (s.frontSt p b.tag b.front).code)

/-- FROZEN becomes RUNNING: each FAULTED block WAITING, or PENDING where a neighbour is unbound (R348). -/
def State.thawFront (s : State) (p tag num : Nat) : State :=
  if s.frontSt p tag num = .frozen then
    let s1 := (s.setFront p tag num .running).event p (s.engTime p) 2 3 p num
    (s.frontBlks p tag num).foldl (fun s e =>
      if e.2.st == .faulted then s.setBlk p e.1 { e.2 with st := if s.nbrUnbound p e.2 then .pending else .waiting } else s) s1
  else s

/-- The fronts with a block on a die freeze (R348, R419). -/
def State.freezeDie (s : State) (die : Nat) : State :=
  let p := s.partKey die
  ((s.blks p).filter (fun e => s.fuOf p e.1 == die)).foldl (fun s e => s.freezeFront p e.2.tag e.2.front) s

/-- A lease lost on a die freezes its fronts: now, or in deterministic mode at the quantum's end (R349). -/
def State.leaseFreeze (s : State) (die : Nat) : State :=
  let p := s.partKey die
  if (s.part p).det then s.onPart p (fun P => { P with fevs := P.fevs ++ [.lease die] }) else s.freezeDie die

/-- Firmware's freeze or thaw of the front of a block for the host (R348, R357). -/
def State.hostFront (s : State) (p id : Nat) (thaw : Bool) : State :=
  match s.blk p id with
  | none => s
  | some b => if thaw then s.thawFront p b.tag b.front else s.freezeFront p b.tag b.front

/-- The same: now, or in deterministic mode at the quantum's end (R349). -/
def State.hostFrontAt (s : State) (p id : Nat) (thaw : Bool) : State :=
  if (s.part p).det then s.onPart p (fun P => { P with fevs := P.fevs ++ [.host id thaw] }) else s.hostFront p id thaw

/-- LVTHAW at the front unit (R348, R357). -/
def State.lvthawDo (s : State) (d : GReg) (a : Word) : State :=
  let p := s.pOf s.cur.1
  match s.blkAt a with
  | none => s.setG d 3
  | some b => (s.thawFront p b.tag b.front).setG d (BitVec.ofNat 64 (s.frontSt p b.tag b.front).code)

/-! ### LVCOMMIT (R166, R355) -/

/-- The copies that an activation requested on any core have written their data (R53, R166), as the boards show, or a final state on its way to
them. -/
def State.copiesDone (s : State) (a : Act) : Bool :=
  s.cores.all (fun c => c.2.board.all (fun e =>
    e.msgid != a.m.msg.env.id || e.st.final ||
      s.boardUpd.any (fun u => u.core == c.1 && u.tag == e.tag && u.xferid == e.xferid && u.st.final)))

/-- The level that LVCOMMIT publishes for a block, or LEVEL-MISALIGNED (R355). -/
def State.commitBlk (s : State) (a b : Word) : Option Nat :=
  let x := s.me.activation
  match x.m.msg.info with
  | .dispatch id =>
    match s.blkAt a with
    | some blk => if a.toNat == id && !x.committed && b.setWidth 32 == blk.level + blk.step then some id else none
    | none => none
  | .plain | .arrive | .copyDone _ | .phase _ _ | .rlcExit _ _ => none

/-- A committed level published (R347): the board, then the notices. In deterministic mode it waits for the quantum's end
(R349). -/
def State.publish (s : State) (id : Nat) (lv : BitVec 32) : State :=
  let p := s.pOf s.cur.1
  let s1 := s.onMe (fun x => { x with act := x.act.map (fun a => { a with committed := true }) })
  if (s.part p).det then s1.onPart p (fun P => { P with fevs := P.fevs ++ [.commit s.cur.1 s.cur.2.val id lv] })
  else
    let s2 := s1.setLevel p id lv
    match s2.blk p id with
    | some b => s2.sendNotices p id b
    | none => s2

/-- LVCOMMIT (R355). -/
def State.lvcommitDo (s : State) (a b : Word) : Res Unit :=
  match s.commitBlk a b with
  | none => trapAt .levelMisaligned b s
  | some id => (s.release .fence).bind fun _ s =>
      if s.copiesDone s.me.activation then .ok () (s.publish id (b.setWidth 32)) else .stop (.wait .fence) s

end Sys2Proof.Machine
end

