-- ==== Sys2Proof/Machine/MatrixOps.lean ====
section
/-!
DEFINITION. The matrix ring's operations: parameters and their checks (R298-R300, R311), the clasp (R294-R296), the sums of a gang
operation (R81-R83, R301-R304), its status word (R306, R307) and the flip (R305).
-/

namespace Sys2Proof.Machine

/-! ### Parameters (R298, R299, R311) -/

/-- K of SHAPE. -/
def shK (w : Word) : Nat := bitsNat w 0 16
/-- Rows. -/
def shM (w : Word) : Nat := bitsNat w 16 5 + 1
/-- Columns of a tile. -/
def shN (w : Word) : Nat := bitsNat w 21 4 + 1
/-- CHAIN mode. -/
def shChain (w : Word) : Bool := w.getLsbD 25
/-- ACC. -/
def shAcc (w : Word) : Bool := w.getLsbD 26

/-- A word of a member's snapshot. -/
def Member.w (m : Member) (i : Nat) : Word := m.words.getD i 0

/-- A pointer names the running core's scratchpad or its cluster's memory (R129). -/
def State.ownLocal (s : State) (p : Word) : Bool :=
  isLocal p && ((spaceOf p == 1) || (spaceOf p == 2 && bitsNat p 40 4 == 0)) && ownerOf (spaceOf p) p == s.accessor (spaceOf p)

/-- The limit of the space of a local pointer (R129). -/
def ringLimit (sp : Nat) : Nat := if sp = 1 then Config.scratchLimit else Config.clusLimit

/-- A span of local memory: its space and owner, first offset and length. -/
structure Span where
  key : Nat
  lo  : Nat
  len : Nat
  deriving DecidableEq, Repr

/-- Space and owner of a local pointer. -/
def spanKey (p : Word) : Nat := bitsNat p 32 16

/-- The span of `n` bytes at a pointer. -/
def localSpan (p : Word) (n : Nat) : Span := ⟨spanKey p, bitsNat p 0 32, n⟩

/-- A span lies in its space. -/
def inLimit (p : Word) (n : Nat) : Bool := decide (bitsNat p 0 32 + n ≤ ringLimit (spaceOf p))

/-- Two spans of one space overlap. -/
def Span.meets (a b : Span) : Bool := a.key == b.key && Machine.meets a.lo a.len b.lo b.len

/-- The bytes that `n` elements of a format fill. -/
def viewBytes (v : Word) (n : Nat) : Nat := (n * (viewFmt v).width + 7) / 8

/-- Bytes from a pointer through the last of `n` elements of a view, inline scales included (R79, R311). -/
def regionBytes (v : Word) (n : Nat) : Nat :=
  if n = 0 then 0
  else if viewSmode v = 1 then (n - 1) / viewLen v * (blockBytes v + 1) + 1 + viewBytes v ((n - 1) % viewLen v + 1)
  else viewBytes v n

/-- A format of the 8-bit class of R300. -/
def isP8 (f : Fmt) : Bool :=
  match f with
  | .o4 | .s8 | .f8a | .f8b => true
  | .s16 | .s32 | .s64 | .n8 | .n16 | .n32 | .n64 | .f16 | .w16 | .f32 | .f64 => false

/-- A format of the 16-bit class of R300. -/
def isP16 (f : Fmt) : Bool :=
  match f with
  | .f16 | .w16 => true
  | .o4 | .s8 | .f8a | .f8b | .s16 | .s32 | .s64 | .n8 | .n16 | .n32 | .n64 | .f32 | .f64 => false

/-- Elements of the A and B regions, and bytes of C (R301, R303). -/
def regionCounts (sh : Word) : Nat × Nat × Nat :=
  let k := shK sh
  let m := shM sh
  let n := shN sh
  if shChain sh then (m * ((k + 15) / 16), n * ((k + 15) / 16), 4 * (m * n)) else (m * k, n * k, 4 * (m * (16 * n)))

/-- A region with SMODE 2 has its scale array in its own space (R311). -/
def scaleOwn (v p : Word) : Bool := viewSmode v != 2 || spanKey (BitVec.ofNat 64 (viewScale v)) == spanKey p && isLocal (BitVec.ofNat 64 (viewScale v))

/-- A region fails its pointer's checks: no local space of the core's own, or its last byte, scales included, beyond the limit. -/
def State.regionBad (s : State) (v p : Word) (n : Nat) : Bool :=
  !s.ownLocal p || !inLimit p (regionBytes v n) ||
    (viewSmode v == 2 && n != 0 && scaleOwn v p &&
      !(match (elemAt v p (n - 1)).scale with | some q => spanKey q == spanKey p && inLimit q 1 | none => true))

/-- CheckOp (R311): the index of the first word that fails. -/
def State.checkOp (s : State) (m : Member) : Option Nat :=
  let sh := m.w 3
  let av := m.w 4
  let bv := m.w 5
  let cv := m.w 6
  let fa := viewFmt av
  let fb := viewFmt bv
  let (na, nb, nc) := regionCounts sh
  let spans := [localSpan (m.w 0) (regionBytes av na), localSpan (m.w 1) (regionBytes bv nb), localSpan (m.w 2) nc]
  let bar := localSpan m.barrier 16
  let overlap := (upTo 3).any (fun i => (upTo i).any (fun j => (spans.getD i bar).meets (spans.getD j bar))) ||
    spans.any (fun x => x.meets bar)
  let fails : Nat → Bool := fun i =>
    match i with
    | 0 => s.regionBad av (m.w 0) na
    | 1 => s.regionBad bv (m.w 1) nb
    | 2 => !s.ownLocal (m.w 2) || !inLimit (m.w 2) nc || (shChain sh && spaceOf (m.w 2) != 2) || overlap
    | 3 => shK sh % (if shChain sh then 16 * viewLen av else viewLen av) != 0
    | 4 => !((isP8 fa && isP8 fb) || (isP16 fa && isP16 fb)) || bitsNat av 6 3 != bitsNat bv 6 3 || !scaleOwn av (m.w 0)
    | 5 => !scaleOwn bv (m.w 1)
    | _ => !(cv == 0 || (viewFmt cv == .f32 && viewSmode cv == 0))
  (upTo 7).find? fails

/-! ### Operands (R74-R82, R307) -/

/-- The memory key of a local pointer of a member's core. -/
def memberKey (core : Nat) (p : Word) : Nat := localKey core 0 (spaceOf p) (offsetOf (spaceOf p) p)

/-- A block of one operand: its unscaled values, its scale (none for a NaN scale), whether a quad of it is malformed, and the
index of the first element that an uncorrectable error reaches. -/
structure MBlk where
  vals  : List FV
  scale : Option Int
  mal   : Bool
  bad   : Option Nat
  deriving DecidableEq, Repr

/-- The value of an element that is no O4. -/
def plainElem (m : Memory) (core : Nat) (v p : Word) (e : Nat) : FV :=
  decodeV (viewFmt v) (m.read (memberKey core (elemAt v p e).ptr) ((viewFmt v).width / 8))

/-- 1 where the `l` elements from e begin in the second byte of a quad: quads are counted from the start of the aligned block, which is even, and in
SMODE 1 from the block's own first element (R75, R79). -/
def quadSkew (v p : Word) (e : Nat) : Nat := if viewSmode v = 1 then 0 else (elemAt v p e).ptr.toNat % 2

/-- The memory key of quad `i` of those that hold the elements from e on. -/
def quadKey (core : Nat) (v p : Word) (e i : Nat) : Nat :=
  memberKey core (ptrPlus ((elemAt v p e).ptr - BitVec.ofNat 64 (quadSkew v p e)) (2 * i))

/-- The quads that hold `l` elements from e on, in order. -/
def quadsAt (m : Memory) (core : Nat) (v p : Word) (e l : Nat) : List (List FV × Bool) :=
  (upTo (l / 4 + quadSkew v p e)).map (fun i => quadDecode (m.read (quadKey core v p e i) 2))

/-- An E8 scale byte as an exponent; none is a NaN scale (R73). -/
def scaleExp (m : Memory) (sp : Option Nat) : Option Int :=
  match sp with
  | none => some 0
  | some k => let b := m.read k 1; if b = 255 then none else some ((b : Int) - 127)

/-- An uncorrectable error reaches an element: by its scale byte, its own bytes, or a byte of its quad. -/
def elemHurt (m : Memory) (core : Nat) (v p : Word) (e i : Nat) : Bool :=
  let el := elemAt v p (e + i)
  (match el.scale with | some q => m.poisoned (memberKey core q) 1 | none => false) ||
    (if viewFmt v == .o4 then m.poisoned (quadKey core v p e ((i + 2 * quadSkew v p e) / 4)) 2
     else m.poisoned (memberKey core el.ptr) ((viewFmt v).width / 8))

/-- The `l` elements of a block of a row or column from an element (R79, R301). In a region of SMODE 2 whose pointer is no multiple of a block
they lie in two blocks, and each takes the scale of its own address. -/
def readBlk (m : Memory) (core : Nat) (v p : Word) (e : Nat) : MBlk :=
  let l := viewLen v
  let o4 := viewFmt v == .o4
  let quads := if o4 then quadsAt m core v p e l else []
  let vals := if o4 then ((quads.flatMap (·.1)).drop (2 * quadSkew v p e)).take l else (upTo l).map (fun i => plainElem m core v p (e + i))
  let key := fun (i : Nat) => (elemAt v p (e + i)).scale.map (memberKey core)
  let hurt := if m.poison.isEmpty then none else (upTo l).find? (fun i => elemHurt m core v p e i)
  if key 0 == key (l - 1) then ⟨vals, scaleExp m (key 0), quads.any (·.2), hurt⟩
  else
    let ks := (upTo l).map (fun i => scaleExp m (key i))
    ⟨(vals.zip ks).map (fun x => x.1.scale (x.2.getD 0)), if ks.contains none then none else some 0, quads.any (·.2), hurt⟩

/-- A row or column of `k` elements from an element (R301). -/
def readRow (m : Memory) (core : Nat) (v p : Word) (e k : Nat) : List MBlk :=
  (upTo (k / viewLen v)).map (fun b => readBlk m core v p (e + b * viewLen v))

/-! ### Sums (R81-R83) -/

/-- A running sum with what it has met: flags, the kinds of event, the first event's element, and the first uncorrectable error as
element and place (R306, R307). -/
structure Dot where
  acc  : FV
  fl   : Fl
  nan  : Bool
  mal  : Bool
  snan : Bool
  ev   : Option Nat
  ue   : Option (Nat × Nat)
  deriving DecidableEq, Repr

/-- The exact sum of a block's products in ascending order, with its flags (R81, R82): the sum is exact, and a zero is -0 only
where every product is -0. -/
def blockSum (a b : List FV) : FV × Fl :=
  match a.zip b with
  | [] => (.fin false 0 0, flNone)
  | x :: t => t.foldl (fun r y =>
      let p := exMul y.1 y.2
      let q := exAdd .rne r.1 p.1
      (q.1, r.2 ||| p.2 ||| q.2)) (exMul x.1 x.2)

/-- One rounding of an addition into an F32 accumulator. -/
def accAdd (acc t : FV) : FV × Fl :=
  let x := exAdd .rne acc t
  let r := roundF .f32 .rne x.1
  (decodeF .f32 r.1, x.2 ||| r.2)

/-- One block accumulated (R81): `k` is the index of its first element. -/
def Dot.block (d : Dot) (k : Nat) (a b : MBlk) : Dot :=
  let t : FV × Fl := match a.scale, b.scale with
    | some x, some y => let r := blockSum a.vals b.vals; (r.1.scale (x + y), r.2)
    | _, _ => (.nan false, flNV)
  let sn := a.scale.isNone || b.scale.isNone
  let ml := a.mal || b.mal
  let r := accAdd d.acc t.1
  let ev := sn || ml || r.1.isNaN
  let ue := match a.bad, b.bad with
    | some x, some y => some (if x ≤ y then (k + x, 0) else (k + y, 1))
    | some x, none => some (k + x, 0)
    | none, some y => some (k + y, 1)
    | none, none => none
  ⟨r.1, d.fl ||| t.2 ||| r.2 ||| (if ml then flNV else flNone), d.nan || r.1.isNaN, d.mal || ml, d.snan || sn,
   match d.ev with | some e => some e | none => if ev then some k else none,
   match d.ue with | some e => some e | none => ue⟩

/-- The blocks of a row and a column accumulated in ascending k (R81); `k` is the first element's index, `l` the block length. -/
def Dot.rows (l : Nat) : Nat → List MBlk → List MBlk → Dot → Dot
  | k, a :: t, b :: u, d => Dot.rows l (k + l) t u (d.block k a b)
  | _, _, _, d => d

/-- The start of a sum: +0, or the C element with ACC (R302, R303). R307 names no UEWHERE for a poisoned C element that a sum starts from: the model
gives 3, the accumulator (log 71). -/
def dotStart (m : Memory) (key : Nat) (acc : Bool) : Dot :=
  if acc then ⟨decodeF .f32 (m.read key 4), flNone, false, false, false, none, if m.poisoned key 4 then some (0, 3) else none⟩
  else ⟨.fin false 0 0, flNone, false, false, false, none, none⟩

/-- An event of an output (R306): its row, column, k and member. -/
structure MEv where
  row  : Nat
  col  : Nat
  k    : Nat
  core : Nat
  deriving DecidableEq, Repr

/-- An output element: the key of its C element, its gang row and column, the step of its sum, its value, its events and errors (step, k, place), and
its flags. -/
structure MOut where
  key  : Nat
  row  : Nat
  col  : Nat
  step : Nat
  val  : FV
  evs  : List MEv
  ues  : List (Nat × Nat × Nat)
  fl   : Fl
  nan  : Bool
  mal  : Bool
  snan : Bool
  deriving DecidableEq, Repr

/-- An output of one sum. -/
def Dot.out (d : Dot) (key row col core step : Nat) : MOut :=
  ⟨key, row, col, step, d.acc, match d.ev with | some k => [⟨row, col, k, core⟩] | none => [],
   match d.ue with | some (k, w) => [(step, k, w)] | none => [], d.fl, d.nan, d.mal, d.snan⟩

/-- A member of an operation. -/
def GOp.member (g : GOp) (i : Nat) : Member := g.members.getD i ⟨0, 0, [], 0, 0⟩

/-- The key of the C element `n` of a member. -/
def cKey (x : Member) (n : Nat) : Nat := memberKey x.core (ptrPlus (x.w 2) (4 * n))

/-- The outputs of a ROT operation (R301, R302). -/
def rotOuts (m : Memory) (g : GOp) : List MOut :=
  let sh := (g.member 0).w 3
  let k := shK sh
  let M := shM sh
  let N := shN sh
  let rowsA := (upTo 16).map (fun i => let x := g.member i; (upTo M).map (fun r => readRow m x.core (x.w 4) (x.w 0) (r * k) k))
  let colsB := (upTo 16).map (fun i => let x := g.member i; (upTo N).map (fun c => readRow m x.core (x.w 5) (x.w 1) (c * k) k))
  let l := viewLen ((g.member 0).w 4)
  (upTo 16).flatMap (fun i => (upTo 16).flatMap (fun j => (upTo M).flatMap (fun r => (upTo N).map (fun c =>
    let key := cKey (g.member i) (r * (16 * N) + (N * j + c))
    (Dot.rows l 0 ((rowsA.getD i []).getD r []) ((colsB.getD j []).getD c []) (dotStart m key (shAcc sh))).out
      key (M * i + r) (N * j + c) i ((i + 16 - j) % 16)))))

/-- A partial combined with its predecessor's sum (R83, R306): a NaN that neither holds is an event of the member. -/
def combine (row col k core : Nat) (s p : MOut) : MOut :=
  let r := accAdd s.val p.val
  let fresh := r.1.isNaN && !s.val.isNaN && !p.val.isNaN
  ⟨s.key, s.row, s.col, s.step, r.1, s.evs ++ p.evs ++ (if fresh then [⟨row, col, k, core⟩] else []), s.ues ++ p.ues, s.fl ||| p.fl ||| r.2,
   s.nan || p.nan || fresh, s.mal || p.mal, s.snan || p.snan⟩

/-- The outputs of a CHAIN operation (R303, R304). -/
def chainOuts (m : Memory) (g : GOp) : List MOut :=
  let sh := (g.member 0).w 3
  let k := shK sh / 16
  let M := shM sh
  let N := shN sh
  let l := viewLen ((g.member 0).w 4)
  (upTo M).flatMap (fun r => (upTo N).map (fun c =>
    let key := cKey (g.member 15) (r * N + c)
    let part := fun j =>
      let x := g.member j
      (Dot.rows l (k * j) (readRow m x.core (x.w 4) (x.w 0) (r * k) k) (readRow m x.core (x.w 5) (x.w 1) (c * k) k)
        (dotStart m key (shAcc sh && j == 0))).out key r c j 0
    ((upTo 15).map (· + 1)).foldl (fun s j => combine r c (k * j) j s (part j)) (part 0)))

/-- An output with the parity errors of the ring that its sum meets (R307): place 2 is a cell, 3 an accumulator (R306). -/
def MOut.meet (l : List RErr) (o : MOut) : MOut :=
  { o with ues := o.ues ++ (l.filter (fun e => e.row == o.row && e.col == o.col)).map (fun e => (o.step, e.k, if e.acc then 3 else 2)) }

/-- The outputs of an operation. -/
def opOuts (m : Memory) (g : GOp) : List MOut := if shChain ((g.member 0).w 3) then chainOuts m g else rotOuts m g

/-! ### The status word and the flip (R305-R307) -/

/-- Lexicographic order of events: output element, then k. -/
def MEv.below (a b : MEv) : Bool :=
  decide (a.row < b.row) || (a.row == b.row && (decide (a.col < b.col) || (a.col == b.col && decide (a.k < b.k))))

/-- Order of errors: step, then k (R307). -/
def ueBelow (a b : Nat × Nat × Nat) : Bool := decide (a.1 < b.1) || (a.1 == b.1 && decide (a.2.1 < b.2.1))

/-- The least of a list. -/
def lowestBy {α : Type} (below : α → α → Bool) : List α → Option α
  | [] => none
  | a :: t => some (t.foldl (fun b x => if below x b then x else b) a)

/-- A bit at a place. -/
def bitAt (b : Bool) (n : Nat) : Nat := if b then 2 ^ n else 0

/-- A flag is set. -/
def hasFl (fl g : Fl) : Bool := fl &&& g != 0

/-- The memory that an operation reads (R301-R303, R307): of each member its A and B regions with their scales, and with ACC its C region. -/
def opSpans (g : GOp) : List (Nat × Nat) :=
  let sh := (g.member 0).w 3
  let (na, nb, nc) := regionCounts sh
  let scales := fun (x : Member) (v p : Word) (n : Nat) =>
    match (elemAt v p 0).scale, (elemAt v p (n - 1)).scale with
    | some a, some b => if viewSmode v = 2 then [(memberKey x.core a, memberKey x.core b + 1 - memberKey x.core a)] else []
    | some _, none | none, _ => []
  g.members.flatMap (fun x =>
    [(memberKey x.core (x.w 0), regionBytes (x.w 4) na), (memberKey x.core (x.w 1), regionBytes (x.w 5) nb)] ++
      scales x (x.w 4) (x.w 0) na ++ scales x (x.w 5) (x.w 1) nb ++ (if shAcc sh then [(memberKey x.core (x.w 2), nc)] else []))

/-- The status word of an operation (R306); `ce` says that an error was corrected. -/
def statusWord (av bv : Word) (ce : Bool) (l : List MOut) : Word :=
  let fl := l.foldl (fun a o => a ||| o.fl) flNone
  let ue := lowestBy ueBelow (l.flatMap (·.ues))
  let ev := lowestBy MEv.below (l.flatMap (·.evs))
  BitVec.ofNat 64 ((match ue with | some u => 2 ^ 63 + u.2.2 * 2 ^ 61 | none => 0) + bitAt ce 60 +
    bitAt (l.any (·.nan)) 59 + bitAt (l.any (·.mal)) 58 + bitAt (l.any (·.snan)) 57 +
    bitAt (hasFl fl flNV) 55 + bitAt (hasFl fl flOF) 54 + bitAt (hasFl fl flUF) 53 + bitAt (hasFl fl flNX) 52 +
    0xA * 2 ^ 48 + bitsNat bv 0 4 * 2 ^ 44 + bitsNat av 0 4 * 2 ^ 40 +
    (match ev with
     | some e => e.row % 1024 * 2 ^ 30 + e.col % 1024 * 2 ^ 20 + e.core % 16 * 2 ^ 16 + e.k % 65536
     | none => 0))

/-- Whole words of [lo, hi) are no longer poisoned. -/
def Memory.cleanse (m : Memory) (lo hi : Nat) : Memory :=
  { m with poison := m.poison.filter (fun w => !(decide (lo ≤ w) && decide (w + 8 ≤ hi)))
           corr := m.corr.filter (fun w => !(decide (lo ≤ w) && decide (w + 8 ≤ hi))) }

/-- The C elements of an operation written; one that an uncorrectable error reached is poisoned (R307). -/
def writeOuts (m : Memory) (g : GOp) (l : List MOut) : Memory :=
  let nc := (regionCounts ((g.member 0).w 3)).2.2
  let m0 := if m.poison.isEmpty then m else g.members.foldl (fun m x => let k := memberKey x.core (x.w 2); m.cleanse k (k + nc)) m
  l.foldl (fun m o =>
    let m' := m.write o.key 4 (roundF .f32 .rne o.val).1
    if o.ues.isEmpty then m' else m'.setPoison o.key true) m0

/-- The multiply-accumulates of an operation (R438 0x0B, 0x0C). -/
def opMacs (g : GOp) : Nat :=
  let sh := (g.member 0).w 3
  if shChain sh then shM sh * shN sh * shK sh else 256 * (shM sh * shN sh * shK sh)

/-- The unit number of a ring in an event record: its logical cluster (R434). -/
def State.ringUnit (s : State) (cl : Nat) : Nat := s.lnum (16 * cl) / 16

/-- The running operation completes (R305, R314): C, the status word, the flip; the closed one swaps in. -/
def State.ringFlip (s : State) (cl : Nat) (g : GOp) : State :=
  let x := g.member 0
  let p := s.pOf (16 * cl)
  let key := memberKey x.core x.barrier
  let outs := (opOuts s.mem g).map (fun o => o.meet (s.ring cl).errs)
  let spans := opSpans g
  let ce := !s.mem.corr.isEmpty && spans.any (fun r => !(s.mem.corrIn r.1 r.2).isEmpty)
  let st := statusWord (x.w 4) (x.w 5) ce outs
  let s := if ce then spans.foldl (fun s r => s.scrub (dieOf (16 * cl)) r.1 r.2) s else s
  let ser := (s.mem.read (key + 4) 4 + 1) % 2 ^ 32
  let s1 := s.onMem (fun m => ((writeOuts m g outs).store (key + 8) 8 st.toNat).store key 8 (ser * 2 ^ 32 + ser % 2))
  let s2 := s1.onRing cl (fun r => { r with running := r.closed.map (fun c => { c with quantum := (s.part p).quanta, since := s.time }), closed := none, errs := [] })
  (s2.event p (s.engTime p) 1 1 (s.ringUnit cl) (ser * 2 ^ 16 + bitsNat st 48 16)).count (dieOf (16 * cl))
    (if isP16 (viewFmt (x.w 4)) then 0x0C else 0x0B) (opMacs g)

/-! ### The clasp (R294-R296, R305) -/

/-- The gang-wide fields of two members agree (R296). -/
def Member.agrees (a b : Member) : Bool :=
  a.tag == b.tag && a.barrier == b.barrier && a.w 3 == b.w 3 && bitsNat (a.w 4) 0 9 == bitsNat (b.w 4) 0 9 &&
    bitsNat (a.w 5) 0 9 == bitsNat (b.w 5) 0 9 && (!shChain (a.w 3) || (a.w 2 == b.w 2 && a.w 6 == b.w 6))

/-- The members in core order. -/
def sortMembers (l : List Member) : List Member := sortBy (fun a b => decide (a.core ≤ b.core)) l

/-- The clasp closes once all sixteen members have joined (R294): the operation starts or is held closed and every member's
MGANG gets its target serial, or the fields differ and every one gets the mask of R296. -/
def State.clasp (s : State) (cl : Nat) : State :=
  let r := s.ring cl
  if r.forming.length < 16 then s
  else
    let ms := sortMembers r.forming
    let ref := ms.getD 0 ⟨0, 0, [], 0, 0⟩
    let p := s.pOf (16 * cl)
    let diff := sumNat (ms.map (fun m => if ref.agrees m then 0 else 2 ^ (m.core % 16)))
    if diff != 0 then
      (s.onRing cl (fun r => { r with forming := [], results := r.results ++ ms.map (fun m => (m.core, m.ctx, true, diff)) })).event
        p (s.engTime p) 1 2 (s.ringUnit cl) diff
    else
      let same := match r.running with | some g => vaOf (g.member 0).barrier == vaOf ref.barrier | none => false
      let t := (s.mem.read (memberKey ref.core ref.barrier + 4) 4 + 1 + (if same then 1 else 0)) % 2 ^ 32
      let g : GOp := ⟨ms, t, (s.part p).quanta, s.time⟩
      let res := ms.map (fun m => (m.core, m.ctx, false, t))
      (s.onRing cl (fun r => match r.running with
        | none => { r with running := some g, forming := [], results := r.results ++ res }
        | some _ => { r with closed := some g, forming := [], results := r.results ++ res })).event
        p (s.engTime p) 1 0 (s.ringUnit cl) (t * 2 ^ 16 + ref.tag.toNat)

/-- The member of a core whose MGANG has issued first of those that have not joined (R295). -/
def Ring.first (r : Ring) (core : Nat) : Option Member := r.queue.find? (fun m => m.core == core)

/-- The member of a context whose MGANG has issued and not joined: the snapshot that it took (R298). -/
def Ring.waiter (r : Ring) (core ctx : Nat) : Option Member := r.queue.find? (fun m => m.core == core && m.ctx == ctx)

/-- A member may join (R295): the ring can hold a forming operation, and the core's slice has not joined it. -/
def Ring.canJoin (r : Ring) (core : Nat) : Bool :=
  !(r.running.isSome && r.closed.isSome) && !r.forming.any (fun m => m.core == core)

/-- The answer of a member's MGANG, if its clasp has closed. -/
def Ring.result (r : Ring) (core ctx : Nat) : Option (Bool × Nat) :=
  (r.results.find? (fun x => x.1 == core && x.2.1 == ctx)).map (fun x => (x.2.2.1, x.2.2.2))

end Sys2Proof.Machine
end

