-- ==== Sys2Proof/Machine/Progress.lean ====
section
/-!
DEFINITION. What parked contexts wait for (R47, R59), the sharing of a physical core (R448, R449), and the conditions of a deadlock
(R56) and of pre-emption (R49).
-/

namespace Sys2Proof.Machine

/-! ### Sharing a physical core (R448, R449) -/

/-- The logical cores of a cluster that fused cores leave to be hosted, and the ones that host them, in ascending order (R448). -/
def fusedPairs (fused : List Nat) (cl : Nat) : List (Nat × Nat) :=
  let l := (upTo 16).map (16 * cl + ·)
  (l.filter (fun c => fused.contains c)).zip (l.filter (fun c => !fused.contains c))

/-- The pair of a core that shares a physical core: the hosted core and the hosting one. -/
def State.pairOf (s : State) (core : Nat) : Option (Nat × Nat) :=
  (fusedPairs s.pkg.fused (clusOf core)).find? (fun x => x.1 == core || x.2 == core)

/-- The logical core whose turn it is on a hosting core, and since when. -/
def State.turnOf (s : State) (host : Nat) : Nat × Nat := AMap.get (host, 0) s.pkg.turns host

/-- A logical core rests: the other one of its physical core has the turn (R449). -/
def State.rests (s : State) (core : Nat) : Bool :=
  if s.pkg.fused.isEmpty then false
  else match s.pairOf core with
    | some (_, h) => (s.turnOf h).1 != core
    | none => false

/-! ### The condition of a park (R47, R59) -/

/-- The key of a pointer of a context, where it can be decoded and translated now: of a replicated page its own replica's, for a
full-empty access the primary's (R141, log 61). -/
def State.peekKey (s : State) (core ctx : Nat) (p : Word) (size : Nat) (fe : Bool) : Option Nat :=
  let s := { s with cur := (core, c4 ctx) }
  match s.decodeAddr p size .load with
  | .error _ => none
  | .ok (.loc k) => some k
  | .ok (.glob va) =>
    match s.walk (s.pOf core) va with
    | .leaf lvl _ e =>
      let pa := pteAddr e + va % pageSize lvl
      some (if pteRepl e && !fe then replicaAt pa (dieOf core) else pa)
    | .absent _ _ _ | .bad => none

/-- The word at a pointer of a context. -/
def State.peek (s : State) (core ctx : Nat) (p : Word) : Option Nat := (s.peekKey core ctx p 8 false).map (fun k => s.mem.read k 8)

/-- HEAD and TAIL of a channel differ by `f`; a descriptor that cannot be read lets the instruction raise its own fault. -/
def State.chanTest (s : State) (core ctx : Nat) (desc : Word) (f : Nat → Bool) : Bool :=
  match s.peek core ctx (ptrOff desc 16), s.peek core ctx (ptrOff desc 24) with
  | some h, some t => f ((t + 2 ^ 64 - h) % 2 ^ 64)
  | none, _ | some _, none => true

/-- The colours of the RFENCE in hand. -/
def Latch.fenceMask (l : Latch) : BitVec 8 :=
  match decode l.head l.tail with
  | .ok (.rfence m) => m
  | .ok _ | .error _ => 0

/-- The condition that a parked context waits for holds (R47). A BKPT, a migration and the quantum's end are ended by
events of their own; a park with no condition left ends at once. -/
def State.parkDue (s : State) (core ctx : Nat) : Bool :=
  let x := s.ctx core ctx
  match x.await with
  | .migrate _ | .shipped | .quantum | .bkpt _ => false
  | .none => true
  | .channelEmpty d => s.chanTest core ctx d (fun n => n != 0)
  | .channelFull d cap => s.chanTest core ctx d (fun n => decide (n < cap))
  | .syncEmpty p =>
    if x.rpend then false
    else !x.rbuf.isEmpty || (match s.peekKey core ctx p 8 true with | some k => s.mem.isFull k | none => true)
  | .lodge => !x.rpend
  | .xfer id => (match (s.core core).entry x.tag id.toNat with | some e => e.st.final | none => true)
  | .clasp _ =>
    let r := s.ring (clusOf core)
    (r.result core ctx).isSome || (r.canJoin core && !r.forming.any (fun m => m.core == core && m.ctx == ctx) &&
      (r.first core).all (fun m => m.ctx == ctx))
  | .phase p want => (match s.peek core ctx p with | some w => serialGE (BitVec.ofNat 32 (w / 2 ^ 32)) want | none => true)
  | .rfence => (upTo 8).all (fun c => !x.latch.fenceMask.getLsbD c || get8 x.wout c == 0)
  | .pageFault va _ => !(s.part (s.pOf core)).faults.any (fun f => f.core == core && f.ctx == ctx && f.va == va)

/-! ### Unfinished work of a partition (R49, R56) -/

/-- The contexts of a partition's cores. -/
def State.partCtxs (s : State) (p : Nat) : List (Nat × Nat × Ctx) :=
  (s.cores.filter (fun e => s.pOf e.1 == p)).flatMap (fun e => (upTo 4).map (fun c => (e.1, c, e.2.ctx c)))

/-- A copy, a gang operation, a request in a lodge or a store of a partition is unfinished. -/
def State.engineWork (s : State) (p : Nat) : Bool :=
  s.strs.any (fun e => e.2.chans.any (fun c => s.pOf c.2.core == p)) || s.boardUpd.any (fun u => s.pOf u.core == p) ||
    s.rings.any (fun e => s.pOf (16 * e.1) == p && (e.2.running.isSome || e.2.closed.isSome)) ||
    s.homes.any (fun e => e.2.lodge.any (fun l => decide (l.src < 4096) && s.pOf l.src == p) || e.2.jobs.any (fun j => decide (j.src < 4096) && s.pOf j.src == p)) ||
    s.cores.any (fun e => s.pOf e.1 == p && (!e.2.lanes.isEmpty || !e.2.advs.isEmpty))

/-- A request of an engine's interface is a partition's: a message to one of its cores, a write of a channel that works for it, a phase of a
write to its replicated pages. -/
def State.engineReqOf (s : State) (p ep dest : Nat) (b : ReqBody) : Bool :=
  let chan := fun (str ch : Nat) => match AMap.find (s.str str).chans ch with | some c => s.pOf c.core == p | none => false
  match b with
  | .msg _ => s.pOf dest == p
  | .ewr _ _ _ str ch => chan str ch
  | .xfer _ _ _ str ch => chan str ch
  | .repl _ _ _ _ _ _ _ => s.partKey ((ep - 4096) % 8) == p
  | .rld _ _ ch _ _ _ => chan (engStr (ep - 4096)) ch
  | .notice q _ => q == p
  | .copy _ _ _ _ _ _ _ | .rst _ _ _ _ _ _ _ _ _ _ | .rat _ _ _ _ _ _ _ _ _ | .wst _ _ _ => false

/-- A request of a partition is outstanding at an interface, a core's or an engine's (R49, R267). -/
def State.requestsOut (s : State) (p : Nat) : Bool :=
  s.eps.any (fun e =>
    if e.1 < 4096 then s.pOf e.1 == p && (!e.2.out.isEmpty || !e.2.backlog.isEmpty)
    else (e.2.out.map (fun o => (o.dest, o.body)) ++ e.2.backlog.map (fun b => (b.dest, b.body))).any (fun x => s.engineReqOf p e.1 x.1 x.2))

/-- A controller command of a partition is queued or running. -/
def State.rlcWork (s : State) (p : Nat) : Bool :=
  s.rlcs.any (fun e => s.pOf (16 * e.1) == p && (e.2.run.isSome || !e.2.queue.isEmpty || !e.2.pend.isEmpty))

/-- A window mapping entry holds a store of a partition. -/
def State.windowWork (s : State) (p : Nat) : Bool :=
  s.wins.any (fun e => e.2.ents.any (fun w => w.2.part == p && (!w.2.q.isEmpty || !w.2.outst.isEmpty)))

/-- A message of a partition waits or travels (R56). -/
def State.messageWork (s : State) (p : Nat) : Bool :=
  s.cores.any (fun e => s.pOf e.1 == p &&
    (e.2.queues.toList.any (fun q => !q.isEmpty) || !e.2.unbound.isEmpty || !e.2.waiting.isEmpty || !e.2.arrivals.isEmpty)) ||
    !(s.part p).taskq.isEmpty ||
    s.requestsOut p || s.eps.any (fun e => decide (e.1 < 4096) && s.pOf e.1 == p && (!e.2.asm.isEmpty || !e.2.ready.isEmpty))

/-- A block of a partition is runnable or DISPATCHED, or a notice is on its way. -/
def State.blockWork (s : State) (p : Nat) : Bool :=
  (s.blks p).any (fun e => e.2.st == .dispatched || s.runnable p e.2) || (upTo (s.part p).dies).any (fun i => !(s.fu (p + i)).notices.isEmpty) ||
    !(s.part p).fevs.isEmpty

/-- A word of a receive page, which agents outside the package may write (R56). -/
def State.rxWord (s : State) (core : Nat) (p : Word) : Bool :=
  !isLocal p && (match s.walk (s.pOf core) (vaOf p) with
    | .leaf _ _ e => pteRxw e
    | .absent _ _ _ | .bad => false)

/-- A park that R56 counts: on a wait that counts against BUDGET, whose condition does not hold, and that no agent outside the
package may end. A held context counts as fault-parked (R196). -/
def State.stuck (s : State) (core ctx : Nat) : Bool :=
  let x := s.ctx core ctx
  !x.hold && x.await.counts && !s.parkDue core ctx && (match x.await with
    | .rfence => false
    | .channelEmpty d => !s.rxWord core (ptrOff d 24) && !s.rxWord core (ptrOff d 16)
    | .channelFull d _ => !s.rxWord core (ptrOff d 16) && !s.rxWord core (ptrOff d 24)
    | .syncEmpty p => !s.rxWord core p
    | .none | .xfer _ | .clasp _ | .phase _ _ | .pageFault _ _ | .lodge | .migrate _ | .shipped | .quantum | .bkpt _ => true)

/-- The conditions of R56 hold for a partition now. -/
def State.deadNow (s : State) (p : Nat) : Bool :=
  let l := s.partCtxs p
  l.any (fun x => x.2.2.st == .parked) &&
    l.all (fun x => x.2.2.st == .free || (x.2.2.st == .parked && s.stuck x.1 x.2.1)) &&
    !s.messageWork p && !s.engineWork p && !s.windowWork p && !s.rlcWork p && !s.blockWork p

/-- Pre-emption's step 3 may begin or end: every context is free (R49). -/
def State.allFree (s : State) (p : Nat) : Bool :=
  (s.partCtxs p).all (fun x => x.2.2.st == .free) && s.cores.all (fun e => s.pOf e.1 != p || e.2.arrivals.isEmpty)

end Sys2Proof.Machine
end

