-- ==== Sys2Proof/Machine/Torus.lean ====
section
/-!
DEFINITION. The torus: routers and regions (R14, R16, R22), productive directions and destination routers (R247), and one cycle of a
router on one plane (R246, R248, R250, R255, R258).
-/

namespace Sys2Proof.Machine

/-! ### Routers (R14) -/

/-- The column of a router. -/
def rX (r : Nat) : Nat := 8 * (r / 32 % 2) + r % 8
/-- The row of a router. -/
def rY (r : Nat) : Nat := 4 * (r / 64) + r % 32 / 8
/-- The router at a column and row. -/
def routerAt (x y : Nat) : Nat := 32 * (2 * (y / 4) + x / 8) + 8 * (y % 4) + x % 8

/-- Directions. -/
inductive Dir where
  | px | mx | py | my
  deriving DecidableEq, Repr

/-- The router that a link leads to. -/
def Dir.next (d : Dir) (r : Nat) : Nat :=
  match d with
  | .px => routerAt ((rX r + 1) % 16) (rY r)
  | .mx => routerAt ((rX r + 15) % 16) (rY r)
  | .py => routerAt (rX r) ((rY r + 1) % 16)
  | .my => routerAt (rX r) ((rY r + 15) % 16)

/-- The columns and rows of the region of a partition of `n` dies (R22). -/
def regionW (n : Nat) : Nat := if n = 1 then 8 else 16
/-- The rows of the region of a partition of `n` dies (R22). -/
def regionH (n : Nat) : Nat := if n ≤ 2 then 4 else if n = 4 then 8 else 16

/-- Whether the positive and the negative direction of a dimension are productive (R247). -/
def productive1 (span a b : Nat) : Bool × Bool :=
  if span = 16 then
    let d := (b + 16 - a) % 16
    (decide (0 < d) && decide (d ≤ 8), decide (8 ≤ d))
  else (decide (a < b), decide (b < a))

/-- The productive directions from a router to a router of a region, in order +X, -X, +Y, -Y (R246, R247). -/
def productive (dies r t : Nat) : List Dir :=
  let (px, mx) := productive1 (regionW dies) (rX r) (rX t)
  let (py, my) := productive1 (regionH dies) (rY r) (rY t)
  (if px then [.px] else []) ++ (if mx then [.mx] else []) ++ (if py then [.py] else []) ++ (if my then [.my] else [])

/-- Distance in a dimension of a region. -/
def dist1 (span a b : Nat) : Nat :=
  let d := if a ≤ b then b - a else a - b
  if span = 16 then min d (16 - d) else d

/-- Distance of two routers in a region. -/
def distR (dies r t : Nat) : Nat := dist1 (regionW dies) (rX r) (rX t) + dist1 (regionH dies) (rY r) (rY t)

/-- The entry of a list with the least measure, the first among equals. -/
def leastBy (f : Nat → Nat) : List Nat → Nat → Nat
  | [], best => best
  | a :: t, best => leastBy f t (if f a < f best then a else best)

/-- The least of a list that is not empty. -/
def least (f : Nat → Nat) (l : List Nat) : Nat := leastBy f l (l.headD 0)

/-! ### Where endpoints sit (R16, R247, R252) -/

/-- The attachment routers of a stack, in ascending row. -/
def attM (n : Nat) : List Nat := (if n % 2 = 0 then [0, 8, 16, 24] else [7, 15, 23, 31]).map (32 * n + ·)
/-- The attachment routers of an I/O die on a die. -/
def attX (xd d : Nat) : List Nat := (if xd = 0 then [1, 6] else [25, 30]).map (32 * d + ·)

/-- Where an endpoint sits: one router with its port, a stack, or an I/O die. -/
inductive Seat where
  | here (router : Nat) (loc : Bool)
  | stack (n : Nat)
  | io (xd : Nat)
  | nowhere
  deriving DecidableEq, Repr

/-- The seat of an endpoint; an engine number that R252 does not list sits nowhere. -/
def seatOf (ep : Nat) : Seat :=
  if ep < 4096 then .here (ep / 16) true
  else
    let e := ep - 4096
    if e < 16 then .stack (e % 8)
    else if e < 22 then .io (e % 2)
    else if e = 0x38 then .io 0
    else if e = 0x39 then .io 1
    else if (0x20 ≤ e && e < 0x38) || (0x40 ≤ e && e < 0x48) then .here (32 * (e % 8) + 12) false
    else if 0x100 ≤ e && e < 0x200 then .here (e - 0x100) true
    else .nowhere

/-- A router that stands for an endpoint when another's is chosen. -/
def anchor (ep : Nat) : Option Nat :=
  match seatOf ep with
  | .here r _ => some r
  | .stack n => some ((attM n).headD 0)
  | .io _ | .nowhere => none

/-- The dies of the partition of a router. -/
def State.diesAt (s : State) (r : Nat) : Nat := (s.part (s.partKey (r / 32))).dies

/-- The router at which a flit of an endpoint enters the torus: R247 names it for an I/O die, and of a stack engine's four routers the model takes the
one nearest in rows to the destination, for an I/O die, whose router R247 picks from where the flit enters, the lowest row (log 55). -/
def State.srcRouter (s : State) (src dst : Nat) : Nat :=
  match seatOf src with
  | .here r _ => r
  | .stack n =>
    let t := match anchor dst with | some t => t | none => (attM n).headD 0
    least (fun r => dist1 (regionH (s.diesAt r)) (rY r) (rY t)) (attM n)
  | .io xd =>
    match anchor dst with
    | some t => least (fun r => distR (s.diesAt t) r t) (attX xd (t / 32))
    | none => (attX xd 0).headD 0
  | .nowhere => 0

/-- The destination router of a flit (R247). -/
def State.dstRouter (s : State) (src dst : Nat) : Nat :=
  let f := s.srcRouter src dst
  match seatOf dst with
  | .here r _ => r
  | .stack n => least (fun r => dist1 (regionH (s.diesAt r)) (rY r) (rY f)) (attM n)
  | .io xd =>
    match seatOf src with
    | .io _ => f
    | .here _ _ | .stack _ | .nowhere => least (fun r => distR (s.diesAt f) r f) (attX xd (f / 32))
  | .nowhere => f

/-! ### Headers (R249, R251) -/

/-- KIND. -/
def hKind (h : Word) : Nat := bitsNat h 24 4
/-- AGE. -/
def hAge (h : Word) : Nat := bitsNat h 28 12
/-- SEQ. -/
def hSeq (h : Word) : Nat := bitsNat h 16 8

/-- The destination endpoint: DEST names an engine for these kinds. -/
def hDst (h : Word) : Nat :=
  bitsNat h 52 12 + (if [2, 3, 4, 5, 7, 10, 11, 14, 15].contains (hKind h) then 4096 else 0)

/-- The source endpoint: SRC names an engine for these kinds. -/
def hSrc (h : Word) : Nat := bitsNat h 40 12 + (if [1, 6, 7, 8, 11, 12, 13, 14].contains (hKind h) then 4096 else 0)

/-- The header after a hop: AGE one higher, at most 4,095, with its CRC (R246, R250). -/
def hopped (h : Word) : Word := withCrc (setField h 28 12 (min 4095 (hAge h + 1)))

/-- A header that a router refuses: its CRC fails, or it names an engine that R252 does not list (R250, R252). -/
def hdrBad (h : Word) : Bool := hdrCrc h != bitsNat h 0 8 || (hKind h != 15 && seatOf (hDst h) == .nowhere)

/-- A flit made POISON (R258): KIND 15 and the die controller of the router's die. -/
def poisoned (r : Nat) (h : Word) : Word := withCrc (setField (setField h 24 4 15) 52 12 (0x40 + r / 32))

/-- Older flits first (R246). -/
def older (a b : Flit) : Bool :=
  decide (hAge b.hdr < hAge a.hdr) || (hAge a.hdr == hAge b.hdr &&
    (decide (bitsNat a.hdr 40 12 < bitsNat b.hdr 40 12) || (bitsNat a.hdr 40 12 == bitsNat b.hdr 40 12 && decide (hSeq a.hdr ≤ hSeq b.hdr))))

/-! ### Ejection (R255, R258) -/

/-- A request flit collected at its interface (R255): a first flit that finds no buffer, and a flit whose payload check fails, draw
BUSY, the latter with k = 0 (R258). One buffer of the 16 is kept for a request that is next for its pair. -/
def State.collect (s : State) (ep : Nat) (h : Word) (b : ReqBody) (crcOk : Bool) : State :=
  let src := hSrc h
  let num := hSeq h / 8
  let idx := hSeq h % 8
  let e := s.ep ep
  let busy := s.respond ep src num { Rsp.plain .busy 0 with k0 := !crcOk }
  let held := e.asm.length + e.ready.length
  if !crcOk then busy
  else match takeFirst (fun (a : Asm) => a.src == src && a.num == num) e.asm with
    | some (a, _) =>
      s.onEp ep (fun e => { e with asm := e.asm.map (fun x =>
        if x.src == a.src && x.num == a.num && !x.got.contains idx then { x with got := x.got ++ [idx] } else x) })
    | none =>
      if 16 ≤ held || (held = 15 && num != AMap.get 0 e.expect src) then busy
      else s.onEp ep (fun e => { e with asm := e.asm ++ [⟨src, num, bitsNat h 12 3, [idx], b, hKind h⟩] })

/-- A response flit collected at its interface (R255): one that finds no buffer is discarded, and its request is sent again in time (R257). -/
def State.gather (s : State) (ep : Nat) (h : Word) (b : FlitBody) : State :=
  let src := hSrc h
  let num := hSeq h / 8
  let idx := hSeq h % 8
  let mine := fun (x : InRsp) => x.src == src && x.num == num && x.body == b && decide (x.got.length ≤ x.mlen)
  let e := s.ep ep
  if e.rsps.any mine then
    s.onEp ep (fun e => { e with rsps := e.rsps.map (fun x => if mine x && !x.got.contains idx then { x with got := x.got ++ [idx] } else x) })
  else if 16 ≤ e.rsps.length then s
  else s.onEp ep (fun e => { e with rsps := e.rsps ++ [⟨src, num, bitsNat h 12 3, [idx], b⟩] })

/-- A flit ejected to its endpoint: its payload check is made there (R250, R258). -/
def State.eject (s : State) (f : Flit) : State :=
  let ep := hDst f.hdr
  if hKind f.hdr = 15 then s.onEp ep (fun e => { e with poison := e.poison ++ [f.hdr] })
  else match f.body with
    | .req b => s.collect ep f.hdr b f.crcOk
    | .rsp _ | .stay _ | .nack => if f.crcOk then s.gather ep f.hdr f.body else s

/-! ### One cycle of a router (R246, R248) -/

/-- The ports of a router in a cycle: outputs taken, ejection ports taken, and the flits that found no output. -/
structure Ports where
  used : List Dir
  locE : Bool
  attE : Bool
  left : List Flit

/-- A link may be used: it is not fenced and not taken in this cycle. -/
def State.isOpen (s : State) (r : Nat) (u : List Dir) (d : Dir) : Bool := !u.contains d && !s.fences.contains (r, d.next r)

/-- The flits on a router's inputs on a plane. -/
def Router.ins (x : Router) (rsp : Bool) : List Flit := if rsp then x.in1 else x.in0

/-- A router with the flits of a plane replaced. -/
def Router.setIns (x : Router) (rsp : Bool) (l : List Flit) : Router := if rsp then { x with in1 := l } else { x with in0 := l }

/-- A router with a flit that arrives on a plane in the next cycle. -/
def Router.push (x : Router) (rsp : Bool) (f : Flit) : Router :=
  if rsp then { x with nx1 := x.nx1 ++ [f] } else { x with nx0 := x.nx0 ++ [f] }

/-- A flit sent over a link: it arrives in the next cycle (R246). -/
def State.hop (s : State) (r : Nat) (rsp : Bool) (d : Dir) (f : Flit) : State :=
  s.onRouter (d.next r) (fun x => x.push rsp { f with hdr := hopped f.hdr })

/-- The output of a flit: its first productive open one, else the first open one in order +X, +Y, -X, -Y (R246). -/
def State.pick (s : State) (r : Nat) (u : List Dir) (t : Nat) : Option Dir :=
  match (productive (s.diesAt r) r t).find? (s.isOpen r u) with
  | some d => some d
  | none => [Dir.px, .py, .mx, .my].find? (s.isOpen r u)

/-- One arriving flit placed. -/
def State.placeFlit (s : State) (r : Nat) (rsp : Bool) (p : Ports) (f : Flit) : State × Ports :=
  let dst := hDst f.hdr
  let t := s.dstRouter (hSrc f.hdr) dst
  let loc := match seatOf dst with | .here _ l => l | .stack _ | .io _ | .nowhere => false
  if t = r && !(if loc then p.locE else p.attE) then (s.eject f, if loc then { p with locE := true } else { p with attE := true })
  else match s.pick r p.used t with
    | some d => (s.hop r rsp d f, { p with used := d :: p.used })
    | none => (s, { p with left := p.left ++ [f] })

/-- The endpoints of a router's local port, and of its attachment port (R16, R252). -/
def portEps (r : Nat) (loc : Bool) : List Nat :=
  if loc then (upTo 16).map (16 * r + ·) ++ [4096 + 0x100 + r]
  else
    let d := r / 32
    let c := r % 32
    (if c = 12 then [0x20 + d, 0x28 + d, 0x30 + d, 0x40 + d] else if (attM d).contains r then [d, 8 + d]
      else if c = 1 ∨ c = 6 then [0x10, 0x12, 0x14, 0x38] else if c = 25 ∨ c = 30 then [0x11, 0x13, 0x15, 0x39] else []).map (4096 + ·)

/-- The flits that an interface holds ready on a plane. -/
def Endp.inj (e : Endp) (rsp : Bool) : List Flit := if rsp then e.inj1 else e.inj0
/-- The cycles for which it has held one. -/
def Endp.waited (e : Endp) (rsp : Bool) : Nat := if rsp then e.wait1 else e.wait0

/-- An interface with its first flit gone. -/
def Endp.popInj (e : Endp) (rsp : Bool) : Endp :=
  if rsp then { e with inj1 := e.inj1.drop 1, wait1 := 0 } else { e with inj0 := e.inj0.drop 1, wait0 := 0 }

/-- The interfaces of a port that have a flit ready whose way begins at this router. -/
def State.readyAt (s : State) (r : Nat) (rsp loc : Bool) : List (Nat × Flit) :=
  (portEps r loc).filterMap (fun ep =>
    match (s.ep ep).inj rsp with
    | [] => none
    | f :: _ => if s.srcRouter ep (hDst f.hdr) = r then some (ep, f) else none)

/-- The interface of a port that injects: the one that has held its flit ready longest, the first among equals (R246, R248). -/
def State.injector (s : State) (r : Nat) (rsp loc : Bool) : Option (Nat × Flit) :=
  match s.readyAt r rsp loc with
  | [] => none
  | a :: t => some (t.foldl (fun b x => if (s.ep b.1).waited rsp < (s.ep x.1).waited rsp then x else b) a)

/-- The interface whose flit makes a router assert throttle on a plane (R248). -/
def Router.thr (x : Router) (rsp : Bool) : Option Nat := if rsp then x.thr1 else x.thr0

/-- A router asserts throttle on a plane for an interface, or for none. -/
def Router.setThr (x : Router) (rsp : Bool) (o : Option Nat) : Router := if rsp then { x with thr1 := o } else { x with thr0 := o }

/-- One of the four neighbours of a router asserts throttle on a plane (R248). -/
def State.throttled (s : State) (r : Nat) (rsp : Bool) : Bool :=
  [Dir.px, .mx, .py, .my].any (fun d => ((s.router (d.next r)).thr rsp).isSome)

/-- One injection from a port. Between I/O dies a flit crosses their crossbars (log 55). Throttle ends with the flit for which it was asserted (R248). -/
def State.inject (s : State) (r : Nat) (rsp loc : Bool) (p : Ports) : State × Ports :=
  match s.injector r rsp loc with
  | none => (s, p)
  | some (ep, f) =>
    let pop := fun (s : State) => (s.onEp ep (fun e => e.popInj rsp)).onRouter r (fun x =>
      if x.thr rsp = some ep then x.setThr rsp none else x)
    match seatOf ep, seatOf (hDst f.hdr) with
    | .io _, .io _ => ((pop s).eject f, p)
    | _, _ =>
      if s.throttled r rsp then (s, p)
      else match s.pick r p.used (s.dstRouter ep (hDst f.hdr)) with
        | some d => ((pop s).hop r rsp d f, { p with used := d :: p.used })
        | none => (s, p)

/-- A router has moved the flits of a plane in this cycle. -/
def Router.moved (x : Router) (rsp : Bool) : Bool := if rsp then x.done1 else x.done0

/-- A router that begins to move the flits of a plane: none of them stays on its inputs. -/
def Router.begin (x : Router) (rsp : Bool) : Router :=
  if rsp then { x with in1 := [], done1 := true } else { x with in0 := [], done0 := true }

/-- Poisoned flits of the response plane join the requests that arrive (R258). -/
def Router.poison (x : Router) (l : List Flit) : Router :=
  if x.done0 then { x with nx0 := x.nx0 ++ l } else { x with in0 := x.in0 ++ l }

/-- A router moves the flits of one plane by one cycle (R246): poisoned ones go on as requests (R258). A flit that finds no output, which R246
excludes, stays for the next cycle (log 22). -/
def State.routeCycle (s : State) (r : Nat) (rsp : Bool) : State :=
  let l := (s.router r).ins rsp
  let bad := (l.filter (fun f => hdrBad f.hdr)).map (fun f => { f with hdr := poisoned r f.hdr })
  let good := l.filter (fun f => !hdrBad f.hdr)
  let s1 := s.onRouter r (fun x => x.begin rsp)
  let mine := sortBy older (if rsp then good else good ++ bad)
  let s2 := if rsp && !bad.isEmpty then s1.onRouter r (fun x => x.poison bad) else s1
  let (s3, p) := mine.foldl (fun (a : State × Ports) f => a.1.placeFlit r rsp a.2 f) (s2, ⟨[], false, false, []⟩)
  let (s4, p4) := s3.inject r rsp true p
  let (s5, p5) := s4.inject r rsp false p4
  p5.left.foldl (fun s f => s.onRouter r (fun x => x.push rsp f)) s5

/-- A router's turn on a plane in this cycle, taken once. -/
def State.routeOnce (s : State) (r : Nat) (rsp : Bool) : State :=
  if (s.router r).moved rsp then s
  else if ((s.router r).ins rsp).isEmpty && (s.readyAt r rsp true).isEmpty && (s.readyAt r rsp false).isEmpty then s
  else s.routeCycle r rsp

/-- A router at the start of the next cycle: what the links carried has arrived. -/
def Router.nextCycle (x : Router) : Router :=
  { x with in0 := x.in0 ++ x.nx0, in1 := x.in1 ++ x.nx1, nx0 := [], nx1 := [], done0 := false, done1 := false }

/-- No flit is in the fabric or ready at an interface. -/
def State.stillFabric (s : State) : Bool :=
  s.routers.all (fun e => e.2.in0.isEmpty && e.2.in1.isEmpty && e.2.nx0.isEmpty && e.2.nx1.isEmpty && !e.2.done0 && !e.2.done1) &&
    s.eps.all (fun e => e.2.inj0.isEmpty && e.2.inj1.isEmpty)

/-- The fabric's cycle ends: every router has moved the flits of both planes, and what the links carried arrives (R246). -/
def State.fabricCycle (s : State) : State :=
  if s.stillFabric then s
  else
    let s1 := (upTo 256).foldl (fun s r => (s.routeOnce r true).routeOnce r false) s
    { s1 with routers := AMap.mapVals (fun _ x => x.nextCycle) s1.routers }

end Sys2Proof.Machine
end

