-- ==== Sys2Proof/Machine/WinOps.lean ====
section
/-!
DEFINITION. The window engine and its links: packets and flits (R377, R378), keys and counters (R381, R382), drops and
acknowledgements (R375), reflection at the target (R375, R376), links going down (R383).
-/

namespace Sys2Proof.Machine

/-! ### Packets (R377) -/

/-- The code of a packet's kind. -/
def PktKind.code : PktKind → Nat
  | .store => 0 | .ack => 1 | .miss => 2

/-- The header as a 192-bit number, word 0 highest, with its HCRC (R377). -/
def Pkt.header (p : Pkt) : Nat :=
  let w0 := p.kind.code * 2 ^ 60 + p.dpkg % 4096 * 2 ^ 48 + p.spkg % 4096 * 2 ^ 36 + p.trxw % 1024 * 2 ^ 26 + p.sentry % 512 * 2 ^ 17 +
    p.sxd % 2 * 2 ^ 16 + (p.data.length - 1) % 256 * 2 ^ 8
  let w1 := p.off % 2 ^ 33 * 2 ^ 31
  let w2 := p.seq.toNat * 2 ^ 32 + p.nstore % 2 ^ 16 * 2 ^ 16
  let h := w0 * 2 ^ 128 + w1 * 2 ^ 64 + w2
  h + crcBits 8 0x07 0 (h / 256) 184

/-- The bytes of a packet: three header words, then its data, padded to whole words (R377; log 25). -/
def Pkt.bytes (p : Pkt) : List Byte :=
  let h := p.header
  leBytes 8 (h / 2 ^ 128) ++ leBytes 8 (h / 2 ^ 64 % 2 ^ 64) ++ leBytes 8 (h % 2 ^ 64) ++ p.data ++
    List.replicate ((8 - p.data.length % 8) % 8) 0

/-- A packet read from its bytes; none where HCRC fails or the kind is never sent. -/
def Pkt.parse (via : Option Nat) (b : List Byte) : Option Pkt :=
  let w := fun i => leNat ((b.drop (8 * i)).take 8)
  let h := w 0 * 2 ^ 128 + w 1 * 2 ^ 64 + w 2
  let f := fun lo n => h / 2 ^ lo % 2 ^ n
  let mk := fun (k : PktKind) (d : List Byte) =>
    some (⟨via, k, f 176 12, f 164 12, f 154 10, f 145 9, f 144 1, f 95 33, BitVec.ofNat 32 (f 32 32), f 16 16, d⟩ : Pkt)
  if crcBits 8 0x07 0 (h / 256) 184 != f 0 8 then none
  else match f 188 4 with
    | 0 => mk .store ((b.drop 24).take (f 136 8 + 1))
    | 1 => mk .ack []
    | 2 => mk .miss []
    | _ => none

/-- Bytes cut into pieces of 64, the last padded with zeros (R378); `n` bounds the pieces. -/
def cut64 : Nat → List Byte → List (List Byte)
  | 0, _ => []
  | n + 1, b => if b.isEmpty then [] else (b.take 64 ++ List.replicate (64 - (b.take 64).length) 0) :: cut64 n (b.drop 64)

/-- The flits of a packet before they are sent (R378). -/
def Pkt.flits (p : Pkt) : List LinkFlit :=
  let l := cut64 5 p.bytes
  (upTo l.length).map (fun i => ⟨0, false, 0, false, true, true, i == 0, i + 1 == l.length, l.getD i []⟩)

/-! ### Keys and counters (R381, R382) -/

/-- The first counter that no flit takes. -/
def ctrEnd : Nat := 2 ^ 48 - 2

/-- The key in use and the one in the other slot. -/
def LinkDir.now (d : LinkDir) : Option KeySlot := if d.bit then d.slot1 else d.slot0
/-- The key in the other slot. -/
def LinkDir.other (d : LinkDir) : Option KeySlot := if d.bit then d.slot0 else d.slot1

/-- The direction with its other slot in use; the old one is empty (R381). -/
def LinkDir.turn (d : LinkDir) : LinkDir :=
  if d.bit then { d with slot1 := none, bit := false, switch := false } else { d with slot0 := none, bit := true, switch := false }

/-- The direction ready for its next flit: the switch made where it is due. -/
def LinkDir.due (d : LinkDir) : LinkDir :=
  let want := match d.now with
    | none => true
    | some k => d.switch || decide (ctrEnd ≤ k.ctr)
  if want && d.other.isSome then d.turn else d

/-- The counter of the key in use after a flit. -/
def LinkDir.bump (d : LinkDir) : LinkDir :=
  let f := fun (k : KeySlot) => { k with ctr := k.ctr + 1 }
  if d.bit then { d with slot1 := d.slot1.map f } else { d with slot0 := d.slot0.map f }

/-- Waiting flits put on their way while the link is up, holds a key and has room for replay (R379, R381, R382). A STOMP takes no
counter. -/
def Link.pump : List LinkFlit → Link → Link
  | [], l => { l with sendq := [] }
  | f :: t, l =>
    let d := l.tx.due
    if !l.up || 2048 ≤ l.replay.length then { l with sendq := f :: t }
    else match d.now with
      | none => { l with sendq := f :: t }
      | some k =>
        if ctrEnd ≤ k.ctr then { l with sendq := f :: t, tx := { d with hold := true } }
        else
          Link.pump t { l with
            tx := { (if f.stomp then d else d.bump) with hold := false }
            replay := l.replay ++ [{ f with seq := l.txseq, slot := d.bit, ctr := k.ctr }]
            txseq := (l.txseq + 1) % 4096 }

/-- The partitions whose entries use a link. -/
def State.linkParts (s : State) (n : Nat) : List Nat :=
  (upTo 8).filter (fun p => (s.win (n / 8)).ents.any (fun e => e.2.v && !e.2.loop && e.2.link == n && e.2.part == p))

/-- A report about a link to every partition whose entries use it (R382, R383), or where there is none to firmware's log of the package (R450). -/
def State.linkReport (s : State) (n : Nat) (c : Cause) : State :=
  match s.linkParts n with
  | [] => s.onPkg (fun g => { g with fwlog := g.fwlog ++ [[BitVec.ofNat 64 (8 + n / 8), c.word false, BitVec.ofNat 64 n]] })
  | l => l.foldl (fun s p => s.recordX p (n / 8) c (BitVec.ofNat 64 n) 0) s

/-- A link moved on; it waits for an acknowledgement from the cycle in which its replay buffer is no longer empty (R383). KEY-HOLD is reported where the direction enters it (R382). -/
def State.pump (s : State) (n : Nat) : State :=
  let l := s.link n
  let l' := Link.pump l.sendq l
  let s1 := s.onLink n (fun _ => { l' with ackAt := if l.replay.isEmpty then s.time else l'.ackAt })
  if l'.tx.hold && !l.tx.hold then s1.linkReport n .keyHold else s1

/-- A packet given to a link: behind one that another link feeds it (R380). -/
def State.sendPkt (s : State) (n : Nat) (p : Pkt) : State :=
  (s.onLink n (fun l => if l.fed.isSome then { l with late := l.late ++ p.flits } else { l with sendq := l.sendq ++ p.flits })).pump n

/-! ### Cut-through (R380) -/

/-- Flits of a packet that a link feeds to another; `ends` with the packet's last flit or a STOMP, and what waited behind it follows. -/
def State.feed (s : State) (link out : Nat) (fs : List LinkFlit) (ends : Bool) : State :=
  let s1 := s.onLink out (fun o => { o with
    sendq := o.sendq ++ fs ++ (if ends then o.late else [])
    fed := if ends then none else some link
    late := if ends then [] else o.late })
  (s1.onLink link (fun l => { l with cut := if ends then none else some out })).pump out

/-- A STOMP flit. -/
def stompFlit : LinkFlit := ⟨0, false, 0, true, true, true, false, false, []⟩

/-- The packet that a link feeds to another is ended with a STOMP. -/
def State.stompCut (s : State) (link : Nat) : State :=
  match (s.link link).cut with
  | some out => s.feed link out [stompFlit] true
  | none => s

/-- The bytes of a packet that have come, as the flits that carry them on. -/
def asFlits (b : List Byte) : List LinkFlit :=
  let l := cut64 5 b
  (upTo l.length).map (fun i => ⟨0, false, 0, false, true, true, i == 0, false, l.getD i []⟩)

/-! ### Drops and acknowledgements (R375) -/

/-- TLB entries of a partition's contexts removed (R139), and the lines that instruction caches hold of their pages (R94). -/
def State.dropTlb (s : State) (p : Nat) (f : TlbE → Bool) : State :=
  { s with cores := AMap.mapVals (fun n k =>
      if s.pOf n = p then
        { k with ctxs := k.ctxs.map (fun x => { x with tlb := x.tlb.filter (fun t => !f t) })
                 icache := k.icache.filter (fun e => !f ⟨e.la, 64, 0, 0, false, 0⟩) }
      else k) s.cores }

/-- A leaf of a window entry. -/
def TlbE.ofWindow (t : TlbE) (xd n : Nat) : Bool := pteTxw t.pte && winXd t.pte == xd && winEntry t.pte == n

/-- An entry changed. -/
def State.setWent (s : State) (xd n : Nat) (w : WEnt) : State := s.onWin xd (fun e => { e with ents := AMap.set e.ents n w })

/-- WOUT of a store's context falls (R375). -/
def State.unWout (s : State) (st : WStore) : State :=
  s.onCtx st.core st.ctx (fun x => { x with wout := set8 x.wout st.colour (get8 x.wout st.colour - 1) })

/-- The drop record of a context with a store's pointer, where its colour's bit is clear (R375). The record of a later activation takes in the stores
of one that has ended by DONE, and not those of one that has aborted (R386). -/
def Ctx.noteDrop (x : Ctx) (st : WStore) : Ctx :=
  let i : Fin 8 := ⟨st.colour % 8, Nat.mod_lt _ (by decide)⟩
  if !x.aborted.contains st.serial && (x.drops.get i).isNone then { x with drops := x.drops.set i.val (some st.ptr) i.isLt } else x

/-- A store dropped: WOUT, the drop record while its activation stands, and the counter (R375, R386, R438). -/
def State.dropStore (s : State) (st : WStore) : State :=
  ((s.unWout st).onCtx st.core st.ctx (fun x => x.noteDrop st)).count (dieOf st.core) 0x12 1

/-- An entry made BROKEN: its stores dropped and its pages invalidated (R370, R375). -/
def State.breakEntry (s : State) (xd n : Nat) : State :=
  let w := s.went xd n
  let s1 := s.setWent xd n { w with broken := true, q := [], outst := [], reopened := false }
  ((w.outst ++ w.q).foldl (fun s st => s.dropStore st) s1).dropTlb w.part (fun t => t.ofWindow xd n)

/-- An acknowledgement up to a sequence (R375). -/
def State.ackApply (s : State) (xd n : Nat) (upto : BitVec 32) : State :=
  let w := s.went xd n
  let k := (upto - w.acked).toNat
  if k ≤ w.outst.length then
    (w.outst.take k).foldl (fun s st => s.unWout st) (s.setWent xd n { w with acked := upto, outst := w.outst.drop k })
  else s

/-- A MISS (R375). -/
def State.missApply (s : State) (xd n : Nat) : State :=
  let w := s.went xd n
  if !w.v || w.broken then s
  else (s.breakEntry xd n).recordX w.part xd .windowMiss (BitVec.ofNat 64 (n + xd * 2 ^ 10)) 0

/-! ### Reflection at the target (R375, R376) -/

/-- The path of a packet: source package, I/O die and entry. -/
def pathOf (spkg sxd entry : Nat) : Nat := spkg * 1024 + sxd * 512 + entry
/-- The path of a packet. -/
def Pkt.path (p : Pkt) : Nat := pathOf p.spkg p.sxd p.sentry

/-- A path's state at the target. -/
def State.pathAt (s : State) (k : Nat) : PathSt := AMap.get PathSt.reset s.paths k

/-- What a packet comes to at the target. -/
inductive Refl where
  | ack (s : State)
  | miss
  | absent
  | waits

/-- A packet applied to its receive window (R375): the words in ascending address, full where the leaf has FE. -/
def State.reflect (s : State) (p : Pkt) : Refl :=
  let w := AMap.get RxWin.reset s.rxwin p.trxw
  if !w.v || (!w.any && p.spkg != w.srcpkg) || w.size * 4096 < p.off + p.data.length then .miss
  else
    let va := (w.vabase * 4096 + p.off) % 2 ^ 60
    match s.walk w.part va with
    | .bad => .miss
    | .absent _ _ _ => .absent
    | .leaf lvl slot e =>
      let pa := pteAddr e + va % pageSize lvl
      if !pteRxw e || pteTxw e || pteRepl e || !stackIn w.part (s.part w.part).dies pa then .miss
      else if pteFe e && pendingIn s.mem pa p.data.length then .waits
      else
        let s1 := if firstTier pa then s.count (pa / 2 ^ 36) 0x10 ((pa % 64 + p.data.length + 63) / 64) else s
        .ack ((s1.onMem (fun m => m.orWord slot 96)).engineWrite pa p.data ⟨pteFe e, false, 0⟩)

/-- The answer of the target to a packet: back by the link it came, or to the module's own entry (R375-R377). -/
def State.answer (s : State) (p : Pkt) (k : PktKind) : State :=
  match p.via with
  | some n =>
    s.sendPkt n ⟨none, k, p.spkg, s.pkg.number.toNat, p.trxw, p.sentry, p.sxd, 0,
      if k = .ack then p.seq + BitVec.ofNat 32 p.nstore else p.seq, 0, []⟩
  | none =>
    match k with
    | .ack => s.ackApply p.sxd p.sentry (p.seq + BitVec.ofNat 32 p.nstore)
    | .miss => s.missApply p.sxd p.sentry
    | .store => s

/-- A path's state set. -/
def State.setPath (s : State) (k : Nat) (x : PathSt) : State := { s with paths := AMap.set s.paths k x }

/-- A packet whose turn it is, at the target engine of an I/O die (R375): applied and acknowledged, a MISS that closes the path, or
parked in the lodge. -/
def State.target (s : State) (xd : Nat) (p : Pkt) : State :=
  let ps := s.pathAt p.path
  match s.reflect p with
  | .ack s1 => (s1.setPath p.path { ps with exp := p.seq + BitVec.ofNat 32 p.nstore }).answer p .ack
  | .miss => (s.setPath p.path { ps with closed := true }).answer p .miss
  | .absent =>
    if 64 ≤ s.lodgeCount (0x10 + xd) then s.onWin xd (fun e => { e with rxq := p :: e.rxq })
    else s.onWin xd (fun e => { e with lodge := e.lodge ++ [(s.time, p)] })
  | .waits => s.onWin xd (fun e => { e with rxq := p :: e.rxq })

/-- A packet of the same path waits in an engine's lodge. -/
def WinEng.lodges (e : WinEng) (k : Nat) : Bool := e.lodge.any (fun x => x.2.path == k)

/-- The stores that one packet takes after `f` (R169, R374): of its path, in sequence, contiguous, within 256 bytes and one page. -/
def packMore (f : WStore) : List WStore → Nat → Nat → Nat → Nat
  | [], _, _, n => n
  | a :: t, next, len, n =>
    if a.core == f.core && a.ctx == f.ctx && a.seq == f.seq + BitVec.ofNat 32 n && a.off = next && len + a.bytes.length ≤ 256 && (a.off + a.bytes.length - 1) / 4096 == (next - len) / 4096 then
      packMore f t (a.off + a.bytes.length) (len + a.bytes.length) (n + 1)
    else n

/-- The packet of the first `k` stores of an entry. -/
def State.pktOf (s : State) (xd n : Nat) (w : WEnt) (k : Nat) (via : Option Nat) : Pkt :=
  let l := w.q.take k
  let a := l.headD ⟨0, 0, 0, 0, 0, 0, 0, []⟩
  ⟨via, .store, w.tpkg, s.pkg.number.toNat, w.trxw, n, xd, a.off, a.seq, l.length, l.flatMap (·.bytes)⟩

/-- Stores that leave the lane: sent and not acknowledged, and counted (R371, R438). -/
def State.sentStores (s : State) (xd n : Nat) (w : WEnt) (k : Nat) : State :=
  (w.q.take k).foldl (fun s st => s.count (dieOf st.core) 0x11 1) (s.setWent xd n { w with q := w.q.drop k, outst := w.outst ++ w.q.take k, reopened := false })

/-! ### Links (R379, R380, R383) -/

/-- A link goes down, or is found never to have trained (R383, R450): LINK-DOWN, and its keys are void. `downAt` is 0 only before that. -/
def State.linkFall (s : State) (n : Nat) : State :=
  let s := s.stompCut n
  let l := s.link n
  (s.onLink n (fun _ => { l with up := false, downAt := max 1 s.time, rxbuf := [], tagFail := 0, tx := LinkDir.reset, rx := LinkDir.reset })).linkReport n
    .linkDown

/-- A link that has had no acknowledgement for 65,536 cycles (R383). -/
def Link.unheard (l : Link) (now : Nat) : Bool := l.up && !l.replay.isEmpty && decide (l.ackAt + 65536 ≤ now)

/-- The links that have had none go down. -/
def State.dropUnheard (s : State) : State := (s.links.filter (fun e => e.2.unheard s.time)).foldl (fun s e => s.linkFall e.1) s

/-- The link by which an I/O die forwards a packet (R380). -/
def State.routeOf (s : State) (xd dpkg : Nat) : Option Nat := AMap.find s.routes (xd * 4096 + dpkg)

/-- A packet that has come whole over a link (R375, R380): for this package's engine, forwarded on its route, or without a route
discarded, a STORE with a MISS to its source. -/
def State.pktIn (s : State) (n : Nat) (p : Pkt) : State :=
  let xd := n / 8
  if p.dpkg = s.pkg.number.toNat then s.onWin xd (fun e => { e with rxq := e.rxq ++ [p] })
  else match s.routeOf xd p.dpkg with
    | some out => s.sendPkt out p
    | none =>
      match p.kind with
      | .store => s.sendPkt n ⟨none, .miss, p.spkg, p.dpkg, p.trxw, p.sentry, p.sxd, 0, p.seq, 0, []⟩
      | .ack | .miss => s

/-- The packets with a flit among those that a replay buffer sends again from a sequence. `cur` is the packet of the flit before, `on` says that
the sequence has come. -/
def resentPkts (seq : Nat) : Option Pkt → Bool → List LinkFlit → List Pkt
  | _, _, [] => []
  | cur, on, f :: t =>
    let cur' := if f.first then Pkt.parse none f.bytes else cur
    let on' := on || f.seq == seq
    (if on' && (f.first || !on) then cur'.toList else []) ++ resentPkts seq cur' on' t

/-- The partition of this module that a packet is of: a STORE of its own entry, or the answer to a store into its own receive window (R379). -/
def State.pktPart (s : State) (p : Pkt) : Option Nat :=
  if p.spkg != s.pkg.number.toNat then none
  else match p.kind with
    | .store => some (s.went p.sxd p.sentry).part
    | .ack | .miss => some (AMap.get RxWin.reset s.rxwin p.trxw).part

/-! ### Window stores at the engine (R371, R373, R375) -/

/-- The place of a store among those of its entry that are not acknowledged. -/
def WEnt.place (w : WEnt) (st : WStore) : Nat := (st.seq - w.acked).toNat

/-- A window store that reaches its engine: kept in sequence, or dropped where the entry is not valid any more (R370). -/
def State.wstHere (s : State) (xd n : Nat) (st : WStore) : State :=
  let w := s.went xd n
  if !w.v || w.broken then s.dropStore st
  else s.setWent xd n { w with q := insertBy (fun a b => decide (w.place a ≤ w.place b)) st w.q }

/-- The next store of an entry in sequence has reached the engine (R374). -/
def WEnt.headDue (w : WEnt) : Bool := w.q.head?.any (fun a => w.place a == w.outst.length)

/-- A store of an entry is on its way to its engine. -/
def State.wstFlying (s : State) (xd n : Nat) : Bool :=
  s.cores.any (fun c => (s.wstOut c.1).any (fun x => x.1 == xd && x.2.1 == n && !(s.went xd n).q.contains x.2.2 &&
    !(s.went xd n).outst.contains x.2.2))

/-- Flits freed from the front of a replay buffer through a link sequence, in whole packets, so that the rest can be sent anew after
a retraining (R379, R383). -/
def freeThrough (seq : Nat) : List LinkFlit → List LinkFlit → List LinkFlit
  | acc, [] => acc
  | acc, f :: t =>
    let acc' := acc ++ [f]
    if f.seq = seq then (if f.last || f.stomp then t else acc' ++ t)
    else freeThrough seq (if f.last || f.stomp then [] else acc') t

end Sys2Proof.Machine
end

