-- ==== Sys2Proof/Machine/Cycle.lean ====
section
/-!
DEFINITION. The end of a cycle: the fabric (R246), what waits in lanes and at homes, TIME (R447), BUDGET (R48), samples (R430),
the cycle counters (R438), and the selection of the context that issues (R32, R57, R197).
-/

namespace Sys2Proof.Machine

/-- The stall reason of a context in this cycle (R429). -/
def Ctx.reason (x : Ctx) (waiting : Bool) : Nat :=
  match x.st with
  | .free => if waiting then Stall.inboxFull.code else 0
  | .parked => if x.hold then Stall.fault.code else if x.stall != 0 then x.stall else x.await.stall.code
  | .running =>
    if x.hold then Stall.fault.code
    else if x.stall != 0 then x.stall
    else if x.budget.toNat < 65536 then Stall.budgetNear.code
    else 0

/-- BUDGET counts this cycle (R47, R48, R196). -/
def Ctx.charged (x : Ctx) : Bool :=
  !x.hold && (match x.st with
    | .running => true
    | .parked => x.await.counts && x.stall != Stall.lodge.code
    | .free => false)

/-- A context at the end of a cycle; `still` in deterministic mode and in a frozen partition, where BUDGET counts no cycles. -/
def Ctx.cycle (x : Ctx) (still : Bool) : Ctx :=
  { x with issued := false, budget := if !still && x.charged && x.budget != 0 then x.budget - 1 else x.budget }

/-- A core at the end of a cycle. -/
def CoreSt.cycle (k : CoreSt) (still : Bool) : CoreSt := { k with issued := false, ctxs := k.ctxs.map (fun x => x.cycle still) }

/-- A message of a context waits at its interface to be injected (R248). -/
def Endp.holdsSend (e : Endp) (ctx : Nat) : Bool :=
  e.wait0 != 0 && e.inj0.any (fun f => match f.body with
    | .req (.msg m) => m.env.kind ≤ 1 && m.env.sctx == ctx % 4
    | .req (.copy _ _ _ _ _ _ _) | .req (.rld _ _ _ _ _ _) | .req (.rst _ _ _ _ _ _ _ _ _ _) | .req (.rat _ _ _ _ _ _ _ _ _)
    | .req (.repl _ _ _ _ _ _ _) | .req (.ewr _ _ _ _ _) | .req (.xfer _ _ _ _ _) | .req (.wst _ _ _) | .req (.notice _ _) | .rsp _ | .stay _ | .nack => false)

/-- The stall reason of a context of a core in this cycle (R429): one that runs and whose core has ended its quantum, by its count too, waits for
the next (R47, R57), one that issued has no other reason, and one whose message waits to be injected meets backpressure (R248). -/
def State.reason (s : State) (core ctx : Nat) : Nat :=
  let k := s.core core
  let x := k.ctx ctx
  let r := x.reason (!k.waiting.isEmpty)
  if x.st != .running || x.hold then r
  else if k.qdone || (s.detAt core && decide (k.quant.toNat ≤ k.retired)) then Stall.quantum.code
  else if x.issued then (if x.budget.toNat < 65536 then Stall.budgetNear.code else 0)
  else if (r == 0 || r == Stall.budgetNear.code) && (s.ep core).holdsSend ctx then Stall.fabric.code
  else r

/-! ### Samples (R430, R431) -/

/-- The period of SAMPCFG: 1 to 255 act as 256 (R190). -/
def CoreSt.period (k : CoreSt) : Nat := if k.sampcfg = 0 then 0 else max 256 k.sampcfg.toNat

/-- The record of a context (R431). -/
def State.sampleWords (s : State) (core ctx : Nat) : List Word :=
  let k := s.core core
  let x := k.ctx ctx
  let free := x.st == .free
  let bit := fun (b : Bool) => if b then 1 else 0
  [BitVec.ofNat 64 (s.timeAt core), if free then 0 else x.ip,
   BitVec.ofNat 64 (s.lnum core * 2 ^ 52 + ctx % 4 * 2 ^ 50 + s.reason core ctx * 2 ^ 45 + s.pOf core * 2 ^ 42 +
     (if free then 0 else x.msgId)),
   BitVec.ofNat 64 (bit x.issued * 16 + bit free * 8 + (if free then 0 else x.tag % 8))]

/-- A core counts a cycle of its period; in the last one it takes a sample of one context, in rotation (R430). -/
def State.sampled (s : State) (core : Nat) (k : CoreSt) : CoreSt :=
  if k.period = 0 then { k with sampCount := 0 }
  else if k.sampCount + 1 < k.period then { k with sampCount := k.sampCount + 1 }
  else { k with samples := k.samples ++ [s.sampleWords core (k.sampRot % 4)], sampRot := (k.sampRot + 1) % 4, sampCount := 0 }

/-! ### What is counted in a cycle -/

/-- The contexts of a core with a stall reason. -/
def State.reasonCount (s : State) (core r : Nat) : Nat := ((upTo 4).filter (fun c => s.reason core c == r)).length

/-- The count of a counter's event in one cycle: cycles on its dies, or contexts with a stall reason (R438). -/
def State.cycleCount (s : State) (p dies : Nat) (c : Ctr) : Nat :=
  let onDie := fun d => decide (p ≤ d) && decide (d < p + dies) && (!c.dief || c.die == d)
  let nd := ((upTo 8).filter onDie).length
  if c.event = 0 then nd
  else if 0x40 ≤ c.event ∧ c.event ≤ 0x52 then
    let l := s.cores.filter (fun e => onDie (dieOf e.1))
    sumNat (l.map (fun e => s.reasonCount e.1 (c.event - 0x40))) + (if c.event = 0x40 then 4 * (512 * nd - l.length) else 0)
  else 0

/-- Step 3 of pre-emption waits for window stores alone (R49). -/
def State.waitsWindow (s : State) (p : Nat) : Bool :=
  (s.part p).pre == PreSt.asked && s.allFree p && !s.engineWork p && !s.requestsOut p && s.windowWork p

/-- A partition at the end of a cycle: its counters, and since when the conditions of R56 and of step 3 of R49 have held. -/
def State.cyclePart (s : State) (p : Nat) (P : Part) : Part :=
  { P with
    counters := AMap.mapVals (fun _ c =>
      if c.en && !c.wrote && P.pre != PreSt.saved then { c with val := c.val + BitVec.ofNat 64 (s.cycleCount p P.dies c) }
      else { c with wrote := false }) P.counters
    idleSince := if s.deadNow p then P.idleSince else s.time + 1
    preSince := if s.waitsWindow p then P.preSince else s.time + 1 }

/-- The cycles for which an interface has held a flit ready (R248). -/
def Endp.cycle (e : Endp) : Endp :=
  { e with wait0 := if e.inj0.isEmpty then 0 else e.wait0 + 1, wait1 := if e.inj1.isEmpty then 0 else e.wait1 + 1 }

/-- The partition of a core is frozen (R56). -/
def State.frozenAt (s : State) (core : Nat) : Bool := (s.part (s.pOf core)).frozen

/-- The lanes of every core with a store that has not left moved on. -/
def State.drainAll (s : State) : State :=
  (s.cores.filter (fun e => e.2.lanes.any (fun l => !l.sent))).foldl (fun s e => s.drain e.1) s

/-- The requests that wait at the homes and can be served, served. -/
def State.serveHomes (s : State) : State := (s.homes.filter (fun e => !e.2.wait.isEmpty)).foldl (fun s e => s.serveAll e.1) s

/-- The faults of a cycle reach the controllers, after its RLCSTOPs (R406). -/
def State.rlcFaults (s : State) : State :=
  (s.rlcs.filter (fun e => !e.2.pend.isEmpty && !s.detAt (16 * e.1))).foldl (fun s e =>
    e.2.pend.foldl (fun s v => s.rlcApply e.1 v) (s.onRlc e.1 (fun x => { x with pend := [] }))) s

/-- The end of a cycle. -/
def State.cycle (s0 : State) : State :=
  let s := (((s0.fabricCycle.drainAll).serveHomes).rlcFaults).dropUnheard
  { s with
    time := s.time + 1
    parts := AMap.mapVals (fun p P => s.cyclePart p P) s.parts
    cores := AMap.mapVals (fun n k => (s.sampled n k).cycle (s.detAt n || s.frozenAt n)) s.cores
    eps := AMap.mapVals (fun _ e => e.cycle) s.eps }

/-! ### Issue (R32, R48, R57, R197) -/

/-- A context that BUDGET has run out for (R48). -/
def CoreSt.expired (k : CoreSt) : Option Nat := (upTo 4).find? (fun c => (k.ctx c).charged && (k.ctx c).budget == 0)

/-- The physical core that a logical core runs on (R448). -/
def State.physOf (s : State) (core : Nat) : Nat :=
  match s.pairOf core with
  | some (_, h) => h
  | none => core

/-- A core whose island is throttled issues on alternate cycles only (R445). Compute island 4c + q holds cores 4q to 4q + 3 of
cluster c. -/
def State.slowed (s : State) (core : Nat) : Bool := s.pkg.hot.contains (s.physOf core / 4) && s.time % 2 == 1

/-- A core that issues nothing in this cycle: its partition is frozen (R56), it rests (R449), its island is throttled (R445), or it
has ended its quantum (R57). -/
def State.idle (s : State) (core : Nat) : Bool :=
  let k := s.core core
  s.frozenAt core || s.rests core || s.slowed core || k.qdone || (s.detAt core && decide (k.quant.toNat ≤ k.retired))

/-- A context may issue. -/
def Ctx.ready (x : Ctx) : Bool := x.st == .running && !x.hold

/-- A context parked at a BKPT (R197). -/
def Ctx.atBkpt (x : Ctx) : Bool := match x.st, x.await with
  | .parked, .bkpt _ => true
  | .parked, _ | .free, _ | .running, _ => false

/-- The context whose turn it is: rotation among the running contexts. In deterministic mode a waiting context holds it (R57), and so does, in its
turn, one that is held or parked at a BKPT, so that what its core issues does not depend on the debugger (R198). -/
def CoreSt.next (k : CoreSt) (det : Bool) : Option Nat :=
  let start := if det && (k.ctx k.rot).st == .running && (k.ctx k.rot).stall != 0 then k.rot else k.rot + 1
  let l := (upTo 4).map (fun i => (start + i) % 4)
  if det then (l.find? (fun c => (k.ctx c).st == .running || (k.ctx c).atBkpt)).filter (fun c => (k.ctx c).ready)
  else l.find? (fun c => (k.ctx c).ready)

/-- The breakpoint that a context's next instruction matches, 1 to 4 (R197): one that waits for anything but its line has been issued. -/
def State.matchBp (s : State) (core ctx : Nat) : Option Nat :=
  let x := s.ctx core ctx
  if x.nobp || x.rpend || !x.rbuf.isEmpty || (x.stall != 0 && x.stall != Stall.fetch.code) then none
  else (upTo 4).find? (fun n =>
    let b := (s.core core).bps.get (c4 n)
    b.on && b.ip == x.ip && b.tag.toNat == x.tag) |>.map (· + 1)

end Sys2Proof.Machine
end

