-- ==== Sys2Proof/Machine/Issue.lean ====
section
/-!
DEFINITION. The events of issue: a decoding fault (R104, R105), a breakpoint match (R197) and the expiry of BUDGET (R48, R193).
-/

namespace Sys2Proof.Machine

/-- The machine with a context made the running one. -/
def State.at (s : State) (core ctx : Nat) : State := { s with cur := (core, c4 ctx) }

/-- The cause of a decoding error (R104). -/
def decodeCause : DecodeError → Cause
  | .illegalOp => .illegalOp
  | .illegalReg => .illegalReg

/-- A context may issue now: it runs and is not held (R196), BUDGET has not run out for it (R193), and its core issues in this cycle. -/
def State.mayIssue (s : State) (core ctx : Nat) : Bool :=
  let x := s.ctx core ctx
  x.ready && !(x.charged && x.budget == 0) && !s.idle core

/-- The exit code of an exit message that its command traps: its activation raises RLC-TRAP-EXIT before its first instruction (R195, R399). -/
def Ctx.exitTrap (x : Ctx) : Option Nat := match x.activation.m.msg.info with
  | .rlcExit code true => some code
  | .rlcExit _ false | .plain | .arrive | .copyDone _ | .dispatch _ | .phase _ _ => none

/-- DECODING_FAULT: the trap of an exit message, or the first fault of R104 at the IP of a context that issues, with no effect (R92, R105). Where
nothing is wrong there, or a breakpoint is met first (R197), the event is not due. -/
def execDecodingFault (core ctx : Nat) (s : State) : Host.Outcome State Fault Refusal :=
  let s0 := s.at core ctx
  if !s.mayIssue core ctx then .next s
  else match s0.me.exitTrap with
  | some code => .next (s0.takeTrap core s0.cur.2.val (mkTrap .rlcTrapExit (BitVec.ofNat 64 code)) s0.me.ip)
  | none =>
  if (s0.matchBp core s0.cur.2.val).isSome then .next s
  else match s0.fetch with
  | .stop k s1 => .next (s1.takeStop k)
  | .ok f s1 =>
    match decode f.head f.tail with
    | .ok _ => .next s
    | .error e =>
      let t : Word := BitVec.ofNat 64 (f.head.toNat + f.tail.toNat % 2 ^ 32 * 2 ^ 16)
      .next (s1.takeStop (.trap (mkTrap (decodeCause e) t)))

/-- BREAKPOINT_MATCH: a context about to issue a matching IP (R196, R193) takes BKPT, with TIP the matching IP (R197). -/
def execBreakpointMatch (core ctx : Nat) (s : State) : Host.Outcome State Fault Refusal :=
  let s0 := s.at core ctx
  match s0.matchBp core s0.cur.2.val with
  | none => .next s
  | some n =>
    if s.mayIssue core ctx && s0.me.exitTrap.isNone then .next (s0.takeTrap core s0.cur.2.val (mkTrap .bkpt (BitVec.ofNat 64 n)) s0.me.ip) else .next s

/-- BUDGET_EXPIRY: BUDGET has reached 0 and the activation aborts, from a park too (R48, R193). -/
def execBudgetExpiry (core ctx : Nat) (s : State) : Host.Outcome State Fault Refusal :=
  let x := s.ctx core ctx
  if x.charged && x.budget == 0 && !s.frozenAt core then .next (s.takeTrap core ctx (mkTrap .budget 0) x.ip) else .next s

end Sys2Proof.Machine
end

