-- ==== Sys2Proof/Machine/Send.lean ====
section
/-!
DEFINITION. Sending messages (R229-R232), the triggering message (R233), and the end of an activation by DONE or REQUEUE (R44,
R45, R202, R234).
-/

namespace Sys2Proof.Machine

/-! ### Building a message (R230) -/

/-- PlaceOf (R230): the core that owns a pointer; none for SPACE-BAD. -/
def State.placeOf (s : State) (p : Word) : Option Nat :=
  match isspc p with
  | 0 => some (let (b, n) := s.coreRange s.cur.1; hownIn b n (vaOf p))
  | 3 => some (16 * bitsNat p 32 8)
  | 7 => none
  | _ => some (bitsNat p 32 12)

/-- What the sender's interface keeps for a refusal (R42). -/
def Ctx.sender (x : Ctx) (ctx : Nat) : Sender := ⟨ctx, x.refuse, x.tag, x.activation.m.msg.env.gen⟩

/-- The message placed: in the send buffer, whose oldest leaves where it would be the ninth, or to the interface after every held
one (R44, R230, R232). -/
def State.place (s : State) (now : Bool) (o : OutMsg) : Res Unit :=
  let x := s.me
  let l := x.sendBuf ++ [o]
  let out := if now then l else l.take (l.length - 8)
  if s.canLeave s.cur.1 out then
    .ok () ((s.onMe (fun x => { x with sendBuf := if now then [] else l.drop (l.length - 8), seq := x.seq + 1 })).leaveAll s.cur.1
      (x.sender s.cur.2.val) out)
  else .stop (.wait .fabric) s

/-- A send instruction (R230): the release of R167, the target, the payload, the envelope. -/
def sendMsg (tgt : State → Option Nat) (kind : Nat) (now : Bool) (d : GReg) (q : QSel) (ptr : Word) (b : GReg) (n : BitVec 6)
    (t : Option (BitVec 3)) (s : State) : Host.Outcome State Fault Refusal :=
  run ((s.release .memory).bind fun _ s =>
    match tgt s with
    | none => trapAt .spaceBad ptr s
    | some dest =>
      let p := s.g b
      if n != 0 && p.toNat % 8 != 0 then trapAt .misalign p s
      else (s.readWords p [] n.toNat).bind fun pay s =>
        let x := s.me
        let tag := match t with | some v => v.toNat | none => x.tag
        let env : Env := ⟨s.lnum s.cur.1, s.cur.2.val, q.code.toNat, tag, (s.myCore.task tag).gen, 8 * n.toNat, kind, x.seq⟩
        let w := (upTo 5).map (fun i => x.getG (gOf (BitVec.ofNat 5 (d.val + i))))
        s.place now ⟨dest, ⟨env, w, pay, .plain⟩⟩)

/-- The low 12 bits of a register, a logical core number. -/
def coreField (v : Word) : Nat := bitsNat v 0 12

/-- SEND (R231). -/
def execSend (d : GReg) (q : QSel) (a b : GReg) (n : BitVec 6) (t : Option (BitVec 3)) (s : State) :
    Host.Outcome State Fault Refusal :=
  sendMsg (fun s => some (coreField (s.g a))) 0 false d q (s.g a) b n t s
/-- SENDA (R231). -/
def execSenda (d : GReg) (q : QSel) (a b : GReg) (n : BitVec 6) (t : Option (BitVec 3)) (s : State) :
    Host.Outcome State Fault Refusal :=
  sendMsg (fun s => some (coreField (s.g a))) 0 true d q (s.g a) b n t s
/-- SENDP (R231). -/
def execSendp (d : GReg) (q : QSel) (a b : GReg) (n : BitVec 6) (t : Option (BitVec 3)) (s : State) :
    Host.Outcome State Fault Refusal :=
  sendMsg (fun s => s.placeOf (s.g a)) 0 false d q (s.g a) b n t s
/-- SENDL (R231). -/
def execSendl (d : GReg) (q : QSel) (a b : GReg) (n : BitVec 6) (t : Option (BitVec 3)) (s : State) :
    Host.Outcome State Fault Refusal :=
  sendMsg (fun s => some (coreField (s.g a))) 1 false d q (s.g a) b n t s
/-- REPLY (R231). -/
def execReply (d : GReg) (q : QSel) (b : GReg) (n : BitVec 6) (t : Option (BitVec 3)) (s : State) :
    Host.Outcome State Fault Refusal :=
  sendMsg (fun s => some s.me.activation.m.msg.env.src) 0 false d q 0 b n t s

/-! ### The triggering message (R233) -/

/-- MSGID (R233). -/
def execMsgid (d : GReg) (s : State) : Host.Outcome State Fault Refusal := retired (s.setG d (BitVec.ofNat 64 s.me.msgId))

/-- The offset in its slot of the payload of a message: 8 for a refusal, else 48 (R33, R42). -/
def payOffset (e : Env) : Nat := if e.kind = 2 then 8 else 48

/-- The payload start that g6 received: the generic inbox address in the slot at the receiving core (R33, R42). -/
def State.payStart (s : State) (a : Act) : Nat :=
  0xFFF * 2 ^ 48 + 3 * 2 ^ 44 + s.lnum a.core % 4096 * 2 ^ 32 + (512 * a.m.slot + payOffset a.m.msg.env)

/-- MSGPAY (R233). -/
def execMsgpay (d a : GReg) (s : State) : Host.Outcome State Fault Refusal :=
  let x := s.me.activation
  let i := (s.g a).toNat
  retired (s.setG d (if i < x.m.msg.env.plen then BitVec.ofNat 64 (s.payStart x + i) else 0))

/-! ### The end of an activation (R45, R234) -/

/-- The triggering message of a REQUEUE re-enters the tail of the queue it left (R234), at the quantum's end in deterministic
mode; a dispatch of kind 4 or 5 is discarded (R342, R398), and so is, and counted, one whose task has ended (R414; log 22). -/
def State.reenter (s : State) (core ctx : Nat) (a : Act) : State :=
  if a.m.msg.env.kind = 4 || a.m.msg.env.kind = 5 then s.freeSlotOf a
  else if !s.taskLive a.core a.m.msg then (s.freeSlotOf a).count (dieOf a.core) 0x07 1
  else if s.detAt core then
    s.onPart (s.pOf core) (fun P =>
      { P with taskq := P.taskq ++ [⟨core, ctx, a.core, a.m.msg, Sender.none, some (a.queue, a.m.slot), s.timeAt core⟩] })
  else
    (s.freeSlotOf a).onCore a.core (fun k => k.setQueue a.queue (k.queue a.queue ++
      [{ a.m with arrival := s.timeAt a.core, since := s.timeAt a.core, held := false }]))

/-- The end of an activation, once its held messages can leave (R44, R45, R232). -/
def State.finish (s : State) (requeue : Bool) : State :=
  let x := s.me
  let a := x.activation
  let c := s.cur.1
  let n := s.cur.2.val
  let s1 := ((s.advance x.ip).leaveAll c (x.sender n) x.sendBuf).endEvent c n (if requeue then 2 else 0)
  let s2 := s1.failedRecords c n
  let s3 := if requeue then s2.reenter c n a else s2.freeSlotOf a
  (s3.freeCtx c n).tellDispatcher c n a false

/-- DONE (R45, R202). -/
def execDone (s : State) : Host.Outcome State Fault Refusal :=
  if s.canLeave s.cur.1 s.me.sendBuf then .next (s.finish false) else .next (s.waitAt .fabric)

/-- REQUEUE (R234). -/
def execRequeue (s : State) : Host.Outcome State Fault Refusal :=
  if s.canLeave s.cur.1 s.me.sendBuf then .next (s.finish true) else .next (s.waitAt .fabric)

end Sys2Proof.Machine
end

