-- ==== Sys2Proof/Machine/Activation.lean ====
section
/-!
DEFINITION. Messages and activations: admission of waiting messages (R36), the start of an activation (R33, R40, R42), aging (R41), the
end of a park (R32, R47), and migration (R50-R53).
-/

namespace Sys2Proof.Machine

/-! ### Waiting messages (R36) -/

/-- SLOT_FREED_ADMIT: the first message at a core's interface enters, once it can (R36). -/
def execSlotFreedAdmit (core : Nat) (s : State) : Host.Outcome State Fault Refusal :=
  match (s.core core).waiting with
  | [] => .next s
  | w :: t =>
    let (s', a) := if w.launch then s.admitLaunch core w.msg w.arrival else s.enters core w.msg w.origin w.arrival
    let s1 := s'.onCore core (fun k => { k with waiting := t })
    match a with
    | .waits => .next s
    | .unbound => .next (s1.respondTo core w.origin (Rsp.plain .held 0))
    | .queued | .discarded | .refused _ => .next (s1.respondTo core w.origin .ok)

/-! ### The start of an activation (R33, R40) -/

/-- The message that a queue offers: its head, where that is not held (R40, R46). -/
def CoreSt.offer (k : CoreSt) (q : Nat) : Option (Nat × QMsg) :=
  match k.queue q with
  | m :: _ => if m.held then none else some (q, m)
  | [] => none

/-- The first queue of a list that offers a message. -/
def CoreSt.firstOffer (k : CoreSt) (l : List Nat) : Option (Nat × QMsg) := l.findSome? (fun q => k.offer q)

/-- The message that a free context takes (R40): with GUESTCTX = 0, QG is merged with Q0 by arrival, Q0 first among equals; with
GUESTCTX = 1, context 3 serves QG alone and no other context serves it. -/
def CoreSt.choose (k : CoreSt) (ctx : Nat) : Option (Nat × QMsg) :=
  if k.guest then (if ctx % 4 = 3 then k.offer 4 else k.firstOffer [0, 1, 2, 3])
  else match k.offer 0, k.offer 4 with
    | some a, some b => some (if a.2.arrival ≤ b.2.arrival then a else b)
    | some a, none => some a
    | none, some b => some b
    | none, none => k.firstOffer [1, 2, 3]

/-- A die starts no activation while 64 of its trap records wait for space in the host's ring (R422). -/
def State.recsFull (s : State) (core : Nat) : Bool :=
  let P := s.part (s.pOf core)
  P.trapHost && decide (64 ≤ (P.recs.filter (fun r => r.die == dieOf core)).length)

/-- A parked context that resumes in the next turn of its core: its condition held at the quantum's end (R59, R449). -/
def Ctx.woken (x : Ctx) : Bool := x.st == .parked && x.await == .none

/-- A debugger keeps a context: it is held, or parked at a BKPT (R196, R197). -/
def Ctx.debugged (x : Ctx) : Bool := x.hold || x.atBkpt

/-- The message that the quantum still owes a context: it is free, and the core has not ended its quantum (R57). -/
def CoreSt.owes (k : CoreSt) (ctx : Nat) : Option (Nat × QMsg) :=
  if (k.ctx ctx).st != .free || k.arrivals.any (fun w => w.ctx == ctx % 4) || k.qdone then none else k.choose ctx

/-- The message that a context has to start: the partition dispatches (R49) and is not frozen (R56). -/
def State.offered (s : State) (core ctx : Nat) : Option (Nat × QMsg) :=
  if (s.part (s.pOf core)).pre != PreSt.running || s.frozenAt core then none else (s.core core).owes ctx

/-- The message that a context would start now: the core has its turn (R449), the die has room for its records (R422), and the core has done
nothing else in this cycle (R436). -/
def State.startable (s : State) (core ctx : Nat) : Option (Nat × QMsg) :=
  if s.rests core || s.recsFull core || (s.core core).issued then none else s.offered core ctx

/-- The generic address of the payload of an activation, or 0 where there is none (R33, R42). -/
def State.startPay (s : State) (a : Act) : Word := if a.m.msg.env.plen = 0 then 0 else BitVec.ofNat 64 (s.payStart a)

/-- g1 to g7 of an activation (R33, R42); g4 of a dispatch is the payload's address (R340). -/
def State.startG (s : State) (a : Act) : Vector Word 32 :=
  let w := fun i => a.m.msg.words.getD i 0
  let pay := s.startPay a
  Vector.ofFn (fun i : Fin 32 =>
    match i.val with
    | 1 => w 1 | 2 => w 2 | 3 => w 3
    | 4 => if a.m.msg.env.kind = 4 then pay else w 4
    | 5 => BitVec.ofNat 64 a.m.msg.env.id
    | 6 => pay
    | 7 => BitVec.ofNat 64 a.m.msg.env.plen
    | _ => 0)

/-- The first IP of an activation (R33): word 0, or for a code-line activation its inbox line with word 0's head index (R93). -/
def State.startIp (s : State) (a : Act) : Word :=
  let w := a.m.msg.words.getD 0 0
  if a.codeLine then BitVec.ofNat 64 (s.inboxLine a % 2 ^ 60 + bitsNat w 0 6) else w

/-- The transfer identifier of an activation (R190). -/
def Act.xferid (a : Act) : BitVec 16 :=
  match a.m.msg.info with
  | .copyDone id => BitVec.ofNat 16 id
  | .plain | .arrive | .dispatch _ | .phase _ _ | .rlcExit _ _ => 0

/-- A context at the start of an activation (R33, R183): what is not named here persists. -/
def Ctx.start (x : Ctx) (a : Act) (ip : Word) (g : Vector Word 32) (t : Task) : Ctx :=
  { x with
    st := .running, await := .none, act := some a
    ip := ip
    g := g
    v := Vector.replicate 16 0
    k := Vector.replicate 8 0
    c := Vector.replicate 16 Chan.reset
    view := t.views
    trap := ⟨0, 0, 0, 0, 0, 0, 0⟩
    vstart := 0, fcsr := 0, colour := 0, migok := false, budget := t.budget
    xferid := a.xferid, tasksel := 0, extsel := 0
    remote := Vector.replicate 8 0, drops := Vector.replicate 8 none
    sendBuf := [], failed := [], stall := 0, nobp := false, rbuf := [], rcur := 0, rpend := false, fill := .none, elem := []
    latch := ⟨0, 0, 0, 0⟩
    serial := x.serial + 1 }

/-- A message taken from its queue and started on a context, in place of an issue of the core in this cycle (R436; log 63). The scratchpad stays as it was, outside the keep ranges too (R120, log 44). -/
def State.startOn (s : State) (core ctx q : Nat) (m : QMsg) : State :=
  let a : Act := ⟨m, q, core, ctx % 4, false, false, false⟩
  let s1 := s.onCore core (fun k => { (k.setQueue q ((k.queue q).filter (fun x => x.slot != m.slot))) with
    slotsHeld := k.slotsHeld ++ [m.slot], issued := true })
  let t := (s1.core core).task m.msg.env.tag
  let s2 := s1.onCtx core ctx (fun x => x.start a (s1.startIp a) (s1.startG a) t)
  (s2.coreEvent core 0 (ctx % 4 * 2 ^ 50 + m.msg.env.kind % 8 * 2 ^ 32 + m.msg.env.id)).count (dieOf core) 0x02 1

/-! ### Aging (R41) -/

/-- A message has waited long enough in its queue to move up. -/
def QMsg.ageDue (now : Nat) (m : QMsg) : Bool := !m.held && decide (m.since + 65536 < now)

/-- The messages of one queue that have waited long enough move to the next higher one (R41). -/
def CoreSt.age (k : CoreSt) (now q : Nat) : CoreSt :=
  let k1 := k.setQueue q ((k.queue q).filter (fun m => !m.ageDue now))
  k1.setQueue (q - 1) (((k.queue q).filter (·.ageDue now)).foldl (fun l m => placeIn l { m with since := now }) (k1.queue (q - 1)))

/-- Some message of a core is due to move up. The clocks stand still under pre-emption (R49). -/
def State.ageDue (s : State) (core : Nat) : Bool :=
  (s.part (s.pOf core)).pre == PreSt.running && ([1, 2, 3].any (fun q => ((s.core core).queue q).any (·.ageDue (s.timeAt core))))

/-- QUEUE_AGING: every message of a core that is due moves up one queue (R41). The clocks stand still under pre-emption (R49). -/
def execQueueAging (core : Nat) (s : State) : Host.Outcome State Fault Refusal :=
  if (s.part (s.pOf core)).pre != PreSt.running then .next s
  else
    let now := s.timeAt core
    .next (s.onCore core (fun k => ((k.age now 1).age now 2).age now 3))

/-! ### The turns of a deterministic quantum (R41, R48, R57, R449) -/

/-- A core whose contexts are none of them running or about to in its turn, with no activation left of those that `left` gives a context to start. A
hold or a BKPT park does not end the quantum (R198). -/
def State.quietBut (s : State) (core : Nat) (left : Nat → Option (Nat × QMsg)) : Bool :=
  (upTo 4).all (fun c => (s.ctx core c).st != .running && !(s.ctx core c).woken && !(s.ctx core c).debugged && (left c).isNone) &&
    (s.core core).arrivals.isEmpty

/-- Nothing runs on a core now. -/
def State.quiet (s : State) (core : Nat) : Bool := s.quietBut core (s.offered core)

/-- The quantum of a logical core is over: QUANT instructions retired, or no context running (R57). A message whose start pre-emption holds back is
still this quantum's (R269, log 65). -/
def State.quantumOver (s : State) (core : Nat) : Bool :=
  let k := s.core core
  decide (k.quant.toNat ≤ k.retired) || s.quietBut core k.owes

/-- In deterministic mode the turn of a physical core passes when the core running has ended its quantum (R449), or under pre-emption when nothing
runs on it and something does on the other. -/
def State.detPass (s : State) (on other : Nat) : Bool :=
  !(s.core other).qdone && ((s.core on).qdone || ((s.part (s.pOf on)).pre != PreSt.running && s.quiet on && !s.quiet other))

/-- A hosted core of a shape has to end its quantum, or its turn to pass. -/
def State.turnDue (s : State) (core : Nat) : Bool :=
  match s.pairOf core with
  | none => false
  | some (a, h) =>
    let on := (s.turnOf h).1
    (!(s.core on).qdone && s.quantumOver on) || s.detPass on (if on = h then a else h)

/-- In deterministic mode a move of R41, an expiry of R48 and a turn of R449 that are due on a core come before anything that its partition issues or
starts, and before the quantum's end (R60, R173; log 41). -/
def State.detWork (s : State) (p : Nat) : Bool :=
  !(s.part p).frozen && (s.cores.filter (fun e => s.pOf e.1 == p)).any (fun e =>
    s.ageDue e.1 || e.2.expired.isSome || (decide (s.pkg.fused ≠ []) && s.turnDue e.1))

/-- In deterministic mode a core's contexts start in ascending number (R57, R173): the lowest one that can. -/
def State.firstStart (s : State) (core : Nat) : Option Nat :=
  if s.detWork (s.pOf core) then none else (upTo 4).find? (fun c => (s.startable core c).isSome)

/-- ACTIVATION_START: a free context starts the message that R40 gives it. -/
def execActivationStart (core ctx : Nat) (s : State) : Host.Outcome State Fault Refusal :=
  match if s.detAt core && s.firstStart core != some (ctx % 4) then none else s.startable core ctx with
  | none => .next s
  | some (q, m) => .next (s.startOn core ctx q m)

/-! ### The end of a park (R32, R47) -/

/-- PARK_RESUME: a parked context whose condition holds runs again at the instruction that parked it. In deterministic mode contexts
resume at a quantum's end only (R59); a resting core's wait for its turn (R449). -/
def execParkResume (core ctx : Nat) (s : State) : Host.Outcome State Fault Refusal :=
  if (s.ctx core ctx).st == .parked && s.parkDue core ctx && !s.detAt core && !s.frozenAt core && !s.rests core then .next (s.resume core ctx)
  else .next s

/-! ### Migration (R50-R53) -/

/-- What migration ships of a context to another one (R53; log 31). -/
def Ctx.wayfarer (x : Ctx) (core ctx tgt : Nat) : Wayfarer where
  ctx := tgt
  g := x.g
  k := x.k
  ip := x.ip
  budget := x.budget
  colour := x.colour
  fcsr := x.fcsr
  migok := x.migok
  migthresh := x.migthresh
  refuse := x.refuse
  act := x.act.map (fun a => { a with wayfarer := true })
  prev := x.latch.prev
  hopCore := core
  hopCtx := ctx % 4

/-- A context parked to migrate has nothing left on its way: window stores (R386), and global stores, its own, which a later LVCOMMIT of the
activation must find performed (R166), and those of its core that it has read (R157). -/
def State.shipReady (s : State) (core ctx : Nat) : Bool :=
  (upTo 8).all (fun c => get8 (s.ctx core ctx).wout c == 0) &&
    !(s.core core).lanes.any (fun e => e.ctx == ctx % 4 || e.seen.contains (ctx % 4))

/-- MIGRATION_SHIP: a context parked to migrate whose stores have drained is shipped, its held messages leaving from here (R53, R267, R386); it
stays parked till the wayfarer runs at its target (R47). Where no target is left, the count of R50 resets and the context runs on (R51), in its
core's turn (R449). -/
def execMigrationShip (core ctx : Nat) (s : State) : Host.Outcome State Fault Refusal :=
  let x := s.ctx core ctx
  match x.st, x.await with
  | .parked, .migrate h =>
    if !s.shipReady core ctx || x.hold then .next s
    else match s.migTarget core ctx h with
      | none =>
        if s.rests core then .next s
        else .next ((s.resume core ctx).onCtx core ctx (fun x => { x with remote := set8 x.remote h 0 }))
      | some (k, c) =>
        if !s.canLeave core x.sendBuf then .next s
        else
          let s1 := ((s.leaveAll core (x.sender (ctx % 4)) x.sendBuf).endEvent core ctx 3).failedRecords core ctx
          .next ((s1.onCore k (fun t => { t with arrivals := t.arrivals ++ [x.wayfarer core ctx c] })).onCtx core ctx
            (fun x => { x with await := .shipped, sendBuf := [], failed := [] }))
  | .free, _ | .running, _ | .parked, _ => .next s

/-- A context that a wayfarer arrives at (R53). -/
def Ctx.arrive (x : Ctx) (w : Wayfarer) (t : Task) : Ctx :=
  { x with
    st := .running, await := .none, act := w.act, ip := w.ip, g := w.g
    v := Vector.replicate 16 0
    k := w.k
    c := Vector.replicate 16 Chan.reset
    view := t.views
    vstart := 0, fcsr := w.fcsr, colour := w.colour, migok := w.migok, migthresh := w.migthresh, refuse := w.refuse, budget := w.budget
    xferid := (match w.act with | some a => a.xferid | none => 0)
    remote := Vector.replicate 8 0, wout := Vector.replicate 8 0, drops := Vector.replicate 8 none
    sendBuf := [], failed := [], stall := 0, nobp := false, rbuf := [], rcur := 0, rpend := false, fill := .none, elem := []
    latch := ⟨0, 0, 0, w.prev⟩
    serial := x.serial + 1 }

/-- The line of a code-line activation that has come as a wayfarer is filled anew: another message stood in its slot before (R94). -/
def State.newLine (s : State) (core : Nat) (w : Wayfarer) : State :=
  match w.act with
  | some a => if a.codeLine then s.onCore core (fun k => { k with icache := k.icache.filter (fun e => e.la != s.inboxLine a) }) else s
  | none => s

/-- WAYFARER_ARRIVE: the oldest wayfarer on its way to a context runs there, and the context that shipped it is free (R47, R53). -/
def execWayfarerArrive (core ctx : Nat) (s : State) : Host.Outcome State Fault Refusal :=
  match takeFirst (fun (w : Wayfarer) => w.ctx == ctx % 4) (s.core core).arrivals with
  | none => .next s
  | some (w, t) =>
    if (s.ctx core ctx).st != .free then .next s
    else
      let tag := match w.act with | some a => a.m.msg.env.tag | none => 0
      let s1 := (s.onCore core (fun k => { k with arrivals := t })).onCtx core ctx (fun x => x.arrive w ((s.core core).task tag))
      .next ((s1.newLine core w).freeCtx w.hopCore w.hopCtx)

/-! ### Sharing a physical core (R449) -/

/-- A logical core has work: a context that is not free, or a message to start. -/
def CoreSt.hasWork (k : CoreSt) : Bool :=
  (upTo 4).any (fun c => (k.ctx c).st != .free) || k.queues.toList.any (fun q => q.any (fun m => !m.held)) || !k.arrivals.isEmpty

/-- The contexts of a core whose condition held at a quantum's end in which it rested resume. -/
def State.wakeCore (s : State) (core : Nat) : State :=
  (upTo 4).foldl (fun s c => if (s.ctx core c).woken && !(s.ctx core c).hold then s.resume core c else s) s

/-- TURN_SWITCH: the turn of a physical core that hosts two logical cores passes to the other one: after 4,096 cycles, when the one
running has no work, or in deterministic mode when it has ended its quantum (R449). -/
def execTurnSwitch (core : Nat) (s : State) : Host.Outcome State Fault Refusal :=
  match s.pairOf core with
  | none => .next s
  | some (a, h) =>
    let (on, at0) := s.turnOf h
    let other := if on = h then a else h
    let k := s.core on
    let passes : Bool := if s.detAt core then s.detPass on other
      else (s.core other).hasWork && (!k.hasWork || decide (at0 + 4096 ≤ s.time))
    if passes then .next ((s.onPkg (fun g => { g with turns := AMap.set g.turns h (other, s.time) })).wakeCore other) else .next s

/-! ### Quanta (R57) -/

/-- The logical cores of a partition's shape, as cores in ascending order. -/
def State.shapeCores (s : State) (p : Nat) : List Nat := (upTo (s.part p).shape).map (512 * p + ·)

/-- Every logical core of a shape has ended its quantum, by its count or because nothing runs on it (R57). -/
def State.allEnded (s : State) (p : Nat) : Bool := (s.shapeCores p).all (fun c => (s.core c).qdone || s.quiet c)

end Sys2Proof.Machine
end

