-- ==== Sys2Proof/Machine/Frames.lean ====
section
/-!
DEFINITION. Firmware's frames: the pool of a partition, its reserve, eviction and paging in (R141, R146, R152, R420). Frames are
counted in pages of 4 KiB; a range is its first frame and its count.
-/

namespace Sys2Proof.Machine

/-! ### Ranges of frames -/

/-- A run of frames taken out of ranges. -/
def rangesDel (a n : Nat) (l : List (Nat × Nat)) : List (Nat × Nat) :=
  l.flatMap (fun r =>
    let lo := min (max a r.1) (r.1 + r.2)
    let hi := max lo (min (a + n) (r.1 + r.2))
    ([(r.1, lo - r.1), (hi, r.1 + r.2 - hi)] : List (Nat × Nat)).filter (fun x => x.2 != 0))

/-- A run joined to the range that it meets, ranges in ascending order. -/
def rangesAdd (a n : Nat) : List (Nat × Nat) → List (Nat × Nat)
  | [] => [(a, n)]
  | (b, k) :: t =>
    if a + n < b then (a, n) :: (b, k) :: t
    else if a + n = b then (a, n + k) :: t
    else if b + k = a then rangesAdd b (k + n) t
    else (b, k) :: rangesAdd a n t

/-- The part of ranges that lies in other ranges. -/
def rangesMeet (l m : List (Nat × Nat)) : List (Nat × Nat) :=
  l.flatMap (fun x => m.filterMap (fun y =>
    let lo := max x.1 y.1
    let hi := min (x.1 + x.2) (y.1 + y.2)
    if lo < hi then some (lo, hi - lo) else none))

/-- The first aligned run of `n` frames of a range, and how many there are. -/
def runsIn (n : Nat) (r : Nat × Nat) : Nat × Nat :=
  let a := (r.1 + n - 1) / n * n
  (a, if a + n ≤ r.1 + r.2 then (r.1 + r.2 - a) / n else 0)

/-- The `k`-th aligned run of `n` frames. -/
def pickRun (n : Nat) : Nat → List (Nat × Nat) → Option Nat
  | _, [] => none
  | k, r :: t => let (a, c) := runsIn n r; if k < c then some (a + k * n) else pickRun n (k - c) t

/-- One of the aligned runs of `n` frames, which one being firmware's choice. -/
def chooseRun (n hint : Nat) (l : List (Nat × Nat)) : Option Nat :=
  let c := sumNat (l.map (fun r => (runsIn n r).2))
  if c = 0 then none else pickRun n (Config.freeFrame hint % c) l

/-! ### Contents -/

/-- Memory with a run of bytes zero, empty and whole (R146). -/
def Memory.zero (m : Memory) (k n : Nat) : Memory :=
  let out := fun (x : Nat) => decide (x < k) || decide (k + n ≤ x)
  ⟨m.cells.filter (fun e => out e.1), m.full.filter out, m.poison.filter out, m.pending.filter out, m.corr.filter out⟩

/-- Memory with a run of bytes copied to another place, where every full-empty bit is empty (R146); poison moves too (R150), and so does what a
SYNCE holds pending (R261). -/
def Memory.copyRun (m : Memory) (src dst n : Nat) : Memory :=
  let inn := fun (x : Nat) => decide (src ≤ x) && decide (x < src + n)
  let m1 := (m.cells.filter (fun e => inn e.1)).foldl (fun m e => m.setByte (e.1 - src + dst) e.2) (m.zero dst n)
  let m2 := (m.poison.filter inn).foldl (fun m w => m.setPoison (w - src + dst) true) m1
  (m.pending.filter inn).foldl (fun m w => m.setPending (w - src + dst) true) m2

/-! ### The pool and the reserve (R141, R152) -/

/-- Pages of 4 KiB of a level's page. -/
def pagesOf (lvl : Nat) : Nat := pageSize lvl / 4096

/-- A frame's replica on a die (R141). -/
def frameOn (f die : Nat) : Nat := f % 2 ^ 24 + die * 2 ^ 24

/-- The frames of a page: the frame, or with REPL its replica on every die of the partition. -/
def framesOf (p dies f : Nat) (repl : Bool) : List Nat := if repl then (upTo dies).map (fun i => frameOn f (p + i)) else [f]

/-- Frames as the allocator hands them out: `n` bytes of each zero and empty (R146). -/
def State.zeroFrames (s : State) (frames : List Nat) (n : Nat) : State := s.onMem (fun m => frames.foldl (fun m f => m.zero (4096 * f) n) m)

/-- A valid receive window of a partition covers some byte of a page (R372). -/
def State.rxCovers (s : State) (p va n : Nat) : Bool :=
  s.rxwin.any (fun e => e.2.v && e.2.part == p && decide (e.2.vabase * 4096 < va + n) && decide (va < (e.2.vabase + e.2.size) * 4096))

/-- The pool from which a page may take its frame: with REPL the frames of the lowest stack whose replicas are all free. -/
def poolFor (p dies : Nat) (free : List (Nat × Nat)) (repl : Bool) : List (Nat × Nat) :=
  if repl then
    (upTo dies).foldl (fun acc i =>
      rangesMeet acc ((rangesMeet free [((p + i) * 2 ^ 24, 2 ^ 24)]).map (fun r => (r.1 - i * 2 ^ 24, r.2)))) [(p * 2 ^ 24, 2 ^ 24)]
  else free

/-- The reserve filled again from the pool (R152): 32 data frames and 8 table frames. -/
def Part.refill (hint : Nat) : Nat → Part → Part
  | 0, P => P
  | n + 1, P =>
    if P.resData.length < 32 then
      match chooseRun 1 hint P.free with
      | some f => Part.refill hint n { P with free := rangesDel f 1 P.free, resData := P.resData ++ [f] }
      | none => P
    else if P.resTable.length < 8 then
      match chooseRun 1 hint P.free with
      | some f => Part.refill hint n { P with free := rangesDel f 1 P.free, resTable := P.resTable ++ [f] }
      | none => P
    else P

/-- A frame from the pool, step 1 of R152. -/
def State.fromPool (s : State) (p n : Nat) (repl : Bool) : Option (Nat × State) :=
  let P := s.part p
  match chooseRun n s.fresh (poolFor p P.dies P.free repl) with
  | some f => some (f, (s.onPart p (fun P => { P with free := (framesOf p P.dies f repl).foldl (fun l g => rangesDel g n l) P.free })).tick)
  | none => none

/-- A frame from the reserve, step 3 of R152. -/
def State.fromReserve (s : State) (p n : Nat) (table repl : Bool) : Option (Nat × State) :=
  if n != 1 || (repl && (s.part p).dies != 1) then none
  else if table then
    match (s.part p).resTable with
    | f :: t => some (f, s.onPart p (fun P => { P with resTable := t }))
    | [] => none
  else match (s.part p).resData with
    | f :: t => some (f, s.onPart p (fun P => { P with resData := t }))
    | [] => none

/-! ### Eviction (step 2 of R152) -/

/-- A TLB entry overlaps a range of the virtual space. -/
def TlbE.inRange (t : TlbE) (va n : Nat) : Bool := decide (t.base < va + n) && decide (va < t.base + t.size)

/-- A request names bytes of a run of physical memory and is not translated again: an engine's. -/
def ReqBody.pins (k n : Nat) : ReqBody → Bool
  | .xfer pa bytes _ _ _ => meets pa bytes.length k n
  | .repl _ _ pa size _ _ _ | .rld _ _ _ pa size _ => meets pa size k n
  | .msg _ | .copy _ _ _ _ _ _ _ | .rst _ _ _ _ _ _ _ _ _ _ | .rat _ _ _ _ _ _ _ _ _ | .ewr _ _ _ _ _ | .wst _ _ _ | .notice _ _ => false

/-- A command that will store to words of a run of physical memory (R399). -/
def RCmd.pins (k n : Nat) (c : RCmd) : Bool := (c.k14 ++ c.k15).any (fun x => meets x 8 k n)

/-- A controller holds such a command. -/
def Rlc.pins (k n : Nat) (x : Rlc) : Bool :=
  x.queue.any (·.pins k n) || (match x.run with | some r => r.cmd.pins k n | none => false) ||
    x.pend.any (fun e => match e with | .cmd c => c.pins k n | .report _ _ _ | .ended _ _ _ | .stop _ => false)

/-- Every command of a controller changed. -/
def Rlc.mapCmds (f : RCmd → RCmd) (x : Rlc) : Rlc :=
  { x with
    queue := x.queue.map f
    run := x.run.map (fun r => { r with cmd := f r.cmd })
    pend := x.pend.map (fun e => match e with
      | .cmd c => .cmd (f c)
      | .report a b v => .report a b v
      | .ended a b v => .ended a b v
      | .stop c => .stop c) }

/-- An engine's request to a run of physical memory is on its way, or a write to it goes on at its home. -/
def State.busyFrame (s : State) (k n : Nat) : Bool :=
  s.homes.any (fun h => h.2.jobs.any (fun j => meets j.pa j.size k n)) ||
    s.eps.any (fun e => (decide (4096 ≤ e.1) && (e.2.out.any (fun o => o.body.pins k n) || e.2.backlog.any (fun b => b.body.pins k n))) ||
      e.2.ready.any (fun r => decide (4096 ≤ r.src) && r.body.pins k n))

/-- A page that an engine uses now: its invalidation waits for the end of that use, as for a streamer's block (R328, R415). -/
def State.inUse (s : State) (p : Nat) (r : Resident) : Bool :=
  (s.chansOf p).any (fun c => c.blockVas.any (fun a => a / pageSize r.lvl == r.va / pageSize r.lvl)) ||
    (match s.walk p r.va with
    | .leaf lvl _ e => (framesOf p (s.part p).dies (pteAddr e / 4096) (pteRepl e)).any (fun f => s.busyFrame (4096 * f) (pageSize lvl))
    | .absent _ _ _ | .bad => false)

/-- What a page of a frame holds has to be written back: it is dirty (R152), or a controller's command will store to it (R399). -/
def State.mustWrite (s : State) (f lvl : Nat) (e : Word) : Bool := pteD e || s.rlcs.any (fun x => x.2.pins (4096 * f) (pageSize lvl))

/-- A resident page that may be evicted (R152): unpinned, clean or with room in the backing range, needed neither by the line of the faulting
instruction nor by its current element, whose addresses are `need`. -/
def State.evictable (s : State) (p : Nat) (need : List Nat) (r : Resident) : Bool :=
  match s.walk p r.va with
  | .leaf lvl _ e =>
    let P := s.part p
    lvl == r.lvl && !ptePin e && !pteTxw e && stackIn p P.dies (pteAddr e) && !need.any (fun a => a / pageSize lvl == r.va / pageSize lvl) &&
      (!s.mustWrite (pteAddr e / 4096) lvl e || r.backing.isSome || (chooseRun (pagesOf lvl) s.fresh P.backing).isSome)
  | .absent _ _ _ | .bad => false

/-! ### What is on its way to a page that leaves or comes back (R152, R262) -/

/-- A key in the frames of a page that leaves: from then on the page's byte, and which of its frames it was in. -/
def goneKey (base n : Nat) (frames : List Nat) (k : Nat) : Nat :=
  match frames.findIdx? (fun f => decide (4096 * f ≤ k) && decide (k < 4096 * f + n)) with
  | some i => i * 2 ^ 61 + goneAt (base + (k - 4096 * frames.getD i 0))
  | none => k

/-- Such a key of a page that has come back, in its frames now. -/
def backKey (base n : Nat) (frames : List Nat) (k : Nat) : Nat :=
  let va := k % 2 ^ 61 - 2 ^ 60
  if isGone k && decide (base ≤ va) && decide (va < base + n) then
    match frames[k / 2 ^ 61]? with
    | some f => 4096 * f + (va - base)
    | none => k
  else k

/-- The stores and channel advances of a partition's cores, its waiting requests and its writes of the quantum, with their keys changed. -/
def State.rekey (s : State) (p : Nat) (f : Nat → Nat) : State :=
  let mine := fun (c : Nat) => decide (c < 4096) && s.pOf c == p
  { s with
    cores := AMap.mapVals (fun n k =>
      if mine n then { k with lanes := k.lanes.map (fun e => { e with pa := f e.pa }), advs := k.advs.map (fun a => { a with pa := f a.pa }) } else k) s.cores
    homes := AMap.mapVals (fun _ h =>
      { h with wait := h.wait.map (fun l => if mine l.src then { l with body := l.body.setPa (f l.body.addr.1) } else l) }) s.homes
    wr := s.wr.map (fun w => if mine w.core then { w with key := f w.key } else w) }

/-- The words of a controller's command that lie in one of the frames `from`, now in each of the frames `to`. -/
def moveKeys (n : Nat) (src dst : List Nat) (l : List Nat) : List Nat :=
  match l with
  | [] => []
  | k :: _ =>
    match src.find? (fun f => decide (4096 * f ≤ k) && decide (k < 4096 * f + n)) with
    | some f => dst.map (fun g => 4096 * g + (k - 4096 * f))
    | none => l

/-- The controllers' commands with their words in other frames (R399). -/
def State.moveCmds (s : State) (n : Nat) (src dst : List Nat) : State :=
  let mv := fun (c : RCmd) => ({ c with k14 := moveKeys n src dst c.k14, k15 := moveKeys n src dst c.k15 } : RCmd)
  { s with rlcs := AMap.mapVals (fun _ x => x.mapCmds mv) s.rlcs }

/-- The attribute bits [53:52] and [11:2] of an entry. -/
def attrBits (e : Word) : Nat := bitsNat e 52 2 * 2 ^ 52 + bitsNat e 2 10 * 4

/-- A page evicted (R152): V cleared, the translation invalidated, the frame written back where D = 1, and free. A clean page
returns to what it was brought in from; one that software filled is written back too where the backing range has room (log 17). What is on its way to
the page waits for it (R262). -/
def State.evict (s : State) (p : Nat) (r : Resident) : State :=
  match s.walk p r.va with
  | .leaf lvl slot e =>
    let sz := pageSize lvl
    let n := pagesOf lvl
    let P := s.part p
    let f := pteAddr e / 4096
    let base := r.va / sz * sz
    let frames := framesOf p P.dies f (pteRepl e)
    let dest : Option Nat := match r.backing with
      | some b => some b
      | none => if s.mustWrite f lvl e || r.host then chooseRun n s.fresh P.backing else none
    let e' : Nat := match dest with
      | some b => attrBits e % 2 ^ 64 + b * 4096 + 2
      | none => attrBits e
    let e'' : Nat := (BitVec.ofNat 64 e' &&& 0xFFFFFFFFFFFFFF9F).toNat
    let s1 := ((s.onMem (fun m => m.write slot 8 e'')).dropTlb p (fun t => t.inRange base sz)).tick
    let s2 := match dest with
      | some b => if s.mustWrite f lvl e || r.host then (s1.onMem (fun m => m.copyRun (4096 * f) (4096 * b) sz)).moveCmds sz frames [b] else s1
      | none => s1
    (s2.rekey p (goneKey base sz frames)).onPart p (fun P => { P with
      backing := (match dest with | some b => rangesDel b n P.backing | none => P.backing)
      free := frames.foldl (fun l g => rangesAdd g n l) P.free
      resident := P.resident.filter (fun x => !(x.va == r.va && x.lvl == r.lvl))
      evicted := (base, sz) :: P.evicted.filter (fun x => x.1 != base) })
  | .absent _ _ _ | .bad => s

/-- What firmware's search for a frame comes to: it has one; every page that may leave is in an engine's use, whose end the invalidation awaits (R328,
R415); or there is none. -/
inductive Sought (α : Type) where
  | got (a : α)
  | later
  | none

/-- One page evicted, which one being firmware's choice. -/
def State.evictOne (s : State) (p : Nat) (need : List Nat) : Sought State :=
  let l := (s.part p).resident.filter (fun r => s.evictable p need r)
  let now := l.filter (fun r => !s.inUse p r)
  match now[Config.victim s.fresh % now.length]? with
  | some r => .got (s.evict p r)
  | none => if l.isEmpty then .none else .later

/-- Pages evicted, at most `k` of them, until the pool has the frames of a page (step 2 of R152). -/
def State.evictFor (s : State) (p n : Nat) (need : List Nat) (repl : Bool) : Nat → Sought (Nat × State)
  | 0 => .none
  | k + 1 =>
    match s.evictOne p need with
    | .none => .none
    | .later => .later
    | .got s1 =>
      match s1.fromPool p n repl with
      | some r => .got r
      | none => s1.evictFor p n need repl k

/-- A frame for a page by steps 1 to 3 of R152, and then the reserve filled again; `grant` says whether the reserve may serve. -/
def State.takeFrame (s : State) (p n : Nat) (need : List Nat) (table repl grant : Bool) : Sought (Nat × State) :=
  let fill := fun (r : Nat × State) => (Sought.got (r.1, r.2.onPart p (fun P => Part.refill r.2.fresh 40 P)) : Sought (Nat × State))
  match s.fromPool p n repl with
  | some r => fill r
  | none =>
    match s.evictFor p n need repl (s.part p).resident.length with
    | .got r => fill r
    | .later => .later
    | .none =>
      match if grant then s.fromReserve p n table repl else none with
      | some r => fill r
      | none => .none

/-! ### Paging in (R420) -/

/-- What the service of one level comes to. -/
inductive PageIn where
  | done (s : State)
  | unmapped
  | noFrame
  | later

/-- The frames of a page made ready from a source of contents. -/
def State.fillFrames (s : State) (p f n : Nat) (repl : Bool) (src : Option Nat) : State :=
  (framesOf p (s.part p).dies f repl).foldl (fun s g => s.onMem (fun m =>
    match src with
    | some b => m.copyRun (4096 * b) (4096 * g) (4096 * n)
    | none => m.zero (4096 * g) (4096 * n))) s

/-- A level-1 table with V = 0 and the attributes of its root entry in each word (R420), its frame's full-empty bits empty (R146). -/
def Memory.fillTable (m : Memory) (k bits : Nat) : Memory :=
  (upTo 512).foldl (fun m i => m.write (k + 8 * i) 8 bits) (m.zero k 4096)

/-- A page now resident in a partition: it takes the place of what was known of its address. -/
def Part.reside (P : Part) (r : Resident) : Part :=
  { P with resident := P.resident.filter (fun x => !(x.va == r.va && x.lvl == r.lvl)) ++ [r] }

/-- A page stands in its frames: its entry is valid, dirty where a controller's command will store to it, and what waited for the page finds it. -/
def State.placed (s : State) (p slot : Nat) (e : Word) (f lvl : Nat) (src : Option Nat) (base : Nat) : State :=
  let sz := pageSize lvl
  let frames := framesOf p (s.part p).dies f (pteRepl e)
  let s1 := match src with
    | some b => s.moveCmds sz [b] frames
    | none => s
  let d := if s1.rlcs.any (fun x => x.2.pins (4096 * f) sz) then 64 else 0
  (s1.onMem (fun m => m.write slot 8 (attrBits e ||| d + f * 4096 + 3))).rekey p (backKey base sz frames)

/-- Service of an absent entry (R420). -/
def State.pageIn (s : State) (p va : Nat) (need : List Nat) (grant : Bool) : PageIn :=
  match s.walk p va with
  | .leaf _ _ _ | .bad => .done s
  | .absent lvl slot e =>
    if lvl = 0 then
      if pteLeaf e || !pteR e then .unmapped
      else match s.takeFrame p 1 need true false grant with
        | .got (f, s1) => .done (s1.onMem (fun m => (m.fillTable (4096 * f) (attrBits e)).write slot 8 (f * 4096 + 1)))
        | .later => .later
        | .none => .noFrame
    else if !pteLeaf e && !pteR e then .unmapped
    else
      let n := pagesOf lvl
      let src : Option Nat := if pteLeaf e then some (pteAddr e / 4096) else none
      match s.takeFrame p n need false (pteRepl e) grant with
      | .got (f, s1) =>
        .done (((s1.fillFrames p f n (pteRepl e) src).placed p slot e f lvl src (va / pageSize lvl * pageSize lvl)).onPart p (fun P =>
          P.reside ⟨va / pageSize lvl * pageSize lvl, lvl, src, false⟩))
      | .later => .later
      | .none => .noFrame

/-- What firmware's own need of a page comes to: its leaf stands there, the host is to be asked for it (step 4 of R152, R421), an engine's use of
the pages that could leave has first to end, or nothing is mapped. -/
inductive Brought where
  | here (s : State)
  | ask (s : State)
  | later (s : State)
  | unmapped

/-- Service for firmware itself, until the address has a leaf: at most one table and one page. No page of `need` is evicted for it, and the
reserve serves a parked context alone (R152). In host-assisted mode the host serves (R421, R428). -/
def State.bringIn (s : State) (p va : Nat) (need : List Nat) : Nat → Brought
  | 0 => .here s
  | n + 1 =>
    match s.walk p va with
    | .leaf _ _ _ => .here s
    | .bad => .unmapped
    | .absent _ _ _ =>
      if (s.part p).pfHost then .ask s
      else match s.pageIn p va need false with
      | .done s1 => s1.bringIn p va need n
      | .unmapped => .unmapped
      | .noFrame => .ask s
      | .later => .later s

/-! ### PRI requests (R421) -/

/-- A free tag, the lowest being the model's choice (log 72), where the host's allocation leaves room for one more request. -/
def State.freePri (s : State) : Option Nat :=
  if s.pkg.priAlloc ≤ s.pkg.pri.length then none else (upTo 512).find? (fun t => (AMap.find s.pkg.pri t).isNone)

/-- Firmware asks the host for a page that it needs itself, where it has not asked already: for the front end or a home's lodge. -/
def State.askFor (s : State) (p who va : Nat) : State :=
  if s.pkg.pri.any (fun e => e.2.part == p && e.2.core == 4096 && e.2.ctx == who) then s
  else match s.freePri with
    | none => s
    | some t => s.onPkg (fun g => { g with pri := AMap.set g.pri t ⟨p, 4096, who, va, false, s.time⟩ })

/-- The size of the page that maps an address, or of a small page where none does. -/
def State.pageSizeAt (s : State) (p va : Nat) : Nat :=
  match s.walk p va with
  | .leaf lvl _ _ => pageSize lvl
  | .absent _ _ _ | .bad => 4096

end Sys2Proof.Machine
end

