-- ==== Sys2Proof/Machine/Front.lean ====
section
/-!
DEFINITION. The front unit's instructions (R350-R357) and events (R340, R333, R347). Its answers come at once (log 9).
-/

namespace Sys2Proof.Machine

/-- A binding or unbinding of a partition outside deterministic mode: those of one cycle go in the order of logical core and context (R334). -/
def State.bindTurn (s : State) (f : State → Res Unit) : Res Unit :=
  let u := some (0x2000 + s.pOf s.cur.1)
  if s.detAt s.cur.1 then f s
  else if s.inTurn u s.cur.1 s.cur.2.val then f (s.noteTurn u s.cur.1 s.cur.2.val)
  else .stop (.wait .fence) s

/-- A front-unit change: performed now, or in deterministic mode at the quantum's end, the context parked till then (R453). -/
def frontChange (r : List Word) (now : State → Res Unit) (s : State) : Res Unit :=
  if s.detAt s.cur.1 then
    .stop (.park .quantum) (s.onPart (s.pOf s.cur.1) (fun P => { P with fevs := P.fevs ++ [.op s.cur.1 s.cur.2.val r] }))
  else now s

/-- LVBIND (R351). -/
def execLvbind (d a b : GReg) (front : BitVec 16) (s : State) : Host.Outcome State Fault Refusal :=
  let p := s.g a
  run (if p.toNat % 8 != 0 then trapAt .misalign p s
    else (s.readWords p [] 15).bind fun r s => frontChange r (fun s => s.bindTurn (fun s => s.lvbindDo d (s.g b) front r)) s)

/-- LVUNBIND (R353). -/
def execLvunbind (d a : GReg) (s : State) : Host.Outcome State Fault Refusal :=
  run (frontChange [] (fun s => s.bindTurn (fun s => .ok () (s.lvunbindDo d (s.g a)))) s)

/-- The blocks of a partition as their boards stood at the quantum's start, with their ids. -/
def State.blks0 (s : State) (p : Nat) : List (Nat × Blk) :=
  (upTo (s.part p).dies).flatMap (fun i => (s.fu (p + i)).start.map (fun e => (i * 4096 + e.1, e.2)))

/-- The blocks that LVREAD and LVSTAT see: in deterministic mode the boards at the quantum's start, but for the blocks that the reading core has
changed in the quantum (R59, R349). -/
def State.blksSeen (s : State) : List (Nat × Blk) :=
  let p := s.pOf s.cur.1
  let own := fun (e : Nat × Blk) => (s.part p).mine.contains (s.cur.1, e.1)
  if (s.part p).det then (s.blks0 p).filter (fun e => !own e) ++ (s.blks p).filter own else s.blks p

/-- The block that an operand of LVREAD or LVSTAT names, as they see it; none for an operand that names no block (R350). -/
def State.blkSeen (s : State) (a : Word) : Option Blk :=
  if !(s.part (s.pOf s.cur.1)).det then s.blkAt a
  else if bitsNat a 15 49 != 0 then none
  else (s.blksSeen.find? (fun e => e.1 == a.toNat)).map (·.2)

/-- The state of a front as LVSTAT sees it, likewise. -/
def State.frontSeen (s : State) (tag num : Nat) : FrontSt :=
  let p := s.pOf s.cur.1
  if !(s.part p).det || (s.part p).mineF.contains (s.cur.1, tag, num) then s.frontSt p tag num
  else match (s.part p).fronts0.find? (fun f => f.part == p && f.tag == tag && f.num == num) with
    | some f => f.st
    | none => .running

/-- The level that LVREAD returns: in deterministic mode with the reading core's own commits of the quantum (R59, R453). -/
def State.seenLevel (s : State) (id : Nat) (b : Blk) : BitVec 32 :=
  (s.myPart.fevs).foldl (fun lv e =>
    match e with
    | .commit core _ i l => if core == s.cur.1 && i == id then l else lv
    | .op _ _ _ | .ended _ _ _ _ _ | .lease _ | .host _ _ => lv) b.level

/-- LVREAD (R354). -/
def execLvread (d a : GReg) (s : State) : Host.Outcome State Fault Refusal :=
  retired (s.setG d (match s.blkSeen (s.g a) with
    | none => 0
    | some b => BitVec.ofNat 64 (b.st.code * 2 ^ 60 + b.stage % 256 * 2 ^ 52 + b.steplog % 32 * 2 ^ 47 + (s.seenLevel (s.g a).toNat b).toNat)))

/-- LVCOMMIT (R355). -/
def execLvcommit (a b : GReg) (s : State) : Host.Outcome State Fault Refusal := run (s.lvcommitDo (s.g a) (s.g b))

/-- LVCMP (R356). -/
def execLvcmp (d a b : GReg) (off : BitVec 16) (s : State) : Host.Outcome State Fault Refusal :=
  retired (s.setG d (if serialGE ((s.g a).setWidth 32) ((s.g b).setWidth 32 + off.signExtend 32) then 1 else 0))

/-- LVFREEZE (R357). -/
def execLvfreeze (d a : GReg) (s : State) : Host.Outcome State Fault Refusal :=
  run (frontChange [] (fun s => .ok () (s.lvfreezeDo d (s.g a))) s)

/-- LVTHAW (R357). -/
def execLvthaw (d a : GReg) (s : State) : Host.Outcome State Fault Refusal :=
  run (frontChange [] (fun s => .ok () (s.lvthawDo d (s.g a))) s)

/-- LVSTAT (R354). -/
def execLvstat (d a : GReg) (s : State) : Host.Outcome State Fault Refusal :=
  retired (s.setG d (match s.blkSeen (s.g a) with
    | none => 3
    | some b =>
      let bs := s.blksSeen.filter (fun e => e.2.inFront b.tag b.front)
      let n := fun st => (bs.filter (fun e => e.2.st == st)).length
      BitVec.ofNat 64 (b.front % 2 ^ 16 * 2 ^ 48 + n .faulted % 2 ^ 16 * 2 ^ 32 + n .dispatched % 2 ^ 16 * 2 ^ 16 +
        (if bs.all (fun e => e.2.st == .done) then 4 else 0) + (s.frontSeen b.tag b.front).code)))

/-! ### Events -/

/-- The runnable block that a scan of a die's board reaches first (R340). -/
def State.scanNext (s : State) (die : Nat) : Option (Nat × Blk) :=
  let p := s.partKey die
  let u := s.fu die
  let l := u.board.map (fun e => (die * 4096 + e.1, e.2))
  (l.filter (fun e => decide (u.scan ≤ e.1 % 4096)) ++ l.filter (fun e => decide (e.1 % 4096 < u.scan))).find? (fun e => s.runnable p e.2)

/-- BLOCK_DISPATCH: a front unit dispatches the next runnable block of its scan (R340). Pre-emption holds dispatch back (R358); in
deterministic mode dispatch belongs to the quantum's end (R349). It comes in a later cycle than the die's latest commit (R436). -/
def execBlockDispatch (die : Nat) (s : State) : Host.Outcome State Fault Refusal :=
  let p := s.partKey die
  if (s.part p).det || (s.part p).pre != PreSt.running || (s.part p).frozen || (s.fu die).doneAt == some s.time then .next s
  else match s.scanNext die with
    | none => .next s
    | some (id, b) => .next (s.dispatch p id b)

/-- LEVEL_NOTICE: the oldest notice that has reached a front unit is applied (R333, R347). -/
def execLevelNotice (die : Nat) (s : State) : Host.Outcome State Fault Refusal :=
  let p := s.partKey die
  if (s.part p).det then .next s
  else match (s.fu die).notices with
    | [] => .next s
    | n :: t => .next ((s.onFu die (fun u => { u with notices := t })).applyNotice p n)

/-- LEVEL_PUBLISH: a context that waits in LVCOMMIT publishes its level once the conditions of R166 hold (R355) and its core
has its turn (R449). -/
def execLevelPublish (core ctx : Nat) (s : State) : Host.Outcome State Fault Refusal :=
  let s0 := s.at core ctx
  let x := s0.me
  if x.ready && x.stall == Stall.fence.code && !s.rests core then
    match decode x.latch.head x.latch.tail with
    | .ok (.lvcommit a b) =>
      match s0.lvcommitDo (s0.g a) (s0.g b) with
      | .ok _ s1 => .next s1.retire
      | .stop _ _ => .next s
    | .ok _ | .error _ => .next s
  else .next s

end Sys2Proof.Machine
end

