-- ==== Sys2Proof/Machine/Matrix.lean ====
section
/-!
DEFINITION. The matrix ring's instructions (R309-R313) and its completion event (R305, R308).
-/

namespace Sys2Proof.Machine

/-- An instruction of the ring; a wayfarer's raises SPACE-FOREIGN with TVAL 0. -/
def ringRun (r : Res Unit) (s : State) : Host.Outcome State Fault Refusal :=
  if s.me.activation.wayfarer then .next (s.takeStop (.trap (mkTrap .spaceForeign 0))) else run r

/-- A shadow word written. -/
def CoreSt.setShadow (k : CoreSt) (i : Nat) (v : Word) : CoreSt :=
  { k with shadow := k.shadow.set (i % 7) v (Nat.mod_lt _ (by decide)) }

/-- MPUT (R309). -/
def execMput (i : Fin 4) (a : GReg) (s : State) : Host.Outcome State Fault Refusal :=
  let x := s.g a
  ringRun (if i.val = 3 then
      if bitsNat x 27 37 != 0 || bitsNat x 0 16 < 8 || 16384 < bitsNat x 0 16 then trapAt .mparamBad x s
      else .ok () (s.onMyCore (fun k => k.setShadow 3 x))
    else if !s.ownLocal x then trapAt .mparamBad x s
    else .ok () (s.onMyCore (fun k => (k.setShadow i.val x).setShadow (4 + i.val) (s.viewOf x)))) s

/-- MGET (R309). -/
def execMget (d : GReg) (i : Fin 7) (s : State) : Host.Outcome State Fault Refusal :=
  ringRun (.ok () (s.setG d (s.myCore.shadow.get i))) s

/-- The checks on a barrier pointer that MGANG, MWAIT and MSTAT make (R310). -/
def State.barrier (s : State) (p : Word) : Res Unit :=
  if !isLocal p || spaceOf p != 2 then trapAt .spaceBad p s
  else match s.decodeAddr p 8 .load with
    | .error c => trapAt c p s
    | .ok _ => if p.toNat % 16 != 0 then trapAt .misalign p s else .ok () s

/-- The answer of a clasp taken by the member's MGANG (R296, R305). -/
def State.takeResult (s : State) (d : GReg) (bad : Bool) (v : Nat) : Res Unit :=
  let c := s.cur.1
  let n := s.cur.2.val
  let s1 := s.onRing (clusOf c) (fun r => { r with results := r.results.filter (fun x => !(x.1 == c && x.2.1 == n)) })
  if bad then trapAt .gangMismatch (BitVec.ofNat 64 v) s1 else .ok () (s1.setG d (BitVec.ofNat 64 v))

/-- A member that has issued joins the forming operation in its turn among those of its core (R295, R310); the last one closes the clasp, in
deterministic mode at the quantum's end (R316). -/
def State.join (s : State) (d : GReg) (m : Member) : Res Unit :=
  let cl := clusOf s.cur.1
  let first := (s.ring cl).first s.cur.1
  if !(s.ring cl).canJoin s.cur.1 || first.any (fun x => x.ctx != m.ctx) then .stop (.park (.clasp m.barrier)) s
  else
    let s1 := s.onRing cl (fun r =>
      { r with queue := r.queue.filter (fun x => !(x.core == m.core && x.ctx == m.ctx)), forming := r.forming ++ [m] })
    let s2 := if s.detAt s.cur.1 then s1 else s1.clasp cl
    match (s2.ring cl).result s.cur.1 s.cur.2.val with
    | some (bad, v) => s2.takeResult d bad v
    | none => .stop (.park (.clasp m.barrier)) s2

/-- The release of an MGANG, and its turn to join. -/
def State.gang (s : State) (d : GReg) (m : Member) : Res Unit := (s.release .memory).bind fun _ s => s.join d m

/-- MGANG (R310): the snapshot that it takes at issue stands while it waits to join (R298, R316); a member that has joined completes from where it
parked. -/
def execMgang (d a : GReg) (tag : BitVec 16) (s : State) : Host.Outcome State Fault Refusal :=
  let r := s.ring (clusOf s.cur.1)
  let p := s.g a
  let m : Member := ⟨s.cur.1, s.cur.2.val, s.myCore.shadow.toList, tag, p⟩
  ringRun (match r.result s.cur.1 s.cur.2.val with
    | some (bad, v) => s.takeResult d bad v
    | none =>
      if r.forming.any (fun x => x.core == s.cur.1 && x.ctx == s.cur.2.val) then .stop (.park (.clasp p)) s
      else match r.waiter s.cur.1 s.cur.2.val with
        | some w => s.gang d w
        | none => (s.barrier p).bind fun _ s =>
          match s.checkOp m with
          | some i => trapAt .mparamBad (m.w i) s
          | none => (s.onRing (clusOf s.cur.1) (fun r => { r with queue := r.queue ++ [m] })).gang d m) s

/-- MWAIT (R312). -/
def execMwait (a b : GReg) (s : State) : Host.Outcome State Fault Refusal :=
  let p := s.g a
  let want : BitVec 32 := (s.g b).setWidth 32
  ringRun ((s.barrier p).bind fun _ s => (s.readMem p 8 .none).bind fun w s =>
    if !serialGE (BitVec.ofNat 32 (w / 2 ^ 32)) want then .stop (.park (.phase p want)) s
    else (s.readMem (ptrPlus p 8) 8 .none).bind fun v s =>
      let st : Word := BitVec.ofNat 64 v
      if st.getLsbD 63 then trapAt .matrixDataError p s
      else if fcsrNanTrap s.me.fcsr && bitsNat st 57 3 != 0 then
        .stop (.trap ⟨.nanFirstMatrix, false, p, bitsNat st 0 16, bitsNat st 30 10 * 2 ^ 16 + bitsNat st 20 10, bitsNat st 40 12⟩) s
      else .ok () s) s

/-- MSTAT (R313). -/
def execMstat (d a : GReg) (s : State) : Host.Outcome State Fault Refusal :=
  let p := s.g a
  ringRun ((s.barrier p).bind fun _ s => (s.readMem (ptrPlus p 8) 8 .none).bind fun v s =>
    let st : Word := BitVec.ofNat 64 v
    if st.getLsbD 63 then trapAt .matrixDataError p s else .ok () (s.setG d st)) s

/-- MATRIX_FLIP: the running operation of a cluster completes (R305), in a later cycle than that in which it began (R436). In deterministic mode it completes at a quantum's end
(R316), and the event is not due. -/
def execMatrixFlip (cluster : Nat) (s : State) : Host.Outcome State Fault Refusal :=
  match (s.ring cluster).running with
  | none => .next s
  | some g => if s.detAt (16 * cluster) || g.since == s.time then .next s else .next (s.ringFlip cluster g)

end Sys2Proof.Machine
end

