-- ==== Sys2Proof/Machine/Streamer.lean ====
section
/-!
DEFINITION. The streamer's instructions (R322, R325) and events (R321, R322, R326-R329), and the writes of engines at cores and at
other engines (R251).
-/

namespace Sys2Proof.Machine

/-! ### Instructions -/

/-- CheckLayout (R323, R324): layout first, then the source's space, then the destination's. -/
def State.checkLayout (s : State) (p : Word) (r : List Word) (sv dv : Word) : Res Unit :=
  if layoutBad s.myTask s.myCore.board s.me.tag r sv dv then trapAt .layoutBad p s
  else match s.spanCheck (r.getD 0 0) (spanOf r sv dv false) false with
    | some c => trapAt c (r.getD 0 0) s
    | none =>
      match s.spanCheck (r.getD 1 0) (spanOf r sv dv true) true with
      | some c => trapAt c (r.getD 1 0) s
      | none => .ok () s

/-- The request of a CPREQ enters the board and leaves (R322). -/
def State.copySend (s : State) (str : Nat) (r : List Word) (sv dv : Word) : State :=
  let x := s.me
  let e : BoardE := ⟨x.tag, recId r, r.getD 11 0 != 0, .issued, 0, x.msgId, [], s.timeAt s.cur.1⟩
  (s.onMyCore (fun k => { k with board := k.board ++ [e] })).sendReq s.cur.1 (4096 + strEng str) 2
    (.copy s.cur.1 s.cur.2.val x.tag x.activation.m.msg.env.gen r sv dv) (x.sender s.cur.2.val)

/-- The counts of R50 as they were: a CPREQ counts toward no home (R322). -/
def keepRemote {α : Type} (v : Vector Nat 8) : Res α → Res α
  | .ok a s => .ok a (s.onMe (fun x => { x with remote := v }))
  | .stop k s => .stop k (s.onMe (fun x => { x with remote := v }))

/-- CPREQ (R321, R322). -/
def execCpreq (a : GReg) (s : State) : Host.Outcome State Fault Refusal :=
  let p := s.g a
  run (if p.toNat % 8 != 0 then trapAt .misalign p s
    else if 64 ≤ s.myCore.board.length then .stop (.wait .fabric) s
    else (keepRemote s.me.remote (s.readWords p [] 14)).bind fun r s =>
      let sv := s.viewOf (r.getD 0 0)
      let dv := s.viewOf (r.getD 1 0)
      (s.checkLayout p r sv dv).bind fun _ s => (s.strChoose (r.getD 0 0) (r.getD 1 0)).bind fun str s =>
        (s.release .memory).bind fun _ s =>
          if (s.ep s.cur.1).backlog.isEmpty && (s.ep s.cur.1).canSend (4096 + strEng str) then .ok () (s.copySend str r sv dv)
          else .stop (.wait .fabric) s)

/-- The entry that CPTEST and CPWAIT name (R325). -/
def State.xferEntry (s : State) (id : Word) : Res BoardE :=
  match (if bitsNat id 16 48 != 0 || id == 0 then none else s.myCore.entry s.me.tag id.toNat) with
  | some e => .ok e s
  | none => trapAt .xferIdBad id s

/-- An entry freed. -/
def State.freeEntry (s : State) (e : BoardE) : State :=
  s.onMyCore (fun k => { k with board := k.board.filter (fun x => !(x.tag == e.tag && x.xferid == e.xferid)) })

/-- An entry changed. -/
def State.setEntry (s : State) (e : BoardE) : State :=
  s.onMyCore (fun k => { k with board := k.board.map (fun x => if x.tag == e.tag && x.xferid == e.xferid then e else x) })

/-- CPTEST (R325): a final state frees the entry; one with DONEIP set stays for the CPWAITs that have yet to return it (R321). -/
def execCptest (d a : GReg) (s : State) : Host.Outcome State Fault Refusal :=
  run ((s.xferEntry (s.g a)).bind fun e s =>
    .ok () ((if e.st.final && (!e.doneip || e.waiters.isEmpty) then s.freeEntry e else s).setG d e.word))

/-- CPWAIT (R325): the last CPWAIT to return a final state frees the entry (R331). -/
def execCpwait (d a : GReg) (s : State) : Host.Outcome State Fault Refusal :=
  run ((s.xferEntry (s.g a)).bind fun e s =>
    let me := (s.cur.2.val, s.me.msgId)
    let others := e.waiters.filter (· != me)
    if !e.st.final then .stop (.park (.xfer (s.g a))) (s.setEntry { e with waiters := others ++ [me] })
    else .ok () ((if others.isEmpty then s.freeEntry e else s.setEntry { e with waiters := others }).setG d e.word))

/-! ### Events -/

/-- COPY_ACCEPT: the next request of a pair takes a free channel, or BUSY where none is free (R317, R322). -/
def execCopyAccept (str : Nat) (s : State) : Host.Outcome State Fault Refusal :=
  let ep := 4096 + strEng str
  match (s.ep ep).due (fun r => r.body.sort == .copy) with
  | none => .next s
  | some (r, left) =>
    match r.body with
    | .copy core ctx tag gen rcd sv dv =>
      match (upTo 16).find? (fun n => (AMap.find (s.str str).chans n).isNone) with
      | none => .next (s.busy ep r left)
      | some n =>
        let c : StrChan := ⟨core, ctx, tag, gen, rcd, sv, dv, r.num, 0, [], 0, false, 0, 0, false, none, []⟩
        .next (((((s.took ep r left).respond ep r.src r.num .ok).onStr str (fun x => { x with chans := AMap.set x.chans n c })).boardPush c
          .accepted).copyEvent str 0 c)
    | .msg _ | .rld _ _ _ _ _ _ | .rst _ _ _ _ _ _ _ _ _ _ | .rat _ _ _ _ _ _ _ _ _ | .repl _ _ _ _ _ _ _ | .ewr _ _ _ _ _
    | .xfer _ _ _ _ _ | .wst _ _ _ | .notice _ _ => .next s

/-- PlaceOf for the issuer of a copy (R230, R329), as a core. -/
def State.placeFor (s : State) (core : Nat) (p : Word) : Nat :=
  let (b, n) := s.coreRange core
  s.knum core (if isLocal p then localOwner p else hownIn b n (vaOf p))

/-- TIME at the CPREQ of a copy, as its board entry holds it: its place in the issue order of R58. -/
def State.copyBorn (s : State) (c : StrChan) : Nat :=
  match (s.core c.core).board.find? (fun e => e.tag == c.tag && e.xferid == recId c.rcd) with
  | some e => e.born
  | none => s.timeAt c.core

/-- A completion message of a copy (R329). -/
def State.copyMsg (s : State) (str dest q : Nat) (c : StrChan) (ip g2 : Word) (info : MsgInfo) : State :=
  (s.engineMsg (strEng str) c.core c.ctx dest
    ⟨⟨s.lnum c.core, c.ctx, q, c.tag, c.gen, 0, 3, Config.freeSeq s.fresh⟩,
     [ip, BitVec.ofNat 64 (recId c.rcd), g2, BitVec.ofNat 64 c.bytes, c.rcd.getD 13 0], [], info⟩ (s.copyBorn c)).tick

/-- A copy that ends (R329): the channel freed, the final state on its way to the board, and DONE where DONEIP is set. -/
def State.copyEnd (s : State) (str ch : Nat) (c : StrChan) (st : XferSt) : State :=
  let s1 := (s.onStr str (fun x => { x with chans := AMap.del x.chans ch })).boardPush c st
  if c.rcd.getD 11 0 = 0 then s1
  else s1.copyMsg str c.core (rf c.rcd 17 3) c (c.rcd.getD 11 0) (if st = .faulted then 0x141 else 0) (.copyDone (recId c.rcd))

/-- A request for a copy of a partition is on its way to a streamer that has a channel free. -/
def State.copyAsked (s : State) (p : Nat) : Bool :=
  (s.cores.filter (fun e => s.pOf e.1 == p)).any (fun e =>
    ((s.ep e.1).out.map (fun o => (o.dest, o.body)) ++ (s.ep e.1).backlog.map (fun b => (b.dest, b.body))).any (fun x =>
      x.2.sort == .copy && decide ((s.str (engStr (x.1 - 4096))).chans.length < 16)))

/-- Where a copy stands in the order of R58: its issuer's core and context, and its place among the transfers of that core. -/
def State.copyRank (s : State) (c : StrChan) : Nat × Nat × Nat :=
  (c.core, c.ctx, ((s.core c.core).board.findIdx? (fun e => e.tag == c.tag && e.xferid == recId c.rcd)).getD 64)

/-- One rank goes before another. -/
def rankBelow (a b : Nat × Nat × Nat) : Bool :=
  decide (a.1 < b.1) || (a.1 == b.1 && (decide (a.2.1 < b.2.1) || (a.2.1 == b.2.1 && decide (a.2.2 < b.2.2))))

/-- A context of a core waits in LVCOMMIT for copies that its activation asked for (R166, R355). -/
def State.commitWaits (s : State) (core : Nat) : Bool :=
  (upTo 4).any (fun n =>
    let x := s.ctx core n
    x.ready && x.stall == Stall.fence.code && !s.copiesDone x.activation && (match decode x.latch.head x.latch.tail with
      | .ok (.lvcommit _ _) => true
      | .ok _ | .error _ => false))

/-- A core that waits so has a request for a copy on its way to a streamer with no channel free. -/
def State.commitBusy (s : State) (core : Nat) : Bool :=
  s.commitWaits core &&
    ((s.ep core).out.map (fun o => (o.dest, o.body)) ++ (s.ep core).backlog.map (fun b => (b.dest, b.body))).any (fun x =>
      x.2.sort == .copy && decide (16 ≤ (s.str (engStr (x.1 - 4096))).chans.length))

/-- A copy moves before the quantum's end: LVCOMMIT, which completes within its quantum (R349), waits for it, or for the channel that it has. -/
def State.copyEarly (s : State) (c : StrChan) : Bool :=
  s.commitWaits c.core || s.cores.any (fun e => s.pOf e.1 == s.pOf c.core && s.commitBusy e.1)

/-- A channel may move on: in deterministic mode only when every logical core has ended its quantum, or LVCOMMIT waits for it, one copy after another
in the order of R58 (R173, R331, R349; log 41). -/
def State.copyTurn (s : State) (c : StrChan) : Bool :=
  let p := s.pOf c.core
  let first := fun (q : StrChan → Bool) => (s.chansOf p).all (fun d => !q d || !rankBelow (s.copyRank d) (s.copyRank c))
  !(s.part p).det || (if s.allEnded p then !s.copyAsked p && first (fun _ => true) else s.copyEarly c && first s.copyEarly)

/-- COPY_COMPLETE: a channel with an element left reads or writes the next word of it, or parks in the lodge of the streamer's home where a page is not
present (R327); with none left and every write performed the copy ends (R329, log 23). -/
def execCopyComplete (str ch : Nat) (s : State) : Host.Outcome State Fault Refusal :=
  match AMap.find (s.str str).chans ch with
  | none => .next s
  | some c =>
    if c.lodged || !s.copyTurn c then .next s
    else match s.copyNext str c with
      | .waits | .fault _ => .next s
      | .read p pg n held => .next ((s.onChan str ch (fun x => { x with held := held })).readPart str ch n c p pg)
      | .write p pg n => .next (s.writePart str ch c n (planOf c.rcd c.sv c.dv).unit p pg)
      | .absent _ =>
        if 64 ≤ s.lodgeCount (strHome str) then .next s
        else
          let c' : StrChan := { c with lodged := true, held := [] }
          .next ((((s.onChan str ch (fun _ => c')).onHome (strHome str) (fun h =>
            { h with lodge := h.lodge ++ [⟨c.core, c.num, .copy c.core c.ctx c.tag c.gen c.rcd c.sv c.dv, s.time, s.time⟩] })).boardPush c'
              .lodged).copyEvent str 1 c')
      | .ended =>
        let s1 :=
          if c.rcd.getD 12 0 = 0 then s
          else s.copyMsg str (s.placeFor c.core (c.rcd.getD 1 0)) (rf c.rcd 20 3) c (c.rcd.getD 12 0) (c.rcd.getD 1 0) .arrive
        .next ((s1.copyEnd str ch c .complete).copyEvent str 2 c)

/-- COPY_FAULT: the next element fails (R327): XFER-FAULT with the VA and the XFERID, and the copy ends faulted (R329). -/
def execCopyFault (str ch : Nat) (s : State) : Host.Outcome State Fault Refusal :=
  match AMap.find (s.str str).chans ch with
  | none => .next s
  | some c =>
    if c.lodged || !s.copyTurn c then .next s
    else match s.copyNext str c with
      | .fault p =>
        let q := s.pOf c.core
        let va : Word := BitVec.ofNat 64 (vaOf p)
        let s1 := if str < 8 then s.recordE q str .xferFault va (recId c.rcd) else s.recordX q (str - 8) .xferFault va (recId c.rcd)
        .next ((s1.copyEnd str ch c .faulted).copyEvent str 3 c)
      | .ended | .waits | .read _ _ _ _ | .write _ _ _ | .absent _ => .next s

/-- TRANSFER_BOARD_UPDATE: the oldest change for a core's board (R321). In deterministic mode the board changes only at a quantum's
end (R331), and the event is not due. -/
def execTransferBoardUpdate (core : Nat) (s : State) : Host.Outcome State Fault Refusal :=
  if s.detAt core then .next s
  else match takeFirst (fun (u : BoardUpd) => u.core == core) s.boardUpd with
    | none => .next s
    | some (u, t) => .next ({ s with boardUpd := t }.boardApply u)

/-- The core for which a channel writes; 4,096 where it has ended. -/
def State.writerOf (s : State) (str ch : Nat) : Nat :=
  match AMap.find (s.str str).chans ch with
  | some c => c.core
  | none => 4096

/-- ENGINE_WRITE: an EWR request writes a core's memory and is acknowledged (R251). -/
def execEngineWrite (core : Nat) (s : State) : Host.Outcome State Fault Refusal :=
  match (s.ep core).due (fun r => r.body.sort == .ewr) with
  | none => .next s
  | some (r, left) =>
    match r.body with
    | .ewr k bytes how str ch =>
      .next ((((s.took core r left).noteCopy (s.writerOf str ch) k bytes how.fe).engineWrite k bytes how).respond core r.src r.num .ok)
    | .msg _ | .copy _ _ _ _ _ _ _ | .rld _ _ _ _ _ _ | .rst _ _ _ _ _ _ _ _ _ _ | .rat _ _ _ _ _ _ _ _ _ | .repl _ _ _ _ _ _ _
    | .xfer _ _ _ _ _ | .wst _ _ _ | .notice _ _ => .next s

/-- A streamer's read at a home (R318): the block, with the mark of a word that is poisoned in the data's place (R326; log 20). -/
def State.xferRead (s : State) (eng src num ch pa n : Nat) : State :=
  let die := if eng < 8 then eng else match AMap.find (s.str (engStr (src - 4096))).chans ch with
    | some c => strDie (engStr (src - 4096)) c.core
    | none => 0
  (s.scrub die pa n).respond (4096 + eng) src num
    ⟨.done, 0, if s.mem.poisoned pa n then 1 else 0, s.mem.bytes (64 * blockOf pa) 64, false⟩

/-- XFER_RECEIVE: data for another engine or from it, or a phase of a replica write (R142, R251). A read of a marked line waits (R142), and so do
a write of a full word while the word is pending and one to a replicated page while its block is being written (R141, R261). -/
def execXferReceive (eng : Nat) (s : State) : Host.Outcome State Fault Refusal :=
  let ep := 4096 + eng
  match (s.ep ep).due (fun r => r.body.sort == .repl || r.body.sort == .xfer || (r.body.sort == .read && r.kind == 7)) with
  | none => .next s
  | some (r, left) =>
    match r.body with
    | .repl job phase pa size val fe bad => .next (((s.took ep r left).replicaApply eng (r.src - 4096) job phase pa size val fe bad).respond ep r.src r.num .ok)
    | .xfer pa bytes how str ch =>
      if how.fe && pendingIn s.mem pa bytes.length then .next s
      else if how.repl = 0 then
        .next ((((s.took ep r left).noteCopy (s.writerOf str ch) pa bytes how.fe).engineWrite pa bytes how).respond ep r.src r.num .ok)
      else if (s.home eng).busyBlock pa then .next s
      else .next (((s.took ep r left).replStart eng r.src r.num how.repl pa bytes.length (leNat bytes) 0 how.fe how.bad 0).serveAll eng)
    | .rld _ _ ch pa n _ =>
      if sMem (blockOf pa) (s.home eng).marks then .next s else .next ((s.took ep r left).xferRead eng r.src r.num ch pa n)
    | .msg _ | .copy _ _ _ _ _ _ _ | .rst _ _ _ _ _ _ _ _ _ _ | .rat _ _ _ _ _ _ _ _ _ | .ewr _ _ _ _ _ | .wst _ _ _ | .notice _ _ => .next s

end Sys2Proof.Machine
end

