-- ==== Sys2Proof/Machine/Quantum.lean ====
section
/-!
DEFINITION. Deterministic mode (R57-R61, R331, R349, R406, R453): the end of a logical core's quantum, and of the quantum of a shape.
-/

namespace Sys2Proof.Machine

/-- The order of R58: ascending requester core, then context. -/
def r58 (a b : Nat × Nat) : Bool := decide (a.1 < b.1) || (a.1 == b.1 && decide (a.2 ≤ b.2))

/-- The logical cores of a shape on which nothing runs have ended their quantum: what becomes dispatchable now waits for the next (R57,
R423). -/
def State.endQuiet (s : State) (p : Nat) : State :=
  (s.shapeCores p).foldl (fun s c => if !(s.core c).qdone && s.quiet c then s.onCore c (fun k => { k with qdone := true }) else s) s

/-! ### The order of a quantum (R57, R172, R173) -/

/-- A context of a core has issued an instruction whose access is on its way. -/
def State.inFlight (s : State) (core : Nat) : Bool :=
  (upTo 4).any (fun c => let x := s.ctx core c; x.st == .running && (x.rpend || !x.rbuf.isEmpty || x.fill != .none))

/-- A core has an instruction to issue or an activation to start in this quantum. -/
def State.detActive (s : State) (core : Nat) : Bool :=
  let k := s.core core
  !k.qdone && !s.rests core && decide (k.retired < k.quant.toNat) &&
    (upTo 4).any (fun c => (k.ctx c).st == .running || (k.ctx c).atBkpt || (s.offered core c).isSome)

/-- The logical core whose turn it is to issue within a quantum (log 41): among those with something to do, the one that has retired fewest,
the lowest among equals; one whose next context a debugger keeps has still to issue (R198). It starts its activations first, and no instruction of
another core is on its way. -/
def State.detTurn (s : State) (core : Nat) : Bool :=
  !s.detWork (s.pOf core) && (upTo 4).all (fun c => (s.offered core c).isNone) &&
    (s.inFlight core || (s.shapeCores (s.pOf core)).all (fun n => n == core ||
      ((s.core n).lanes.isEmpty && !s.inFlight n && (!s.detActive n || r58 ((s.core core).retired, core) ((s.core n).retired, n)))))

/-- A core issues nothing now: it is idle, or in deterministic mode it is not its turn. -/
def State.barred (s : State) (core : Nat) : Bool := s.idle core || (s.detAt core && !s.detTurn core)

/-- A running context at the end of its core's quantum: parked until the next begins (R47). -/
def Ctx.quantumPark (x : Ctx) : Ctx := if x.st == .running then { x with st := .parked, await := .quantum, stall := Stall.quantum.code } else x

/-- A core that has ended its quantum (R47, R57). -/
def CoreSt.endQuantum (k : CoreSt) : CoreSt := { k with qdone := true, ctxs := k.ctxs.map Ctx.quantumPark }

/-- LOGICAL_QUANTUM_END (R47, R57). -/
def execLogicalQuantumEnd (core : Nat) (s : State) : Host.Outcome State Fault Refusal :=
  if s.detAt core && !(s.core core).qdone && !s.rests core && s.quantumOver core then .next (s.onCore core CoreSt.endQuantum)
  else .next s

/-! ### The end of the shape's quantum (R58, R349) -/

/-- A message that REQUEUE returned re-enters the tail of its queue in the slot that it kept (R234), or is discarded and counted where its task
has ended (R414; log 22). -/
def State.reenterAt (s : State) (core q slot : Nat) (m : Msg) : State :=
  let s1 := s.onCore core (fun k => { k with slotsHeld := k.slotsHeld.filter (· != slot) })
  if s.taskLive core m then
    s1.onCore core (fun k => k.setQueue q (k.queue q ++ [⟨m, slot, s.timeAt core, s.timeAt core, false, none⟩]))
  else s1.count (dieOf core) 0x07 1

/-- A delivery of the task queue (R58): admission against the queues as they stand. -/
def State.deliver (s : State) (d : Deliv) : State :=
  match d.back with
  | some (q, slot) => s.reenterAt d.dest q slot d.msg
  | none =>
    if 2 ≤ d.msg.env.kind then s.deliverHere d.dest d.msg none
    else match s.enters d.dest d.msg none (s.timeAt d.dest) with
      | (s', .refused c) => s'.refuse d.core d.msg d.snd (s.lnum d.dest) c
      | (s', .queued) | (s', .unbound) | (s', .discarded) | (s', .waits) => s'

/-- The order of R58 of two deliveries: by requester core and context, then as they were issued. -/
def Deliv.before (a b : Deliv) : Bool := if a.core = b.core ∧ a.ctx = b.ctx then decide (a.born ≤ b.born) else r58 (a.core, a.ctx) (b.core, b.ctx)

/-- Every delivery held in the task queue, in the order of R58; what they raise waits for the next end. -/
def State.deliverAll (s : State) (p : Nat) : State :=
  let l := sortBy Deliv.before (s.part p).taskq
  l.foldl (fun s d => s.deliver d) (s.onPart p (fun P => { P with taskq := [] }))

/-- The keys of the word of a channel advance as its home finds them at the quantum's end: its own first, and those of every other replica of
its page (R141). -/
def State.advKeys (s : State) (p : Nat) (a : Adv) : List Nat :=
  if isLocal a.va then [a.pa]
  else match s.walk p (vaOf a.va) with
    | .leaf lvl _ e =>
      let pa := pteAddr e + vaOf a.va % pageSize lvl
      if pteRepl e then pa :: ((upTo (s.part p).dies).map (fun i => replicaAt pa (p + i))).filter (· != pa) else [pa]
    | .absent _ _ _ | .bad => []

/-- A channel advance performed (R453); a failure is reported as that of a posted store (R195). -/
def State.advDo (s : State) (p core : Nat) (a : Adv) : State :=
  match s.advKeys p a with
  | [] => s.storeFault core a.ctx a.serial a.msgid a.tag a.colour.toNat (vaOf a.va)
  | k :: t =>
    if s.mem.poisoned k 8 then s.storeFault core a.ctx a.serial a.msgid a.tag a.colour.toNat (vaOf a.va)
    else
      let v := (s.mem.read k 8 + a.n) % 2 ^ 64
      (s.redirty core a.va).onMem (fun m => (k :: t).foldl (fun m k => m.store k 8 v) m)

/-- The channel advances of the quantum with their cores, in the order of R58. -/
def State.advList (s : State) (p : Nat) : List (Nat × Adv) :=
  (s.shapeCores p).flatMap (fun core => (sortBy (fun (a b : Adv) => decide (a.ctx ≤ b.ctx)) (s.core core).advs).map (fun a => (core, a)))

/-- The requester of R421 for a page of a channel advance, beside the front end and the lodges. -/
def advAsk : Nat := 0x40

/-- A channel advance performed, its page brought in first where firmware has evicted it (R262); false while that has still to be had. -/
def State.advTry (s : State) (p core : Nat) (a : Adv) : State × Bool :=
  if isLocal a.va then (s.advDo p core a, true)
  else match s.bringIn p (vaOf a.va) [] 4 with
  | .here s1 => (s1.advDo p core a, true)
  | .unmapped => (s.advDo p core a, true)
  | .ask s1 => (s1.askFor p advAsk (vaOf a.va), false)
  | .later s1 => (s1, false)

/-- The oldest channel advance of a context is no longer pending. -/
def State.dropAdv (s : State) (core ctx : Nat) : State :=
  s.onCore core (fun k => { k with advs := k.advs.eraseP (fun a => a.ctx == ctx) })

/-- Channel advances performed in order, as far as their pages can be had; true where none is left. -/
def State.advsRun (s : State) (p : Nat) : List (Nat × Adv) → State × Bool
  | [] => (s, true)
  | (core, a) :: t =>
    match s.advTry p core a with
    | (s1, true) => (s1.dropAdv core a.ctx).advsRun p t
    | (s1, false) => (s1, false)

/-- Every channel advance of the quantum performed (R453). -/
def State.advsDo (s : State) (p : Nat) : State × Bool := s.advsRun p (s.advList p)

/-- The host has refused the page of the first channel advance that needs it: that fails (R262, R421). -/
def State.advRefused (s : State) (p va : Nat) : State :=
  match (s.advList p).find? (fun x => !isLocal x.2.va && vaOf x.2.va / 4096 == va / 4096) with
  | some (core, a) =>
    (s.storeFault core a.ctx a.serial a.msgid a.tag a.colour.toNat (vaOf a.va)).onCore core (fun k => { k with advs := k.advs.erase a })
  | none => s

/-- The core and context of a front-unit event of a quantum; what no core raises comes after the rest (log 42). -/
def FEv.who : FEv → Nat × Nat
  | .op c x _ => (c, x)
  | .commit c x _ _ => (c, x)
  | .ended c x _ _ _ => (c, x)
  | .lease _ | .host _ _ => (4096, 0)

/-- The front-unit events of a quantum in their order (R58, R349). -/
def State.fevList (s : State) (p : Nat) : List FEv := sortBy (fun a b => r58 a.who b.who) (s.part p).fevs

/-- The notices of the quantum's commits (R349 step 1). -/
def State.commitNotices (s : State) (p : Nat) (l : List FEv) : State :=
  l.foldl (fun s e =>
    match e with
    | .commit _ _ id lv => s.tellNbrs p id lv
    | .op _ _ _ | .ended _ _ _ _ _ | .lease _ | .host _ _ => s) s

/-- The turn of its physical core given to a logical core, which resumes what resumes in it (R449). -/
def State.giveTurn (s : State) (core : Nat) : State :=
  match s.pairOf core with
  | some (_, h) => (s.onPkg (fun g => { g with turns := AMap.set g.turns h (core, s.time) })).wakeCore core
  | none => s

/-- A front-unit instruction that parked for the quantum's end, performed: it retires, or raises its cause (R453), in its core's turn (R449). -/
def State.opDo (s : State) (core ctx : Nat) (r : List Word) : State :=
  let s0 := (if s.rests core then s.giveTurn core else s).at core ctx
  let x := s0.me
  if (s.at core ctx).me.await != .quantum then s
  else
    let s1 := s0.resume core ctx
    let fin := fun (y : Res Unit) => match y with
      | .ok _ s => s.retire
      | .stop k s => s.takeStop k
    match decode x.latch.head x.latch.tail with
    | .ok (.lvbind d _ b front) => fin (s1.lvbindDo d (s1.g b) front r)
    | .ok (.lvunbind d a) => fin (.ok () (s1.lvunbindDo d (s1.g a)))
    | .ok (.lvfreeze d a) => fin (.ok () (s1.lvfreezeDo d (s1.g a)))
    | .ok (.lvthaw d a) => fin (.ok () (s1.lvthawDo d (s1.g a)))
    | .ok _ | .error _ => s

/-- A front-unit event of the quantum takes effect (R349 step 2). A block bound before a commit of the same end copied the level before it, and
hears of it then (R333). -/
def State.fevDo (s : State) (p : Nat) (e : FEv) : State :=
  match e with
  | .op core ctx r => s.opDo core ctx r
  | .commit _ _ id lv => (s.setLevel p id lv).tellNbrs p id lv
  | .ended _ _ id faulty committed => s.updateEnd p id faulty committed
  | .lease die => s.freezeDie die
  | .host id thaw => s.hostFront p id thaw

/-- Front-unit events take effect in order (R349). -/
def State.fevsDo (s : State) (p : Nat) (l : List FEv) : State := l.foldl (fun s e => s.fevDo p e) s

/-- Every runnable block dispatched, in ascending id (R349 step 3). -/
def State.dispatchAll (s : State) (p : Nat) : State :=
  if (s.part p).pre != PreSt.running then s
  else ((s.blks p).filter (fun e => s.runnable p e.2)).foldl (fun s e =>
    match s.blk p e.1 with
    | some b => s.dispatch p e.1 b
    | none => s) s

/-- The controllers' events of the quantum: RLCSTOP first (R406), then the others by issuing core (R394). -/
def State.rlcAll (s : State) (p : Nat) : State :=
  (upTo ((s.part p).shape / 16)).foldl (fun s i =>
    let cl := 32 * p + i
    let key : REv → Nat := fun e => match e with
      | .stop c => c % 16
      | .cmd c => 16 + c.core % 16
      | .report c _ _ => 16 + c
      | .ended c _ _ => 16 + c
    let l := sortBy (fun (a b : REv) => decide (key a ≤ key b)) (s.rlc cl).pend
    l.foldl (fun s e => s.rlcApply cl e) (s.onRlc cl (fun x => { x with pend := [] }))) s

/-- The rings at the end of a quantum: an operation whose clasp closed at an earlier end flips, then clasps close (R316). -/
def State.ringsAll (s : State) (p : Nat) : State :=
  (upTo ((s.part p).shape / 16)).foldl (fun s i =>
    let cl := 32 * p + i
    let s1 := match (s.ring cl).running with
      | some g => if g.quantum + 1 ≤ (s.part p).quanta then s.ringFlip cl g else s
      | none => s
    s1.clasp cl) s

/-- The board updates of a partition reach their boards, and the bytes of each copy under way stand as they are now (R331). -/
def State.boardsAll (s : State) (p : Nat) : State :=
  let s1 := (s.boardUpd.filter (fun u => s.pOf u.core == p)).foldl (fun s u => s.boardApply u)
    { s with boardUpd := s.boardUpd.filter (fun u => s.pOf u.core != p) }
  (s1.strs.flatMap (fun e => e.2.chans.map (·.2))).foldl (fun s c => if s.pOf c.core = p then s.boardShow c else s) s1

/-- A context whose condition holds at the quantum's end resumes (R59), that of a resting core in its next turn (R449). -/
def State.wake (s : State) (core ctx : Nat) : State :=
  if s.rests core then s.onCtx core ctx (fun x => { x with await := .none, stall := 0 }) else s.resume core ctx

/-- Each context that spent the end parked on a wait is charged QUANT, and resumes if its condition holds (R59): one parked at the end of its
core's quantum always (R47). -/
def State.wakeAll (s : State) (p : Nat) : State :=
  (s.shapeCores p).foldl (fun s core => (upTo 4).foldl (fun s c =>
    let x := s.ctx core c
    if x.st != .parked || x.hold then s
    else
      let s1 := if x.await.counts then
          s.onCtx core c (fun x => { x with budget := BitVec.ofNat 64 (x.budget.toNat - (s.core core).quant.toNat) })
        else s
      if s1.parkDue core c || x.await == .quantum then s1.wake core c else s1) s) s

/-- The turns of the physical cores that host two cores of a shape begin with the lower logical core (R449; log 41). -/
def State.firstTurns (s : State) (p : Nat) : State :=
  if s.pkg.fused.isEmpty then s
  else (s.shapeCores p).foldl (fun s c =>
    match s.pairOf c with
    | some (a, h) => if h = c then s.onPkg (fun g => { g with turns := AMap.set g.turns h (min a h, s.time) }) else s
    | none => s) s

/-- The next quantum begins: every core's count starts again, its rotation with context 0, and nothing is hidden any more (log 58). -/
def State.nextQuantum (s : State) (p : Nat) : State :=
  ({ s with
    cores := AMap.mapVals (fun n k => if s.pOf n = p then { k with retired := 0, qdone := false, rot := 3, synced := false } else k) s.cores
    wr := s.wr.filter (fun w => s.pOf w.core != p) } : State).firstTurns p

/-- The boards and fronts as they stand now are those of the quantum's start (R59, R349). -/
def State.startBoards (s : State) (p : Nat) : State :=
  ((upTo (s.part p).dies).foldl (fun s i => s.onFu (p + i) (fun u => { u with start := u.board })) s).onPart p (fun P =>
    { P with mine := [], mineF := [], fronts0 := s.fronts.filter (fun f => f.part == p) })

/-- Quanta go on: under pre-emption only while an activation or work of an engine has still to end (R49), so that a message that none has started
waits for the resumption in the quantum that gave it (log 65). -/
def State.quantaRun (s : State) (p : Nat) : Bool :=
  match (s.part p).pre with
  | .running => true
  | .asked => !s.allFree p || s.engineWork p
  | .saved => false

/-- The quantum of a shape can end (R57, R198, R423): every logical core has ended it and what it sent has been performed, its copies with it
(R173, log 41), disposition has acted on every held message, and no debugger keeps a context. -/
def State.quantumDue (s : State) (p : Nat) : Bool :=
  (s.part p).det && !(s.part p).frozen && s.quantaRun p && !s.detWork p && (s.chansOf p).isEmpty && !s.copyAsked p &&
    (s.shapeCores p).all (fun c =>
      let k := s.core c
      (k.qdone || s.quiet c) && k.lanes.isEmpty && k.queues.toList.all (fun q => q.all (fun m => !m.held)) &&
        (upTo 4).all (fun i => !(k.ctx i).debugged && !(k.ctx i).rpend))

/-- The end of the quantum in the order of R58, R316 and R349. -/
def State.quantumEnd (s : State) (p : Nat) : State :=
  let s1 := (s.onPart p (fun P => { P with quanta := P.quanta + 1, fevs := [] })).nextQuantum p
  let fevs := s.fevList p
  let s2 := (((s1.rlcAll p).boardsAll p).deliverAll p).commitNotices p fevs
  let raised := (s2.part p).taskq
  let s3 := (s2.onPart p (fun P => { P with taskq := [] })).fevsDo p fevs
  let s4 := ((s3.dispatchAll p).deliverAll p).onPart p (fun P => { P with taskq := raised ++ P.taskq })
  ((s4.ringsAll p).wakeAll p).startBoards p

/-! ### Several front-unit instructions of a context in one quantum (R360, R364, R453; log 42) -/

/-- A block as LVREAD and LVSTAT show it. -/
def Blk.shown (b : Blk) : Blk := { b with nbrs := [] }

/-- The blocks that show differently in two states. -/
def changedBlks (s t : State) (p : Nat) : List Nat :=
  (((s.blks p) ++ (t.blks p)).map (·.1)).eraseDups.filter (fun id => (s.blk p id).map Blk.shown != (t.blk p id).map Blk.shown)

/-- The fronts that stand differently in two states. -/
def changedFronts (s t : State) (p : Nat) : List (Nat × Nat) :=
  ((s.fronts ++ t.fronts).filter (fun f => f.part == p)).map (fun f => (f.tag, f.num)) |>.eraseDups.filter (fun f =>
    s.frontSt p f.1 f.2 != t.frontSt p f.1 f.2)

/-- A front-unit event performed before the quantum's end is over: what its core has changed that core sees from now on (R59, R349). -/
def State.fevEarly (s : State) (p : Nat) (e : FEv) : State :=
  let t := s.fevDo p e
  match e with
  | .op core _ _ | .commit core _ _ _ => t.onPart p (fun P =>
      { P with mine := P.mine ++ (changedBlks s t p).map (fun id => (core, id)), mineF := P.mineF ++ (changedFronts s t p).map (fun f => (core, f)) })
  | .ended _ _ _ _ _ | .lease _ | .host _ _ => t

/-- The events up to the first parked instruction, and those after it. -/
def splitOp : List FEv → List FEv × List FEv
  | [] => ([], [])
  | .op c x r :: t => ([.op c x r], t)
  | e :: t => let (a, b) := splitOp t; (e :: a, b)

/-- The core of the first front-unit instruction that is parked, where its quantum has instructions left: it goes on in the quantum (R360, log 42). -/
def State.passDue (s : State) (p : Nat) : Option Nat :=
  match (splitOp (s.fevList p)).1.getLast? with
  | some (.op core _ _) => if (s.core core).retired < (s.core core).quant.toNat then some core else none
  | some (.commit _ _ _ _) | some (.ended _ _ _ _ _) | some (.lease _) | some (.host _ _) | none => none

/-- The front-unit events up to the first parked instruction take effect, in the order of R58, and its context goes on in the quantum. -/
def State.frontPass (s : State) (p core : Nat) : State :=
  let (now, rest) := splitOp (s.fevList p)
  let s1 := now.foldl (fun s e => s.fevEarly p e) (s.onPart p (fun P => { P with fevs := [] }))
  (s1.onPart p (fun P => { P with fevs := rest ++ P.fevs })).onCore core (fun k => { k with qdone := false })

/-! ### Leaving deterministic mode (R61) -/

/-- Some core of a partition has a task (R25): an entry that an END has made INVALID holds none, though its activations may still run (log 45). -/
def State.launched (s : State) (p : Nat) : Bool :=
  s.cores.any (fun e => s.pOf e.1 == p && e.2.tasks.toList.any (fun t => t.st != .invalid))

/-- A partition out of deterministic mode (R61): GUESTCTX 0 and QUANT 8,192 on every core, TIME the cycle count again (R172). What the task queue
held is delivered (R56, R58). -/
def State.exitDet (s : State) (p : Nat) : State :=
  let s1 := s.onPart p (fun P => { P with det := false, shape := 0, fevs := [], mine := [], mineF := [], wraps := s.time / 2 ^ 48 })
  ({ s1 with
    cores := AMap.mapVals (fun n k =>
      if s.pOf n = p then { k with guest := false, quant := 8192, retired := 0, qdone := false, synced := false } else k) s1.cores
    wr := s1.wr.filter (fun w => s.pOf w.core != p) } : State).deliverAll p

/-- Deterministic mode left when the last task has ended (R61), once the channel advances of the quantum are performed (R46, R453). -/
def State.leaveDet (s : State) (p : Nat) : State :=
  if (s.part p).det && !s.launched p && s.allFree p then
    match s.advsDo p with
    | (s1, true) => s1.exitDet p
    | (s1, false) => s1
  else s

/-- QUANTUM_END (R58): a front-unit instruction that can go on in the quantum does first, and then the channel advances are performed. -/
def execQuantumEnd (part : Nat) (s : State) : Host.Outcome State Fault Refusal :=
  if !s.quantumDue part then .next s
  else match s.passDue part with
  | some core => .next (s.frontPass part core)
  | none =>
    match s.advsDo part with
    | (s1, true) => .next ((s1.quantumEnd part).leaveDet part)
    | (s1, false) => .next s1

end Sys2Proof.Machine
end

