-- ==== Sys2Proof/Machine/Tasks.lean ====
section
/-!
DEFINITION. Tasks on the cores of a partition (R125, R143, R145, R414), the disposition of held messages (R416, R423), the end of
deterministic mode (R61), and the invalidation of a range (R139, R415).
-/

namespace Sys2Proof.Machine

/-! ### Pins (R143) -/

/-- The steps of 4 KiB from an address that cover a range. -/
def pageSteps (va n : Nat) : List Nat := (upTo ((va % 4096 + n + 4095) / 4096)).map (fun i => va / 4096 * 4096 + 4096 * i)

/-- PIN of the leaf that maps an address set or cleared. -/
def State.setPin (s : State) (p va : Nat) (on : Bool) : State :=
  match s.walk p va with
  | .leaf _ slot e =>
    let n := e.toNat % 2 ^ 52 + bitsNat e 53 11 * 2 ^ 53 + (if on then 2 ^ 52 else 0)
    s.onMem (fun m => m.write slot 8 n)
  | .absent _ _ _ | .bad => s

/-- An extent's address range meets `n` bytes from an address. -/
def Ext.covers (x : Ext) (va n : Nat) : Bool := decide (x.base.toNat < va + n) && decide (va < x.base.toNat + x.len)

/-- Some VALID task of a partition pins the leaf that maps an address. -/
def State.pinned (s : State) (p va : Nat) : Bool :=
  let n := s.pageSizeAt p va
  s.cores.any (fun e => s.pOf e.1 == p && e.2.tasks.toList.any (fun t => t.st == .valid && t.exts.any (fun x => x.covers (va / n * n) n)))

/-- The pins of extents cleared, but for leaves that another task of the partition still pins. -/
def State.unpinAll (s : State) (p : Nat) (l : List Ext) : State :=
  l.foldl (fun s x => (pageSteps x.base.toNat x.len).foldl (fun s va => if s.pinned p va then s else s.setPin p va false) s) s

/-! ### The end of a task (R414) -/

/-- A message of a task entry. -/
def QMsg.ofTag (m : QMsg) (tag : Nat) : Bool := m.msg.env.tag == tag

/-- The messages of a task discarded and counted on one core, and those of the unbound queue refused or discarded (R37, R414). -/
def State.dropMsgs (s : State) (core tag : Nat) : State :=
  let k := s.core core
  let n := sumNat ((upTo 5).map (fun q => ((k.queue q).filter (fun m => m.ofTag tag)).length))
  let un := k.unbound.filter (fun m => m.ofTag tag)
  let s1 := s.onCore core (fun k => { k with
    queues := k.queues.map (fun q => q.filter (fun m => !m.ofTag tag))
    unbound := k.unbound.filter (fun m => !m.ofTag tag) })
  let s2 := un.foldl (fun s m =>
    if m.msg.env.kind ≤ 1 then s.respondTo core m.origin (Rsp.plain .refused Cause.badTask.code)
    else (s.count (dieOf core) 0x07 1).respondTo core m.origin .ok) s1
  if n = 0 then s2 else s2.count (dieOf core) 0x07 n

/-- A core without a task of an entry: the entry INVALID, its messages gone, and the tag table cleared where no task is left (R145). -/
def State.endOnCore (s : State) (core tag : Nat) : State :=
  if ((s.core core).task tag).st = .invalid then s
  else
    let s1 := s.onCore core (fun k => k.setTask tag { k.task tag with st := .invalid, exts := [] })
    let s2 := s1.dropMsgs core tag
    if (s2.core core).tasks.toList.all (fun t => t.st == .invalid) then
      s2.onCore core (fun k => { k with tags := AMap.mapVals (fun _ w => setField w 63 1 0) k.tags })
    else s2

/-- An activation that was the dispatch of a block which is bound no more. -/
def Act.orphan (a : Act) : Act :=
  match a.m.msg.info with
  | .dispatch _ => { a with m := { a.m with msg := { a.m.msg with info := .plain } } }
  | .plain | .arrive | .copyDone _ | .phase _ _ | .rlcExit _ _ => a

/-- The activations of a task, and wayfarers under way, hold no dispatch any more: what becomes of them reaches no later block of the id. -/
def State.orphanActs (s : State) (p tag : Nat) : State :=
  let f := fun (o : Option Act) => o.map (fun a => if a.m.msg.env.tag = tag then a.orphan else a)
  { s with cores := AMap.mapVals (fun n k => if s.pOf n = p then { k with
      ctxs := k.ctxs.map (fun x => { x with act := f x.act }), arrivals := k.arrivals.map (fun w => { w with act := f w.act }) } else k) s.cores }

/-- A front-unit event of a quantum about one of some blocks. -/
def FEv.about (ids : List Nat) : FEv → Bool
  | .commit _ _ id _ => ids.contains id
  | .ended _ _ id _ _ => ids.contains id
  | .op _ _ _ | .lease _ | .host _ _ => false

/-- The blocks of a task unbound, with what was to become of them, and its fronts gone (R353). -/
def State.endBlocks (s0 : State) (p tag : Nat) : State :=
  let ids := ((s0.blks p).filter (fun e => e.2.tag == tag)).map (·.1)
  let s := (s0.orphanActs p tag).onPart p (fun P => { P with fevs := P.fevs.filter (fun e => !e.about ids) })
  let s1 := ((s.blks p).filter (fun e => e.2.tag == tag)).foldl (fun s e =>
    match s.blk p e.1 with
    | some b => s.unbind p e.1 b
    | none => s) s
  { s1 with fronts := s1.fronts.filter (fun f => !(f.part == p && f.tag == tag)) }

/-- The commands of a task discarded with no exit message (R406). -/
def State.endRlc (s : State) (p tag : Nat) : State :=
  (s.rlcs.filter (fun e => s.pOf (16 * e.1) == p)).foldl (fun s e =>
    let gone := (e.2.queue.filter (fun c => c.tag == tag)).map (·.core) ++ (match e.2.run with | some r => if r.cmd.tag == tag then [r.cmd.core] else [] | none => [])
    (s.onRlc e.1 (fun x => { x with
      queue := x.queue.filter (fun c => c.tag != tag)
      run := (match x.run with | some r => if r.cmd.tag == tag then none else some r | none => none)
      latest := x.latest.filter (fun l => !gone.contains l.1)
      pend := x.pend.filter (fun v => match v with | .cmd c => c.tag != tag | .report _ _ _ | .ended _ _ _ | .stop _ => true) })).rlcNext e.1) s

/-- An activation of a task entry remains in a partition. -/
def State.taskRuns (s : State) (p tag : Nat) : Bool :=
  (s.partCtxs p).any (fun x => x.2.2.st != .free && x.2.2.tag == tag) ||
    s.cores.any (fun e => s.pOf e.1 == p && e.2.arrivals.any (fun w => match w.act with | some a => a.m.msg.env.tag == tag | none => false))

/-- The task of an entry ended on every core of a partition (R414). A frozen partition moves again once its last task has ended (R424). -/
def State.endTask (s : State) (p tag : Nat) : State :=
  let exts := (s.cores.filter (fun e => s.pOf e.1 == p)).flatMap (fun e => (e.2.task tag).exts)
  let s1 := (s.cores.filter (fun e => s.pOf e.1 == p)).foldl (fun s e => s.endOnCore e.1 tag) s
  (((((s1.unpinAll p exts).endBlocks p tag).endRlc p tag).onPart p (fun P => { P with frozen := P.frozen && s1.launched p }))).leaveDet p

/-! ### Held messages (R46, R416, R423) -/

/-- The held message of a core that a queue and an identifier name: a QSEL of 5 to 7 names no queue (R35). -/
def State.heldMsg (s : State) (core q id : Nat) : Option QMsg :=
  if q < 5 then ((s.core core).queue q).find? (fun m => m.held && m.msg.env.id == id) else none

/-- A held message released: an ordinary message at the head of its queue, its wait counted from now (R46). -/
def State.releaseMsg (s : State) (core q id : Nat) : State :=
  match s.heldMsg core q id with
  | none => s
  | some m =>
    s.onCore core (fun k =>
      let l := (k.queue q).filter (fun x => x.slot != m.slot)
      k.setQueue q (l.filter (·.held) ++ [{ m with held := false, since := s.timeAt core }] ++ l.filter (fun x => !x.held)))

/-- A held message removed, its slot free (R416). -/
def State.discardMsg (s : State) (core q id : Nat) : State :=
  match s.heldMsg core q id with
  | none => s
  | some m => s.onCore core (fun k => k.setQueue q ((k.queue q).filter (fun x => x.slot != m.slot)))

/-- END of a held message: its task ends (R416), or where that task has ended already the message alone goes. -/
def State.endMsg (s : State) (p core q id : Nat) : State :=
  match s.heldMsg core q id with
  | none => s
  | some m =>
    if s.taskLive core m.msg then s.endTask p m.msg.env.tag else s.discardMsg core q id

/-- Disposition may act: in deterministic mode at the quantum's end only (R423). -/
def State.mayDispose (s : State) (p : Nat) : Bool := !(s.part p).det || s.allEnded p

/-- A disposition begins: in deterministic mode the quantum that it ends is over on every logical core (R423). -/
def State.disposing (s : State) (p : Nat) : State := if (s.part p).det then s.endQuiet p else s

/-! ### Invalidation (R139, R415) -/

/-- Every TLB of a partition without the entries that overlap a range; length 0 is the whole partition. -/
def State.invalidate (s : State) (p va n : Nat) : State := s.dropTlb p (fun t => n == 0 || t.inRange va n)

end Sys2Proof.Machine
end

