-- ==== Sys2Proof/Machine/Firmware.lean ====
section
/-!
DEFINITION. Firmware at work for a partition: trap disposition (R422, R423), page faults (R152, R420, R421), pre-emption (R49) and
deadlock (R56, R424).
-/

namespace Sys2Proof.Machine

/-! ### The firmware log and trap disposition (R422, R423) -/

/-- An entry of a partition's firmware log, with its vector (R422). -/
def State.log (s : State) (p : Nat) (w : List Word) : State := (s.onPart p (fun P => { P with fwlog := P.fwlog ++ [w] })).msi p 3

/-- The record taken from those that wait for disposition. -/
def State.dropRec (s : State) (p die : Nat) : State :=
  s.onPart p (fun P =>
    match takeFirst (fun (x : TrapRec) => x.die == die) P.recs with
    | some (_, t) => { P with recs := t }
    | none => P)

/-- One more abort of a message identifier (R423). -/
def State.countAbort (s : State) (p id : Nat) : State :=
  s.onPart p (fun P => { P with aborts := AMap.set P.aborts id (AMap.get 0 P.aborts id + 1) })

/-- A held message disposed of: released, or from RETRY aborts on its task ended (R423). -/
def State.disposeHeld (s : State) (p : Nat) (r : TrapRec) : State :=
  let s1 := s.countAbort p r.msgid
  if (s1.part p).retry ≤ AMap.get 0 (s1.part p).aborts r.msgid then s1.endMsg p r.core r.queue r.msgid
  else s1.releaseMsg r.core r.queue r.msgid

/-- TRAP_DISPOSITION: a die's firmware core takes its oldest record; a record that holds no message is logged (R423). -/
def execTrapDisposition (die : Nat) (s : State) : Host.Outcome State Fault Refusal :=
  let p := s.partKey die
  if (s.part p).trapHost then .next s
  else match (s.part p).recs.find? (fun x => x.die == die) with
    | none => .next s
    | some r =>
      if r.kindA && r.held then
        if s.mayDispose p then .next (((s.disposing p).dropRec p die).disposeHeld p r) else .next s
      else .next ((s.dropRec p die).log p r.words)

/-- TRHEAD_WRITE: room in the trap ring, and the records that waited for it (R422). -/
def execTrheadWrite (part : Nat) (head : BitVec 32) (s : State) : Host.Outcome State Fault Refusal :=
  let s1 := s.onPart part (fun P => { P with trRing := { P.trRing with head := head } })
  .next (s1.trFlush part (s1.part part).recs.length)

/-! ### Page faults (R152, R420) -/

/-- The table word that a walk stops at, which names the page under service (R420). -/
def State.faultSlot (s : State) (p va : Nat) : Option Nat :=
  match s.walk p va with
  | .leaf _ slot _ | .absent _ slot _ => some slot
  | .bad => none

/-- A fault whose context no longer waits for it. -/
def State.staleFault (s : State) (f : PFault) : Bool := (s.ctx f.core f.ctx).await != .pageFault f.va f.write

/-- Faults without those whose context has gone. -/
def State.pruneFaults (s : State) (p : Nat) : State :=
  s.onPart p (fun P => { P with faults := P.faults.filter (fun f => !s.staleFault f) })

/-- A context whose fault has been served runs again; in deterministic mode at the quantum's end, a resting core's in its next turn (R59,
R449). -/
def State.wakeFault (s : State) (f : PFault) : State :=
  if s.detAt f.core || s.rests f.core then s else s.resume f.core f.ctx

/-- The service of a page is done: its faults are no longer parked (R420). -/
def State.served (s : State) (p : Nat) (l : List PFault) : State :=
  l.foldl (fun s f => s.wakeFault f) (s.onPart p (fun P => { P with faults := P.faults.filter (fun f => !l.contains f) }))

/-- The faults that wait for the same service. -/
def State.sameFaults (s : State) (p : Nat) (f : PFault) : List PFault :=
  (s.part p).faults.filter (fun g => g == f || ((s.faultSlot p g.va).isSome && s.faultSlot p g.va == s.faultSlot p f.va))

/-- The context of a fault aborts at the instruction that faulted, with TVAL the VA (R420, R195). -/
def State.abortFault (s : State) (p : Nat) (f : PFault) (c : Cause) : State :=
  let x := s.ctx f.core f.ctx
  let t : TrapInfo := ⟨c, decide (c = .pageProt) && bitsNat x.trap.cause 12 4 == 0, BitVec.ofNat 64 f.va, x.trap.telem.toNat, 0, 0⟩
  (s.onPart p (fun P => { P with faults := P.faults.filter (fun g => g != f) })).abort f.core f.ctx t x.ip

/-- FRAME-EXHAUSTED: the activation aborts and its task ends (step 5 of R152). -/
def State.frameOut (s : State) (p : Nat) (f : PFault) : State :=
  let tag := (s.ctx f.core f.ctx).tag
  (s.abortFault p f .frameExhausted).endTask p tag

/-- A PRI request of a fault (R421): the lowest free tag; without one the fault stays parked. -/
def State.askHost (s : State) (p : Nat) (f : PFault) : State :=
  match s.freePri with
  | none => s
  | some t =>
    (s.onPkg (fun g => { g with pri := AMap.set g.pri t ⟨p, f.core, f.ctx, f.va, f.write, s.time⟩ })).onPart p (fun P =>
      { P with faults := P.faults.map (fun g => if g == f then { g with asked := true } else g) })

/-- The reserve may serve a fault (step 3 of R152): it is granted to its context, or to nobody and the fault is the oldest. -/
def State.mayGrant (s : State) (p : Nat) (f : PFault) : Bool :=
  match (s.part p).granted with
  | some g => g == (f.core, f.ctx)
  | none => (s.part p).faults.head? == some f

/-- Service of one fault by the order of R152. -/
def State.serveFault (s : State) (p : Nat) (f : PFault) : State :=
  let x := s.ctx f.core f.ctx
  let need := vaOf x.ip / 64 * 64 :: x.elem
  match s.pageIn p f.va need false with
  | .done s1 => s1.served p (s.sameFaults p f)
  | .unmapped => s.abortFault p f .pageProt
  | .noFrame =>
    if s.mayGrant p f then
      let s0 := s.onPart p (fun P => { P with granted := some (f.core, f.ctx) })
      match s0.pageIn p f.va need true with
      | .done s1 => s1.served p (s.sameFaults p f)
      | .unmapped => s0.abortFault p f .pageProt
      | .noFrame => s0.askHost p f
      | .later => s
    else if (s.part p).granted.isSome then s
    else s.askHost p f
  | .later => s

/-- A fault of a die that firmware may serve now: not asked of the host, no service of its page under way there, and while the reserve is
granted that of the context which holds it (R152, R420). -/
def State.dueFault (s : State) (p die : Nat) : Option PFault :=
  (s.part p).faults.find? (fun f =>
    dieOf f.core == die && !f.asked && !(s.sameFaults p f).any (fun g => g.asked) &&
      (match (s.part p).granted with | some g => g == (f.core, f.ctx) | none => true))

/-- PAGE_FAULT_SERVICE: the oldest fault of a die is served by firmware, or in host-assisted mode asked of the host (R420, R421). -/
def execPageFaultService (die : Nat) (s : State) : Host.Outcome State Fault Refusal :=
  let p := s.partKey die
  let s0 := s.pruneFaults p
  match s0.dueFault p die with
  | none => .next s0
  | some f => if (s0.part p).pfHost then .next (s0.askHost p f) else .next (s0.serveFault p f)

/-! ### Pre-emption (R49) -/

/-- PREEMPT_REQUEST, step 1 of R49; a frozen partition moves again (R424). -/
def execPreemptRequest (part : Nat) (s : State) : Host.Outcome State Fault Refusal :=
  if (s.part part).pre != PreSt.running then .next s
  else
    let stop := (s.cores.filter (fun e => s.pOf e.1 == part)).map (fun e => (e.1, s.timeAt e.1))
    .next (s.onPart part (fun P => { P with pre := .asked, stopAt := stop, frozen := false, preSince := s.time }))

/-- PREEMPT_COMPLETE, step 3 of R49: every context is free and no accepted engine work remains. The lowest die raises PREEMPT (log 53). -/
def execPreemptComplete (part : Nat) (s : State) : Host.Outcome State Fault Refusal :=
  if (s.part part).pre == PreSt.asked && s.allFree part && !s.engineWork part && !s.requestsOut part && !s.windowWork part then
    .next ((s.recordE part part .preempt 0 0).onPart part (fun P => { P with pre := .saved }))
  else .next s

/-- The entries of an I/O die that hold a store of a partition. -/
def State.holders (s : State) (p xd : Nat) : List Nat :=
  ((s.win xd).ents.filter (fun w => w.2.part == p && (!w.2.q.isEmpty || !w.2.outst.isEmpty))).map (·.1)

/-- PREEMPTWAIT_EXPIRY: entries that have held window stores of the partition alone for PREEMPTWAIT cycles are broken and logged (R49). -/
def execPreemptwaitExpiry (part : Nat) (s : State) : Host.Outcome State Fault Refusal :=
  if s.waitsWindow part && decide ((s.part part).preSince + (s.part part).preemptwait ≤ s.time) then
    .next ([0, 1].foldl (fun s xd => (s.holders part xd).foldl (fun s n =>
      (s.breakEntry xd n).log part [Cause.windowBroken.word false, BitVec.ofNat 64 (n + xd * 2 ^ 10)]) s) s)
  else .next s

/-- A queued message whose clock of R41 stood still from `stop` to `now`. -/
def QMsg.shift (m : QMsg) (stop now : Nat) : QMsg := { m with since := m.since + (now - max stop m.since) }

/-- The aging clocks of a core go on (R49). -/
def State.restartClocks (s : State) (p core : Nat) : State :=
  let stop := AMap.get 0 (s.part p).stopAt core
  let now := s.timeAt core
  s.onCore core (fun k => { k with queues := k.queues.map (fun q => q.map (fun m => m.shift stop now)) })

/-- A controller goes on with its next dispatch (R406). -/
def State.restartRlc (s : State) (cl : Nat) : State :=
  match (s.rlc cl).run with
  | none => s.rlcNext cl
  | some r =>
    if r.stop.isNone && (maskCores (r.cmd.mask r.phase)).all (fun k => (AMap.find r.reports k).isSome) then (s.rlcComplete cl r).rlcLatest cl
    else s

/-- PREEMPT_RESUME: a saved partition dispatches again, with its queues as saved (R49). -/
def execPreemptResume (part : Nat) (s : State) : Host.Outcome State Fault Refusal :=
  if (s.part part).pre != PreSt.saved then .next s
  else
    let s1 := (s.cores.filter (fun e => s.pOf e.1 == part)).foldl (fun s e => s.restartClocks part e.1) s
    let s2 := s1.onPart part (fun P => { P with pre := .running, stopAt := [] })
    .next ((s2.rlcs.filter (fun e => s.pOf (16 * e.1) == part)).foldl (fun s e => s.restartRlc e.1) s2)

/-! ### Deadlock (R56, R424) -/

/-- Word 1 of a wait object (R424). -/
def Await.object : Await → Word
  | .channelEmpty d | .channelFull d _ => d
  | .syncEmpty p => p
  | .xfer id => id
  | .clasp p | .phase p _ => p
  | .none | .rfence | .pageFault _ _ | .lodge | .migrate _ | .shipped | .quantum | .bkpt _ => 0

/-- The wait objects of a partition, in ascending core and context (R424). -/
def State.waitObjects (s : State) (p : Nat) : List (List Word) :=
  ((s.partCtxs p).filter (fun x => x.2.2.st == .parked)).map (fun x =>
    [BitVec.ofNat 64 (s.lnum x.1 * 2 ^ 52 + x.2.1 * 2 ^ 50 + x.2.2.await.stall.code * 2 ^ 45), x.2.2.await.object])

/-- Wait objects four to a record, unused ones 0 (R424); `n` bounds the records. -/
def continuations : Nat → List (List Word) → List (List Word)
  | 0, _ => []
  | n + 1, l => if l.isEmpty then [] else ((l.take 4).flatten ++ List.replicate (8 - 2 * (l.take 4).length) 0) :: continuations n (l.drop 4)

/-- DEADLOCK reported with its continuation records (R424), raised at the partition's lowest die (log 53). -/
def State.reportDeadlock (s : State) (p : Nat) : State :=
  let l := s.waitObjects p
  ((continuations l.length l).foldl (fun s w => s.pushRec p ⟨w, p, false, false, 0, 0, 0, 0⟩)
    (s.recordE p p .deadlock (BitVec.ofNat 64 l.length) 0)).msi p 2

/-- DEADLOCK_DETECT: the conditions of R56 have held for DEADTIME consecutive cycles, and the partition freezes. -/
def execDeadlockDetect (part : Nat) (s : State) : Host.Outcome State Fault Refusal :=
  let P := s.part part
  if !P.frozen && s.deadNow part && decide (P.idleSince + P.deadtime ≤ s.time) then
    .next ((s.onPart part (fun P => { P with frozen := true })).reportDeadlock part)
  else .next s

end Sys2Proof.Machine
end

