-- ==== Sys2Proof/Machine/Lease.lean ====
section
/-!
DEFINITION. Leases and the leader of the firmware cores (R417-R419), and what the leader changes: modes (R28, R29) and partitions (R22-R25,
R134, R246). Firmware core `n` below 8 is that of C-die `n`; 8 and 9 are those of X0 and X1.
-/

namespace Sys2Proof.Machine

/-! ### Partitions (R22-R25) -/

/-- The dies of a partition. -/
def diesOf (q : Nat × Nat) : List Nat := (upTo q.2).map (q.1 + ·)

/-- A die that may join a partition (R450). -/
def State.usable (s : State) (d : Nat) : Bool := !s.pkg.badDies.getLsbD d

/-- A legal partition of R22. -/
def legalPart (q : Nat × Nat) : Bool := [1, 2, 4, 8].contains q.2 && q.1 % q.2 == 0 && decide (q.1 + q.2 ≤ 8)

/-- A legal configuration: legal partitions that hold every usable die once and no other (R22, R450). -/
def State.legalConfig (s : State) (l : List (Nat × Nat)) : Bool :=
  let ds := l.flatMap diesOf
  l.all legalPart && (upTo 8).all (fun d => (ds.filter (· == d)).length == (if s.usable d then 1 else 0))

/-- Legal second-tier grants: each for a listed partition, in the second tier, and none of them common to two, nor to a partition that stays as
it is (R23, R132). `kept` are the ranges of those. -/
def legalGrants (l : List (Nat × Nat)) (g : List (Nat × Nat × Nat)) (kept : List (Nat × Nat)) : Bool :=
  g.all (fun x => l.any (fun q => q.1 == x.1) && decide (2 ^ 32 ≤ x.2.1) && decide (x.2.1 + x.2.2 ≤ 2 ^ 33) &&
      (rangesMeet [x.2] kept).isEmpty) &&
    (upTo g.length).all (fun i => (upTo i).all (fun j =>
      (rangesMeet [(g.getD i (0, 0, 0)).2] [(g.getD j (0, 0, 0)).2]).isEmpty))

/-- The fences of R246: every torus link, in both directions, whose routers lie in different partitions. -/
def State.fenced (s : State) : List (Nat × Nat) :=
  (upTo 256).flatMap (fun r =>
    ([Dir.px, .mx, .py, .my].map (fun d => (r, d.next r))).filter (fun x => s.partKey (x.1 / 32) != s.partKey (x.2 / 32)))

/-- The hosted logical cores of a die (R448). -/
def State.hosted (s : State) (die : Nat) : Nat :=
  sumNat ((upTo 32).map (fun c => (fusedPairs s.pkg.fused (32 * die + c)).length))

/-- The frames of a die's stack without its save areas, 80 frames for each hosted logical core (R449). -/
def State.dieFrames (s : State) (die : Nat) : List (Nat × Nat) :=
  let n := 80 * s.hosted die
  rangesDel (die * 2 ^ 24 + Config.saveBase die % (2 ^ 24 - n)) n [(die * 2 ^ 24, 2 ^ 24)]

/-- Every TLB of a partition's cores empty. -/
def State.flushTlbs (s : State) (p : Nat) : State := s.dropTlb p (fun _ => true)

/-- A partition as firmware creates it (R22, R134, R152): a zeroed root in its own frames, the other frames its pool, its second-tier
ranges, its reserve. -/
def State.create (s : State) (q : Nat × Nat) (back : List (Nat × Nat)) : State :=
  let frames := (diesOf q).flatMap (fun d => s.dieFrames d)
  let root := (chooseRun 8 s.fresh frames).getD 0
  let P : Part := { Part.reset with
    dies := q.2, root := 4096 * root, free := rangesDel root 8 frames, backing := back, second := back, idleSince := s.time, preSince := s.time
    wraps := s.time / 2 ^ 48 }
  (({ s with parts := AMap.set s.parts q.1 (P.refill s.fresh 40) }).onMem (fun m => m.zero (4096 * root) 32768)).tick.flushTlbs q.1

/-- A configuration applied: the partitions that change are created anew, and the fences set (R22, R24). -/
def State.configure (s : State) (l : List (Nat × Nat)) (g : List (Nat × Nat × Nat)) : State :=
  let s0 := { s with parts := s.parts.filter (fun e => l.contains (e.1, e.2.dies) && !g.any (fun x => x.1 == e.1)) }
  let s1 := (l.filter (fun q => (AMap.find s0.parts q.1).isNone)).foldl (fun s q =>
    s.create q ((g.filter (fun x => x.1 == q.1)).map (fun x => x.2))) s0
  { s1 with fences := s1.fenced }

/-- One partition of all usable dies (step 8 of R450); where they are no legal partition, the largest legal ones. -/
def State.bootParts (s : State) : List (Nat × Nat) :=
  [8, 4, 2, 1].foldl (fun l n =>
    (upTo (8 / n)).foldl (fun l i =>
      let ds := diesOf (n * i, n)
      if ds.all (fun d => s.usable d && !(l.flatMap diesOf).contains d) then l ++ [(n * i, n)] else l) l) []

/-! ### Leases (R418) -/

/-- A lease lasts 1 ms. -/
def leaseTime : Nat := 2000000
/-- The rank delay of a firmware core: 10 µs for each rank. -/
def rankDelay (n : Nat) : Nat := 20000 * n

/-- A firmware core sees an unlapsed lease, or the host's (R418, R419). -/
def FwCore.leased (f : FwCore) (now : Nat) : Bool := f.host || decide (now < f.expiry)

/-- Some firmware core leads under a lease. -/
def State.hasLeader (s : State) : Bool := (upTo 10).any (fun n => (s.fw n).leader && (s.fw n).leased s.time)

/-- The firmware cores of a group. -/
def members (g : BitVec 10) : List Nat := (upTo 10).filter (fun n => g.getLsbD n)

/-- The firmware cores that a core reaches and that reach it, with the core itself: the group it is in, by what each of the two last found (R419). -/
def State.reach (s : State) (n : Nat) : List Nat :=
  (upTo 10).filter (fun m => m == n || ((s.fw n).group.getLsbD m && (s.fw m).group.getLsbD n))

/-- A leader's renewal: every core that it reaches has a lease, and takes packets again where it had lost its own (R418, R419). -/
def State.renew (s : State) (n : Nat) : State :=
  (s.reach n).foldl (fun s m => s.onFw m (fun f => { f with expiry := s.time + leaseTime, lost := false, leader := decide (m = n) })) s

/-- LEASE_RENEW: a leader renews 250 µs after its last renewal, while its lease stands and it reaches a majority or holds the host's lease
(R418, R419). -/
def execLeaseRenew (fw : Nat) (s : State) : Host.Outcome State Fault Refusal :=
  let f := s.fw fw
  if s.pkg.boot != .recovery && f.leader && (f.host || (decide (s.time < f.expiry) && decide (6 ≤ (s.reach fw).length))) &&
      decide (f.expiry + 500000 ≤ s.time + leaseTime) then .next (s.renew fw)
  else .next s

/-- A key exchange that a leader has begun is begun again by the next one (R428). -/
def State.dropExchanges (s : State) : State :=
  { s with links := AMap.mapVals (fun _ l => { l with exchTx := false, exchRx := false }) s.links }

/-- Step 8 of R450, which waits for a leader: a module without a partition is given its first. -/
def State.settle (s : State) : State := if s.parts.isEmpty then s.configure s.bootParts [] else s

/-- A firmware core leads its group: no member is without a lease (R418, R419). -/
def State.lead (s : State) (n : Nat) (host : Bool) : State :=
  (((s.reach n).foldl (fun s m => s.onFw m (fun f => { f with host := host, epoch := (s.fw n).epoch, asks := [], votes := [] }))
    s.dropExchanges).renew n).settle

/-- LEASE-LOST reported by a firmware core with its group (R195, R419, R422): to a partition's ring, or before there is one to firmware's log. -/
def State.reportLost (s : State) (n : Nat) (g : BitVec 10) : State :=
  if s.parts.isEmpty then s.onPkg (fun k => { k with fwlog := k.fwlog ++ [[BitVec.ofNat 64 n, Cause.leaseLost.word false, g.setWidth 64]] })
  else if n < 8 then (s.recordE (s.partKey n) n .leaseLost (g.setWidth 64) 0).msi (s.partKey n) 2
  else s.parts.foldl (fun s e => (s.recordX e.1 (n - 8) .leaseLost (g.setWidth 64) 0).msi e.1 2) s

/-- A firmware core finds itself in a group of fewer than six (R419). -/
def State.loseLease (s : State) (n : Nat) (g : BitVec 10) : State :=
  let was := (s.fw n).lost
  let s1 := s.onFw n (fun f => { f with group := g, lost := true, leader := false, votes := [], asks := [] })
  if was then s1 else (if n < 8 then s1.leaseFreeze n else s1).reportLost n g

/-- A candidate asks every other core of its group for a vote of the next epoch (R418). -/
def State.candidate (s : State) (n : Nat) : State :=
  let e := (s.fw n).epoch + 1
  let s1 := s.onFw n (fun f => { f with
    epoch := e, voted := e, votes := [n], leader := false, host := false, retryAt := s.time + leaseTime + rankDelay n })
  ((s.reach n).filter (· != n)).foldl (fun s m => s.onFw m (fun f => { f with asks := f.asks ++ [(n, e)] })) s1

/-- LEASE_LAPSE: a firmware core finds that it can now reach the cores of `group`; where it has seen its lease lapse for its rank delay it is a
candidate, or in a group of fewer than six has lost its lease (R418, R419). In recovery no firmware core runs an image (R427). -/
def execLeaseLapse (fw : Nat) (group : BitVec 10) (s : State) : Host.Outcome State Fault Refusal :=
  if s.pkg.boot = .recovery then .next s else
  let f := s.fw fw
  let g := group ||| BitVec.ofNat 10 (2 ^ fw)
  let s1 := s.onFw fw (fun f => { f with group := g })
  if s.pkg.leaderHost || decide (s.time < f.expiry + rankDelay fw) || decide (s.time < f.retryAt) || (f.host && (members g).length < 6) then .next s1
  else if 6 ≤ (members g).length then .next (s1.candidate fw)
  else .next (s1.loseLease fw g)

/-- A vote for a candidate; with six of them it leads (R418). -/
def State.vote (s : State) (n cand e : Nat) : State :=
  let c := s.fw cand
  if c.epoch != e || c.leader || c.votes.isEmpty || c.votes.contains n then s
  else
    let s1 := s.onFw cand (fun f => { f with votes := f.votes ++ [n] })
    if 6 ≤ c.votes.length + 1 then s1.lead cand false else s1

/-- VOTE_REQUEST: a firmware core answers the oldest request that has reached it: at most one vote per epoch, and none while it sees a
lease (R418). -/
def execVoteRequest (fw : Nat) (s : State) : Host.Outcome State Fault Refusal :=
  match if s.pkg.boot = .recovery then [] else (s.fw fw).asks with
  | [] => .next s
  | (cand, e) :: t =>
    let s1 := s.onFw fw (fun f => { f with asks := t })
    let f := s.fw fw
    if e ≤ f.voted || f.leased s.time then .next s1
    else .next ((s1.onFw fw (fun f => { f with voted := e, epoch := max f.epoch e })).vote fw cand e)

/-- The firmware core of a socket (R12): C-dies 0 to 7, X0 and X1 at 16 and 17. -/
def socketFw (n : Nat) : Option Nat := if n < 8 then some n else if n = 16 || n = 17 then some (n - 8) else none

/-- LEADER_DESIGNATE: after a 5/5 split, or in host-assisted mode, the group of a die that X0 can reach holds a host-designated lease
(R30, R419). In recovery the register is not exposed (R427). -/
def execLeaderDesignate (socket : Nat) (s : State) : Host.Outcome State Fault Refusal :=
  let s1 := s.onPkg (fun g => { g with leaderReg := socket })
  if s.pkg.boot = .recovery then .next s
  else match socketFw socket with
  | none => .next s1
  | some n =>
    let split := (upTo 10).all (fun m => (s.fw m).lost && (members (s.fw m).group).length == 5)
    if (s.reach 8).contains n && (split || s.pkg.leaderHost) then .next (s1.lead n true) else .next s1

/-! ### Modes (R28, R29) -/

/-- No partition has a task launched. -/
def State.idleAll (s : State) : Bool := s.parts.all (fun e => !s.launched e.1)

/-- MODE_SELECT: a per-partition mode changes while the partition has no task launched, a per-module mode while none has (R29). Service of the
old mode that is under way is finished as it began (log 52). -/
def execModeSelect (part : Nat) (fn : ModeFn) (assisted : Bool) (s : State) : Host.Outcome State Fault Refusal :=
  if !s.hasLeader then .next s
  else match fn with
    | .pageFault => .next (if s.launched part then s else s.onPart part (fun P => { P with pfHost := assisted }))
    | .trapDisp => .next (if s.launched part then s else s.onPart part (fun P => { P with trapHost := assisted }))
    | .launchSpread => .next (if s.launched part then s else s.onPart part (fun P => { P with spreadHost := assisted }))
    | .power => .next (if s.idleAll then s.onPkg (fun g => { g with powerHost := assisted }) else s)
    | .keys => .next (if s.idleAll then s.onPkg (fun g => { g with keysHost := assisted }) else s)
    | .leader => .next (if s.idleAll then s.onPkg (fun g => { g with leaderHost := assisted }) else s)

/-! ### The partitions changed (R25) -/

/-- PARTITION_CONFIGURE: refused where it breaks R22 or would change a partition that has a task (R25). `grants` lists the second-tier
ranges that firmware grants: partition, first frame and count. -/
def execPartitionConfigure (parts : List (Nat × Nat)) (grants : List (Nat × Nat × Nat)) (s : State) : Host.Outcome State Fault Refusal :=
  let stays := fun (e : Nat × Part) => parts.contains (e.1, e.2.dies) && !grants.any (fun x => x.1 == e.1)
  if !s.hasLeader || !s.legalConfig parts || !legalGrants parts grants ((s.parts.filter stays).flatMap (fun e => e.2.second)) || s.parts.any (fun e => !stays e && s.launched e.1) then .next s
  else .next (s.configure parts grants)

end Sys2Proof.Machine
end

