-- ==== Sys2Proof/Machine/Boot.lean ====
section
/-!
DEFINITION. Module reset and bring-up (R447-R450) with the boot check and recovery (R427).
-/

namespace Sys2Proof.Machine

/-- The boot check (R427): the signature against the vendor key whose hash is fused, the security version, and the SHA-512. -/
def State.bootCheck (s : State) (i : FwImage) : Bool :=
  Config.ed25519Ok i.body i.sig i.key && Config.keyHash i.key == Config.vendorHash && decide (s.pkg.fwVersion ≤ i.version) &&
    Config.sha512 i.body == i.digest

/-- The cores that a firmware core reaches at bring-up: what it last found, or all of them. -/
def FwCore.known (f : FwCore) : BitVec 10 := if f.group = 0 then 0x3FF else f.group

/-- Step 5 of R450: of the firmware cores that reach a majority, the one whose rank delay is shortest leads; those that it does not reach, or
all where there is no majority, report LEASE-LOST (R418, R419). -/
def State.elect (s : State) : State :=
  let s1 := (upTo 10).foldl (fun s n => s.onFw n (fun f => { FwCore.reset with epoch := 1, voted := 1, group := f.known })) s
  match (upTo 10).find? (fun n => decide (6 ≤ (s1.reach n).length)) with
  | some n => ((upTo 10).filter (fun m => !(s1.reach n).contains m)).foldl (fun s m => s.loseLease m (s.fw m).group) (s1.lead n false)
  | none => (upTo 10).foldl (fun s m => s.loseLease m (s.fw m).group) s1

/-- Steps 3 to 8 of R450, which follow a firmware image that has passed its check. Step 8 waits for a leader. -/
def State.bringUp (s : State) (i : FwImage) (b : Boot) : State :=
  let s1 := s.onPkg (fun g => { g with boot := b, fwDigest := Config.sha512 i.body })
  let bad := (upTo 8).filter (fun d => !s1.usable d)
  let s2 := s1.onPkg (fun g => { g with fwlog := g.fwlog ++ bad.map (fun d => [BitVec.ofNat 64 d]) })
  s2.elect

/-- Memory right after step 3 of R450: the stacks and the package's own memories initialised, second-tier and host memory as they were. -/
def Memory.initial (m : Memory) : Memory :=
  let out := fun (k : Nat) => secondTier k || hostMem k
  ⟨m.cells.filter (fun c => out c.1), [], m.poison.filter out, [], m.corr.filter out⟩

/-- The module in reset: what flash and fuses hold persists, and so do memory outside the package, the schedule, and which firmware cores the
links let each of them reach. -/
def State.inReset (s : State) (bad : BitVec 8) : State :=
  { State.reset with
    mem := s.mem.initial, agenda := s.agenda, fresh := s.fresh
    fws := AMap.mapVals (fun _ f => { FwCore.reset with group := f.group }) s.fws
    pkg := { Pkg.reset with flash := s.pkg.flash, fwVersion := s.pkg.fwVersion, number := s.pkg.number, fused := s.pkg.fused, badDies := bad } }

/-- MODULE_RESET: reset is released and bring-up runs to step 8, or into recovery (R427, R450). `badStacks` are the stacks that fail
their training. -/
def execModuleReset (badStacks : BitVec 8) (s : State) : Host.Outcome State Fault Refusal :=
  let s0 := s.inReset badStacks
  match s0.pkg.flash with
  | none => .next (s0.onPkg (fun g => { g with boot := .recovery }))
  | some i => if s0.bootCheck i then .next (s0.bringUp i .running) else .next (s0.onPkg (fun g => { g with boot := .recovery }))

/-- RECOVERY_IMAGE_WRITE: in recovery an image is checked the same way and run from SRAM (R427). -/
def execRecoveryImageWrite (img : FwImage) (s : State) : Host.Outcome State Fault Refusal :=
  if s.pkg.boot == .recovery && s.bootCheck img then .next (s.bringUp img .sram) else .next s

/-- FLASH_REWRITE: once a checked image runs from SRAM the host may rewrite flash; a failed write leaves no image, and the next reset ends in recovery (R427). -/
def execFlashRewrite (img : FwImage) (ok : Bool) (s : State) : Host.Outcome State Fault Refusal :=
  if s.pkg.boot == .sram then .next (s.onPkg (fun g => { g with flash := if ok then some img else none }))
  else .next s

end Sys2Proof.Machine
end

