-- ==== Sys2Proof/Machine/Branch.lean ====
section
/-!
DEFINITION. Control (R202) but for DONE, branches (R214) and indirect transfers (R215). A branch retires before its target is
fetched.
-/

namespace Sys2Proof.Machine

/-- NOP (R202). -/
def execNop (s : State) : Host.Outcome State Fault Refusal := retired s

/-- RET: IP := G(30) (R202). -/
def execRet (s : State) : Host.Outcome State Fault Refusal := .next (s.retireTo (s.g 30))

/-- BKPT: Trap(BKPT) with TVAL 0 (R202); kind P. -/
def execBkpt (s : State) : Host.Outcome State Fault Refusal := .next (s.takeStop (.trap (mkTrap .bkpt 0)))

/-- The target of a direct branch of the instruction in hand (R109). -/
def State.jumpTo (s : State) (j : BitVec 27) : Word := branchTarget s.me.ip j

/-- NextIP of the instruction in hand (R109). -/
def State.linkIp (s : State) : Word := nextIp s.me.latch.nh s.me.ip

/-- A conditional branch: to its target, or in sequence (R214). -/
def branchIf (taken : Bool) (j : BitVec 27) (s : State) : Host.Outcome State Fault Refusal :=
  if taken then .next (s.retireTo (s.jumpTo j)) else retired s

/-- BR (R214). -/
def execBr (j : BitVec 27) (s : State) : Host.Outcome State Fault Refusal := branchIf true j s
/-- BZ (R214). -/
def execBz (a : GReg) (j : BitVec 27) (s : State) : Host.Outcome State Fault Refusal := branchIf (s.g a == 0) j s
/-- BNZ (R214). -/
def execBnz (a : GReg) (j : BitVec 27) (s : State) : Host.Outcome State Fault Refusal := branchIf (s.g a != 0) j s
/-- BLTZ (R214). -/
def execBltz (a : GReg) (j : BitVec 27) (s : State) : Host.Outcome State Fault Refusal := branchIf (s.g a).msb j s
/-- BGEZ (R214). -/
def execBgez (a : GReg) (j : BitVec 27) (s : State) : Host.Outcome State Fault Refusal := branchIf (!(s.g a).msb) j s

/-- CALL: the link is written before the transfer (R214). -/
def execCall (d : GReg) (j : BitVec 27) (s : State) : Host.Outcome State Fault Refusal :=
  .next ((s.setG d s.linkIp).retireTo (s.jumpTo j))

/-- LOOP: the counter is written whether or not it branches (R214). -/
def execLoop (a : GReg) (j : BitVec 27) (s : State) : Host.Outcome State Fault Refusal :=
  branchIf (s.g a - 1 != 0) j (s.setG a (s.g a - 1))

/-- JMP (R215). -/
def execJmp (a : GReg) (s : State) : Host.Outcome State Fault Refusal := .next (s.retireTo (s.g a))

/-- CALLR: the target is read before the link is written (R215). -/
def execCallr (d a : GReg) (s : State) : Host.Outcome State Fault Refusal := .next ((s.setG d s.linkIp).retireTo (s.g a))

end Sys2Proof.Machine
end

