-- ==== Sys2Proof/Machine/Channel.lean ====
section
/-!
DEFINITION. Channels (R235-R239, R453).
-/

namespace Sys2Proof.Machine

/-- A channel instruction on a handle: ILLEGAL-REG where it is invalid or lacks a role bit (R236). -/
def State.handle (s : State) (c : CReg) (role : BitVec 2) : Res Chan :=
  let h := s.c c
  if !h.valid || (h.role &&& role) != role then trapAt .illegalReg s.me.latch.tval s else .ok h s

/-- A word of a channel descriptor read. -/
def State.descWord (s : State) (p : Word) (off : Nat) : Res Word :=
  (s.readMem (ptrOff p (BitVec.ofNat 64 off)) 8 .none).bind fun v s => .ok (BitVec.ofNat 64 v) s

/-- CHBIND (R238). -/
def execChbind (c : CReg) (a : GReg) (role : BitVec 2) (s : State) : Host.Outcome State Fault Refusal :=
  let p := s.g a
  run (if p.toNat % 32 != 0 then trapAt .misalign p s
    else (s.descWord p 0).bind fun base s => (s.descWord p 8).bind fun geom s =>
      .ok () (s.setC c ⟨true, role, p, base, field geom 4 4, field geom 0 4⟩))

/-- CHWAITF (R238): TAIL is read before HEAD. -/
def execChwaitf (d : GReg) (c : CReg) (s : State) : Host.Outcome State Fault Refusal :=
  run ((s.handle c 2).bind fun h s => (s.descWord h.desc 24).bind fun t s => (s.descWord h.desc 16).bind fun hd s =>
    if t - hd = 0 then .stop (.park (.channelEmpty h.desc)) s else .ok () (s.setG d hd))

/-- CHWAITE (R238): HEAD is read before TAIL. -/
def execChwaite (d : GReg) (c : CReg) (s : State) : Host.Outcome State Fault Refusal :=
  run ((s.handle c 1).bind fun h s => (s.descWord h.desc 16).bind fun hd s => (s.descWord h.desc 24).bind fun t s =>
    if 2 ^ h.slotlog.toNat ≤ (t - hd).toNat then .stop (.park (.channelFull h.desc (2 ^ h.slotlog.toNat))) s else .ok () (s.setG d t))

/-- An advance (R238): an atomic at once, or in deterministic mode checked, released and deferred to the quantum's end (R453). -/
def State.chAdvance (s : State) (p : Word) (n : Nat) : Res Unit :=
  if s.detAt s.cur.1 then
    (s.release .memory).bind fun _ s =>
    match s.decodeAddr p 8 .atomic with
    | .error c => trapAt c p s
    | .ok (.loc k) =>
      .ok () (s.onMyCore (fun c => { c with advs := c.advs ++ [⟨s.cur.2.val, s.me.serial, s.me.msgId, s.me.tag, s.me.colour, k, p, n⟩] }))
    | .ok (.glob va) => (s.translate p va .atomic).bind fun x s =>
      .ok () (s.onMyCore (fun c => { c with advs := c.advs ++ [⟨s.cur.2.val, s.me.serial, s.me.msgId, s.me.tag, s.me.colour, x.pa, p, n⟩] }))
  else (s.atomicMem p ⟨0, false, 8, n, 0⟩ s.me.colour true).bind fun _ s => .ok () s

/-- CHADVH (R238). -/
def execChadvh (c : CReg) (n : BitVec 16) (s : State) : Host.Outcome State Fault Refusal :=
  run ((s.handle c 2).bind fun h s => s.chAdvance (ptrOff h.desc 16) n.toNat)

/-- CHADVT (R238). -/
def execChadvt (c : CReg) (n : BitVec 16) (s : State) : Host.Outcome State Fault Refusal :=
  run ((s.handle c 1).bind fun h s => s.chAdvance (ptrOff h.desc 24) n.toNat)

/-- CHSTAT (R238). -/
def execChstat (d : GReg) (c : CReg) (s : State) : Host.Outcome State Fault Refusal :=
  run ((s.handle c 0).bind fun h s => (s.descWord h.desc 24).bind fun t s => (s.descWord h.desc 16).bind fun hd s =>
    .ok () (s.setG d (t - hd)))

/-- CHPTR (R238). -/
def execChptr (d : GReg) (c : CReg) (b : GReg) (off : BitVec 16) (s : State) : Host.Outcome State Fault Refusal :=
  run ((s.handle c 0).bind fun h s =>
    let i := (s.g b + sext64 off).toNat % 2 ^ h.slotlog.toNat
    .ok () (s.setG d (ptrOff h.base (BitVec.ofNat 64 (i * 2 ^ (h.szlog.toNat + 3))))))

end Sys2Proof.Machine
end

