-- ==== Sys2Proof/Machine/Csr.lean ====
section
/-!
DEFINITION. The control and status registers (R183-R190), their access (R225, R226) and the system instructions (R227, R228).
-/

namespace Sys2Proof.Machine

/-- Access P of R183. -/
def csrPriv : Csr → Bool
  | .cause | .tval | .tip | .tmsg | .telem | .ttile | .tfmt | .featmask | .featreq | .guestctx | .quant | .taskbase | .tasklim
  | .taskgen | .extbase | .extlen | .sampcfg => true
  | .vstart | .fcsr | .budget | .colour | .coord | .migok | .migthresh | .qlim0 | .qlim1 | .qlim2 | .qlim3 | .qlimg | .refuse
  | .xferid | .time | .tasksel | .extsel => false

/-- The code of a task entry's state (R189). -/
def taskStCode : TaskSt → Nat
  | .invalid => 0 | .binding => 1 | .valid => 2

/-- TASKGEN (R189). -/
def taskGenWord (t : Task) : Word := BitVec.ofNat 64 (t.gen.toNat + taskStCode t.st * 2 ^ 16 + (if t.cline then 2 ^ 18 else 0))

/-- EXTBASE of an extent (R189). -/
def extBaseWord : Option Ext → Word
  | none => 0
  | some e => BitVec.ofNat 64 (vaOf e.base + (if e.wr then 2 ^ 62 else 0) + 2 ^ 63)

/-- EXTLEN of an extent (R189). -/
def extLenWord : Option Ext → Word
  | none => 0
  | some e => BitVec.ofNat 64 e.len

/-- The word of a CSR of a core and context (R183, R185-R190). -/
def State.csrGet (s : State) (core ctx : Nat) (c : Csr) : Word :=
  let k := s.core core
  let x := k.ctx ctx
  let t := k.task x.tasksel.toNat
  match c with
  | .cause => x.trap.cause | .tval => x.trap.tval | .tip => x.trap.tip | .tmsg => x.trap.tmsg | .telem => x.trap.telem
  | .ttile => x.trap.ttile | .tfmt => x.trap.tfmt
  | .vstart => x.vstart.setWidth 64
  | .fcsr => x.fcsr.setWidth 64
  | .budget => x.budget
  | .colour => x.colour.setWidth 64
  | .coord => s.coord core ctx
  | .featmask => k.featmask
  | .featreq => (k.task x.tag).featreq
  | .migok => if x.migok then 1 else 0
  | .migthresh => x.migthresh.setWidth 64
  | .qlim0 => BitVec.ofNat 64 (k.lim 0) | .qlim1 => BitVec.ofNat 64 (k.lim 1) | .qlim2 => BitVec.ofNat 64 (k.lim 2)
  | .qlim3 => BitVec.ofNat 64 (k.lim 3) | .qlimg => BitVec.ofNat 64 (k.lim 4)
  | .refuse => x.refuse
  | .guestctx => if k.guest then 1 else 0
  | .xferid => x.xferid.setWidth 64
  | .time => BitVec.ofNat 64 (s.timeAt core)
  | .quant => k.quant.setWidth 64
  | .tasksel => x.tasksel.setWidth 64
  | .taskbase => BitVec.ofNat 64 (t.base / 64 * 64)
  | .tasklim => BitVec.ofNat 64 (t.lim / 64 * 64)
  | .taskgen => taskGenWord t
  | .extsel => x.extsel.setWidth 64
  | .extbase => extBaseWord t.exts[x.extsel.toNat]?
  | .extlen => extLenWord t.exts[x.extsel.toNat]?
  | .sampcfg => k.sampcfg.setWidth 64

/-- FCSR after a write of a value: FRM keeps its value where 5 to 7 is written (R186). -/
def fcsrWrite (old : BitVec 9) (v : Word) : BitVec 9 :=
  let n : BitVec 9 := v.setWidth 9
  if 5 ≤ fcsrFrm n then (n &&& 0x11F) ||| (old &&& 0x0E0) else n

/-- A queue limit after a write: 61 to 63 leave it unchanged (R190). -/
def CoreSt.setLim (k : CoreSt) (q : Nat) (v : Word) : CoreSt :=
  if 60 < v.toNat % 64 then k else { k with qlim := k.qlim.set (q % 5) (v.toNat % 64) (Nat.mod_lt _ (by decide)) }

/-- A CSR of a core and context written field by field (R226); a P or RO CSR is unchanged. -/
def State.csrPut (s : State) (core ctx : Nat) (c : Csr) (v : Word) : State :=
  match c with
  | .vstart => s.onCtx core ctx (fun x => { x with vstart := v.setWidth 7 })
  | .fcsr => s.onCtx core ctx (fun x => { x with fcsr := fcsrWrite x.fcsr v })
  | .budget => s.onCtx core ctx (fun x => { x with budget := if v.toNat < x.budget.toNat then v else x.budget })
  | .colour => s.onCtx core ctx (fun x => { x with colour := v.setWidth 3 })
  | .migok => s.onCtx core ctx (fun x => { x with migok := v.getLsbD 0 })
  | .migthresh => s.onCtx core ctx (fun x => { x with migthresh := v.setWidth 16 })
  | .qlim0 => s.onCore core (fun k => k.setLim 0 v)
  | .qlim1 => s.onCore core (fun k => k.setLim 1 v)
  | .qlim2 => s.onCore core (fun k => k.setLim 2 v)
  | .qlim3 => s.onCore core (fun k => k.setLim 3 v)
  | .qlimg => s.onCore core (fun k => k.setLim 4 v)
  | .refuse => s.onCtx core ctx (fun x => { x with refuse := v })
  | .tasksel => s.onCtx core ctx (fun x => { x with tasksel := v.setWidth 3 })
  | .extsel => s.onCtx core ctx (fun x => { x with extsel := v.setWidth 4 })
  | .cause | .tval | .tip | .tmsg | .telem | .ttile | .tfmt | .coord | .featmask | .featreq | .guestctx | .xferid | .time | .quant
  | .taskbase | .tasklim | .taskgen | .extbase | .extlen | .sampcfg => s

/-- A CSR of the running context. -/
def State.csr (s : State) (c : Csr) : Word := s.csrGet s.cur.1 s.cur.2.val c

/-- A CSR of the running context written. -/
def State.setCsr (s : State) (c : Csr) (v : Word) : State := s.csrPut s.cur.1 s.cur.2.val c v

/-- A write form: PRIV on a P CSR, else the new value stored and the old one returned (R184, R225). -/
def csrModify (d : GReg) (c : Csr) (v : Word) (s : State) : Host.Outcome State Fault Refusal :=
  if csrPriv c then .next (s.takeStop (.trap (mkTrap .priv s.me.latch.tval)))
  else retired ((s.setCsr c v).setG d (s.csr c))

/-- CSRRD (R225). -/
def execCsrrd (d : GReg) (c : Csr) (s : State) : Host.Outcome State Fault Refusal := retired (s.setG d (s.csr c))
/-- CSRWR (R225). -/
def execCsrwr (c : Csr) (a : GReg) (s : State) : Host.Outcome State Fault Refusal := csrModify 0 c (s.g a) s
/-- CSRSWP (R225). -/
def execCsrswp (d : GReg) (c : Csr) (a : GReg) (s : State) : Host.Outcome State Fault Refusal := csrModify d c (s.g a) s
/-- CSRSET (R225). -/
def execCsrset (d : GReg) (c : Csr) (a : GReg) (s : State) : Host.Outcome State Fault Refusal :=
  csrModify d c (s.csr c ||| s.g a) s
/-- CSRCLR (R225). -/
def execCsrclr (d : GReg) (c : Csr) (a : GReg) (s : State) : Host.Outcome State Fault Refusal :=
  csrModify d c (s.csr c &&& ~~~(s.g a)) s

/-! ### System (R227, R228) -/

/-- SWTRAP with an operand. -/
def swtrap (v : Word) (s : State) : Host.Outcome State Fault Refusal := .next (s.takeStop (.trap (mkTrap .swtrap v)))

/-- TRAP a (R228). -/
def execTrap (a : GReg) (s : State) : Host.Outcome State Fault Refusal := swtrap (s.g a) s
/-- TRAP imm (R228). -/
def execTrapI16 (i : BitVec 16) (s : State) : Host.Outcome State Fault Refusal := swtrap (i.setWidth 64) s
/-- TIME (R228). -/
def execTime (d : GReg) (s : State) : Host.Outcome State Fault Refusal :=
  retired (s.setG d (BitVec.ofNat 64 (s.timeAt s.cur.1)))
/-- FEATQ (R228). -/
def execFeatq (d a : GReg) (s : State) : Host.Outcome State Fault Refusal := retired (s.setG d (s.myCore.featmask &&& s.g a))
/-- MIGOK (R228). -/
def execMigok (v : Bool) (s : State) : Host.Outcome State Fault Refusal := retired (s.onMe (fun x => { x with migok := v }))

end Sys2Proof.Machine
end

