-- ==== Sys2Proof/Machine/Debug.lean ====
section
/-!
DEFINITION. The debug view: holds, writes and breakpoints (R196, R197).
-/

namespace Sys2Proof.Machine

/-- Debugging is enabled in the partition of a core (R196): a debugger is then attached (log 54). -/
def State.debugAt (s : State) (core : Nat) : Bool := (s.part (s.pOf core)).debugOn

/-- A context is at an instruction boundary: none of its instruction's accesses is under way, and no vector access waits between elements. One
that is being shipped has left its registers (R53). -/
def Ctx.atBoundary (x : Ctx) : Bool := x.await != .shipped && (x.st != .running || (!x.rpend && x.rbuf.isEmpty && (x.stall == 0 || x.vstart == 0)))

/-- DEBUG_HOLD: a context held at its next instruction boundary (R196). -/
def execDebugHold (core ctx : Nat) (s : State) : Host.Outcome State Fault Refusal :=
  if s.debugAt core && (s.ctx core ctx).atBoundary then .next (s.onCtx core ctx (fun x => { x with hold := true })) else .next s

/-- TIP written: the IP at which the context resumes (R196). What the parked instruction still waits for is given up. The IP
before it, for the TVAL of R92, stays that of the last instruction retired (log 43). -/
def State.setTip (s : State) (core ctx : Nat) (v : Word) : State :=
  let x := s.ctx core ctx
  let s1 := if v = x.ip then s
    else (s.giveUp core ctx).onCtx core ctx (fun x =>
      { x with rbuf := [], rcur := 0, rpend := false, fill := .none, stall := if x.st == .running then 0 else x.stall })
  s1.onCtx core ctx (fun x => { x with ip := v, trap := { x.trap with tip := v } })

/-- DEBUG_WRITE: a register of a held or parked context (R196). The reserved bits of a view are ignored (R5); a view value whose other fields R78
does not allow leaves the view unchanged. -/
def execDebugWrite (core ctx : Nat) (r : DbgReg) (v : VWord) (s : State) : Host.Outcome State Fault Refusal :=
  let x := s.ctx core ctx
  let w : Word := v.setWidth 64
  if !s.debugAt core || !(x.hold || x.st == .parked) || x.await == .shipped then .next s
  else
    match r with
    | .g n => .next (s.onCtx core ctx (fun x => x.putG n w))
    | .v n => .next (s.onCtx core ctx (fun x => x.putV n v))
    | .k n => .next (s.onCtx core ctx (fun x => x.putK n (v.setWidth 32)))
    | .view n => .next (if viewBad (viewClean w) then s else s.onCtx core ctx (fun x => x.putView n (viewClean w)))
    | .tip => .next (s.setTip core ctx w)
    | .csr c => .next (s.csrPut core ctx c w)

/-- DEBUG_RELEASE: the hold ends, and a running context resumes at TIP (R196). -/
def execDebugRelease (core ctx : Nat) (s : State) : Host.Outcome State Fault Refusal :=
  .next (s.onCtx core ctx (fun x => { x with hold := false }))

/-- BREAKPOINT_SET: a breakpoint of a core, or single-step of a context (R197). -/
def execBreakpointSet (core : Nat) (b : BpSet) (s : State) : Host.Outcome State Fault Refusal :=
  match b with
  | .bp n on ip tag => .next (s.onCore core (fun k => { k with bps := k.bps.set n.val ⟨on, ip, tag⟩ n.isLt }))
  | .step ctx on => .next (s.onCtx core ctx (fun x => { x with step1 := on }))

/-- BKPT_RELEASE: with no debugger attached a BKPT instruction's park ends at NextIP(TIP), every other at TIP; with one attached at the
TIP then held (R197). In deterministic mode too it resumes at once: the quantum waits for it (R198). A resting core's context waits for its turn (R449). -/
def execBkptRelease (core ctx : Nat) (s : State) : Host.Outcome State Fault Refusal :=
  let x := s.ctx core ctx
  match x.st, x.await with
  | .parked, .bkpt instr => if s.rests core then .next s else .next (s.bkptReturn core ctx (instr && !s.debugAt core))
  | .free, _ | .running, _ | .parked, _ => .next s

end Sys2Proof.Machine
end

