-- ==== Sys2Proof/Machine/Fabric.lean ====
section
/-!
DEFINITION. The events of the fabric (R246-R258): routing, poison, throttle, reassembled requests, responses, NACKs, stay notices,
retransmission.
-/

namespace Sys2Proof.Machine

/-- FLIT_ROUTE: a router takes its turn on a plane in the current cycle (R246); every router that has not taken it by the cycle's end takes it
there. -/
def execFlitRoute (router : Nat) (response : Bool) (s : State) : Host.Outcome State Fault Refusal :=
  .next (s.routeOnce router response)

/-- A NACK of a die controller (R258). -/
def State.nack (s : State) (die dst kind num idx : Nat) : State :=
  s.onEp (4096 + 0x40 + die) (fun e => { e with inj1 := e.inj1 ++ [mkFlit (mkHdr (epNum dst) (0x40 + die) kind num idx 0) [] .nack] })

/-- POISON_SINK: FLIT-HEADER with the header received, NACK to the core and NACKE to the engine that SRC may name (R258). -/
def execPoisonSink (die : Nat) (s : State) : Host.Outcome State Fault Refusal :=
  match (s.ep (4096 + 0x40 + die)).poison with
  | [] => .next s
  | h :: t =>
    let src := bitsNat h 40 12
    let num := hSeq h / 8
    let idx := hSeq h % 8
    let s1 := (s.onEp (4096 + 0x40 + die) (fun e => { e with poison := t })).recordE (s.partKey die) die .flitHeader h 0
    let s2 := s1.nack die src 13 num idx
    .next (if seatOf (4096 + src) == .nowhere then s2 else s2.nack die (4096 + src) 14 num idx)

/-- THROTTLE: a local port that has held a flit for 128 cycles without injecting it asserts throttle until that flit is injected (R248). -/
def execThrottle (router : Nat) (response : Bool) (s : State) : Host.Outcome State Fault Refusal :=
  match (portEps router true).find? (fun ep => decide (128 ≤ (s.ep ep).waited response)) with
  | some ep => .next (s.onRouter router (fun x => if (x.thr response).isSome then x else x.setThr response (some ep)))
  | none => .next s

/-! ### Reassembled requests (R255) -/

/-- A message admitted when its turn has come (R36, R255, R256). -/
def State.admitMsg (s : State) (core : Nat) (m : Msg) (src num : Nat) : State :=
  if 2 ≤ m.env.kind then s.deliverHere core m (some (src, num))
  else match s.enters core m (some (src, num)) (s.timeAt core) with
    | (s', .queued) => s'.respond core src num .ok
    | (s', .unbound) => s'.respond core src num (Rsp.plain .held 0)
    | (s', .refused c) => s'.respond core src num (Rsp.plain .refused c.code)
    | (s', .discarded) => s'.respond core src num .ok
    | (s', .waits) => s'

/-- A request that its interface takes as soon as its turn has come: a message, a window store, a level notice. -/
def InReq.atOnce (r : InReq) : Bool := r.body.sort == .msg || r.body.sort == .wst || r.body.sort == .notice

/-- Such a request taken: a message admitted (R36), a window store kept by its engine (R373), a notice by its front unit (R347). -/
def State.takeIn (s : State) (ep : Nat) (r : InReq) : State :=
  match r.body with
  | .msg m => s.admitMsg ep m r.src r.num
  | .wst xd n st => (s.wstHere xd n st).respond ep r.src r.num .ok
  | .notice _ n => (s.hearNotice (ep - 4096 - 0x20) n).respond ep r.src r.num .ok
  | .copy _ _ _ _ _ _ _ | .rld _ _ _ _ _ _ | .rst _ _ _ _ _ _ _ _ _ _ | .rat _ _ _ _ _ _ _ _ _ | .repl _ _ _ _ _ _ _ | .ewr _ _ _ _ _
  | .xfer _ _ _ _ _ => s

/-- The requests of this sort whose turn has come, taken in order. -/
def State.admitDue (s : State) (ep : Nat) : Nat → State
  | 0 => s
  | n + 1 =>
    match (s.ep ep).due InReq.atOnce with
    | none => s
    | some (r, left) => ((s.took ep r left).takeIn ep r).admitDue ep n

/-- The context that a request names. -/
def ReqBody.ctxOf : ReqBody → Nat
  | .rld _ _ c _ _ _ => c
  | .rst _ _ c _ _ _ _ _ _ _ => c
  | .rat _ _ _ c _ _ _ _ _ => c
  | .msg _ | .copy _ _ _ _ _ _ _ | .ewr _ _ _ _ _ | .xfer _ _ _ _ _ | .wst _ _ _ | .notice _ _ | .repl _ _ _ _ _ _ _ => 0

/-- The order of the requests at an interface: by arrival, those of one cycle by core and context (R159). -/
def InReq.before (y x : InReq) : Bool :=
  decide (y.since < x.since) || (y.since == x.since && (decide (y.src < x.src) || (y.src == x.src && decide (y.body.ctxOf ≤ x.body.ctxOf))))

/-- A complete request: a duplicate is discarded and its kept answer sent again, any other is held for its turn (R255). -/
def State.assembled (s : State) (ep : Nat) (a : Asm) (left : List Asm) : State :=
  let e := s.ep ep
  let s1 := s.onEp ep (fun e => { e with asm := left })
  if (a.num + 32 - AMap.get 0 e.expect a.src) % 32 < 16 then
    if e.ready.any (fun r => r.src == a.src && r.num == a.num) then s1
    else s1.onEp ep (fun e => { e with ready := insertBy InReq.before ⟨a.src, a.num, a.kind, a.body, s.time⟩ e.ready })
  else match e.kept.find? (fun k => k.src == a.src && k.num == a.num) with
    | some k => s1.sendRsp ep a.src a.num k.rsp
    | none => s1

/-- REQUEST_REASSEMBLED: the oldest complete request of an interface, and the messages whose turn has come (R255). -/
def execRequestReassembled (ep : Nat) (s : State) : Host.Outcome State Fault Refusal :=
  let s1 := match takeFirst (fun (a : Asm) => a.got.length == a.mlen + 1) (s.ep ep).asm with
    | some (a, left) => s.assembled ep a left
    | none => s
  .next (s1.admitDue ep (s1.ep ep).ready.length)

/-! ### Responses (R256, R257) -/

/-- A posted store that a home has answered leaves its lane; one that failed is reported (R195). -/
def State.storeDone (s : State) (core ctx lane : Nat) (colour : Nat) (va : Word) (bad : Bool) : State :=
  match (s.core core).lanes.find? (fun e => e.id == lane) with
  | none => s
  | some e =>
    let s1 := s.onCore core (fun k => { k with lanes := k.lanes.filter (fun x => x.id != lane) })
    (if bad then s1.storeFault core ctx e.serial e.msgid e.tag colour (vaOf va) else s1).drain core

/-- A read that its context has given up: a SYNCE that was served is RETURNed (R261, R267). -/
def State.orphanRead (s : State) (core dest ctx : Nat) (m : RMode) (sgn : Bool) (pa size : Nat) (va : Word) (bad : Bool) : State :=
  if m = .synce && !bad then s.sendReq core dest 3 (.rld .ret sgn ctx pa size va) Sender.none else s

/-- A fill that its home has answered (R94): the line goes to the cache, a failure to the context that waits for it. -/
def State.fillDone (s : State) (core ctx : Nat) (va : Word) (r : Rsp) : State :=
  let x := s.ctx core ctx
  if r.st == .fault then
    if x.fill == .pending then s.onCtx core ctx (fun x => { x with fill := .failed r.cause }) else s
  else (s.cacheLine core va.toNat r.blk).onCtx core ctx (fun x => if x.fill == .pending then { x with fill := .none } else x)

/-- The answer to a read: to the context, to the cache, or to nobody any more. -/
def State.readDone (s : State) (ep : Nat) (o : OutReq) (m : RMode) (sgn : Bool) (ctx pa size : Nat) (va : Word) (r : Rsp) : State :=
  match o.use with
  | .reply => s.answerCtx ep ctx (r.ans (o.dest - 4096) o.body)
  | .fill => s.fillDone ep ctx va r
  | .orphan => s.orphanRead ep o.dest ctx m sgn pa size va (r.st == .fault)

/-- The request of a SYNC or SYNCE read that its context has given up, of one context and address at a home (R261). -/
def OutReq.orphanOf (o : OutReq) (dest ctx pa : Nat) : Bool :=
  o.use == .orphan && o.dest == dest && (match o.body with
    | .rld m _ c a _ _ => (m == .sync || m == .synce) && c == ctx && a == pa
    | .msg _ | .copy _ _ _ _ _ _ _ | .rst _ _ _ _ _ _ _ _ _ _ | .rat _ _ _ _ _ _ _ _ _ | .repl _ _ _ _ _ _ _ | .ewr _ _ _ _ _
    | .xfer _ _ _ _ _ | .wst _ _ _ | .notice _ _ => false)

/-- A final response: the copy is freed, a waiting request takes its number, and whoever waits for the answer learns it (R256). The
answer of a CANCEL says whether it has removed the read that its sender keeps (log 56). -/
def State.finalRsp (s : State) (ep : Nat) (o : OutReq) (r : Rsp) : State :=
  let bad := r.st == .fault
  let s0 := s.onEp ep (fun e =>
    let e' : Endp := { e with out := e.out.filter (fun x => !(x.dest == o.dest && x.num == o.num)) }
    Endp.drain ep s.time e'.backlog e')
  match o.body with
  | .msg m =>
    if r.st == .refused && decide (ep < 4096) then
      s0.refuse ep m o.snd (s.lnum o.dest) (match Cause.ofRefusal r.cause with | some c => c | none => .badTask)
    else s0
  | .copy _ _ _ _ _ _ _ => s0
  | .rld m sgn ctx pa size va =>
    match m with
    | .cancel => if r.val = 1 then s0.onEp ep (fun e => { e with out := e.out.filter (fun x => !x.orphanOf o.dest ctx pa) }) else s0
    | .confirm | .ret => s0
    | .plain | .sync | .synce | .fe =>
      if ep < 4096 then s0.readDone ep o m sgn ctx pa size va r
      else s0.onChan (engStr (ep - 4096)) ctx (fun c => c.take ((r.blk.drop (pa % 64)).take size) (r.val == 1))
  | .rst _ _ ctx _ _ _ colour va lane _ => s0.storeDone ep ctx lane colour va bad
  | .rat _ _ _ ctx _ _ _ _ _ => if o.use == .reply then s0.answerCtx ep ctx (r.ans (o.dest - 4096) o.body) else s0
  | .repl job _ _ _ _ _ _ => s0.replAck (ep - 4096) job
  | .ewr _ bytes _ str ch => s0.strAck str ch bytes.length
  | .xfer _ bytes _ str ch => s0.strAck str ch bytes.length
  | .wst _ _ _ | .notice _ _ => s0

/-- An outstanding request changed. -/
def State.onOut (s : State) (ep dest num : Nat) (f : OutReq → OutReq) : State :=
  s.onEp ep (fun e => { e with out := e.out.map (fun o => if o.dest == dest && o.num == num then f o else o) })

/-- A response to an outstanding request (R256, R257): the back-off of a BUSY counts those before it (log 56). -/
def State.gotRsp (s : State) (ep : Nat) (o : OutReq) (r : Rsp) : State :=
  match r.st with
  | .held => s.onOut ep o.dest o.num (fun o => { o with timer := s.time, resends := 0 })
  | .busy => s.onOut ep o.dest o.num (fun o =>
      let wait := if r.k0 then 64 else min 4096 (64 * 2 ^ o.busy)
      { o with busy := if r.k0 then o.busy else o.busy + 1, backoff := some (s.time + wait), timer := s.time, resends := 0 })
  | .done | .refused | .fault => s.finalRsp ep o r

/-- The first complete arrival of a kind at an interface. -/
def takeRsp (p : FlitBody → Bool) (e : Endp) : Option (InRsp × Endp) :=
  match takeFirst (fun (x : InRsp) => p x.body && x.got.length == x.mlen + 1) e.rsps with
  | some (x, t) => some (x, { e with rsps := t })
  | none => none

/-- RESPONSE_RECEIVE: the oldest response at an interface; one that answers nothing outstanding is ignored (R256). -/
def execResponseReceive (ep : Nat) (s : State) : Host.Outcome State Fault Refusal :=
  match takeRsp (fun b => match b with | .rsp _ => true | .req _ | .stay _ | .nack => false) (s.ep ep) with
  | none => .next s
  | some (x, e) =>
    let s1 := s.onEp ep (fun _ => e)
    match x.body, e.out.find? (fun o => o.dest == x.src && o.num == x.num) with
    | .rsp r, some o => .next (s1.gotRsp ep o r)
    | .rsp _, none | .req _, _ | .stay _, _ | .nack, _ => .next s1

/-- The die on which the retransmission of a request is counted: that of the router at which its flits enter the torus, or for a transfer the
die of the core that asked for it (R257, R438 0x08). -/
def State.resendDie (s : State) (ep : Nat) (o : OutReq) : Nat :=
  let chan := fun (str ch : Nat) => match AMap.find (s.str str).chans ch with | some c => dieOf c.core | none => s.srcRouter ep o.dest / 32
  match o.body with
  | .ewr _ _ _ str ch => chan str ch
  | .xfer _ _ _ str ch => chan str ch
  | .rld _ _ ch _ _ _ => if ep < 4096 then s.srcRouter ep o.dest / 32 else chan (engStr (ep - 4096)) ch
  | .msg _ | .copy _ _ _ _ _ _ _ | .rst _ _ _ _ _ _ _ _ _ _ | .rat _ _ _ _ _ _ _ _ _ | .repl _ _ _ _ _ _ _ | .wst _ _ _ | .notice _ _ =>
    s.srcRouter ep o.dest / 32

/-- A request sent again with its number (R257), and counted (R438). -/
def State.resend (s : State) (ep : Nat) (o : OutReq) : State :=
  let s1 := s.onEp ep (fun e => { e with
    inj0 := e.inj0 ++ reqFlits o.dest ep o.kind o.num o.body
    out := e.out.map (fun x => if x.dest == o.dest && x.num == o.num then { x with timer := s.time, backoff := none, resends := x.resends + 1 } else x) })
  s1.count (s.resendDie ep o) 0x08 1

/-- NACK_RECEIVE: a NACK that matches outstanding requests has them sent again; any other is ignored (R257, R258). -/
def execNackReceive (ep : Nat) (s : State) : Host.Outcome State Fault Refusal :=
  match takeRsp (fun b => match b with | .nack => true | .req _ | .stay _ | .rsp _ => false) (s.ep ep) with
  | none => .next s
  | some (x, e) => .next ((e.out.filter (fun o => o.num == x.num)).foldl (fun s o => s.resend ep o) (s.onEp ep (fun _ => e)))

/-- A stay notice tells a context that still waits for its answer where the request stands (R47, R263). -/
def State.stayHere (s : State) (ep : Nat) (o : OutReq) (reason : Nat) : State :=
  if o.use == .reply && decide (ep < 4096) then s.stayPark ep o.body reason else s

/-- STAY_NOTICE_RECEIVE: the request's timer starts again (R257, R263). -/
def execStayNoticeReceive (ep : Nat) (s : State) : Host.Outcome State Fault Refusal :=
  match takeRsp (fun b => match b with | .stay _ => true | .req _ | .nack | .rsp _ => false) (s.ep ep) with
  | none => .next s
  | some (x, e) =>
    let s1 := s.onEp ep (fun _ => e)
    match x.body, e.out.find? (fun o => o.dest == x.src && o.num == x.num) with
    | .stay r, some o => .next ((s1.onOut ep o.dest o.num (fun o => { o with timer := s.time, resends := 0 })).stayHere ep o r)
    | .stay _, none | .req _, _ | .rsp _, _ | .nack, _ => .next s1

/-- A request of kinds 3 to 5. -/
def OutReq.isRemote (o : OutReq) : Bool := decide (3 ≤ o.kind) && decide (o.kind ≤ 5)

/-- RETX_TIMEOUT: RETX cycles without an answer: the request is sent again, and one of kinds 3 to 5 that has been sent again 16 times
ends with REMOTE-FAULT (R257). -/
def execRetxTimeout (ep dest num : Nat) (s : State) : Host.Outcome State Fault Refusal :=
  match (s.ep ep).out.find? (fun o => o.dest == dest && o.num == num) with
  | none => .next s
  | some o =>
    if o.backoff.isSome || s.time < o.timer + Config.retx then .next s
    else if o.isRemote && 16 ≤ o.resends then .next (s.finalRsp ep o (Rsp.plain .fault Cause.remoteFault.code))
    else .next (s.resend ep o)

/-- BUSY_BACKOFF: the back-off of a request has passed and it is sent again (R257). -/
def execBusyBackoff (ep dest num : Nat) (s : State) : Host.Outcome State Fault Refusal :=
  match (s.ep ep).out.find? (fun o => o.dest == dest && o.num == num) with
  | none => .next s
  | some o =>
    match o.backoff with
    | some t => if s.time < t then .next s else .next (s.resend ep o)
    | none => .next s

end Sys2Proof.Machine
end

