-- ==== Sys2Proof/Machine/FrontEnd.lean ====
section
/-!
DEFINITION. The front end: command queues and the choice of packets (R407-R409), launches (R410-R413) and the packets END, INVAL and
DISPOSE (R414-R416).
-/

namespace Sys2Proof.Machine

/-! ### Queues (R407, R408) -/

/-- Status codes of R408. -/
inductive QErr where
  | ok | badPacket | badTail | hostFault | shape | image | keep | extent | taskBusy
  deriving DecidableEq, Repr

/-- The code of a status. -/
def QErr.code : QErr → Nat
  | .ok => 0 | .badPacket => 1 | .badTail => 2 | .hostFault => 3 | .shape => 4 | .image => 5 | .keep => 6 | .extent => 7 | .taskBusy => 8

/-- What a part of a launch comes to: a result, a page that the host has to bring in first (R421), a page that an engine's use of others delays
(R328, R415), or a failure (R408). -/
inductive Walked (α : Type) where
  | ok (a : α) (s : State)
  | ask (va : Nat) (s : State)
  | later (s : State)
  | fail (e : QErr)

/-- One part of a launch after another. -/
def Walked.bind {α β : Type} (r : Walked α) (f : α → State → Walked β) : Walked β :=
  match r with
  | .ok a s => f a s
  | .ask va s => .ask va s
  | .later s => .later s
  | .fail e => .fail e

/-- A command queue of a partition. -/
def Part.q (P : Part) (n : Nat) : CmdQ := AMap.get CmdQ.reset P.queues n

/-- The partition with a queue changed. -/
def Part.setQ (P : Part) (n : Nat) (f : CmdQ → CmdQ) : Part := { P with queues := AMap.set P.queues n (f (P.q n)) }

/-- Packets that a queue holds. -/
def CmdQ.count (c : CmdQ) : Nat := (c.tail - c.head).toNat

/-- The bytes from a physical address as the front end reads them: host memory or a first-tier frame of the partition, whole. -/
def State.readPhys (s : State) (p pa n : Nat) : Option (List Byte) :=
  if (hostMem pa || stackIn p (s.part p).dies pa) && !s.mem.poisoned pa n then some (s.mem.bytes pa n) else none

/-- The words of a run of bytes. -/
def bytesWords : Nat → List Byte → List Word
  | 0, _ => []
  | n + 1, b => BitVec.ofNat 64 (leNat (b.take 8)) :: bytesWords n (b.drop 8)

/-- The packet of a queue `i` places past HEAD. -/
def State.packetAt (s : State) (p : Nat) (c : CmdQ) (i : Nat) : Option (List Word) :=
  (s.readPhys p (c.base + 64 * ((c.head.toNat + i) % 2 ^ c.sizelog)) 64).map (bytesWords 8)

/-- KIND of a packet (R409). -/
def pkKind (w : List Word) : Nat := bitsNat (w.getD 0 0) 60 4
/-- NEXT of a LAUNCH. -/
def pkNext (w : List Word) : Nat := bitsNat (w.getD 0 0) 49 5
/-- The EXTENTS packets of a LAUNCH (R411). -/
def pkExts (w : List Word) : Nat := if pkKind w = 1 && pkNext w ≤ 16 then (pkNext w + 2) / 3 else 0

/-- A packet of a partition that fails: ERR is written, HEAD stays, the queue stops, and its vector is signalled (R408, R422). -/
def State.packetFail (s : State) (p q : Nat) (e : QErr) : State :=
  (s.onPart p (fun P => { (P.setQ q (fun c => { c with err := e.code })) with packet := none, rr := q })).msi p 1

/-- A packet that completes: HEAD past it and its EXTENTS packets; the vector is signalled where HEAD reaches TAIL (R408, R411). -/
def State.packetDone (s : State) (p : Nat) (k : Packet) : State :=
  let s1 := s.onPart p (fun P => { (P.setQ k.q (fun c => { c with head := c.head + BitVec.ofNat 32 (1 + pkExts k.words) })) with
    packet := none, rr := k.q })
  let c := (s1.part p).q k.q
  if c.head = c.tail then s1.msi p 1 else s1

/-- What the choice finds at a queue (R408). -/
inductive Found where
  | none
  | fail (e : QErr)
  | packet (w : List Word) (exts : List (List Word))

/-- Some packets of a list, or none where one could not be read. -/
def allSome {α : Type} : List (Option α) → Option (List α)
  | [] => some []
  | none :: _ => none
  | some a :: t => (allSome t).map (a :: ·)

/-- A packet that its layout refuses: an unknown KIND, an EXTENTS packet out of place, or a bit that no field of a NOP, END, INVAL or
DISPOSE holds (R408, R409, R414-R416). -/
def pkBad (w : List Word) : Bool :=
  let w0 := w.getD 0 0
  let rest := fun (n : Nat) => (w.drop n).any (fun x => x != 0)
  match pkKind w with
  | 0 => bitsNat w0 0 60 != 0 || rest 1
  | 1 => false
  | 3 => bitsNat w0 49 11 != 0 || bitsNat w0 0 46 != 0 || rest 1
  | 4 => bitsNat w0 0 60 != 0 || rest 3
  | 5 => bitsNat w0 2 58 != 0 || bitsNat w0 0 2 == 3 || bitsNat (w.getD 1 0) 15 49 != 0 || rest 3
  | _ => true

/-- In host-assisted spreading a die serves the queues whose DIE names it: one that names no die of the partition is served by none (R413). -/
def Part.serves (P : Part) (p q : Nat) : Bool := !P.spreadHost || (decide (p ≤ (P.q q).die) && decide ((P.q q).die < p + P.dies))

/-- What a queue offers: nothing, a packet with its EXTENTS packets, or an error that stops it (R408). -/
def State.lookQueue (s : State) (p q : Nat) : Found :=
  let c := (s.part p).q q
  if !c.en || c.err != 0 || c.count = 0 || !(s.part p).serves p q then .none
  else if 2 ^ c.sizelog < c.count then .fail .badTail
  else match s.packetAt p c 0 with
    | none => .fail .hostFault
    | some w =>
      if pkBad w then .fail .badPacket
      else if c.count < 1 + pkExts w then .none
      else match allSome ((upTo (pkExts w)).map (fun i => s.packetAt p c (1 + i))) with
        | some e => .packet w e
        | none => .fail .hostFault

/-- No die of a partition is in a group without a lease (R419). -/
def State.leased (s : State) (p : Nat) : Bool := (upTo (s.part p).dies).all (fun i => !(s.fw (p + i)).lost)

/-- The queues in the order of the choice: ascending, from the one after the last one served. -/
def queueOrder (rr : Nat) : List Nat := (upTo 64).map (fun i => (rr + 1 + i) % 64)

/-- PACKET_CHOOSE: the next covered packet is chosen, or the first queue in the order that is in error stops (R408). -/
def execPacketChoose (part : Nat) (s : State) : Host.Outcome State Fault Refusal :=
  if (s.part part).packet.isSome || !s.leased part then .next s
  else
    match (queueOrder (s.part part).rr).findSome? (fun q =>
      match s.lookQueue part q with
      | .none => none
      | .fail e => some (q, Found.fail e)
      | .packet w x => some (q, Found.packet w x)) with
    | none | some (_, .none) => .next s
    | some (q, .fail e) => .next (s.packetFail part q e)
    | some (q, .packet w x) => .next (s.onPart part (fun P => { P with packet := some ⟨q, w, x⟩ }))

/-- QUEUE_RESUME: ERR cleared, and the stopped queue goes on (R407). -/
def execQueueResume (part q : Nat) (s : State) : Host.Outcome State Fault Refusal :=
  .next (s.onPart part (fun P => P.setQ (q % 64) (fun c => { c with err := 0 })))

/-- The chosen packet of a partition, where it has a kind. -/
def State.chosen (s : State) (p kind : Nat) : Option Packet :=
  match (s.part p).packet with
  | some k => if pkKind k.words = kind then some k else none
  | none => none

/-- NOP_PACKET (R409). -/
def execNopPacket (part : Nat) (s : State) : Host.Outcome State Fault Refusal :=
  match s.chosen part 0 with
  | none => .next s
  | some k => .next (s.packetDone part k)

/-! ### Launches: the packet (R408, R410, R411) -/

/-- A field of word 0 of a packet. -/
def pf (w : List Word) (lo n : Nat) : Nat := bitsNat (w.getD 0 0) lo n

/-- An extent slot of the EXTENTS packets: base, length and writable flag. -/
def extSlot (x : List (List Word)) (i : Nat) : Word × Word :=
  let w := x.getD (i / 3) []
  (w.getD (1 + 2 * (i % 3)) 0, w.getD (2 + 2 * (i % 3)) 0)

/-- BAD-PACKET of a LAUNCH with its EXTENTS packets. -/
def launchBad (w : List Word) (x : List (List Word)) : Bool :=
  let det := pf w 56 1 == 1
  let g := 2 ^ pf w 40 6
  let base := (w.getD 6 0).toNat
  decide (4 < pf w 57 3) || decide (16 < pkNext w) || decide (pf w 40 6 < 6) || decide (40 < pf w 40 6) ||
    (!det && (pf w 54 2 != 0 || pf w 0 32 != 0)) || base % g != 0 || decide (2 ^ 60 ≤ base) || (w.getD 7 0).toNat % g != 0 ||
    x.any (fun e => bitsNat (e.getD 0 0) 60 4 != 2 || bitsNat (e.getD 0 0) 0 60 != 0 || e.getD 7 0 != 0) ||
    (upTo (3 * x.length)).any (fun i => decide (pkNext w ≤ i) && ((extSlot x i).1 != 0 || (extSlot x i).2 != 0))

/-- QUANT of a deterministic LAUNCH. -/
def pkQuant (w : List Word) : Nat := if pf w 0 32 = 0 then 8192 else pf w 0 32
/-- The logical cores of the shape of a deterministic LAUNCH (R26). -/
def pkShape (w : List Word) : Nat := 512 * 2 ^ pf w 54 2
/-- DET. -/
def pkDet (w : List Word) : Bool := pf w 56 1 == 1

/-- SHAPE of R412: the shape or QUANT is out of range (R26). -/
def shapeBad (dies : Nat) (w : List Word) : Bool :=
  pkDet w && (decide (512 * dies < pkShape w) || decide (pkQuant w < 1024) || decide (2 ^ 31 < pkQuant w))

/-! ### Launches: the image (R122, R123, R412) -/

/-- A page that a launch needs, brought in: HOST-FAULT or the given failure where nothing is mapped there. -/
def State.launchPage (s : State) (p va : Nat) (need : List Nat) (e : QErr) : Walked Unit :=
  match s.bringIn p va need 4 with
  | .here s1 => .ok () s1
  | .ask s1 => .ask va s1
  | .later s1 => .later s1
  | .unmapped => .fail e

/-- The bytes at a virtual address as the front end reads them, its pages brought in as needed; `n` bounds the pages. -/
def State.readVirt (s : State) (p : Nat) : Nat → Nat → Nat → Walked (List Byte)
  | 0, _, left => if left = 0 then .ok [] s else .fail .hostFault
  | n + 1, va, left =>
    if left = 0 then .ok [] s
    else
      let k := min left (4096 - va % 4096)
      (s.launchPage p va [] .hostFault).bind fun _ s =>
        match s.walk p va with
        | .leaf lvl _ e =>
          let pa := pteAddr e + va % pageSize lvl
          if (s.checkAttr p lvl e .load).isSome || s.mem.poisoned pa k then .fail .hostFault
          else (s.readVirt p n (va + k) (left - k)).bind fun b s2 => .ok (s.mem.bytes pa k ++ b) s2
        | .absent _ _ _ | .bad => .fail .hostFault

/-- What a launch takes from its image. -/
structure Image where
  base    : Nat
  lim     : Nat
  cline   : Bool
  featreq : Word
  budget  : Word
  views   : Vector Word 16
  keepLo  : Nat
  keepHi  : Nat
  digest  : BitVec 512
  deriving DecidableEq, Repr

/-- The views of the view table: a later entry replaces an earlier one, VIEW0 stays 0, and an entry with a number above 15 or a value that R78
does not allow is not taken (R77, R123, log 39). -/
def imageViews (tbl : List Byte) (n : Nat) : Vector Word 16 :=
  (upTo n).foldl (fun v i =>
    let e := bytesWords 2 (tbl.drop (16 * i))
    let k := (e.getD 0 0).toNat
    let w := viewClean (e.getD 1 0)
    if 1 ≤ k && k < 16 && !viewBad w then v.set (k % 16) w (Nat.mod_lt _ (by decide)) else v) (Vector.replicate 16 0)

/-- Little-endian bytes as a number of 512 bits. -/
def digestOf (b : List Byte) : BitVec 512 := BitVec.ofNat 512 (leNat b)

/-- The image read and checked (R412 step 2): HOST-FAULT where it cannot be read, IMAGE where MAGIC, VERSION or DIGEST is wrong or the
handler IP lies outside the code. -/
def State.readImage (s : State) (p : Nat) (va : Nat) (hip : Word) : Walked Image :=
  (s.readVirt p 2 va 128).bind fun h s =>
    let f := fun lo n => leNat ((h.drop lo).take n)
    let nh := f 40 2
    let nv := f 42 2
    let base := (va + 128 + 8 * nh + 16 * nv + 63) / 64 * 64
    let code := f 16 8
    let data := f 24 8
    let dbase := (base + code + 4095) / 4096 * 4096
    if f 0 4 != 0x4E584D49 || f 4 2 != 1 then .fail .image
    else (s.readVirt p ((base + code - va) / 4096 + 2) (va + 128) (base + code - (va + 128))).bind fun body s =>
      (s.readVirt p (data / 4096 + 2) dbase data).bind fun d s =>
        let dg := digestOf ((h.drop 48).take 64)
        let line := bitsNat hip 6 54 * 64
        if Config.sha512 (h.take 48 ++ List.replicate 64 0 ++ h.drop 112 ++ body ++ d) != dg || line < base || base + code ≤ line then .fail .image
        else .ok ⟨base, base + code, f 6 2 % 2 == 1, BitVec.ofNat 64 (f 8 8), BitVec.ofNat 64 (f 32 8), imageViews (body.drop (8 * nh)) nv,
          f 112 4, f 44 4, dg⟩ s

/-! ### Launches: the task entries (R54, R120, R125, R143, R412) -/

/-- The cores that a launch uses (R412); in host-assisted spreading those of the die that serves the queue (R413). -/
def State.launchCores (s : State) (p die : Nat) (w : List Word) : List Nat :=
  let l := if pkDet w then (upTo (pkShape w)).map (512 * p + ·) else s.partCores p
  if (s.part p).spreadHost then l.filter (fun c => dieOf c == die) else l

/-- A keep range overlaps one of a VALID task of a core, or ends beyond the scratchpad (R120). A range with no byte overlaps none. -/
def keepBad (k : CoreSt) (im : Image) : Bool :=
  decide (Config.scratchLimit < im.keepHi) ||
    k.tasks.toList.any (fun t => t.st == .valid && decide (max t.keepLo im.keepLo < min t.keepHi im.keepHi))

/-- The pages of an extent checked (R143): one physically contiguous run of first-tier or second-tier frames, each readable and as its
flag says writable, no TXW, RXW or FE page, and no REPL page where it is writable. `first` is the address of the extent's base; no page of
`need`, those of every extent of the launch, leaves for another. The result is the replication of the pages: the most of any (R142). -/
def State.extPages (s : State) (p : Nat) (need : List Nat) (wr : Bool) (base first : Nat) : List Nat → Walked Nat
  | [] => .ok 0 s
  | va :: t =>
    (s.launchPage p va need .extent).bind fun _ s =>
      match s.walk p va with
      | .leaf lvl _ e =>
        let pa := pteAddr e + va % pageSize lvl
        if (s.checkAttr p lvl e .load).isSome || (wr && !pteW e) || pteTxw e || pteRxw e || pteFe e || (wr && pteRepl e) ||
           (pa : Int) - va != (first : Int) - base then .fail .extent
        else (s.extPages p need wr base first t).bind fun n s => .ok (max n (replOf e)) s
      | .absent _ _ _ | .bad => .fail .extent

/-- The pages of the extents of a launch. -/
def extNeeds (x : List (List Word)) (n : Nat) : List Nat :=
  (upTo n).flatMap (fun i => pageSteps ((extSlot x i).1.toNat % 2 ^ 60) ((extSlot x i).2.toNat % 2 ^ 63))

/-- An extent translated and recorded, or EXTENT where it breaks R143. R143 does not say what becomes of the base of an extent of length 0: the
model records it untranslated (log 69). -/
def State.extent (s : State) (p : Nat) (need : List Nat) (e : Word × Word) : Walked Ext :=
  let base := e.1.toNat % 2 ^ 60
  let len := e.2.toNat % 2 ^ 63
  let wr := e.2.getLsbD 63
  if len = 0 then .ok ⟨BitVec.ofNat 64 base, 0, wr, 0, 0⟩ s
  else (s.launchPage p base need .extent).bind fun _ s =>
    match s.walk p base with
    | .leaf lvl _ l =>
      let pa := pteAddr l + base % pageSize lvl
      (s.extPages p need wr base pa (pageSteps base len)).bind fun rp s => .ok ⟨BitVec.ofNat 64 base, len, wr, pa, rp⟩ s
    | .absent _ _ _ | .bad => .fail .extent

/-- The extents of a launch translated in order. -/
def State.extents (s : State) (p : Nat) (need : List Nat) (x : List (List Word)) : Nat → Nat → Walked (List Ext)
  | 0, _ => .ok [] s
  | n + 1, i => (s.extent p need (extSlot x i)).bind fun e s => (s.extents p need x n (i + 1)).bind fun l s => .ok (e :: l) s

/-- The extents of an entry equal the ones that a launch declares (R412). -/
def extsSame (t : Task) (x : List (List Word)) (n : Nat) : Bool :=
  t.exts.length == n && (upTo n).all (fun i =>
    let d := extSlot x i
    match t.exts[i]? with
    | some e => e.base.toNat == d.1.toNat % 2 ^ 60 && e.len == d.2.toNat % 2 ^ 63 && e.wr == d.2.getLsbD 63
    | none => false)

/-- An entry that a launch reuses (R412). -/
def reuses (t : Task) (im : Image) : Bool := t.st == .valid && t.base == im.base && t.digest == im.digest

/-- The entry of one core examined (R412 step 3): TASK-BUSY, EXTENT or KEEP, or none. -/
def State.entryErr (s : State) (core tag : Nat) (im : Image) (x : List (List Word)) (n : Nat) : Option QErr :=
  let k := s.core core
  let t := k.task tag
  if t.st = .invalid then (if keepBad k im then some .keep else none)
  else if !reuses t im then some .taskBusy
  else if extsSame t x n then none else some .extent

/-- TASK-BUSY of R61. R26 lets the dies beyond the shape serve other tasks, R61 refuses every LAUNCH of another shape or QUANT while the mode lasts: the
model follows R61, and those dies have no task meanwhile (log 69). -/
def State.detBusy (s : State) (p : Nat) (w : List Word) : Bool :=
  let P := s.part p
  if P.det then !pkDet w || pkShape w != P.shape || pkQuant w != (s.core (512 * p)).quant.toNat
  else pkDet w && s.launched p

/-- A request for a line of a range. -/
def fillIn (lo hi : Nat) (use : OutUse) (b : ReqBody) : Bool :=
  match b with
  | .rld _ _ _ _ _ va => use == .fill && decide (lo ≤ va.toNat) && decide (va.toNat < hi)
  | .msg _ | .copy _ _ _ _ _ _ _ | .rst _ _ _ _ _ _ _ _ _ _ | .rat _ _ _ _ _ _ _ _ _ | .repl _ _ _ _ _ _ _ | .ewr _ _ _ _ _
  | .xfer _ _ _ _ _ | .wst _ _ _ | .notice _ _ => false

/-- No line of a task is in the instruction cache of a core when its entry becomes VALID, and none comes that was asked for before (R94). -/
def State.dropLines (s : State) (core : Nat) (im : Image) : State :=
  let e := s.ep core
  let s1 := if e.out.any (fun o => fillIn im.base im.lim o.use o.body) || e.backlog.any (fun o => fillIn im.base im.lim o.use o.body) then
      s.onEp core (fun e => { e with
        out := e.out.map (fun o => if fillIn im.base im.lim o.use o.body then { o with use := .orphan } else o)
        backlog := e.backlog.map (fun o => if fillIn im.base im.lim o.use o.body then { o with use := .orphan } else o) })
    else s
  s1.onCore core (fun k => { k with
    icache := k.icache.filter (fun e => !(decide (im.base ≤ e.la) && decide (e.la < im.lim)))
    ctxs := k.ctxs.map (fun x =>
      if x.fill == .pending && decide (im.base ≤ x.ip.toNat / 64 * 64) && decide (x.ip.toNat / 64 * 64 < im.lim) then { x with fill := .none } else x) })

/-- A task installed in an entry (R125), with the next generation, where the core has its features (R54). -/
def State.install (s : State) (p core tag : Nat) (im : Image) (exts : List Ext) : State :=
  let k := s.core core
  let t := k.task tag
  if k.featmask &&& im.featreq != im.featreq then s.recordE p (dieOf core) .featureMismatch (im.featreq &&& ~~~k.featmask) 0
  else
    let t' : Task := ⟨.valid, im.base, im.lim, t.gen + 1, im.cline, im.featreq, im.budget, im.views, exts, im.keepLo, im.keepHi, im.digest⟩
    let s1 := (s.dropLines core im).onCore core (fun k => k.setTask tag t')
    -- R37: the messages of the unbound queue enter from step 3 of R36
    let l := k.unbound.filter (fun m => m.ofTag tag)
    l.foldl (fun s m =>
      match s.admitFrom3 core m.msg (some m.slot) m.arrival with
      | (s', .refused c) => s'.respondTo core m.origin (Rsp.plain .refused c.code)
      | (s', .queued) | (s', .discarded) => s'.respondTo core m.origin .ok
      | (s', .unbound) | (s', .waits) => s')
      (s1.onCore core (fun k => { k with unbound := k.unbound.filter (fun m => !m.ofTag tag) }))

/-- A core that a launch uses takes its entry and its stage number (R455). R455 says that STAGE is taken when the launch installs or reuses the entry,
R412 calls every core of the partition used: the model has a core whose FEATMASK refuses the task (R54) take STAGE too (log 69). -/
def State.useCore (s : State) (p core tag stage : Nat) (im : Image) (exts : List Ext) : State :=
  let s1 := if ((s.core core).task tag).st = .invalid then s.install p core tag im exts else s
  s1.onCore core (fun k => { k with stage := BitVec.ofNat 8 stage })

/-- A partition enters deterministic mode (R61): QUANT and the send counters of the shape's cores, GUESTCTX of every core of the partition (R40,
log 46), and the count of quanta. -/
def State.enterDet (s : State) (p : Nat) (w : List Word) : State :=
  let s0 := s.onPart p (fun P => { P with det := true, shape := pkShape w, quanta := 0, wraps := 0 })
  let s1 := (s0.partCores p).foldl (fun s c => s.onCore c (fun k => { k with guest := true })) s0
  let s2 := (upTo (pkShape w)).foldl (fun s i => s.onCore (512 * p + i) (fun k =>
    { k with quant := BitVec.ofNat 32 (pkQuant w), retired := 0, qdone := false, rot := 3, synced := false
             ctxs := k.ctxs.map (fun x => { x with seq := 0 }) })) s1
  ({ s2 with wr := s2.wr.filter (fun w => s.pOf w.core != p) } : State).firstTurns p |>.startBoards p

/-! ### Launches: spreading (R413) -/

/-- One launch message, at its owner where that is one of the cores of this walk. -/
def State.injectLaunch (s : State) (p : Nat) (cores : List Nat) (w : List Word) (i : Nat) : State :=
  let n := (w.getD 7 0).toNat / 2 ^ pf w 40 6
  let a := (w.getD 6 0).toNat + i * 2 ^ pf w 40 6
  let (b, m) := s.coreRange (512 * p)
  let l := if n = 0 then b else hownIn b m a
  let core := s.knum (512 * p) l
  if !cores.contains core then s
  else
    let tag := pf w 46 3
    let e : Env := ⟨l, 0, pf w 57 3, tag, ((s.core core).task tag).gen, 0, 0, BitVec.ofNat 16 (i + 1)⟩
    s.launchHere core ⟨e, [w.getD 1 0, BitVec.ofNat 64 a, w.getD 3 0, w.getD 4 0, w.getD 5 0], [], .plain⟩

/-- The walk of the data range (R413). -/
def State.spread (s : State) (p : Nat) (cores : List Nat) (w : List Word) : State :=
  let n := (w.getD 7 0).toNat / 2 ^ pf w 40 6
  (upTo (if n = 0 then 1 else n)).foldl (fun s i => s.injectLaunch p cores w i) s

/-- The steps of R412 that install nothing: the failure, or the image and the extents. -/
def State.launchCheck (s : State) (p : Nat) (k : Packet) (cores : List Nat) : Walked (Image × List Ext) :=
  let w := k.words
  if launchBad w k.exts then .fail .badPacket
  else if shapeBad (s.part p).dies w then .fail .shape
  else (s.readImage p ((w.getD 2 0).toNat % 2 ^ 60) (w.getD 1 0)).bind fun im s =>
    if s.detBusy p w then .fail .taskBusy
    else
      let tag := pf w 46 3
      match cores.findSome? (fun c => s.entryErr c tag im k.exts (pkNext w)) with
      | some e => .fail e
      | none =>
        if cores.all (fun c => ((s.core c).task tag).st != .invalid) then .ok (im, []) s
        else (s.extents p (extNeeds k.exts (pkNext w)) k.exts (pkNext w) 0).bind fun l s => .ok (im, l) s

/-- A LAUNCH performed on every die (R412, R413). Where no core installs its task, no PIN of its extents stays (R143). -/
def State.launch (s : State) (p : Nat) (k : Packet) (cores : List Nat) (im : Image) (exts : List Ext) : State :=
  let w := k.words
  let s1 := if pkDet w && !(s.part p).det then s.enterDet p w else s
  let s2 := exts.foldl (fun s x => (pageSteps x.base.toNat x.len).foldl (fun s va => s.setPin p va true) s) s1
  let s3 := (cores.foldl (fun s c => s.useCore p c (pf w 46 3) (pf w 32 8) im exts) s2).unpinAll p exts
  let s4 := if pkDet w then s3.onPart p (fun P => { P with
      manDigest := im.digest, manifest := w ++ ((k.exts.flatMap id) ++ List.replicate (48 - 8 * k.exts.length) 0) }) else s3
  s4.spread p cores w

/-- The steps of R412 for the packet chosen. -/
def State.launchTry (s : State) (part : Nat) (k : Packet) : Walked (Image × List Ext) :=
  s.launchCheck part k (s.launchCores part ((s.part part).q k.q).die k.words)

/-- LAUNCH (R412). While the host brings in a page that it needs, it waits (R421). -/
def execLaunch (part : Nat) (s : State) : Host.Outcome State Fault Refusal :=
  match s.chosen part 1 with
  | none => .next s
  | some k =>
    let cores := s.launchCores part ((s.part part).q k.q).die k.words
    match s.launchTry part k with
    | .fail e => .next (s.packetFail part k.q e)
    | .ask va s1 => .next (s1.askFor part 0 va)
    | .later s1 => .next s1
    | .ok (im, exts) s1 => .next ((s1.launch part k cores im exts).packetDone part k)

/-! ### END, INVAL and DISPOSE (R414-R416) -/

/-- END: the task of an entry ends, and the packet completes once no activation of it remains (R414). -/
def execEndPacket (part : Nat) (s : State) : Host.Outcome State Fault Refusal :=
  match s.chosen part 3 with
  | none => .next s
  | some k =>
    let tag := pf k.words 46 3
    let s1 := s.endTask part tag
    if s1.taskRuns part tag then .next s1 else .next (s1.packetDone part k)

/-- INVAL (R415): every TLB of the partition drops what overlaps the range, once each channel of the partition has finished the block that it has
begun (R328). A walk is part of the access that it serves, so no walk is left to wait for. -/
def execInval (part : Nat) (s : State) : Host.Outcome State Fault Refusal :=
  match s.chosen part 4 with
  | none => .next s
  | some k =>
    let va := (k.words.getD 1 0).toNat
    if va % 4096 != 0 then .next (s.packetFail part k.q .badPacket)
    else if (s.chansOf part).any (·.midBlock) then .next s
    else .next ((s.invalidate part (va % 2 ^ 60) (k.words.getD 2 0).toNat).packetDone part k)

/-- The held message that a DISPOSE names: core, queue and identifier. -/
def State.named (s : State) (p : Nat) (k : Packet) : Nat × Nat × Nat :=
  (s.knum (512 * p) (bitsNat (k.words.getD 1 0) 0 12), bitsNat (k.words.getD 1 0) 12 3, (k.words.getD 2 0).toNat)

/-- A DISPOSE of one action (R416), which in deterministic mode waits for the quantum's end (R423). -/
def State.dispose (s : State) (p action : Nat) (f : Nat → Nat → Nat → State → State) : State :=
  match s.chosen p 5 with
  | none => s
  | some k =>
    if pf k.words 0 2 != action || !s.mayDispose p then s
    else
      let s := s.disposing p
      let (core, q, id) := s.named p k
      (if (s.heldMsg core q id).isSome && s.pOf core == p then f core q id s else s).packetDone p k

/-- DISPOSE_RELEASE (R416). -/
def execDisposeRelease (part : Nat) (s : State) : Host.Outcome State Fault Refusal :=
  .next (s.dispose part 0 (fun core q id s => s.releaseMsg core q id))

/-- DISPOSE_DISCARD (R416). -/
def execDisposeDiscard (part : Nat) (s : State) : Host.Outcome State Fault Refusal :=
  .next (s.dispose part 1 (fun core q id s => s.discardMsg core q id))

/-- DISPOSE_END (R416). -/
def execDisposeEnd (part : Nat) (s : State) : Host.Outcome State Fault Refusal :=
  .next (s.dispose part 2 (fun core q id s => s.endMsg part core q id))

end Sys2Proof.Machine
end

