-- ==== Sys2Proof/Machine/Home.lean ====
section
/-!
DEFINITION. The events of the homes (R259-R263): remote reads, writes and atomics, the answers to a SYNCE, CANCEL, the service of the
lodge, and stay notices.
-/

namespace Sys2Proof.Machine

/-- A core's read that asks for a word: every mode but those that answer or withdraw an earlier SYNCE. A streamer's read is of KIND 7. R260 has a
request join the wait list behind a waiting request of its pair for the block, R261 has CONFIRM, RETURN and CANCEL act at once: MODE 4 to 6 pass the
waiting ones (log 69). -/
def InReq.asks (r : InReq) : Bool :=
  match r.body with
  | .rld m _ _ _ _ _ => r.kind != 7 && (m == .plain || m == .sync || m == .synce || m == .fe)
  | .msg _ | .copy _ _ _ _ _ _ _ | .rst _ _ _ _ _ _ _ _ _ _ | .rat _ _ _ _ _ _ _ _ _ | .repl _ _ _ _ _ _ _ | .ewr _ _ _ _ _
  | .xfer _ _ _ _ _ | .wst _ _ _ | .notice _ _ => false

/-- A read of one mode. -/
def InReq.isMode (m : RMode) (r : InReq) : Bool :=
  match r.body with
  | .rld n _ _ _ _ _ => n == m
  | .msg _ | .copy _ _ _ _ _ _ _ | .rst _ _ _ _ _ _ _ _ _ _ | .rat _ _ _ _ _ _ _ _ _ | .repl _ _ _ _ _ _ _ | .ewr _ _ _ _ _
  | .xfer _ _ _ _ _ | .wst _ _ _ | .notice _ _ => false

/-- REMOTE_READ: the next read of a pair (R260, R261). -/
def execRemoteRead (home : Nat) (s : State) : Host.Outcome State Fault Refusal :=
  match (s.ep (4096 + home)).due InReq.asks with
  | none => .next s
  | some (r, left) => .next (s.homeServe home r left)

/-- REMOTE_WRITE: the next write of a pair (R260). -/
def execRemoteWrite (home : Nat) (s : State) : Host.Outcome State Fault Refusal :=
  match (s.ep (4096 + home)).due (fun r => r.body.sort == .write) with
  | none => .next s
  | some (r, left) => .next (s.homeServe home r left)

/-- REMOTE_ATOMIC: the next atomic of a pair (R159, R260). -/
def execRemoteAtomic (home : Nat) (s : State) : Host.Outcome State Fault Refusal :=
  match (s.ep (4096 + home)).due (fun r => r.body.sort == .atomic) with
  | none => .next s
  | some (r, left) => .next (s.homeServe home r left)

/-- SYNCE_CONFIRM (R261); where its page is absent it enters the lodge (R262). -/
def execSynceConfirm (home : Nat) (s : State) : Host.Outcome State Fault Refusal :=
  match (s.ep (4096 + home)).due (InReq.isMode .confirm) with
  | none => .next s
  | some (r, left) => .next (s.homeServe home r left)

/-- SYNCE_RETURN (R261); where its page is absent it enters the lodge (R262). -/
def execSynceReturn (home : Nat) (s : State) : Host.Outcome State Fault Refusal :=
  match (s.ep (4096 + home)).due (InReq.isMode .ret) with
  | none => .next s
  | some (r, left) => .next (s.homeServe home r left)

/-- WAIT_CANCEL (R261). -/
def execWaitCancel (home : Nat) (s : State) : Host.Outcome State Fault Refusal :=
  match (s.ep (4096 + home)).due (InReq.isMode .cancel) with
  | none => .next s
  | some (r, left) => .next ((s.took (4096 + home) r left).homeCancel home r.src r.num r.body)

/-! ### The lodge (R262, R327, R375) -/

/-- The streamer beside a home. -/
def homeStr (home : Nat) : Nat := if home < 8 then home else home - 8

/-- The lodged channel of a request for a copy. -/
def State.lodgedChan (s : State) (home core : Nat) (rcd : List Word) : Option (Nat × StrChan) :=
  ((s.str (homeStr home)).chans.find? (fun e => e.2.core == core && e.2.rcd == rcd && e.2.lodged)).map (fun e => (e.1, e.2))

/-- A page that an entry of a home's lodge needs: `k` goes on with it, `bad` where nothing is mapped; where the host has to bring it in, the
request goes out and the entry waits, put back by `keep` (R262, R421). No page of `need` is evicted for it. -/
def State.lodgePage (s : State) (home p va : Nat) (need : List Nat) (keep k : State → State) (bad : State) : State :=
  match s.bringIn p va need 4 with
  | .here s1 => k s1
  | .ask s1 => (keep s1).askFor p (home + 1) va
  | .later s1 => keep s1
  | .unmapped => bad

/-- An entry put back at the head of a home's lodge. -/
def State.relodge (s : State) (home : Nat) (l : Lodged) : State := s.onHome home (fun x => { x with lodge := l :: x.lodge })

/-- A lodged copy whose service has failed at a page: it resumes and faults there (R327). -/
def State.copyBad (s : State) (home n : Nat) (p : Word) : State :=
  s.onChan (homeStr home) n (fun x => { x with lodged := false, failed := some p })

/-- The first and last bytes of the current element of a channel, at either end. -/
def StrChan.elemVas (c : StrChan) : List Nat :=
  let pl := planOf c.rcd c.sv c.dv
  ([pl.src c.next, pl.dst c.next].filter (fun p => !isLocal p)).flatMap (fun p => [vaOf p, vaOf (ptrAdd p (pl.unit - 1))])

/-- The service of a lodged copy (R327): the page brought in and the copy resumed, or its failure noted. -/
def State.serveCopy (s : State) (home : Nat) (l : Lodged) (core : Nat) (rcd : List Word) : State :=
  match s.lodgedChan home core rcd with
  | none => s
  | some (n, c) =>
    let go := fun (s : State) => (s.onChan (homeStr home) n (fun x => { x with lodged := false })).boardPush c .accepted
    match s.copyNext (homeStr home) c with
    | .absent p => s.lodgePage home (s.pOf core) (vaOf p) c.elemVas (fun s => s.relodge home l) go (s.copyBad home n p)
    | .ended | .waits | .read _ _ _ _ | .write _ _ _ | .fault _ => go s

/-- A lodged read, write or atomic whose service has failed (R262). -/
def State.lodgeBad (s : State) (home : Nat) (l : Lodged) : State :=
  s.reply home l.src l.num l.body (Rsp.plain .fault Cause.remoteFault.code)

/-- A lodged read, write or atomic performed at the address that its page has now, or answered with REMOTE-FAULT where that fails (R262). Behind
a waiting request of its pair for the block, or where its word is not ready, it goes to the wait list, or stays where it is while that holds 64
(R260, R261). -/
def State.servePage (s : State) (home : Nat) (l : Lodged) : State :=
  let (pa0, va) := l.body.addr
  let go := fun (s1 : State) =>
    match s1.retranslate l.src pa0 va with
    | none => s1.lodgeBad home l
    | some pa =>
      let b := l.body.setPa pa
      if s1.deviceDown pa then s1.tick.lodgeBad home l
      else if (!b.passes && (s1.home home).wait.any (fun x => x.meets l.src b)) || b.blocked s1.mem (s1.home home) then
        if 64 ≤ (s1.home home).wait.length then s1.relodge home l else s1.joinWait home l.src l.num b
      else ((s1.homeCount home b).homeDo home l.src l.num b).serveAll home
  if (s.retranslate l.src pa0 va).isSome then go s
  else s.lodgePage home (s.pOf l.src) (vaOf va) [] (fun s => s.relodge home l) go (s.lodgeBad home l)

/-- The oldest entry of a home's lodge served. -/
def State.serveLodged (s : State) (home : Nat) (l : Lodged) (t : List Lodged) : State :=
  let s1 := s.onHome home (fun x => { x with lodge := t })
  match l.body with
  | .copy core _ _ _ rcd _ _ => s1.serveCopy home l core rcd
  | .rld _ _ _ _ _ _ | .rst _ _ _ _ _ _ _ _ _ _ | .rat _ _ _ _ _ _ _ _ _ => s1.servePage home l
  | .msg _ | .repl _ _ _ _ _ _ _ | .ewr _ _ _ _ _ | .xfer _ _ _ _ _ | .wst _ _ _ | .notice _ _ => s1

/-- A lodged packet whose page cannot be had: MISS, and its path is closed (R375). -/
def State.pktBad (s : State) (p : Pkt) : State := (s.setPath p.path { s.pathAt p.path with closed := true }).answer p .miss

/-- The oldest packet of an X-die home's lodge served (R375): its page brought in and the packet applied, or answered with MISS. -/
def State.servePkt (s : State) (xd : Nat) (x : Nat × Pkt) (t : List (Nat × Pkt)) : State :=
  let p := x.2
  let s1 := s.onWin xd (fun e => { e with lodge := t })
  let w := AMap.get RxWin.reset s1.rxwin p.trxw
  s1.lodgePage (0x10 + xd) w.part ((w.vabase * 4096 + p.off) % 2 ^ 60) [] (fun s => s.onWin xd (fun e => { e with lodge := x :: e.lodge }))
    (fun s => s.target xd p) (s1.pktBad p)

/-- The oldest entry of a home's lodge, one of the home or of the window engine beside it. -/
def State.lodgeDo (s : State) (home : Nat) (f : Lodged → List Lodged → State) (g : Nat × Pkt → List (Nat × Pkt) → State) : State :=
  let pk := if home < 0x10 then [] else (s.win (home - 0x10)).lodge
  match (s.home home).lodge, pk with
  | [], [] => s
  | l :: t, [] => f l t
  | [], p :: u => g p u
  | l :: t, p :: u => if l.since ≤ p.1 then f l t else g p u

/-- LODGE_SERVICE: firmware serves the oldest entry of a home's lodge (R262). -/
def execLodgeService (home : Nat) (s : State) : Host.Outcome State Fault Refusal :=
  .next (s.lodgeDo home (s.serveLodged home) (s.servePkt (home - 0x10)))

/-- Two addresses lie on one page of 4 KiB, the unit in which the host is asked (R421). -/
def samePage (a b : Nat) : Bool := a / 4096 == b / 4096

/-- The host has refused a page of which the oldest entry of a home's lodge waits: its service fails (R262, R421). An entry that waits for another
page, or for none any more, goes on. -/
def State.failLodged (s : State) (home va : Nat) : State :=
  s.lodgeDo home
    (fun l t =>
      let s1 := s.onHome home (fun x => { x with lodge := t })
      match l.body with
      | .copy core _ _ _ rcd _ _ =>
        match s1.lodgedChan home core rcd with
        | some (n, c) =>
          match s1.copyNext (homeStr home) c with
          | .absent p => if samePage (vaOf p) va then s1.copyBad home n p else s
          | .ended | .waits | .read _ _ _ _ | .write _ _ _ | .fault _ => s
        | none => s
      | .rld _ _ _ _ _ _ | .rst _ _ _ _ _ _ _ _ _ _ | .rat _ _ _ _ _ _ _ _ _ =>
        if (s.retranslate l.src l.body.addr.1 l.body.addr.2).isNone && samePage (vaOf l.body.addr.2) va then s1.lodgeBad home l else s
      | .msg _ | .repl _ _ _ _ _ _ _ | .ewr _ _ _ _ _ | .xfer _ _ _ _ _ | .wst _ _ _ | .notice _ _ => s)
    (fun p u =>
      let w := AMap.get RxWin.reset s.rxwin p.2.trxw
      let a := (w.vabase * 4096 + p.2.off) % 2 ^ 60
      match s.walk w.part a with
      | .absent _ _ _ => if samePage a va then (s.onWin (home - 0x10) (fun e => { e with lodge := u })).pktBad p.2 else s
      | .leaf _ _ _ | .bad => s)

/-! ### Stay notices (R263) -/

/-- The engine that a waiting request was sent to, and that gives notice of it: a copy's is the streamer beside the home (R322, R327; log 20). -/
def Lodged.engine (l : Lodged) (home : Nat) : Nat :=
  match l.body with
  | .copy _ _ _ _ _ _ _ => strEng (homeStr home)
  | .msg _ | .rld _ _ _ _ _ _ | .rst _ _ _ _ _ _ _ _ _ _ | .rat _ _ _ _ _ _ _ _ _ | .repl _ _ _ _ _ _ _ | .ewr _ _ _ _ _ | .xfer _ _ _ _ _
  | .wst _ _ _ | .notice _ _ => home

/-- A stay notice of a home to a requester at another interface; the reason is 0 for the lodge and 1 for the wait list. -/
def State.stay (s : State) (home : Nat) (l : Lodged) (reason : Nat) : State :=
  let ep := 4096 + l.engine home
  if s.time < l.told + 4096 || 32 ≤ l.num then s
  else s.onEp ep (fun e => { e with inj1 := e.inj1 ++ [mkFlit (mkHdr (epNum l.src) (epNum ep) 12 l.num 0 0) (wordsBytes [BitVec.ofNat 64 reason]) (.stay reason)] })

/-- The entries of a list that are due for a notice start their period again. -/
def stayed (now : Nat) (l : List Lodged) : List Lodged := l.map (fun x => if now < x.told + 4096 then x else { x with told := now })

/-- STAY_NOTICE_SEND: a notice for every entry of a home's lodge and wait list that has waited 4,096 cycles since its last one (R263). -/
def execStayNoticeSend (home : Nat) (s : State) : Host.Outcome State Fault Refusal :=
  let h := s.home home
  let s1 := h.wait.foldl (fun s l => s.stay home l 1) (h.lodge.foldl (fun s l => s.stay home l 0) s)
  .next (s1.onHome home (fun x => { x with wait := stayed s.time x.wait, lodge := stayed s.time x.lodge }))

end Sys2Proof.Machine
end

