-- ==== Sys2Proof/Machine/Integer.lean ====
section
/-!
DEFINITION. Integer arithmetic and logic (R203-R205), MOVI (R206) and bit fields (R207).
-/

namespace Sys2Proof.Machine

/-! ### The results of R204: `y` before Ext -/

/-- ADD. -/
def aluAdd (q : IQ) (a b : Word) : Int := opnd q a + opnd q b
/-- SUB. -/
def aluSub (q : IQ) (a b : Word) : Int := opnd q a - opnd q b
/-- MUL. -/
def aluMul (q : IQ) (a b : Word) : Int := opnd q a * opnd q b
/-- MULH: the upper half of the product, floor division by 2^sz. -/
def aluMulh (q : IQ) (a b : Word) : Int := (opnd q a * opnd q b) / 2 ^ szOf q
/-- DIV: the quotient truncated toward zero (R205). -/
def aluDiv (q : IQ) (a b : Word) : Int := (opnd q a).tdiv (opnd q b)
/-- REM: the remainder with the sign of the dividend (R205). -/
def aluRem (q : IQ) (a b : Word) : Int := (opnd q a).tmod (opnd q b)
/-- AND. -/
def aluAnd (q : IQ) (a b : Word) : Int := (patOf q a &&& patOf q b : Nat)
/-- OR. -/
def aluOr (q : IQ) (a b : Word) : Int := (patOf q a ||| patOf q b : Nat)
/-- XOR. -/
def aluXor (q : IQ) (a b : Word) : Int := (patOf q a ^^^ patOf q b : Nat)
/-- ANDN. -/
def aluAndn (q : IQ) (a b : Word) : Int := (patOf q a &&& (2 ^ szOf q - 1 - patOf q b) : Nat)
/-- The shift amount: B' mod sz. -/
def shAmt (q : IQ) (b : Word) : Nat := patOf q b % szOf q
/-- SHL. -/
def aluShl (q : IQ) (a b : Word) : Int := (patOf q a * 2 ^ shAmt q b : Nat)
/-- SHR. -/
def aluShr (q : IQ) (a b : Word) : Int := (patOf q a / 2 ^ shAmt q b : Nat)
/-- SHA: A' is read as two's complement whatever Q[2]. -/
def aluSha (q : IQ) (a b : Word) : Int := toSigned (szOf q) (patOf q a) / 2 ^ shAmt q b
/-- ROT: left within sz bits. -/
def aluRot (q : IQ) (a b : Word) : Int :=
  let n := szOf q
  let k := shAmt q b
  (patOf q a * 2 ^ k % 2 ^ n + patOf q a / 2 ^ (n - k) : Nat)
/-- MIN. -/
def aluMin (q : IQ) (a b : Word) : Int := if opnd q a ≤ opnd q b then opnd q a else opnd q b
/-- MAX. -/
def aluMax (q : IQ) (a b : Word) : Int := if opnd q a ≤ opnd q b then opnd q b else opnd q a
/-- CMPEQ. -/
def aluCmpeq (q : IQ) (a b : Word) : Int := if opnd q a = opnd q b then 1 else 0
/-- CMPNE. -/
def aluCmpne (q : IQ) (a b : Word) : Int := if opnd q a = opnd q b then 0 else 1
/-- CMPLT. -/
def aluCmplt (q : IQ) (a b : Word) : Int := if opnd q a < opnd q b then 1 else 0
/-- CMPLE. -/
def aluCmple (q : IQ) (a b : Word) : Int := if opnd q a ≤ opnd q b then 1 else 0
/-- CLZ: leading 0 bits of A'. -/
def aluClz (q : IQ) (a : Word) : Int := (szOf q - bitLen (patOf q a) : Nat)
/-- CTZ: trailing 0 bits of A'; sz for 0. -/
def aluCtz (q : IQ) (a : Word) : Int := (((upTo (szOf q)).find? (fun i => (patOf q a).testBit i)).getD (szOf q) : Nat)
/-- The 1 bits among the low `n`. -/
def popCount (x n : Nat) : Nat := ((upTo n).filter (fun i => x.testBit i)).length
/-- POPC. -/
def aluPopc (q : IQ) (a : Word) : Int := (popCount (patOf q a) (szOf q) : Nat)
/-- BREV. -/
def aluBrev (q : IQ) (a : Word) : Int :=
  (sumNat ((upTo (szOf q)).map (fun i => if (patOf q a).testBit i then 2 ^ (szOf q - 1 - i) else 0)) : Nat)

/-! ### Shared forms -/

/-- SetG(D, Ext(y)) and retirement (R204). -/
def setInt (d : GReg) (q : IQ) (y : Int) (s : State) : Host.Outcome State Fault Refusal := retired (s.setG d (extR q y))

/-- DIV and REM: INT-DIVZERO with TVAL = G(A) where b = 0 at the operand width (R205). -/
def divLike (f : IQ → Word → Word → Int) (d : GReg) (q : IQ) (x y : Word) (s : State) : Host.Outcome State Fault Refusal :=
  if opnd q y = 0 then .next (s.takeStop (.trap (mkTrap .intDivzero x))) else setInt d q (f q x y) s

/-! ### Opcode 0x01 (R203) -/

/-- ADD.Q d, a, b (R204). -/
def execAdd (d : GReg) (q : IQ) (a b : GReg) (s : State) : Host.Outcome State Fault Refusal :=
  setInt d q (aluAdd q (s.g a) (s.g b)) s
/-- SUB.Q d, a, b (R204). -/
def execSub (d : GReg) (q : IQ) (a b : GReg) (s : State) : Host.Outcome State Fault Refusal :=
  setInt d q (aluSub q (s.g a) (s.g b)) s
/-- MUL.Q d, a, b (R204). -/
def execMul (d : GReg) (q : IQ) (a b : GReg) (s : State) : Host.Outcome State Fault Refusal :=
  setInt d q (aluMul q (s.g a) (s.g b)) s
/-- MULH.Q d, a, b (R204). -/
def execMulh (d : GReg) (q : IQ) (a b : GReg) (s : State) : Host.Outcome State Fault Refusal :=
  setInt d q (aluMulh q (s.g a) (s.g b)) s
/-- DIV.Q d, a, b (R204, R205). -/
def execDiv (d : GReg) (q : IQ) (a b : GReg) (s : State) : Host.Outcome State Fault Refusal :=
  divLike aluDiv d q (s.g a) (s.g b) s
/-- REM.Q d, a, b (R204, R205). -/
def execRem (d : GReg) (q : IQ) (a b : GReg) (s : State) : Host.Outcome State Fault Refusal :=
  divLike aluRem d q (s.g a) (s.g b) s
/-- AND.Q d, a, b (R204). -/
def execAnd (d : GReg) (q : IQ) (a b : GReg) (s : State) : Host.Outcome State Fault Refusal :=
  setInt d q (aluAnd q (s.g a) (s.g b)) s
/-- OR.Q d, a, b (R204). -/
def execOr (d : GReg) (q : IQ) (a b : GReg) (s : State) : Host.Outcome State Fault Refusal :=
  setInt d q (aluOr q (s.g a) (s.g b)) s
/-- XOR.Q d, a, b (R204). -/
def execXor (d : GReg) (q : IQ) (a b : GReg) (s : State) : Host.Outcome State Fault Refusal :=
  setInt d q (aluXor q (s.g a) (s.g b)) s
/-- ANDN.Q d, a, b (R204). -/
def execAndn (d : GReg) (q : IQ) (a b : GReg) (s : State) : Host.Outcome State Fault Refusal :=
  setInt d q (aluAndn q (s.g a) (s.g b)) s
/-- SHL.Q d, a, b (R204). -/
def execShl (d : GReg) (q : IQ) (a b : GReg) (s : State) : Host.Outcome State Fault Refusal :=
  setInt d q (aluShl q (s.g a) (s.g b)) s
/-- SHR.Q d, a, b (R204). -/
def execShr (d : GReg) (q : IQ) (a b : GReg) (s : State) : Host.Outcome State Fault Refusal :=
  setInt d q (aluShr q (s.g a) (s.g b)) s
/-- SHA.Q d, a, b (R204). -/
def execSha (d : GReg) (q : IQ) (a b : GReg) (s : State) : Host.Outcome State Fault Refusal :=
  setInt d q (aluSha q (s.g a) (s.g b)) s
/-- ROT.Q d, a, b (R204). -/
def execRot (d : GReg) (q : IQ) (a b : GReg) (s : State) : Host.Outcome State Fault Refusal :=
  setInt d q (aluRot q (s.g a) (s.g b)) s
/-- MIN.Q d, a, b (R204). -/
def execMin (d : GReg) (q : IQ) (a b : GReg) (s : State) : Host.Outcome State Fault Refusal :=
  setInt d q (aluMin q (s.g a) (s.g b)) s
/-- MAX.Q d, a, b (R204). -/
def execMax (d : GReg) (q : IQ) (a b : GReg) (s : State) : Host.Outcome State Fault Refusal :=
  setInt d q (aluMax q (s.g a) (s.g b)) s
/-- CMPEQ.Q d, a, b (R204). -/
def execCmpeq (d : GReg) (q : IQ) (a b : GReg) (s : State) : Host.Outcome State Fault Refusal :=
  setInt d q (aluCmpeq q (s.g a) (s.g b)) s
/-- CMPNE.Q d, a, b (R204). -/
def execCmpne (d : GReg) (q : IQ) (a b : GReg) (s : State) : Host.Outcome State Fault Refusal :=
  setInt d q (aluCmpne q (s.g a) (s.g b)) s
/-- CMPLT.Q d, a, b (R204). -/
def execCmplt (d : GReg) (q : IQ) (a b : GReg) (s : State) : Host.Outcome State Fault Refusal :=
  setInt d q (aluCmplt q (s.g a) (s.g b)) s
/-- CMPLE.Q d, a, b (R204). -/
def execCmple (d : GReg) (q : IQ) (a b : GReg) (s : State) : Host.Outcome State Fault Refusal :=
  setInt d q (aluCmple q (s.g a) (s.g b)) s
/-- CLZ.Q d, a (R204). -/
def execClz (d : GReg) (q : IQ) (a : GReg) (s : State) : Host.Outcome State Fault Refusal :=
  setInt d q (aluClz q (s.g a)) s
/-- CTZ.Q d, a (R204). -/
def execCtz (d : GReg) (q : IQ) (a : GReg) (s : State) : Host.Outcome State Fault Refusal :=
  setInt d q (aluCtz q (s.g a)) s
/-- POPC.Q d, a (R204). -/
def execPopc (d : GReg) (q : IQ) (a : GReg) (s : State) : Host.Outcome State Fault Refusal :=
  setInt d q (aluPopc q (s.g a)) s
/-- BREV.Q d, a (R204). -/
def execBrev (d : GReg) (q : IQ) (a : GReg) (s : State) : Host.Outcome State Fault Refusal :=
  setInt d q (aluBrev q (s.g a)) s

/-! ### Opcode 0x02: the second operand is SignExtend(I16, 16) (R203) -/

/-- ADD.Q d, a, imm16 (R204). -/
def execAddI16 (d : GReg) (q : IQ) (a : GReg) (i : BitVec 16) (s : State) : Host.Outcome State Fault Refusal :=
  setInt d q (aluAdd q (s.g a) (sext64 i)) s
/-- SUB.Q d, a, imm16 (R204). -/
def execSubI16 (d : GReg) (q : IQ) (a : GReg) (i : BitVec 16) (s : State) : Host.Outcome State Fault Refusal :=
  setInt d q (aluSub q (s.g a) (sext64 i)) s
/-- MUL.Q d, a, imm16 (R204). -/
def execMulI16 (d : GReg) (q : IQ) (a : GReg) (i : BitVec 16) (s : State) : Host.Outcome State Fault Refusal :=
  setInt d q (aluMul q (s.g a) (sext64 i)) s
/-- MULH.Q d, a, imm16 (R204). -/
def execMulhI16 (d : GReg) (q : IQ) (a : GReg) (i : BitVec 16) (s : State) : Host.Outcome State Fault Refusal :=
  setInt d q (aluMulh q (s.g a) (sext64 i)) s
/-- DIV.Q d, a, imm16: a divisor of 0 traps at execution (R205). -/
def execDivI16 (d : GReg) (q : IQ) (a : GReg) (i : BitVec 16) (s : State) : Host.Outcome State Fault Refusal :=
  divLike aluDiv d q (s.g a) (sext64 i) s
/-- REM.Q d, a, imm16: a divisor of 0 traps at execution (R205). -/
def execRemI16 (d : GReg) (q : IQ) (a : GReg) (i : BitVec 16) (s : State) : Host.Outcome State Fault Refusal :=
  divLike aluRem d q (s.g a) (sext64 i) s
/-- AND.Q d, a, imm16 (R204). -/
def execAndI16 (d : GReg) (q : IQ) (a : GReg) (i : BitVec 16) (s : State) : Host.Outcome State Fault Refusal :=
  setInt d q (aluAnd q (s.g a) (sext64 i)) s
/-- OR.Q d, a, imm16 (R204). -/
def execOrI16 (d : GReg) (q : IQ) (a : GReg) (i : BitVec 16) (s : State) : Host.Outcome State Fault Refusal :=
  setInt d q (aluOr q (s.g a) (sext64 i)) s
/-- XOR.Q d, a, imm16 (R204). -/
def execXorI16 (d : GReg) (q : IQ) (a : GReg) (i : BitVec 16) (s : State) : Host.Outcome State Fault Refusal :=
  setInt d q (aluXor q (s.g a) (sext64 i)) s
/-- ANDN.Q d, a, imm16 (R204). -/
def execAndnI16 (d : GReg) (q : IQ) (a : GReg) (i : BitVec 16) (s : State) : Host.Outcome State Fault Refusal :=
  setInt d q (aluAndn q (s.g a) (sext64 i)) s
/-- SHL.Q d, a, imm16 (R204). -/
def execShlI16 (d : GReg) (q : IQ) (a : GReg) (i : BitVec 16) (s : State) : Host.Outcome State Fault Refusal :=
  setInt d q (aluShl q (s.g a) (sext64 i)) s
/-- SHR.Q d, a, imm16 (R204). -/
def execShrI16 (d : GReg) (q : IQ) (a : GReg) (i : BitVec 16) (s : State) : Host.Outcome State Fault Refusal :=
  setInt d q (aluShr q (s.g a) (sext64 i)) s
/-- SHA.Q d, a, imm16 (R204). -/
def execShaI16 (d : GReg) (q : IQ) (a : GReg) (i : BitVec 16) (s : State) : Host.Outcome State Fault Refusal :=
  setInt d q (aluSha q (s.g a) (sext64 i)) s
/-- ROT.Q d, a, imm16 (R204). -/
def execRotI16 (d : GReg) (q : IQ) (a : GReg) (i : BitVec 16) (s : State) : Host.Outcome State Fault Refusal :=
  setInt d q (aluRot q (s.g a) (sext64 i)) s
/-- MIN.Q d, a, imm16 (R204). -/
def execMinI16 (d : GReg) (q : IQ) (a : GReg) (i : BitVec 16) (s : State) : Host.Outcome State Fault Refusal :=
  setInt d q (aluMin q (s.g a) (sext64 i)) s
/-- MAX.Q d, a, imm16 (R204). -/
def execMaxI16 (d : GReg) (q : IQ) (a : GReg) (i : BitVec 16) (s : State) : Host.Outcome State Fault Refusal :=
  setInt d q (aluMax q (s.g a) (sext64 i)) s
/-- CMPEQ.Q d, a, imm16 (R204). -/
def execCmpeqI16 (d : GReg) (q : IQ) (a : GReg) (i : BitVec 16) (s : State) : Host.Outcome State Fault Refusal :=
  setInt d q (aluCmpeq q (s.g a) (sext64 i)) s
/-- CMPNE.Q d, a, imm16 (R204). -/
def execCmpneI16 (d : GReg) (q : IQ) (a : GReg) (i : BitVec 16) (s : State) : Host.Outcome State Fault Refusal :=
  setInt d q (aluCmpne q (s.g a) (sext64 i)) s
/-- CMPLT.Q d, a, imm16 (R204). -/
def execCmpltI16 (d : GReg) (q : IQ) (a : GReg) (i : BitVec 16) (s : State) : Host.Outcome State Fault Refusal :=
  setInt d q (aluCmplt q (s.g a) (sext64 i)) s
/-- CMPLE.Q d, a, imm16 (R204). -/
def execCmpleI16 (d : GReg) (q : IQ) (a : GReg) (i : BitVec 16) (s : State) : Host.Outcome State Fault Refusal :=
  setInt d q (aluCmple q (s.g a) (sext64 i)) s

/-! ### Opcode 0x03: the second operand is SignExtend(I48, 48) (R203) -/

/-- ADD.Q d, a, imm48 (R204). -/
def execAddI48 (d : GReg) (q : IQ) (a : GReg) (i : BitVec 48) (s : State) : Host.Outcome State Fault Refusal :=
  setInt d q (aluAdd q (s.g a) (sext64 i)) s
/-- AND.Q d, a, imm48 (R204). -/
def execAndI48 (d : GReg) (q : IQ) (a : GReg) (i : BitVec 48) (s : State) : Host.Outcome State Fault Refusal :=
  setInt d q (aluAnd q (s.g a) (sext64 i)) s
/-- OR.Q d, a, imm48 (R204). -/
def execOrI48 (d : GReg) (q : IQ) (a : GReg) (i : BitVec 48) (s : State) : Host.Outcome State Fault Refusal :=
  setInt d q (aluOr q (s.g a) (sext64 i)) s
/-- XOR.Q d, a, imm48 (R204). -/
def execXorI48 (d : GReg) (q : IQ) (a : GReg) (i : BitVec 48) (s : State) : Host.Outcome State Fault Refusal :=
  setInt d q (aluXor q (s.g a) (sext64 i)) s

/-! ### Opcodes 0x04 and 0x05 -/

/-- MOVI with a two-byte tail (R206). -/
def execMovi16 (d : GReg) (i : BitVec 16) (s : State) : Host.Outcome State Fault Refusal := retired (s.setG d (sext64 i))
/-- MOVI with a four-byte tail (R206). -/
def execMovi32 (d : GReg) (i : BitVec 32) (s : State) : Host.Outcome State Fault Refusal := retired (s.setG d (sext64 i))
/-- MOVI with an eight-byte tail (R206). -/
def execMovi64 (d : GReg) (i : BitVec 64) (s : State) : Host.Outcome State Fault Refusal := retired (s.setG d i)

/-- EXT d, a, pos, w: `w` is the width less 1 (R207). -/
def execExt (d a : GReg) (pos w : BitVec 6) (s : State) : Host.Outcome State Fault Refusal :=
  retired (s.setG d (BitVec.ofNat 64 (bitsNat (s.g a) pos.toNat (w.toNat + 1))))

/-- INS d, a, pos, w (R207). -/
def execIns (d a : GReg) (pos w : BitVec 6) (s : State) : Host.Outcome State Fault Refusal :=
  retired (s.setG d (setField (s.g d) pos.toNat (w.toNat + 1) (s.g a).toNat))

/-- SEL d, a, b: the old G(D) selects (R207). -/
def execSel (d a b : GReg) (s : State) : Host.Outcome State Fault Refusal :=
  retired (s.setG d (if s.g d = 0 then s.g b else s.g a))

end Sys2Proof.Machine
end

