-- ==== Sys2Proof/Machine/Keys.lean ====
section
/-!
DEFINITION. Link keys (R381, R382, R425) and attestation (R426).
-/

namespace Sys2Proof.Machine

/-! ### Keys (R425) -/

/-- A direction with a key in its empty slot and a switch asked for, unless the key is the first one (R381). -/
def LinkDir.install (d : LinkDir) (k : KeySlot) : LinkDir :=
  match d.slot0, d.slot1 with
  | none, none => if d.bit then { d with slot1 := some k, hold := false } else { d with slot0 := some k, hold := false }
  | none, some _ => { d with slot0 := some k, switch := d.bit, hold := false }
  | some _, none => { d with slot1 := some k, switch := !d.bit, hold := false }
  | some _, some _ => d

/-- A direction with a key written in a slot and a switch to it asked for. -/
def LinkDir.write (d : LinkDir) (slot : Bool) (k : KeySlot) : LinkDir :=
  let d' := if slot then { d with slot1 := some k } else { d with slot0 := some k }
  { d' with switch := decide (slot ≠ d.bit), hold := false }

/-- A direction of a link changed, and the link moved on. -/
def State.onDir (s : State) (n : Nat) (tx : Bool) (f : LinkDir → LinkDir) : State :=
  (s.onLink n (fun l => if tx then { l with tx := f l.tx } else { l with rx := f l.rx })).pump n

/-- An exchange is due in a direction: it has no key, or its counter has passed 2^47 and the other slot is empty. -/
def LinkDir.wantsKey (d : LinkDir) : Bool :=
  match d.now with
  | none => true
  | some k => decide (2 ^ 47 < k.ctr) && d.other.isNone

/-- KEY_EXCHANGE_START: the leader begins an exchange for a direction of a link (R425). -/
def execKeyExchangeStart (link : Nat) (tx : Bool) (s : State) : Host.Outcome State Fault Refusal :=
  let l := s.link link
  if s.hasLeader && !s.pkg.keysHost && l.up && (if tx then l.tx.wantsKey else l.rx.wantsKey) then
    .next (s.onLink link (fun l => if tx then { l with exchTx := true } else { l with exchRx := true }))
  else .next s

/-- KEY_EXCHANGE_COMPLETE: the derived key and salt fill the empty slot, and the switch is asked for (R425), also where keys have gone to the host
since the exchange began (log 52). -/
def execKeyExchangeComplete (link : Nat) (tx : Bool) (secret : BitVec 256) (s : State) : Host.Outcome State Fault Refusal :=
  let l := s.link link
  if (if tx then l.exchTx else l.exchRx) && s.hasLeader then
    .next ((s.onLink link (fun l => if tx then { l with exchTx := false } else { l with exchRx := false })).onDir link tx
      (fun d => d.install ⟨Config.deriveKey secret, Config.deriveSalt secret, 0⟩))
  else .next s

/-- HOST_KEY_WRITE: in host-assisted mode the host fills a slot and asks for the switch (R425). -/
def execHostKeyWrite (link : Nat) (tx slot : Bool) (key : BitVec 256) (salt : BitVec 48) (s : State) : Host.Outcome State Fault Refusal :=
  if s.pkg.keysHost then .next (s.onDir link tx (fun d => d.write slot ⟨key, salt, 0⟩)) else .next s

/-! ### Attestation (R426) -/

/-- Numbers of 512 bits as bytes. -/
def bytes512 (v : BitVec 512) : List Byte := leBytes 64 v.toNat

/-- The partition and mode configuration as bytes, one partition or mode after another (log 26). -/
def State.configBytes (s : State) : List Byte :=
  let bit := fun (b : Bool) => if b then (1 : Byte) else 0
  s.parts.flatMap (fun e => [BitVec.ofNat 8 e.1, BitVec.ofNat 8 e.2.dies, bit e.2.pfHost, bit e.2.trapHost, bit e.2.spreadHost]) ++
    [bit s.pkg.powerHost, bit s.pkg.keysHost, bit s.pkg.leaderHost]

/-- The core map as bytes: the hosting core of each hosted one (log 26). -/
def State.mapBytes (s : State) : List Byte :=
  (upTo 256).flatMap (fun cl => (fusedPairs s.pkg.fused cl).flatMap (fun x => leBytes 2 x.1 ++ leBytes 2 x.2))

/-- A measurement (R426). -/
def State.measure (s : State) (n : Nat) : BitVec 512 :=
  if n = 1 then s.pkg.fwDigest else if n = 2 then Config.sha512 s.configBytes else Config.sha512 s.mapBytes

/-- The manifest of a partition's deterministic launch, without its signature (R426). -/
def State.manifestBytes (s : State) (P : Part) : List Byte :=
  let w0 := 2 ^ 48 + pf P.manifest 54 2 * 2 ^ 46 + pkQuant P.manifest
  leBytes 8 w0 ++ bytes512 P.manDigest ++ bytes512 (s.measure 1) ++ bytes512 (s.measure 2) ++ wordsBytes P.manifest

/-- A block with its signature. -/
def signed (b : List Byte) : List Byte := b ++ bytes512 (Config.ed25519Sign b)

/-- The answer to a measurement request: nothing for an index that has none. -/
def State.spdmAnswer (s : State) (i : Nat) : Option (List Byte) :=
  if 1 ≤ i ∧ i ≤ 3 then some (signed (bytes512 (s.measure i)))
  else if 0x80 ≤ i ∧ i < 0x88 then
    match AMap.find s.parts (i - 0x80) with
    | some P => some (if P.manifest.isEmpty then [] else signed (s.manifestBytes P))
    | none => none
  else none

/-- SPDM_REQUEST: the leader answers with signed measurements (R426). -/
def execSpdmRequest (index : BitVec 8) (s : State) : Host.Outcome State Fault Refusal :=
  match s.spdmAnswer index.toNat with
  | some b => if s.hasLeader then .next (s.onPkg (fun g => { g with spdm := g.spdm ++ [b] })) else .next s
  | none => .next s

end Sys2Proof.Machine
end

