-- ==== Sys2Proof/Machine/LoadStore.lean ====
section
/-!
DEFINITION. Loads (R216, R217), stores (R218, R219), extent accesses (R144, R220), atomics (R221, R222) and FENCE (R162, R223).
-/

namespace Sys2Proof.Machine

/-! ### Loads -/

/-- A load of a width at a pointer and offset, with its full-empty operation (R216). -/
def loadInto (d : GReg) (q : IQ) (a : GReg) (off : Word) (fe : Fe) (s : State) : Host.Outcome State Fault Refusal :=
  run ((s.readMemQ (ptrOff (s.g a) off) q.sgn (szOf q / 8) fe).bind fun x s => .ok () (s.setG d (extR q x)))

/-- LD with a 16-bit offset (R216). -/
def execLd (d : GReg) (q : IQ) (a : GReg) (off : BitVec 16) (s : State) : Host.Outcome State Fault Refusal :=
  loadInto d q a (sext64 off) .none s
/-- LD with a 48-bit offset (R216). -/
def execLdW (d : GReg) (q : IQ) (a : GReg) (off : BitVec 48) (s : State) : Host.Outcome State Fault Refusal :=
  loadInto d q a (sext64 off) .none s
/-- LD.ACQ with a 16-bit offset (R216). -/
def execLdAcq (d : GReg) (q : IQ) (a : GReg) (off : BitVec 16) (s : State) : Host.Outcome State Fault Refusal :=
  loadInto d q a (sext64 off) .none s
/-- LD.ACQ with a 48-bit offset (R216). -/
def execLdAcqW (d : GReg) (q : IQ) (a : GReg) (off : BitVec 48) (s : State) : Host.Outcome State Fault Refusal :=
  loadInto d q a (sext64 off) .none s
/-- LD.SYNC with a 16-bit offset (R216). -/
def execLdSync (d : GReg) (sgn : Bool) (a : GReg) (off : BitVec 16) (s : State) : Host.Outcome State Fault Refusal :=
  loadInto d ⟨sgn, 3⟩ a (sext64 off) .sync s
/-- LD.SYNC with a 48-bit offset (R216). -/
def execLdSyncW (d : GReg) (sgn : Bool) (a : GReg) (off : BitVec 48) (s : State) : Host.Outcome State Fault Refusal :=
  loadInto d ⟨sgn, 3⟩ a (sext64 off) .sync s
/-- LD.SYNCE with a 16-bit offset (R216). -/
def execLdSynce (d : GReg) (sgn : Bool) (a : GReg) (off : BitVec 16) (s : State) : Host.Outcome State Fault Refusal :=
  loadInto d ⟨sgn, 3⟩ a (sext64 off) .synce s
/-- LD.SYNCE with a 48-bit offset (R216). -/
def execLdSynceW (d : GReg) (sgn : Bool) (a : GReg) (off : BitVec 48) (s : State) : Host.Outcome State Fault Refusal :=
  loadInto d ⟨sgn, 3⟩ a (sext64 off) .synce s

/-! ### Stores -/

/-- A store of a width at a pointer and offset (R218): a release first raises the failure of a posted store (R195). -/
def storeFrom (q : IQ) (a b : GReg) (col : BitVec 3) (off : Word) (kind : StKind) (s : State) : Host.Outcome State Fault Refusal :=
  run ((if kind = .plain then .ok () s else s.failCheck).bind fun _ s =>
    s.writeMem (ptrOff (s.g a) off) q.sgn (szOf q / 8) (patOf q (s.g b)) col kind)

/-- ST with a 16-bit offset (R218). -/
def execSt (q : IQ) (a b : GReg) (col : BitVec 3) (off : BitVec 16) (s : State) : Host.Outcome State Fault Refusal :=
  storeFrom q a b col (sext64 off) .plain s
/-- ST with a 48-bit offset (R218). -/
def execStW (q : IQ) (a b : GReg) (col : BitVec 3) (off : BitVec 48) (s : State) : Host.Outcome State Fault Refusal :=
  storeFrom q a b col (sext64 off) .plain s
/-- ST.REL with a 16-bit offset (R218). -/
def execStRel (q : IQ) (a b : GReg) (col : BitVec 3) (off : BitVec 16) (s : State) : Host.Outcome State Fault Refusal :=
  storeFrom q a b col (sext64 off) .rel s
/-- ST.REL with a 48-bit offset (R218). -/
def execStRelW (q : IQ) (a b : GReg) (col : BitVec 3) (off : BitVec 48) (s : State) : Host.Outcome State Fault Refusal :=
  storeFrom q a b col (sext64 off) .rel s
/-- ST.FE with a 16-bit offset (R218). -/
def execStFe (sgn : Bool) (a b : GReg) (col : BitVec 3) (off : BitVec 16) (s : State) : Host.Outcome State Fault Refusal :=
  storeFrom ⟨sgn, 3⟩ a b col (sext64 off) .fe s
/-- ST.FE with a 48-bit offset (R218). -/
def execStFeW (sgn : Bool) (a b : GReg) (col : BitVec 3) (off : BitVec 48) (s : State) : Host.Outcome State Fault Refusal :=
  storeFrom ⟨sgn, 3⟩ a b col (sext64 off) .fe s

/-! ### Extents (R144, R220) -/

/-- The element that LDX or STX addresses: its physical address, its virtual address, and how it is replicated. -/
structure XAddr where
  pa   : Nat
  va   : Nat
  repl : Nat
  deriving DecidableEq, Repr

/-- TVAL of EXTENT-BOUNDS (R195). -/
def extentTval (x : Fin 16) (o : Int) : Word := BitVec.ofNat 64 (x.val * 2 ^ 60 + wrapN 60 o)

/-- The replication of the page of an extent that an address lies in: a read-only extent may hold replicated pages and others (R143). -/
def State.extRepl (s : State) (e : Ext) (va : Nat) : Nat :=
  if e.repl = 0 then 0
  else match s.walk (s.pOf s.cur.1) va with
    | .leaf _ _ w => replOf w
    | .absent _ _ _ | .bad => 0

/-- The checks of R220. LDX and STX present no pointer, and R195 gives the TVAL of MISALIGN and ECC-UNCORRECTED as one: it is the element's virtual
address with view 0 (log 69). -/
def State.extentAt (s : State) (x : Fin 16) (i : Word) (imm : BitVec 16) (size : Nat) (write : Bool) : Res XAddr :=
  let o : Int := (i.toInt + imm.toInt) * size
  match s.myTask.exts[x.val]? with
  | none => trapAt .extentBounds (extentTval x o) s
  | some e =>
    if o < 0 || (e.len : Int) < o + size || (write && !e.wr) then trapAt .extentBounds (extentTval x o) s
    else
      let pa := e.pa + o.toNat
      let va := (vaOf e.base + o.toNat) % 2 ^ 60
      if pa % size != 0 then trapAt .misalign (BitVec.ofNat 64 va) s else .ok ⟨pa, va, s.extRepl e va⟩ s

/-- LDX (R220). -/
def execLdx (d : GReg) (q : IQ) (x : Fin 16) (a : GReg) (i : BitVec 16) (s : State) : Host.Outcome State Fault Refusal :=
  run ((s.extentAt x (s.g a) i (szOf q / 8) false).bind fun e s =>
    (s.readGlobal (BitVec.ofNat 64 e.va) q.sgn e.va e.pa (szOf q / 8) e.repl .none).bind fun v s => .ok () (s.setG d (extR q v)))

/-- STX (R220). -/
def execStx (q : IQ) (x : Fin 16) (a b : GReg) (i : BitVec 16) (s : State) : Host.Outcome State Fault Refusal :=
  run ((s.extentAt x (s.g a) i (szOf q / 8) true).bind fun e s =>
    .ok () (s.pushLane e.pa (BitVec.ofNat 64 e.va) (szOf q / 8) (patOf q (s.g b)) s.me.colour .plain 0 q.sgn))

/-! ### Atomics (R221, R222) -/

/-- An order field that releases at a scope for which a store in its lane is not yet performed (R155). -/
def releasesAt (o : AOrd) (sc : Scope) : Bool :=
  (match o with | .rel | .ar => true | .none | .acq => false) &&
    (match sc with | .clus | .die | .pkg | .sys => true | .ctx | .core => false)

/-- An atomic of the running context (R221). -/
def atomicOp (op : Nat) (d : GReg) (q : IQ) (a b : GReg) (o : AOrd) (col : BitVec 3) (sc : Scope) (s : State) :
    Host.Outcome State Fault Refusal :=
  run ((s.atomicMem (s.g a) ⟨op, q.sgn, szOf q / 8, patOf q (s.g b), patOf q (s.g d)⟩ col (releasesAt o sc)).bind fun old s =>
    .ok () (s.setG d (extR q old)))

/-- AADD (R221). -/
def execAadd (d : GReg) (q : IQ) (a b : GReg) (o : AOrd) (col : BitVec 3) (sc : Scope) (s : State) : Host.Outcome State Fault Refusal :=
  atomicOp 0 d q a b o col sc s
/-- AAND (R221). -/
def execAand (d : GReg) (q : IQ) (a b : GReg) (o : AOrd) (col : BitVec 3) (sc : Scope) (s : State) : Host.Outcome State Fault Refusal :=
  atomicOp 1 d q a b o col sc s
/-- AOR (R221). -/
def execAor (d : GReg) (q : IQ) (a b : GReg) (o : AOrd) (col : BitVec 3) (sc : Scope) (s : State) : Host.Outcome State Fault Refusal :=
  atomicOp 2 d q a b o col sc s
/-- AXOR (R221). -/
def execAxor (d : GReg) (q : IQ) (a b : GReg) (o : AOrd) (col : BitVec 3) (sc : Scope) (s : State) : Host.Outcome State Fault Refusal :=
  atomicOp 3 d q a b o col sc s
/-- AMIN (R221). -/
def execAmin (d : GReg) (q : IQ) (a b : GReg) (o : AOrd) (col : BitVec 3) (sc : Scope) (s : State) : Host.Outcome State Fault Refusal :=
  atomicOp 4 d q a b o col sc s
/-- AMAX (R221). -/
def execAmax (d : GReg) (q : IQ) (a b : GReg) (o : AOrd) (col : BitVec 3) (sc : Scope) (s : State) : Host.Outcome State Fault Refusal :=
  atomicOp 5 d q a b o col sc s
/-- ASWAP (R221). -/
def execAswap (d : GReg) (q : IQ) (a b : GReg) (o : AOrd) (col : BitVec 3) (sc : Scope) (s : State) : Host.Outcome State Fault Refusal :=
  atomicOp 6 d q a b o col sc s
/-- ACAS (R221). -/
def execAcas (d : GReg) (q : IQ) (a b : GReg) (o : AOrd) (col : BitVec 3) (sc : Scope) (s : State) : Host.Outcome State Fault Refusal :=
  atomicOp 7 d q a b o col sc s

/-! ### FENCE (R162, R163, R223) -/

/-- The scope waits for stores that have entered their lane (R155). -/
def scopeDrains : Scope → Bool
  | .ctx | .core => false
  | .clus | .die | .pkg | .sys => true

/-- A store of the running context in a colour of a mask is pending, or one of another context that it has read (R163, R177). -/
def State.maskBusy (s : State) (mask : BitVec 8) : Bool :=
  s.myCore.lanes.any (fun e => (e.ctx == s.cur.2.val && mask.getLsbD e.colour.toNat) || e.seen.contains s.cur.2.val)

/-- A window store of the running context in a colour of a mask is neither reflected nor dropped. -/
def State.windowBusy (s : State) (mask : BitVec 8) : Bool :=
  (upTo 8).any (fun c => mask.getLsbD c && get8 s.me.wout c != 0)

/-- REMOTE-FAULT of a failed store in a colour of a mask (R195). -/
def State.failCheckMask (s : State) (mask : BitVec 8) : Res Unit :=
  match takeFirst (fun f : Nat × Nat => mask.getLsbD f.1) s.me.failed with
  | none => .ok () s
  | some (f, t) => trapAt .remoteFault (BitVec.ofNat 64 f.2) (s.onMe (fun x => { x with failed := t }))

/-- FENCE (R162): earlier loads and atomics have been performed, since a context issues in order (R176); the fence order of R163 is
the order of the steps. In deterministic mode its core sees from then on what the others have written in the quantum (log 58). -/
def execFence (mask : BitVec 8) (sc : Scope) (s : State) : Host.Outcome State Fault Refusal :=
  run ((if scopeDrains sc then s.failCheckMask mask else .ok () s).bind fun _ s =>
    if scopeDrains sc && s.maskBusy mask then .stop (.wait .fence) s
    else if sc = .sys && s.windowBusy mask then .stop (.wait .fence) s
    else .ok () (if sc = .ctx then s else s.noteSync s.cur.1))

end Sys2Proof.Machine
end

