-- ==== Sys2Proof/Machine/Observe.lean ====
section
/-!
DEFINITION. Observation from outside: samples (R429-R431), the heads and drop counts of the rings (R432, R433), counters (R437) and the TIME
marker (R434).
-/

namespace Sys2Proof.Machine

/-! ### Samples (R430, R431) -/

/-- A record put in the sample ring, or dropped and counted (R433). The flit that carries it costs only time (R440; log 66). -/
def State.putSample (s : State) (core : Nat) (w : List Word) : State :=
  let p := s.pOf core
  let r := (s.part p).samples
  if !r.en then s
  else
    let (r', s', ok) := s.putRing p r 32 w
    let s1 := s'.onPart p (fun P => { P with samples := r' })
    if ok then s1 else s1.count (dieOf core) 0x15 1

/-- SAMPLE: the oldest sample of a core is written to the sample ring (R430). -/
def execSample (core : Nat) (s : State) : Host.Outcome State Fault Refusal :=
  match (s.core core).samples with
  | [] => .next s
  | w :: t => .next ((s.onCore core (fun k => { k with samples := t })).putSample core w)

/-- SAMPLE_PERIOD_WRITE: the period of every core of a partition, with its count at 0 again (R430). -/
def execSamplePeriodWrite (part : Nat) (period : BitVec 32) (s : State) : Host.Outcome State Fault Refusal :=
  match AMap.find s.parts part with
  | none => .next s
  | some _ =>
    .next ((s.partCores part).foldl (fun s c => s.onCore c (fun k => { k with sampcfg := period, sampCount := 0 }))
      (s.onPart part (fun P => { P with period := period })))

/-! ### Rings (R432, R433) -/

/-- A ring of a partition. -/
def Part.ring (P : Part) : RingSel → RingReg
  | .sample => P.samples
  | .event => P.events

/-- The partition with a ring changed. -/
def Part.onRing (P : Part) (r : RingSel) (f : RingReg → RingReg) : Part :=
  match r with
  | .sample => { P with samples := f P.samples }
  | .event => { P with events := f P.events }

/-- HEAD written: beyond TAIL it stays (R433). -/
def RingReg.setHead (r : RingReg) (h : BitVec 32) : RingReg := if (r.tail - h).toNat ≤ 2 ^ r.sizelog then { r with head := h } else r

/-- RING_HEAD_WRITE (R433). -/
def execRingHeadWrite (part : Nat) (r : RingSel) (head : BitVec 32) (s : State) : Host.Outcome State Fault Refusal :=
  .next (s.onPart part (fun P => P.onRing r (fun x => x.setHead head)))

/-- DROP_WRITE: a W1C register (R4, R432). -/
def execDropWrite (part : Nat) (r : RingSel) (bits : BitVec 32) (s : State) : Host.Outcome State Fault Refusal :=
  .next (s.onPart part (fun P => P.onRing r (fun x => { x with drop := x.drop &&& ~~~bits })))

/-! ### Counters and TIME (R434, R437) -/

/-- COUNTER_WRITE: the count replaced; increments of the same cycle are lost (R437). -/
def execCounterWrite (part i : Nat) (v : Word) (s : State) : Host.Outcome State Fault Refusal :=
  .next (s.onPart part (fun P => { P with counters := AMap.set P.counters i { AMap.get Ctr.reset P.counters i with val := v, wrote := true } }))

/-- TIME_WRAP: a marker for a wrap of TIME[47:0] that has none yet (R434), in deterministic mode of the logical time that its records carry (R440). -/
def execTimeWrap (part : Nat) (s : State) : Host.Outcome State Fault Refusal :=
  let n := (s.part part).wraps + 1
  if s.engTime part / 2 ^ 48 < n then .next s
  else .next ((s.event part (n * 2 ^ 48) 4 1 0 (n % 2 ^ 16)).onPart part (fun P => { P with wraps := n }))

end Sys2Proof.Machine
end

