-- ==== Sys2Proof/Machine/Power.lean ====
section
/-!
DEFINITION. Power tokens and thermal throttling (R442-R446). Both change timing only.
-/

namespace Sys2Proof.Machine

/-- An interval of the power controller: 10 µs. -/
def powerInterval : Nat := 20000

/-- The energy that a die reports for the interval that ends: a free value that reached the allotment where the die ran out of tokens, and
that did not where it did not; 0 for a die of no partition (R442, R443). -/
def State.activity (s : State) (die : Nat) : Nat :=
  let a := s.pkg.allot.getD die 0
  let e := Config.energy s.fresh die
  if s.parts.any (fun q => decide (q.1 ≤ die) && decide (die < q.1 + q.2.dies)) then (if s.pkg.outTok.getLsbD die then a + e else e % a) else 0

/-- The allotments of R442. -/
def allotOf (u : List Nat) : List Nat :=
  let t := sumNat u
  if t = 0 then List.replicate 8 2000
  else
    let a := u.map (fun x => 1000 + 8000 * x / t)
    let left := 16000 - sumNat a
    (upTo 8).map (fun d => a.getD d 0 + (if d < left then 1 else 0))

/-- TOKEN_REALLOT: every 10 µs the tokens are allotted by activity, or the host's allotments begin a new interval; no die is out of
tokens (R442-R444). -/
def execTokenReallot (s : State) : Host.Outcome State Fault Refusal :=
  if s.time < s.pkg.tokenAt + powerInterval then .next s
  else
    let u := (upTo 8).map (fun d => s.activity d)
    .next ((s.onPkg (fun g => { g with
      used := u, allot := if g.powerHost then g.allot else allotOf u, outTok := 0, tokenAt := s.time })).tick)

/-- TOKEN_EXHAUST: a die has used its allotment (R443). -/
def execTokenExhaust (die : Nat) (s : State) : Host.Outcome State Fault Refusal :=
  .next (s.onPkg (fun g => { g with outTok := g.outTok ||| BitVec.ofNat 8 (2 ^ die) }))

/-- POWER_ALLOT_WRITE: static allotments in host-assisted mode, before any launch; refused where one is below 1,000 or they exceed 16,000
together (R444). -/
def execPowerAllotWrite (allot : List Nat) (s : State) : Host.Outcome State Fault Refusal :=
  if s.pkg.powerHost && s.idleAll && allot.all (fun a => decide (1000 ≤ a)) && decide (sumNat allot ≤ 16000) then
    .next (s.onPkg (fun g => { g with allot := allot }))
  else .next s

/-- The die of an island with cores. -/
def islandDie (n : Nat) : Nat := n / 128

/-- THERMAL_SAMPLE: above 250 W/cm² an island issues on alternate cycles, which the firmware log reports; from 240 W/cm² down it issues fully
again (R445). The report of an island of no partition's die goes to firmware's log of the package. -/
def execThermalSample (island flux : Nat) (s : State) : Host.Outcome State Fault Refusal :=
  if 250 < flux && !s.pkg.hot.contains island then
    let s1 := s.onPkg (fun g => { g with hot := sIns island g.hot })
    let d := islandDie island
    .next (if s.parts.any (fun q => decide (q.1 ≤ d) && decide (d < q.1 + q.2.dies)) then
        s1.log (s.partKey d) [BitVec.ofNat 64 island, BitVec.ofNat 64 flux]
      else s1.onPkg (fun g => { g with fwlog := g.fwlog ++ [[BitVec.ofNat 64 island, BitVec.ofNat 64 flux]] }))
  else if flux ≤ 240 then .next (s.onPkg (fun g => { g with hot := sDel island g.hot }))
  else .next s

end Sys2Proof.Machine
end

