-- ==== Sys2Proof/Machine/Pri.lean ====
section
/-!
DEFINITION. The responses to PRI requests (R421): to the fault of a context, to the front end of a LAUNCH (R408), to the lodge of a home (R262).
-/

namespace Sys2Proof.Machine

/-- A tag freed. -/
def State.freeTag (s : State) (t : Nat) : State := s.onPkg (fun g => { g with pri := AMap.del g.pri t })

/-- The fault that a tag's request stands for. -/
def State.askedFault (s : State) (q : Pri) : Option PFault :=
  (s.part q.part).faults.find? (fun f => f.asked && f.core == q.core && f.ctx == q.ctx && f.va == q.va)

/-- The host has refused a page that firmware itself needs: the LAUNCH that still waits for it fails with HOST-FAULT (R408), the lodge's service
of an entry that does fails (R262), or a channel advance (R453). -/
def State.refusedOwn (s : State) (q : Pri) : State :=
  if q.ctx = 0 then match s.chosen q.part 1 with
    | some k =>
      match s.launchTry q.part k with
      | .ask va _ => if samePage va q.va then s.packetFail q.part k.q .hostFault else s
      | .ok _ _ | .later _ | .fail _ => s
    | none => s
  else if q.ctx = advAsk then s.advRefused q.part q.va
  else s.failLodged (q.ctx - 1) q.va

/-- A response applied to its fault: the walk is retried, or the context aborts (R421). -/
def State.applyPrg (s : State) (q : Pri) (c : PrgCode) : State :=
  if q.core = 4096 then match c with
    | .success => s
    | .invalid | .failure => s.refusedOwn q
  else match s.askedFault q with
  | none => s
  | some f =>
    if s.staleFault f then s.pruneFaults q.part
    else match c with
      | .success =>
        let s1 := s.pruneFaults q.part
        s1.served q.part (s1.sameFaults q.part f)
      | .invalid => s.abortFault q.part f .pageProt
      | .failure => s.frameOut q.part f

/-- PRG_RESPONSE: its tag frees; a response that names a free tag is ignored (R421). -/
def execPrgResponse (tag : BitVec 9) (code : PrgCode) (s : State) : Host.Outcome State Fault Refusal :=
  match AMap.find s.pkg.pri tag.toNat with
  | none => .next s
  | some q => .next ((s.freeTag tag.toNat).applyPrg q code)

/-- PRI_TIMEOUT: no response within 2^31 cycles counts as Response Failure (R421). -/
def execPriTimeout (tag : BitVec 9) (s : State) : Host.Outcome State Fault Refusal :=
  match AMap.find s.pkg.pri tag.toNat with
  | none => .next s
  | some q => if s.time < q.since + 2 ^ 31 then .next s else .next ((s.freeTag tag.toNat).applyPrg q .failure)

end Sys2Proof.Machine
end

