-- ==== Sys2Proof/Machine/Registers.lean ====
section
/-!
DEFINITION. Writes to registers and memory that have no row of their own (R4): command queues (R407), the trap ring (R422), the rings (R432),
counter selects (R437), the values of a partition (R49, R423, R424), routes (R380), the package number (R372), fronts that firmware freezes or
thaws for the host (R357), and words of memory (R450, R454).
-/

namespace Sys2Proof.Machine

/-- A base of 64-byte granularity. -/
def base64 (v : Word) : Nat := v.toNat / 64 * 64

/-- The SIZELOG of QCTL or CTL written: a value outside its range leaves it as it was (R407, R432). -/
def sizeOr (old lo hi n : Nat) : Nat := if lo ≤ n ∧ n ≤ hi then n else old

/-- A queue whose QBASE, DIE and SIZELOG may change (R407). -/
def CmdQ.still (c : CmdQ) : Bool := !c.en && c.head == c.tail

/-- QBASE written. -/
def CmdQ.setBase (c : CmdQ) (v : Word) : CmdQ := if c.still then { c with base := base64 v } else c

/-- QCTL written: EN, RESUME, and where they may change DIE and SIZELOG. -/
def CmdQ.setCtl (c : CmdQ) (v : Word) : CmdQ :=
  let c1 := if c.still then { c with die := bitsNat v 59 3, sizelog := sizeOr c.sizelog 4 16 (bitsNat v 0 5) } else c
  { c1 with en := v.getLsbD 63, err := if v.getLsbD 62 then 0 else c.err }

/-- CTL of a ring written: EN, the MASK of the event ring, and while EN = 0 SIZELOG (R432). -/
def RingReg.setCtl (r : RingReg) (ev : Bool) (v : Word) : RingReg :=
  { r with
    en := v.getLsbD 63
    sizelog := if r.en then r.sizelog else sizeOr r.sizelog 8 24 (bitsNat v 16 5)
    mask := if ev then BitVec.ofNat 16 (bitsNat v 0 16) else r.mask }

/-- CSEL written (R437). -/
def Ctr.select (c : Ctr) (v : Word) : Ctr :=
  { c with en := v.getLsbD 63, die := bitsNat v 24 3, dief := v.getLsbD 23, event := bitsNat v 0 8 }

/-- A run of frames out of the pools. -/
def State.claim (s : State) (f n : Nat) : State :=
  { s with parts := AMap.mapVals (fun _ P => { P with free := rangesDel f n P.free }) s.parts }

/-- The table words of a range that memory lists. -/
def listedWords (m : Memory) (base size : Nat) : List Nat :=
  ((m.cells.filter (fun c => decide (base ≤ c.1) && decide (c.1 < base + size))).map (fun c => wordOf c.1)).eraseDups

/-- A table word. -/
def Memory.pte (m : Memory) (slot : Nat) : Word := BitVec.ofNat 64 (m.read slot 8)

/-- The table that an entry names (R136). -/
def tableOf (p dies : Nat) (e : Word) : Option Nat :=
  if pteV e && !pteLeaf e && !pteReserved e && stackIn p dies (pteAddr e) then some (pteAddr e) else none

/-- The bytes of a table of a level (R134). -/
def tableBytes (lvl : Nat) : Nat := if lvl = 0 then 32768 else 4096

/-- The bytes that one entry of a table of a level maps (R134). -/
def entrySpan (lvl : Nat) : Nat := 2 ^ (48 - 9 * lvl)

/-- The level of the entry of a partition's tables at an address, and the first VA that the entry maps: searched from the table at `base` of
level `lvl` that maps from `va` on, with `n` levels below. -/
def tableLvl (m : Memory) (p dies pa : Nat) : Nat → Nat → Nat → Nat → Option (Nat × Nat)
  | 0, lvl, va, base =>
    if base ≤ pa ∧ pa < base + tableBytes lvl then some (lvl, va + (pa - base) / 8 * entrySpan lvl) else none
  | n + 1, lvl, va, base =>
    if base ≤ pa ∧ pa < base + tableBytes lvl then some (lvl, va + (pa - base) / 8 * entrySpan lvl)
    else (listedWords m base (tableBytes lvl)).findSome? (fun w =>
      match tableOf p dies (m.pte w) with
      | some t => tableLvl m p dies pa n (lvl + 1) (va + (w - base) / 8 * entrySpan lvl) t
      | none => none)

/-- A leaf of a level that is written and valid: its frames, every replica's of a replicated page (R141), are no longer free and, in the
partition's own stacks, may be taken back by eviction (R152); what waited for the page finds it (R262); and the frames of a receive page are zeroed
(R454). -/
def State.mapped (s : State) (p dies lvl va : Nat) (v : Word) : State :=
  if pteTxw v || lvl == 0 then s
  else
    let frames := framesOf p dies (pteAddr v / 4096) (pteRepl v && stackIn p dies (pteAddr v))
    let s1 := frames.foldl (fun s f => s.claim f (pagesOf lvl)) s
    let s2 := if stackIn p dies (pteAddr v) then (s1.onPart p (fun P => P.reside ⟨va, lvl, none, true⟩)).rekey p (backKey va (pageSize lvl) frames)
      else s1
    if pteRxw v && firstTier (pteAddr v) then s2.zeroFrames frames (pageSize lvl) else s2

/-- An entry of a table of a level that becomes valid, mapping from `va` on: a leaf, or a table with all that it holds. -/
def State.adopt (s : State) (p dies lvl va : Nat) (v : Word) : Nat → State
  | 0 => if pteV v && pteLeaf v then s.mapped p dies lvl va v else s
  | n + 1 =>
    if pteV v && pteLeaf v then s.mapped p dies lvl va v
    else match tableOf p dies v with
      | some t =>
        (listedWords s.mem t 4096).foldl
          (fun s w => s.adopt p dies (lvl + 1) (va + (w - t) / 8 * entrySpan (lvl + 1)) (s.mem.pte w) n) (s.claim (t / 4096) 1)
      | none => s

/-- Two entries map the same frames in the same way, as far as firmware's pool goes. -/
def sameMap (a b : Word) : Bool :=
  pteLeaf a == pteLeaf b && pteAddr a == pteAddr b && pteRxw a == pteRxw b && pteTxw a == pteTxw b && pteRepl a == pteRepl b

/-- A word of the tables of a partition written: what it makes valid and was not so before is mapped, and so is a receive page whose leaf is
written while no valid window covers it (R454). What a controller's command will store to a page that had been paged out goes where it is now. -/
def State.mapWord (s : State) (pa : Nat) (v : Word) : State :=
  let p := s.partKey (pa / 2 ^ 36 % 8)
  let P := s.part p
  let old := s.mem.pte pa
  match tableLvl s.mem p P.dies pa 4 0 0 P.root with
    | some (lvl, va) =>
      let sz := pageSize lvl
      if pteV old && sameMap old v && !(pteLeaf v && pteRxw v && !s.rxCovers p va sz) then s
      else
        let s1 := s.adopt p P.dies lvl va v 4
        if !pteV old && pteLeaf old && pteV v && pteLeaf v then
          s1.moveCmds sz [pteAddr old / 4096] (framesOf p P.dies (pteAddr v / 4096) (pteRepl v && stackIn p P.dies (pteAddr v)))
        else s1
    | none => s

/-- A word of host memory, of the second tier, or of a first-tier frame written from outside the dies; the frame is no longer free. -/
def State.hostWrite (s : State) (pa : Nat) (v : Word) : State :=
  if pa % 8 == 0 && (hostMem pa || secondTier pa || firstTier pa) then
    ((s.claim (pa / 4096) 1).mapWord pa v).onMem (fun m => m.store pa 8 v.toNat)
  else s

/-- A write that a module in recovery takes: it exposes nothing but its recovery window, which no row here names (R427). Host memory and
the second tier are not the module's. -/
def exposed : RegTarget → Bool
  | .mem pa => hostMem pa || secondTier pa
  | .qbase _ _ | .qctl _ _ | .qtail _ _ | .trbase _ | .trctl _ | .ringBase _ _ | .ringCtl _ _ | .csel _ _ | .retry _ | .deadtime _
  | .preemptwait _ | .debugger _ | .route _ _ | .package | .lvfreeze _ _ | .lvthaw _ _ | .priAlloc => false

/-- REGISTER_WRITE: fields act by their access codes (R4); reserved fields are ignored (R5). TRCTL holds the SIZELOG written, whatever it is
(log 11), a route word the layout of log 73. In recovery the module's registers are not exposed (R427). -/
def execRegisterWrite (r : RegTarget) (v : Word) (s : State) : Host.Outcome State Fault Refusal :=
  if s.pkg.boot = .recovery ∧ exposed r = false then .next s
  else match r with
  | .qbase part q => .next (s.onPart part (fun P => P.setQ (q % 64) (fun c => c.setBase v)))
  | .qctl part q => .next (s.onPart part (fun P => P.setQ (q % 64) (fun c => c.setCtl v)))
  | .qtail part q => .next (s.onPart part (fun P => P.setQ (q % 64) (fun c => { c with tail := BitVec.ofNat 32 v.toNat })))
  | .trbase part => .next (s.onPart part (fun P => { P with trRing := { P.trRing with base := base64 v } }))
  | .trctl part =>
    let s1 := s.onPart part (fun P =>
      { P with trRing := { P.trRing with en := v.getLsbD 63, sizelog := bitsNat v 0 5 } })
    .next (s1.trFlush part (s1.part part).recs.length)
  | .ringBase part r => .next (s.onPart part (fun P => P.onRing r (fun x => if x.en then x else { x with base := base64 v })))
  | .ringCtl part r => .next (s.onPart part (fun P => P.onRing r (fun x => x.setCtl (decide (r = .event)) v)))
  | .csel part i =>
    .next (s.onPart part (fun P => { P with counters := AMap.set P.counters (i % 64) ((AMap.get Ctr.reset P.counters (i % 64)).select v) }))
  | .retry part => .next (s.onPart part (fun P => { P with retry := if v.toNat ≤ 15 then v.toNat else P.retry }))
  | .deadtime part => .next (s.onPart part (fun P => { P with deadtime := v.toNat }))
  | .preemptwait part => .next (s.onPart part (fun P => { P with preemptwait := v.toNat }))
  | .debugger part => .next (s.onPart part (fun P => { P with debugOn := v.getLsbD 0 }))
  | .route xd tpkg =>
    let link := bitsNat v 0 4
    let k := xd * 4096 + tpkg % 4096
    .next { s with routes := (if v.getLsbD 63 && link / 8 == xd then AMap.set s.routes k link else AMap.del s.routes k) }
  | .priAlloc => .next (s.onPkg (fun g => { g with priAlloc := v.toNat % 2 ^ 32 }))
  | .package => .next (if s.idleAll then s.onPkg (fun g => { g with number := v.setWidth 12 }) else s)
  | .lvfreeze part block => .next (s.hostFrontAt part block false)
  | .lvthaw part block => .next (s.hostFrontAt part block true)
  | .mem pa => .next (s.hostWrite pa v)

end Sys2Proof.Machine
end

