-- ==== Sys2Proof/Machine/Rlc.lean ====
section
/-!
DEFINITION. The instructions of the refinement loop controller (R400-R403). Its answers come at once (log 9).
-/

namespace Sys2Proof.Machine

/-! ### RLCRUN (R401) -/

/-- A finite F64. -/
def f64Finite (w : Word) : Bool :=
  match decodeF .f64 w.toNat with
  | .fin _ _ _ => true
  | .inf _ | .nan _ => false

/-- a ≤ b of F64 words. -/
def f64Le (a b : Word) : Bool :=
  cmpLt (decodeF .f64 a.toNat) (decodeF .f64 b.toNat) || cmpEq (decodeF .f64 a.toNat) (decodeF .f64 b.toNat)

/-- A ladder code of R392: 0x0, or 0x8 to 0xE. -/
def ladderOk (n : Nat) : Bool := n == 0 || (decide (8 ≤ n) && decide (n ≤ 14))

/-- CheckBlock (R401) on words 0 to 13 and 16 to 31. -/
def blockBadRlc (t : Task) (b hi : List Word) : Bool :=
  let w := fun i => b.getD i 0
  let rung := fun i => bitsNat (w 0) (32 + 4 * i) 4
  let n := bitsNat (w 0) 30 2
  bitsNat (w 0) 48 16 != 0 || bitsNat (w 0) 0 19 != 0 || bitsNat (w 1) 14 50 != 0 || bitsNat (w 1) 4 3 != 0 || bitsNat (w 2) 48 16 != 0 ||
  hi.any (fun x => x != 0) || (upTo 4).any (fun i => if i ≤ n then !ladderOk (rung i) else rung i != 0) ||
  bitsNat (w 2) 32 16 == 0 || (upTo 4).any (fun i => bitsNat (w 7) (16 * i) 16 == 0) ||
  !f64Finite (w 3) || !f64Le 0 (w 3) || !f64Finite (w 4) || !f64Le 0 (w 4) || f64Le (w 4) 0 || !f64Finite (w 5) || !f64Le (w 4) (w 5) ||
  !f64Finite (w 6) || !f64Le 0 (w 6) || (upTo 5).any (fun i => !inBounds t (w (8 + i))) ||
  decide (4 < bitsNat (w 0) 26 3) || decide (4 < bitsNat (w 0) 23 3)

/-- The keys of a word that the controller will store to: PAGE-PROT and LOAD-TXW as R401 says, and the replicas of its page
(R141). -/
def State.storeKeys (s : State) (p : Word) : Res (List Nat) :=
  match s.decodeAddr p 8 .store with
  | .error c => trapAt c p s
  | .ok (.loc k) => .ok [k] s
  | .ok (.glob va) => (s.translate p va .store).bind fun x s =>
    if pteTxw x.pte then trapAt .loadTxw p s
    else if pteRepl x.pte then .ok (x.pa :: (s.otherDies (s.pOf s.cur.1)).map (fun d => replicaAt x.pa d)) s
    else .ok [x.pa] s

/-- The controller of the running core's cluster holds a command of this core, queued or running, or accepted in this quantum
(R394). -/
def State.rlcBusy (s : State) : Bool :=
  let r := s.rlc (clusOf s.cur.1)
  let c := s.cur.1
  r.queue.any (fun x => x.core == c) || (match r.run with | some x => x.cmd.core == c | none => false) ||
    r.pend.any (fun e => match e with | .cmd x => x.core == c | .report _ _ _ | .ended _ _ _ | .stop _ => false)

/-- A pointer that RLCRUN accepts: global, or cluster space of the running core's logical cluster. -/
def State.rlcPtrOk (s : State) (p : Word) : Bool := !isLocal p || (isspc p == 3 && ownerOf 2 p == s.accessor 2)

/-- RLCRUN (R401). -/
def execRlcrun (d a : GReg) (s : State) : Host.Outcome State Fault Refusal :=
  let p := s.g a
  run (if p.toNat % 8 != 0 then trapAt .misalign p s
    else if !s.rlcPtrOk p then trapAt .spaceBad p s
    else (s.readWords p [] 14).bind fun b s =>
      (s.storeKeys (ptrOff p 112)).bind fun k14 s => (s.storeKeys (ptrOff p 120)).bind fun k15 s =>
      (s.readWords (ptrOff p 128) [] 16).bind fun hi s =>
        if blockBadRlc s.myTask b hi then trapAt .rlcBlockBad p s
        else if s.rlcBusy then .ok () (s.setG d 1)
        else (s.release .fence).bind fun _ s =>
          let c : RCmd := ⟨b, p, k14, k15, s.me.tag, s.me.activation.m.msg.env.gen, s.cur.1, s.cur.2.val⟩
          .ok () ((s.rlcPost (clusOf s.cur.1) (.cmd c)).setG d 0))

/-! ### RLCNORM (R402) -/

/-- The phase that the running activation may still report: its controller and serial. -/
def State.rlcReportable (s : State) : Option (Nat × Nat) :=
  let a := s.me.activation
  match a.m.msg.info with
  | .phase cl serial =>
    match (s.rlc cl).run with
    | some r => if r.serial == serial && !a.reported then some (cl, serial) else none
    | none => none
  | .plain | .arrive | .copyDone _ | .dispatch _ | .rlcExit _ _ => none

/-- RLCNORM (R402). -/
def execRlcnorm (d a : GReg) (s : State) : Host.Outcome State Fault Refusal :=
  run ((s.release .fence).bind fun _ s =>
    match s.rlcReportable with
    | some (cl, serial) =>
      let core := s.me.activation.core % 16
      let v := s.g a
      .ok () (((s.onMe (fun x => { x with act := x.act.map (fun t => { t with reported := true }) })).rlcPost cl
        (.report core serial v)).setG d 1)
    | none => .ok () (s.setG d 0))

/-! ### RLCSTAT and RLCSTOP (R403) -/

/-- STATE of R403. -/
def RSt.code : RSt → Nat
  | .none => 0 | .queued => 1 | .running => 2 | .stopping => 3 | .ended => 4

/-- The latest command of the running core, where its block pointer matches. -/
def State.rlcMatch (s : State) (p : Word) : Option RLatest :=
  match AMap.find (s.rlc (clusOf s.cur.1)).latest s.cur.1 with
  | some l => if l.ptr == p then some l else none
  | none => none

/-- PHASE of R403: 15 where no phase of this core's command is active. -/
def State.rlcPhase (s : State) : Nat :=
  match (s.rlc (clusOf s.cur.1)).run with
  | some r => if r.cmd.core = s.cur.1 then r.phase.code else 15
  | none => 15

/-- The word of R403. -/
def State.rlcWord (s : State) (p : Word) : Word :=
  match s.rlcMatch p with
  | none => 0
  | some l => BitVec.ofNat 64 (2 ^ 63 + l.exit % 256 * 2 ^ 48 + l.iter % 2 ^ 32 * 2 ^ 16 + l.rung % 256 * 2 ^ 8 + s.rlcPhase * 16 + l.st.code)

/-- RLCSTAT (R403). -/
def execRlcstat (d a : GReg) (s : State) : Host.Outcome State Fault Refusal := retired (s.setG d (s.rlcWord (s.g a)))

/-- RLCSTOP (R403): the word returned is the state before its action. -/
def execRlcstop (d a : GReg) (s : State) : Host.Outcome State Fault Refusal :=
  let p := s.g a
  let w := s.rlcWord p
  let act : Bool := match s.rlcMatch p with
    | some l => l.st == .queued || l.st == .running
    | none => false
  retired ((if act then s.rlcPost (clusOf s.cur.1) (.stop s.cur.1) else s).setG d w)

end Sys2Proof.Machine
end

