-- ==== Sys2Proof/Machine/Tag.lean ====
section
/-!
DEFINITION. The tag table (R145, R240, R241).
-/

namespace Sys2Proof.Machine

/-- Slots of the tag table. -/
def tagSlots : Nat := 384

/-- The granule of a tag entry or an address. -/
def granuleOf (w : Word) : Nat := bitsNat w 9 51

/-- A tag entry is valid. -/
def tagValid (w : Word) : Bool := w.getLsbD 63

/-- The valid entry that holds a granule. -/
def CoreSt.tagOf (k : CoreSt) (g : Nat) : Option Nat :=
  (k.tags.find? (fun e => tagValid e.2 && granuleOf e.2 == g)).map (·.1)

/-- A tag entry. -/
def CoreSt.tagEntry (k : CoreSt) (n : Nat) : Word := AMap.get 0 k.tags n

/-- TLOOK (R240). -/
def execTlook (d a : GReg) (s : State) : Host.Outcome State Fault Refusal :=
  retired (s.setG d (BitVec.ofNat 64 ((s.myCore.tagOf (granuleOf (s.g a))).getD 0xFFFF)))

/-- TSET (R240). -/
def execTset (d a b : GReg) (s : State) : Host.Outcome State Fault Refusal :=
  let n := (s.g b).toNat
  let g := granuleOf (s.g a)
  if tagSlots ≤ n then .next (s.takeStop (.trap (mkTrap .tagSlotBad (s.g b))))
  else match s.myCore.tagOf g with
    | some t => retired (s.setG d (BitVec.ofNat 64 t))
    | none => retired ((s.onMyCore (fun k => { k with tags := AMap.set k.tags n (BitVec.ofNat 64 (2 ^ 63 + g * 512)) })).setG d 0xFFFF)

/-- TCLR (R240). -/
def execTclr (d a : GReg) (s : State) : Host.Outcome State Fault Refusal :=
  let n := (s.g a).toNat
  if tagSlots ≤ n then .next (s.takeStop (.trap (mkTrap .tagSlotBad (s.g a))))
  else retired ((s.onMyCore (fun k => { k with tags := AMap.del k.tags n })).setG d (s.myCore.tagEntry n))

/-- An entry that TINV counts: valid, and its granule overlaps the range; every valid one where the length is 0 (R240). -/
def tagHit (a len : Word) (e : Word) : Bool :=
  let lo := granuleOf e * 512
  tagValid e && (len == 0 || (decide (lo < vaOf a + len.toNat) && decide (vaOf a < lo + 512)))

/-- TINV (R240): with length 0 it clears every entry, those that are not valid too. -/
def execTinv (d a b : GReg) (s : State) : Host.Outcome State Fault Refusal :=
  let hit := tagHit (s.g a) (s.g b)
  let n := (s.myCore.tags.filter (fun e => hit e.2)).length
  retired ((s.onMyCore (fun k => { k with tags := if s.g b = 0 then [] else k.tags.filter (fun e => !hit e.2) })).setG d (BitVec.ofNat 64 n))

end Sys2Proof.Machine
end

