-- ==== Sys2Proof/Machine/Window.lean ====
section
/-!
DEFINITION. The window instructions (R384, R385) and the events of the window engine and its links (R371-R383).
-/

namespace Sys2Proof.Machine

/-! ### Instructions -/

/-- The colours of a mask for which a test holds. -/
def coloursWith (m : BitVec 8) (f : Nat → Bool) : List Nat := (upTo 8).filter (fun c => m.getLsbD c && f c)

/-- A drop record's entry. -/
def Ctx.drop (x : Ctx) (c : Nat) : Option Word := x.drops.get ⟨c % 8, Nat.mod_lt _ (by decide)⟩

/-- A drop record with the bits of some colours cleared. -/
def Ctx.clearDrops (x : Ctx) (l : List Nat) : Ctx :=
  { x with drops := Vector.ofFn (fun i : Fin 8 => if l.contains i.val then none else x.drops.get i) }

/-- RFENCE (R384). -/
def execRfence (mask : BitVec 8) (s : State) : Host.Outcome State Fault Refusal :=
  let x := s.me
  run (if !(coloursWith mask (fun c => get8 x.wout c != 0)).isEmpty then .stop (.park .rfence) s
    else match coloursWith mask (fun c => (x.drop c).isSome) with
      | [] => .ok () s
      | c :: t => trapAt .windowBroken ((x.drop c).getD 0) (s.onMe (fun x => x.clearDrops (c :: t))))

/-- The leaf behind a pointer as WSTAT and WSEQ see it (R385): it is translated as for a store (R137: a core stores to no receive page), but W is
not checked, nor the entry's state; its PART is (R371). -/
def State.probe (s : State) (p : Word) : Res Word :=
  let va := vaOf p
  if isLocal p then trapAt .spaceBad p s
  else match s.me.tlbHit va with
    | some t => if (s.checkAttr (s.pOf s.cur.1) 4 (t.pte ||| 8) .store).isSome then trapAt .pageProt p s else .ok t.pte s
    | none =>
      match s.walk (s.pOf s.cur.1) va with
      | .bad => trapAt .pageProt p s
      | .absent _ _ _ => .stop (.pageFault va true false 0) s
      | .leaf lvl slot e =>
        if (s.checkAttr (s.pOf s.cur.1) lvl (e ||| 8) .store).isSome then trapAt .pageProt p s
        else .ok e ((s.onMem (fun m => m.orWord slot 32)).onMe (fun x => { x with tlb := s.tlbEntry va lvl slot e :: x.tlb }))

/-- The word of WSTAT (R385). -/
def State.wstatWord (s : State) (e : Word) : Word :=
  let xd := winXd e
  let n := winEntry e
  let w := s.went xd n
  let l := s.link w.link
  let b := fun (x : Bool) (k : Nat) => if x then 2 ^ k else 0
  BitVec.ofNat 64 (2 ^ 63 + b w.loop 62 + b w.broken 61 + b (!w.loop && l.tx.keyHold) 60 + b (!w.loop && !l.up) 59 + w.link % 16 * 2 ^ 55 +
    xd * 2 ^ 54 + n * 2 ^ 45 + w.tpkg % 4096 * 2 ^ 33 + w.trxw % 1024 * 2 ^ 23 + w.size % 2 ^ 22)

/-- WSTAT (R385). -/
def execWstat (d a : GReg) (s : State) : Host.Outcome State Fault Refusal :=
  run ((s.probe (s.g a)).bind fun e s => .ok () (s.setG d (if pteTxw e then s.wstatWord e else 0)))

/-- WSEQ (R385). -/
def execWseq (d a : GReg) (s : State) : Host.Outcome State Fault Refusal :=
  run ((s.probe (s.g a)).bind fun e s =>
    let w := s.went (winXd e) (winEntry e)
    .ok () (s.setG d (if pteTxw e then BitVec.ofNat 64 (w.acked.toNat * 2 ^ 32 + w.sent.toNat) else 0)))

/-! ### The source engine -/

/-- WINDOW_PACKET_SEND: the next stores of an entry leave in one packet (R374). A link that is down, in KEY-HOLD or without a key takes none. -/
def execWindowPacketSend (xd entry : Nat) (s : State) : Host.Outcome State Fault Refusal :=
  let w := s.went xd entry
  match w.q with
  | [] => .next s
  | a :: t =>
    if !w.v || w.broken || w.loop || !w.headDue || !(s.link w.link).up || (s.link w.link).tx.keyHold then .next s
    else
      let k := packMore a t (a.off + a.bytes.length) a.bytes.length 1
      .next ((s.sentStores xd entry w k).sendPkt w.link (s.pktOf xd entry w k none))

/-- LOOPBACK_APPLY: the next store of a loop-back entry reaches the module's own receive window, in sequence (R376). -/
def execLoopbackApply (xd entry : Nat) (s : State) : Host.Outcome State Fault Refusal :=
  let w := s.went xd entry
  match w.q with
  | [] => .next s
  | a :: _ =>
    let p := s.pktOf xd entry w 1 none
    let ps := s.pathAt p.path
    if !w.v || w.broken || !w.loop || !w.headDue || ps.closed || ps.exp != a.seq || (s.win xd).lodges p.path then .next s
    else match s.reflect p with
      | .waits => .next s
      | .absent => .next (if 64 ≤ s.lodgeCount (0x10 + xd) then s else (s.sentStores xd entry w 1).target xd p)
      | .ack _ | .miss => .next ((s.sentStores xd entry w 1).target xd p)

/-- WINDOW_ACK_RECEIVE: the oldest ACK at an engine (R375). -/
def execWindowAckReceive (xd : Nat) (s : State) : Host.Outcome State Fault Refusal :=
  match takeFirst (fun (p : Pkt) => p.kind == .ack) (s.win xd).rxq with
  | none => .next s
  | some (p, t) => .next ((s.onWin xd (fun e => { e with rxq := t })).ackApply p.sxd p.sentry p.seq)

/-- WINDOW_MISS_RECEIVE: the oldest MISS at an engine (R375). -/
def execWindowMissReceive (xd : Nat) (s : State) : Host.Outcome State Fault Refusal :=
  match takeFirst (fun (p : Pkt) => p.kind == .miss) (s.win xd).rxq with
  | none => .next s
  | some (p, t) => .next ((s.onWin xd (fun e => { e with rxq := t })).missApply p.sxd p.sentry)

/-! ### The target engine -/

/-- A packet whose turn it is: its path is closed, its sequence is the next expected, or it has been applied already (R375, R383). -/
def State.pktDue (s : State) (xd : Nat) (p : Pkt) : Bool :=
  let ps := s.pathAt p.path
  p.kind == .store && (ps.closed || (!(s.win xd).lodges p.path && (p.seq == ps.exp || serialGE ps.exp (p.seq + 1))))

/-- STORE_PACKET_RECEIVE: the target engine takes the oldest packet whose turn it is (R375): discarded on a closed path, acknowledged
again where it has been applied (R383), otherwise applied. -/
def execStorePacketReceive (xd : Nat) (s : State) : Host.Outcome State Fault Refusal :=
  match takeFirst (fun p => s.pktDue xd p) (s.win xd).rxq with
  | none => .next s
  | some (p, t) =>
    let s1 := s.onWin xd (fun e => { e with rxq := t })
    let ps := s.pathAt p.path
    if ps.closed then .next s1
    else if p.seq = ps.exp then .next (s1.target xd p)
    else .next (s1.answer p .ack)

/-- PATH_REOPEN (R375): the closed flag of a path cleared and its expected sequence 0; for a path of this module's own entry, the
word that its target's firmware has done so. -/
def execPathReopen (xd path : Nat) (s : State) : Host.Outcome State Fault Refusal :=
  let own := path / 1024 == s.pkg.number.toNat && path / 512 % 2 == xd
  let w := s.went xd (path % 512)
  let s1 := if own && !w.loop then s else s.setPath path PathSt.reset
  .next (if s.pkg.boot = .recovery then s else if own then s1.setWent xd (path % 512) { w with reopened := true } else s1)

/-! ### Firmware's writes (R371, R372) -/

/-- WINDOW_ENTRY_WRITE: firmware writes word 0 of an entry, or refuses (R371, R375). BROKEN is cleared by a 1 (log 49); word 1 is read-only.
A reopen counts from its PATH_REOPEN until V is set to 1 or a store of the entry is sent. -/
def execWindowEntryWrite (xd entry : Nat) (w0 _w1 : Word) (s : State) : Host.Outcome State Fault Refusal :=
  let w := s.went xd entry
  let v := w0.getLsbD 63
  let loop := w0.getLsbD 62
  let link := bitsNat w0 56 4
  if s.pkg.boot = .recovery || (v && bitsNat w0 0 22 == 0) || (!loop && link / 8 != xd) || (loop && bitsNat w0 32 12 != s.pkg.number.toNat) ||
     !w.q.isEmpty || !w.outst.isEmpty || s.wstFlying xd entry || (v && !w.v && !w.reopened) then .next s
  else
    let fresh := v && !w.v
    let w' : WEnt := ⟨v, loop, w.broken && !w0.getLsbD 61, link, bitsNat w0 53 3, bitsNat w0 32 12, bitsNat w0 22 10, bitsNat w0 0 22,
      if fresh then 0 else w.acked, if fresh then 0 else w.sent, [], [],
      !fresh && (w.reopened || (!v && w.v && w.sent == 0 && !w.broken))⟩
    .next ((s.setWent xd entry w').dropTlb w.part (fun t => t.ofWindow xd entry))

/-- The pages of a receive window that no valid window covers are zero and empty, with every replica, as it becomes valid (R454). -/
def State.rxZero (s : State) (r : RxWin) : State :=
  (upTo r.size).foldl (fun t i =>
    let va := (r.vabase + i) * 4096 % 2 ^ 60
    match s.walk r.part va with
    | .leaf lvl _ e =>
      if s.rxCovers r.part va 4096 || !firstTier (pteAddr e) then t
      else t.zeroFrames (framesOf r.part (s.part r.part).dies ((pteAddr e + va % pageSize lvl) / 4096) (pteRepl e)) 4096
    | .absent _ _ _ | .bad => t) s

/-- RECEIVE_WINDOW_WRITE: firmware writes an entry, or refuses V = 1 where some page is not mapped RXW with PIN (R372); the window holds zeros, all
empty, when its entry becomes valid (R454). -/
def execReceiveWindowWrite (entry : Nat) (w0 w1 : Word) (s : State) : Host.Outcome State Fault Refusal :=
  let r : RxWin := ⟨w0.getLsbD 63, w0.getLsbD 62, bitsNat w0 59 3, bitsNat w0 44 12, bitsNat w0 0 22, bitsNat w1 0 48⟩
  let ok := (upTo r.size).all (fun i =>
    match s.walk r.part ((r.vabase + i) * 4096 % 2 ^ 60) with
    | .leaf _ _ e => pteRxw e && ptePin e
    | .absent _ _ _ | .bad => false)
  if s.pkg.boot = .recovery || (r.v && !ok) then .next s
  else
    let s1 := if r.v then s.rxZero r else s
    .next { s1 with rxwin := AMap.set s1.rxwin entry r }

/-! ### Links -/

/-- The link on which a packet for another package goes on, by its first header word (R380). -/
def State.cutTo (s : State) (link : Nat) (hdr : List Byte) : Option Nat :=
  let dpkg := leNat (hdr.take 8) / 2 ^ 48 % 4096
  if dpkg = s.pkg.number.toNat then none else s.routeOf (link / 8) dpkg

/-- A link is free for a packet that comes by another. -/
def State.cutFree (s : State) (link out : Nat) : Bool := (s.link out).fed.all (· == link)

/-- A flit that a link does not accept: it has gone on where its packet is forwarded, and a STOMP ends that packet (R380). -/
def State.cutShort (s : State) (link : Nat) (f : LinkFlit) : State :=
  if f.first then
    match s.cutTo link f.bytes with
    | some out => if s.cutFree link out then s.feed link out [{ f with last := false }, stompFlit] true else s
    | none => s
  else s.stompCut link

/-- An accepted flit of a packet of several that is forwarded: sent on as it comes, after what has come before it where that has not gone on; none
where the packet is not forwarded so. -/
def State.cutThrough (s : State) (link : Nat) (f : LinkFlit) (old : List Byte) : Option State :=
  if f.first && f.last then none
  else match s.cutTo link (if f.first then f.bytes else old) with
    | some out =>
      if (s.link link).cut = some out then some (s.feed link out [f] f.last)
      else if s.cutFree link out then some (s.feed link out (if f.first then [f] else asFlits old ++ [f]) f.last)
      else none
    | none => none

/-- LINK_FLIT_RECEIVE: a flit from the peer (R379): accepted in link-sequence order where CRC-32, tag and a first flit's HCRC check, otherwise
discarded with a NAK, which has it sent again. The receiver follows the key bit of every flit, a STOMP's too (R381). A packet for another package is forwarded flit by flit (R380); one that a STOMP ends is discarded. -/
def execLinkFlitReceive (link : Nat) (f : LinkFlit) (s : State) : Host.Outcome State Fault Refusal :=
  let l := s.link link
  let key := if f.slot then l.rx.slot1 else l.rx.slot0
  let tagOk := f.tagOk && key.isSome
  let next := fun (l : Link) => { l with rxseq := (l.rxseq + 1) % 4096, tagFail := 0 }
  let rx := if f.slot == l.rx.bit then l.rx else l.rx.turn
  if !l.up || !f.crcOk || f.seq != l.rxseq then .next s
  else if !tagOk then
    let s1 := s.onLink link (fun l => { l with tagFail := l.tagFail + 1 })
    .next (if 4 ≤ l.tagFail then s1.linkFall link else s1.cutShort link f)
  else if f.stomp then .next ((s.stompCut link).onLink link (fun l => { next l with rx := rx, rxbuf := [] }))
  else if f.first && (Pkt.parse (some link) f.bytes).isNone then .next (s.cutShort link f)
  else
    let old := l.rxbuf
    let buf := if f.first then f.bytes else old ++ f.bytes
    let s1 := s.onLink link (fun l => { next l with rx := rx.bump, rxbuf := if f.last then [] else buf })
    match s1.cutThrough link f old with
    | some s2 => .next s2
    | none =>
      if !f.last then .next s1
      else match Pkt.parse (some link) buf with
        | some p => .next (s1.pktIn link p)
        | none => .next s1

/-- LINK_NAK: the flits from a sequence are sent again as they were, and counted for the packets that they are of (R379). -/
def execLinkNak (link seq : Nat) (s : State) : Host.Outcome State Fault Refusal :=
  .next ((resentPkts seq none false (s.link link).replay).foldl (fun s p =>
    match s.pktPart p with
    | some q => s.count q 0x09 1
    | none => s) s)

/-- LINK_ACK: the flits through a sequence are freed (R379), and waiting flits take their room. -/
def execLinkAck (link seq : Nat) (s : State) : Host.Outcome State Fault Refusal :=
  if (s.link link).replay.any (fun f => f.seq == seq) then
    .next ((s.onLink link (fun l => { l with replay := freeThrough seq [] l.replay, ackAt := s.time })).pump link)
  else .next s

/-- LINK_DOWN: a link loses its training, or never trains, which is reported once (R383, R450). -/
def execLinkDown (link : Nat) (s : State) : Host.Outcome State Fault Refusal :=
  .next (if (s.link link).up || (s.link link).downAt == 0 then s.linkFall link else s)

/-- Step 5 of R450 is complete: a leader has been elected, and stays so or has made the first partition. -/
def State.elected (s : State) : Bool := s.pkg.boot != .recovery && (s.hasLeader || !s.parts.isEmpty)

/-- LINK_RETRAINED (R383): both sequences start again, and the unacknowledged packets are sent anew under the fresh keys. No link trains before step
5 of R450 is complete. -/
def execLinkRetrained (link : Nat) (s : State) : Host.Outcome State Fault Refusal :=
  let l := s.link link
  if l.up || !s.elected then .next s
  else .next ((s.onLink link (fun l =>
    { l with up := true, txseq := 0, rxseq := 0, rxbuf := [], tagFail := 0, sendq := l.replay ++ l.sendq, replay := [] })).pump link)

/-- LINK_DOWN_TIMEOUT: firmware gives up a link that stays down: every entry that uses it is broken (R383). -/
def execLinkDownTimeout (link : Nat) (s : State) : Host.Outcome State Fault Refusal :=
  if (s.link link).up then .next s
  else .next ((s.win (link / 8)).ents.foldl (fun s e =>
    if e.2.v && !e.2.loop && e.2.link == link && !e.2.broken then s.breakEntry (link / 8) e.1 else s) s)

end Sys2Proof.Machine
end

