-- ==== Sys2Proof/Machine/Dispatch.lean ====
section
/-! DEFINITION. One arm per constructor of `Instr`: the call of its meaning. -/

namespace Sys2Proof.Machine

def exec (i : Instr) (s : State) : Host.Outcome State Fault Refusal :=
  match i with
  | .nop => Sys2Proof.Machine.execNop s
  | .done => Sys2Proof.Machine.execDone s
  | .ret => Sys2Proof.Machine.execRet s
  | .bkpt => Sys2Proof.Machine.execBkpt s
  | .add d q a b => Sys2Proof.Machine.execAdd d q a b s
  | .sub d q a b => Sys2Proof.Machine.execSub d q a b s
  | .mul d q a b => Sys2Proof.Machine.execMul d q a b s
  | .mulh d q a b => Sys2Proof.Machine.execMulh d q a b s
  | .div d q a b => Sys2Proof.Machine.execDiv d q a b s
  | .rem d q a b => Sys2Proof.Machine.execRem d q a b s
  | .and d q a b => Sys2Proof.Machine.execAnd d q a b s
  | .or d q a b => Sys2Proof.Machine.execOr d q a b s
  | .xor d q a b => Sys2Proof.Machine.execXor d q a b s
  | .andn d q a b => Sys2Proof.Machine.execAndn d q a b s
  | .shl d q a b => Sys2Proof.Machine.execShl d q a b s
  | .shr d q a b => Sys2Proof.Machine.execShr d q a b s
  | .sha d q a b => Sys2Proof.Machine.execSha d q a b s
  | .rot d q a b => Sys2Proof.Machine.execRot d q a b s
  | .min d q a b => Sys2Proof.Machine.execMin d q a b s
  | .max d q a b => Sys2Proof.Machine.execMax d q a b s
  | .cmpeq d q a b => Sys2Proof.Machine.execCmpeq d q a b s
  | .cmpne d q a b => Sys2Proof.Machine.execCmpne d q a b s
  | .cmplt d q a b => Sys2Proof.Machine.execCmplt d q a b s
  | .cmple d q a b => Sys2Proof.Machine.execCmple d q a b s
  | .clz d q a => Sys2Proof.Machine.execClz d q a s
  | .ctz d q a => Sys2Proof.Machine.execCtz d q a s
  | .popc d q a => Sys2Proof.Machine.execPopc d q a s
  | .brev d q a => Sys2Proof.Machine.execBrev d q a s
  | .addI16 d q a imm => Sys2Proof.Machine.execAddI16 d q a imm s
  | .subI16 d q a imm => Sys2Proof.Machine.execSubI16 d q a imm s
  | .mulI16 d q a imm => Sys2Proof.Machine.execMulI16 d q a imm s
  | .mulhI16 d q a imm => Sys2Proof.Machine.execMulhI16 d q a imm s
  | .divI16 d q a imm => Sys2Proof.Machine.execDivI16 d q a imm s
  | .remI16 d q a imm => Sys2Proof.Machine.execRemI16 d q a imm s
  | .andI16 d q a imm => Sys2Proof.Machine.execAndI16 d q a imm s
  | .orI16 d q a imm => Sys2Proof.Machine.execOrI16 d q a imm s
  | .xorI16 d q a imm => Sys2Proof.Machine.execXorI16 d q a imm s
  | .andnI16 d q a imm => Sys2Proof.Machine.execAndnI16 d q a imm s
  | .shlI16 d q a imm => Sys2Proof.Machine.execShlI16 d q a imm s
  | .shrI16 d q a imm => Sys2Proof.Machine.execShrI16 d q a imm s
  | .shaI16 d q a imm => Sys2Proof.Machine.execShaI16 d q a imm s
  | .rotI16 d q a imm => Sys2Proof.Machine.execRotI16 d q a imm s
  | .minI16 d q a imm => Sys2Proof.Machine.execMinI16 d q a imm s
  | .maxI16 d q a imm => Sys2Proof.Machine.execMaxI16 d q a imm s
  | .cmpeqI16 d q a imm => Sys2Proof.Machine.execCmpeqI16 d q a imm s
  | .cmpneI16 d q a imm => Sys2Proof.Machine.execCmpneI16 d q a imm s
  | .cmpltI16 d q a imm => Sys2Proof.Machine.execCmpltI16 d q a imm s
  | .cmpleI16 d q a imm => Sys2Proof.Machine.execCmpleI16 d q a imm s
  | .addI48 d q a imm => Sys2Proof.Machine.execAddI48 d q a imm s
  | .andI48 d q a imm => Sys2Proof.Machine.execAndI48 d q a imm s
  | .orI48 d q a imm => Sys2Proof.Machine.execOrI48 d q a imm s
  | .xorI48 d q a imm => Sys2Proof.Machine.execXorI48 d q a imm s
  | .movi16 d imm => Sys2Proof.Machine.execMovi16 d imm s
  | .movi32 d imm => Sys2Proof.Machine.execMovi32 d imm s
  | .movi64 d imm => Sys2Proof.Machine.execMovi64 d imm s
  | .ext d a pos w => Sys2Proof.Machine.execExt d a pos w s
  | .ins d a pos w => Sys2Proof.Machine.execIns d a pos w s
  | .sel d a b => Sys2Proof.Machine.execSel d a b s
  | .padd d a b => Sys2Proof.Machine.execPadd d a b s
  | .paddI16 d a imm => Sys2Proof.Machine.execPaddI16 d a imm s
  | .psub d a b => Sys2Proof.Machine.execPsub d a b s
  | .viewset n a => Sys2Proof.Machine.execViewset n a s
  | .viewof d a => Sys2Proof.Machine.execViewof d a s
  | .isspc d a => Sys2Proof.Machine.execIsspc d a s
  | .castspc d toGeneric sp a => Sys2Proof.Machine.execCastspc d toGeneric sp a s
  | .hown d a => Sys2Proof.Machine.execHown d a s
  | .br j => Sys2Proof.Machine.execBr j s
  | .bz a j => Sys2Proof.Machine.execBz a j s
  | .bnz a j => Sys2Proof.Machine.execBnz a j s
  | .bltz a j => Sys2Proof.Machine.execBltz a j s
  | .bgez a j => Sys2Proof.Machine.execBgez a j s
  | .call d j => Sys2Proof.Machine.execCall d j s
  | .loop a j => Sys2Proof.Machine.execLoop a j s
  | .jmp a => Sys2Proof.Machine.execJmp a s
  | .callr d a => Sys2Proof.Machine.execCallr d a s
  | .ld d q a off => Sys2Proof.Machine.execLd d q a off s
  | .ldW d q a off => Sys2Proof.Machine.execLdW d q a off s
  | .ldAcq d q a off => Sys2Proof.Machine.execLdAcq d q a off s
  | .ldAcqW d q a off => Sys2Proof.Machine.execLdAcqW d q a off s
  | .ldSync d sgn a off => Sys2Proof.Machine.execLdSync d sgn a off s
  | .ldSyncW d sgn a off => Sys2Proof.Machine.execLdSyncW d sgn a off s
  | .ldSynce d sgn a off => Sys2Proof.Machine.execLdSynce d sgn a off s
  | .ldSynceW d sgn a off => Sys2Proof.Machine.execLdSynceW d sgn a off s
  | .st q a b col off => Sys2Proof.Machine.execSt q a b col off s
  | .stW q a b col off => Sys2Proof.Machine.execStW q a b col off s
  | .stRel q a b col off => Sys2Proof.Machine.execStRel q a b col off s
  | .stRelW q a b col off => Sys2Proof.Machine.execStRelW q a b col off s
  | .stFe sgn a b col off => Sys2Proof.Machine.execStFe sgn a b col off s
  | .stFeW sgn a b col off => Sys2Proof.Machine.execStFeW sgn a b col off s
  | .ldx d q x a imm => Sys2Proof.Machine.execLdx d q x a imm s
  | .stx q x a b imm => Sys2Proof.Machine.execStx q x a b imm s
  | .aadd d q a b o col sc => Sys2Proof.Machine.execAadd d q a b o col sc s
  | .aand d q a b o col sc => Sys2Proof.Machine.execAand d q a b o col sc s
  | .aor d q a b o col sc => Sys2Proof.Machine.execAor d q a b o col sc s
  | .axor d q a b o col sc => Sys2Proof.Machine.execAxor d q a b o col sc s
  | .amin d q a b o col sc => Sys2Proof.Machine.execAmin d q a b o col sc s
  | .amax d q a b o col sc => Sys2Proof.Machine.execAmax d q a b o col sc s
  | .aswap d q a b o col sc => Sys2Proof.Machine.execAswap d q a b o col sc s
  | .acas d q a b o col sc => Sys2Proof.Machine.execAcas d q a b o col sc s
  | .fence mask sc => Sys2Proof.Machine.execFence mask sc s
  | .csrrd d c => Sys2Proof.Machine.execCsrrd d c s
  | .csrwr c a => Sys2Proof.Machine.execCsrwr c a s
  | .csrswp d c a => Sys2Proof.Machine.execCsrswp d c a s
  | .csrset d c a => Sys2Proof.Machine.execCsrset d c a s
  | .csrclr d c a => Sys2Proof.Machine.execCsrclr d c a s
  | .trap a => Sys2Proof.Machine.execTrap a s
  | .trapI16 imm => Sys2Proof.Machine.execTrapI16 imm s
  | .time d => Sys2Proof.Machine.execTime d s
  | .featq d a => Sys2Proof.Machine.execFeatq d a s
  | .migok v => Sys2Proof.Machine.execMigok v s
  | .send d q a b n t => Sys2Proof.Machine.execSend d q a b n t s
  | .senda d q a b n t => Sys2Proof.Machine.execSenda d q a b n t s
  | .sendp d q a b n t => Sys2Proof.Machine.execSendp d q a b n t s
  | .sendl d q a b n t => Sys2Proof.Machine.execSendl d q a b n t s
  | .reply d q b n t => Sys2Proof.Machine.execReply d q b n t s
  | .msgid d => Sys2Proof.Machine.execMsgid d s
  | .msgpay d a => Sys2Proof.Machine.execMsgpay d a s
  | .requeue => Sys2Proof.Machine.execRequeue s
  | .chbind c a role => Sys2Proof.Machine.execChbind c a role s
  | .chwaitf d c => Sys2Proof.Machine.execChwaitf d c s
  | .chwaite d c => Sys2Proof.Machine.execChwaite d c s
  | .chadvh c n => Sys2Proof.Machine.execChadvh c n s
  | .chadvt c n => Sys2Proof.Machine.execChadvt c n s
  | .chstat d c => Sys2Proof.Machine.execChstat d c s
  | .chptr d c b off => Sys2Proof.Machine.execChptr d c b off s
  | .tlook d a => Sys2Proof.Machine.execTlook d a s
  | .tset d a b => Sys2Proof.Machine.execTset d a b s
  | .tclr d a => Sys2Proof.Machine.execTclr d a s
  | .tinv d a b => Sys2Proof.Machine.execTinv d a b s
  | .vadd d k a b f rm sat => Sys2Proof.Machine.execVadd d k a b f rm sat s
  | .vsub d k a b f rm sat => Sys2Proof.Machine.execVsub d k a b f rm sat s
  | .vmul d k a b f rm sat => Sys2Proof.Machine.execVmul d k a b f rm sat s
  | .vdiv d k a b f rm sat => Sys2Proof.Machine.execVdiv d k a b f rm sat s
  | .vmin d k a b f => Sys2Proof.Machine.execVmin d k a b f s
  | .vmax d k a b f => Sys2Proof.Machine.execVmax d k a b f s
  | .vabs d k a f sat => Sys2Proof.Machine.execVabs d k a f sat s
  | .vneg d k a f sat => Sys2Proof.Machine.execVneg d k a f sat s
  | .vsqrt d k a f rm => Sys2Proof.Machine.execVsqrt d k a f rm s
  | .vand d k a b f => Sys2Proof.Machine.execVand d k a b f s
  | .vor d k a b f => Sys2Proof.Machine.execVor d k a b f s
  | .vxor d k a b f => Sys2Proof.Machine.execVxor d k a b f s
  | .vshl d k a b f => Sys2Proof.Machine.execVshl d k a b f s
  | .vshr d k a b f => Sys2Proof.Machine.execVshr d k a b f s
  | .vsha d k a b f => Sys2Proof.Machine.execVsha d k a b f s
  | .vfma d k a b f rm => Sys2Proof.Machine.execVfma d k a b f rm s
  | .vfms d k a b f rm => Sys2Proof.Machine.execVfms d k a b f rm s
  | .vfnma d k a b f rm => Sys2Proof.Machine.execVfnma d k a b f rm s
  | .vcvt d k a f t rm sat => Sys2Proof.Machine.execVcvt d k a f t rm sat s
  | .vcmpEq d k a b f => Sys2Proof.Machine.execVcmpEq d k a b f s
  | .vcmpNe d k a b f => Sys2Proof.Machine.execVcmpNe d k a b f s
  | .vcmpLt d k a b f => Sys2Proof.Machine.execVcmpLt d k a b f s
  | .vcmpLe d k a b f => Sys2Proof.Machine.execVcmpLe d k a b f s
  | .vcmpUnord d k a b f => Sys2Proof.Machine.execVcmpUnord d k a b f s
  | .vsel d k a b f => Sys2Proof.Machine.execVsel d k a b f s
  | .vmov d k a f => Sys2Proof.Machine.execVmov d k a f s
  | .vbcast d k a f => Sys2Proof.Machine.execVbcast d k a f s
  | .vext d a b f => Sys2Proof.Machine.execVext d a b f s
  | .viota d k a f => Sys2Proof.Machine.execViota d k a f s
  | .vredSum d k a f rm sat => Sys2Proof.Machine.execVredSum d k a f rm sat s
  | .vredMin d k a f rm sat => Sys2Proof.Machine.execVredMin d k a f rm sat s
  | .vredMax d k a f rm sat => Sys2Proof.Machine.execVredMax d k a f rm sat s
  | .vdot d k a b f rm sat => Sys2Proof.Machine.execVdot d k a b f rm sat s
  | .vshuf d k a b f => Sys2Proof.Machine.execVshuf d k a b f s
  | .vrot d k a b f => Sys2Proof.Machine.execVrot d k a b f s
  | .vpack d k a b f sat => Sys2Proof.Machine.execVpack d k a b f sat s
  | .vunpack d k a b f => Sys2Proof.Machine.execVunpack d k a b f s
  | .vld d k a f rm sat => Sys2Proof.Machine.execVld d k a f rm sat s
  | .vst d k a f rm sat => Sys2Proof.Machine.execVst d k a f rm sat s
  | .vlds d k a b f rm sat => Sys2Proof.Machine.execVlds d k a b f rm sat s
  | .vsts d k a b f rm sat => Sys2Proof.Machine.execVsts d k a b f rm sat s
  | .vgather d k a b f rm sat => Sys2Proof.Machine.execVgather d k a b f rm sat s
  | .vscatter d k a b f rm sat => Sys2Proof.Machine.execVscatter d k a b f rm sat s
  | .kand d a b => Sys2Proof.Machine.execKand d a b s
  | .kor d a b => Sys2Proof.Machine.execKor d a b s
  | .kxor d a b => Sys2Proof.Machine.execKxor d a b s
  | .knot d a => Sys2Proof.Machine.execKnot d a s
  | .kpop d a => Sys2Proof.Machine.execKpop d a s
  | .kset d a => Sys2Proof.Machine.execKset d a s
  | .kget d a => Sys2Proof.Machine.execKget d a s
  | .vscale d k a f t h => Sys2Proof.Machine.execVscale d k a f t h s
  | .vquant d k a b f rm t => Sys2Proof.Machine.execVquant d k a b f rm t s
  | .mput imm a => Sys2Proof.Machine.execMput imm a s
  | .mget d imm => Sys2Proof.Machine.execMget d imm s
  | .mgang d a tag => Sys2Proof.Machine.execMgang d a tag s
  | .mwait a b => Sys2Proof.Machine.execMwait a b s
  | .mstat d a => Sys2Proof.Machine.execMstat d a s
  | .cpreq a => Sys2Proof.Machine.execCpreq a s
  | .cptest d a => Sys2Proof.Machine.execCptest d a s
  | .cpwait d a => Sys2Proof.Machine.execCpwait d a s
  | .lvbind d a b front => Sys2Proof.Machine.execLvbind d a b front s
  | .lvunbind d a => Sys2Proof.Machine.execLvunbind d a s
  | .lvread d a => Sys2Proof.Machine.execLvread d a s
  | .lvcommit a b => Sys2Proof.Machine.execLvcommit a b s
  | .lvcmp d a b off => Sys2Proof.Machine.execLvcmp d a b off s
  | .lvfreeze d a => Sys2Proof.Machine.execLvfreeze d a s
  | .lvthaw d a => Sys2Proof.Machine.execLvthaw d a s
  | .lvstat d a => Sys2Proof.Machine.execLvstat d a s
  | .rfence mask => Sys2Proof.Machine.execRfence mask s
  | .wstat d a => Sys2Proof.Machine.execWstat d a s
  | .wseq d a => Sys2Proof.Machine.execWseq d a s
  | .rlcrun d a => Sys2Proof.Machine.execRlcrun d a s
  | .rlcnorm d a => Sys2Proof.Machine.execRlcnorm d a s
  | .rlcstat d a => Sys2Proof.Machine.execRlcstat d a s
  | .rlcstop d a => Sys2Proof.Machine.execRlcstop d a s
  | .moduleReset badStacks => Sys2Proof.Machine.execModuleReset badStacks s
  | .recoveryImageWrite img => Sys2Proof.Machine.execRecoveryImageWrite img s
  | .partitionConfigure parts grants => Sys2Proof.Machine.execPartitionConfigure parts grants s
  | .modeSelect part fn assisted => Sys2Proof.Machine.execModeSelect part fn assisted s
  | .leaseRenew fw => Sys2Proof.Machine.execLeaseRenew fw s
  | .leaseLapse fw group => Sys2Proof.Machine.execLeaseLapse fw group s
  | .voteRequest fw => Sys2Proof.Machine.execVoteRequest fw s
  | .leaderDesignate socket => Sys2Proof.Machine.execLeaderDesignate socket s
  | .queueResume part q => Sys2Proof.Machine.execQueueResume part q s
  | .packetChoose part => Sys2Proof.Machine.execPacketChoose part s
  | .nopPacket part => Sys2Proof.Machine.execNopPacket part s
  | .launch part => Sys2Proof.Machine.execLaunch part s
  | .endPacket part => Sys2Proof.Machine.execEndPacket part s
  | .inval part => Sys2Proof.Machine.execInval part s
  | .disposeRelease part => Sys2Proof.Machine.execDisposeRelease part s
  | .disposeDiscard part => Sys2Proof.Machine.execDisposeDiscard part s
  | .disposeEnd part => Sys2Proof.Machine.execDisposeEnd part s
  | .trapDisposition die => Sys2Proof.Machine.execTrapDisposition die s
  | .trheadWrite part head => Sys2Proof.Machine.execTrheadWrite part head s
  | .pageFaultService die => Sys2Proof.Machine.execPageFaultService die s
  | .prgResponse tag code => Sys2Proof.Machine.execPrgResponse tag code s
  | .priTimeout tag => Sys2Proof.Machine.execPriTimeout tag s
  | .spdmRequest index => Sys2Proof.Machine.execSpdmRequest index s
  | .keyExchangeStart link tx => Sys2Proof.Machine.execKeyExchangeStart link tx s
  | .keyExchangeComplete link tx secret => Sys2Proof.Machine.execKeyExchangeComplete link tx secret s
  | .hostKeyWrite link tx slot key salt => Sys2Proof.Machine.execHostKeyWrite link tx slot key salt s
  | .preemptRequest part => Sys2Proof.Machine.execPreemptRequest part s
  | .preemptComplete part => Sys2Proof.Machine.execPreemptComplete part s
  | .preemptwaitExpiry part => Sys2Proof.Machine.execPreemptwaitExpiry part s
  | .preemptResume part => Sys2Proof.Machine.execPreemptResume part s
  | .deadlockDetect part => Sys2Proof.Machine.execDeadlockDetect part s
  | .requestReassembled ep => Sys2Proof.Machine.execRequestReassembled ep s
  | .slotFreedAdmit core => Sys2Proof.Machine.execSlotFreedAdmit core s
  | .activationStart core ctx => Sys2Proof.Machine.execActivationStart core ctx s
  | .queueAging core => Sys2Proof.Machine.execQueueAging core s
  | .budgetExpiry core ctx => Sys2Proof.Machine.execBudgetExpiry core ctx s
  | .parkResume core ctx => Sys2Proof.Machine.execParkResume core ctx s
  | .migrationShip core ctx => Sys2Proof.Machine.execMigrationShip core ctx s
  | .wayfarerArrive core ctx => Sys2Proof.Machine.execWayfarerArrive core ctx s
  | .logicalQuantumEnd core => Sys2Proof.Machine.execLogicalQuantumEnd core s
  | .quantumEnd part => Sys2Proof.Machine.execQuantumEnd part s
  | .turnSwitch core => Sys2Proof.Machine.execTurnSwitch core s
  | .debugHold core ctx => Sys2Proof.Machine.execDebugHold core ctx s
  | .debugWrite core ctx r v => Sys2Proof.Machine.execDebugWrite core ctx r v s
  | .debugRelease core ctx => Sys2Proof.Machine.execDebugRelease core ctx s
  | .breakpointSet core b => Sys2Proof.Machine.execBreakpointSet core b s
  | .breakpointMatch core ctx => Sys2Proof.Machine.execBreakpointMatch core ctx s
  | .bkptRelease core ctx => Sys2Proof.Machine.execBkptRelease core ctx s
  | .flitRoute router response => Sys2Proof.Machine.execFlitRoute router response s
  | .poisonSink die => Sys2Proof.Machine.execPoisonSink die s
  | .throttle router response => Sys2Proof.Machine.execThrottle router response s
  | .responseReceive ep => Sys2Proof.Machine.execResponseReceive ep s
  | .nackReceive ep => Sys2Proof.Machine.execNackReceive ep s
  | .stayNoticeReceive ep => Sys2Proof.Machine.execStayNoticeReceive ep s
  | .retxTimeout ep dest num => Sys2Proof.Machine.execRetxTimeout ep dest num s
  | .busyBackoff ep dest num => Sys2Proof.Machine.execBusyBackoff ep dest num s
  | .remoteRead home => Sys2Proof.Machine.execRemoteRead home s
  | .remoteWrite home => Sys2Proof.Machine.execRemoteWrite home s
  | .remoteAtomic home => Sys2Proof.Machine.execRemoteAtomic home s
  | .synceConfirm home => Sys2Proof.Machine.execSynceConfirm home s
  | .synceReturn home => Sys2Proof.Machine.execSynceReturn home s
  | .waitCancel home => Sys2Proof.Machine.execWaitCancel home s
  | .lodgeService home => Sys2Proof.Machine.execLodgeService home s
  | .stayNoticeSend home => Sys2Proof.Machine.execStayNoticeSend home s
  | .engineWrite core => Sys2Proof.Machine.execEngineWrite core s
  | .xferReceive eng => Sys2Proof.Machine.execXferReceive eng s
  | .matrixFlip cluster => Sys2Proof.Machine.execMatrixFlip cluster s
  | .copyAccept str => Sys2Proof.Machine.execCopyAccept str s
  | .copyComplete str ch => Sys2Proof.Machine.execCopyComplete str ch s
  | .copyFault str ch => Sys2Proof.Machine.execCopyFault str ch s
  | .transferBoardUpdate core => Sys2Proof.Machine.execTransferBoardUpdate core s
  | .blockDispatch die => Sys2Proof.Machine.execBlockDispatch die s
  | .levelNotice die => Sys2Proof.Machine.execLevelNotice die s
  | .levelPublish core ctx => Sys2Proof.Machine.execLevelPublish core ctx s
  | .windowPacketSend xd entry => Sys2Proof.Machine.execWindowPacketSend xd entry s
  | .storePacketReceive xd => Sys2Proof.Machine.execStorePacketReceive xd s
  | .windowAckReceive xd => Sys2Proof.Machine.execWindowAckReceive xd s
  | .windowMissReceive xd => Sys2Proof.Machine.execWindowMissReceive xd s
  | .loopbackApply xd entry => Sys2Proof.Machine.execLoopbackApply xd entry s
  | .linkFlitReceive link f => Sys2Proof.Machine.execLinkFlitReceive link f s
  | .linkNak link seq => Sys2Proof.Machine.execLinkNak link seq s
  | .linkAck link seq => Sys2Proof.Machine.execLinkAck link seq s
  | .linkDown link => Sys2Proof.Machine.execLinkDown link s
  | .linkRetrained link => Sys2Proof.Machine.execLinkRetrained link s
  | .linkDownTimeout link => Sys2Proof.Machine.execLinkDownTimeout link s
  | .windowEntryWrite xd entry w0 w1 => Sys2Proof.Machine.execWindowEntryWrite xd entry w0 w1 s
  | .receiveWindowWrite entry w0 w1 => Sys2Proof.Machine.execReceiveWindowWrite entry w0 w1 s
  | .pathReopen xd path => Sys2Proof.Machine.execPathReopen xd path s
  | .sample core => Sys2Proof.Machine.execSample core s
  | .samplePeriodWrite part period => Sys2Proof.Machine.execSamplePeriodWrite part period s
  | .ringHeadWrite part r head => Sys2Proof.Machine.execRingHeadWrite part r head s
  | .dropWrite part r bits => Sys2Proof.Machine.execDropWrite part r bits s
  | .counterWrite part imm v => Sys2Proof.Machine.execCounterWrite part imm v s
  | .timeWrap part => Sys2Proof.Machine.execTimeWrap part s
  | .tokenReallot => Sys2Proof.Machine.execTokenReallot s
  | .tokenExhaust die => Sys2Proof.Machine.execTokenExhaust die s
  | .powerAllotWrite allot => Sys2Proof.Machine.execPowerAllotWrite allot s
  | .thermalSample island flux => Sys2Proof.Machine.execThermalSample island flux s
  | .registerWrite r v => Sys2Proof.Machine.execRegisterWrite r v s
  | .decodingFault core ctx => Sys2Proof.Machine.execDecodingFault core ctx s
  | .flashRewrite img ok => Sys2Proof.Machine.execFlashRewrite img ok s

end Sys2Proof.Machine
end

