-- ==== Sys2Proof/Machine/Step.lean ====
section
/-!
DEFINITION. One step of the machine: an issue of one core, the end of a cycle, or an event (log 2), and the placing of an
instruction for the next step to run.
-/

namespace Sys2Proof.Machine

/-- The state with an instruction in hand: its head, tail and line. -/
def State.latched (s : State) (f : Fetched) : State :=
  s.onMe (fun x => { x with latch := { x.latch with head := f.head, tail := f.tail, nh := f.nh } })

/-- The chosen context issues: the trap of an exit message (R399), a breakpoint, a fault of fetch or decoding (R104), or its instruction. -/
def issueCtx (s : State) : Host.Outcome State Fault Refusal :=
  if s.me.exitTrap.isSome then execDecodingFault s.cur.1 s.cur.2.val s
  else match s.matchBp s.cur.1 s.cur.2.val with
  | some _ => execBreakpointMatch s.cur.1 s.cur.2.val s
  | none =>
    match s.fetch with
    | .stop _ _ => execDecodingFault s.cur.1 s.cur.2.val s
    | .ok f s1 =>
      match decode f.head f.tail with
      | .error _ => execDecodingFault s.cur.1 s.cur.2.val s
      | .ok i => exec i (s1.latched f)

/-- One issue of a core in the current cycle; a core that has issued in it begins the next. In deterministic mode a context that a breakpoint stops
keeps its turn of the rotation, since nothing has issued (R57, R197). -/
def issue (core : Nat) (s : State) : Host.Outcome State Fault Refusal :=
  let s0 := if (s.core core).issued then s.cycle else s
  let k := s0.core core
  match (if s0.frozenAt core then none else k.expired) with
  | some c => execBudgetExpiry core c (s0.onCore core (fun k => { k with issued := true }))
  | none =>
    if s0.barred core then .next (s0.onCore core (fun k => { k with issued := true }))
    else
      match k.next (s0.detAt core) with
      | none => .next (s0.onCore core (fun k => { k with issued := true }))
      | some c =>
        let rot := if s0.detAt core && (s0.matchBp core c).isSome && (s0.ctx core c).exitTrap.isNone then k.rot else c
        issueCtx { (s0.onCore core (fun k => { k with issued := true, rot := rot })) with cur := (core, c4 c) }

/-- One step. -/
def step (s : State) : Host.Outcome State Fault Refusal :=
  match s.agenda with
  | [] => issue s.cur.1 s
  | .issue c :: t => issue c { s with agenda := t }
  | .tick :: t => .next { s with agenda := t }.cycle
  | .event i :: t => if i.wf && !i.isCore then exec i { s with agenda := t } else .fault .illFormedEvent

/-! ### Placing an instruction (log 13) -/

/-- The address of the placed line. -/
def placeLine : Nat := 0x400000
/-- The page-table root of the placed partition. -/
def placeRoot : Nat := 0x100000
/-- The level-1 table of the placed partition. -/
def placeTable : Nat := 0x108000

/-- The activation that runs the placed instruction: an ordinary message of task entry 0 in slot 0. -/
def placeAct : Act :=
  ⟨⟨⟨⟨0, 0, 0, 0, 0, 0, 0, 0⟩, [BitVec.ofNat 64 (placeLine + 1), 0, 0, 0, 0], [], .plain⟩, 0, 0, 0, false, none⟩, 0, 0, 0, false,
   false, false⟩

/-- The task that the placed instruction belongs to. -/
def placeTask : Task := { Task.reset with st := .valid, base := placeLine, lim := placeLine + 64, budget := 0x100000000 }

/-- The context made to run the placed instruction. -/
def placeCtx (x : Ctx) : Ctx :=
  { x with st := .running, await := .none, act := some placeAct, ip := BitVec.ofNat 64 (placeLine + 1), budget := 0x100000000
           hold := false, step1 := false, stall := 0, tlb := [], rbuf := [], rcur := 0, rpend := false, failed := [], fill := .none, elem := []
           latch := ⟨0, 0, 0, 0⟩ }

/-- The core made to issue it next. -/
def placeCore (k : CoreSt) : CoreSt :=
  { ((k.setCtx 0 (placeCtx (k.ctx 0))).setCtx 1 Ctx.reset |>.setCtx 2 Ctx.reset |>.setCtx 3 Ctx.reset |>.setTask 0 placeTask) with
    bps := Vector.replicate 4 ⟨false, 0, 0⟩, rot := 3, qdone := false, issued := false, slotsHeld := [0], icache := [] }

/-- Memory with the placed partition's tables and line: the first 512 GiB of its address space is the first tier. -/
def placeMem (m : Memory) (line : List Byte) : Memory :=
  let m1 := (m.write placeRoot 8 (placeTable + 1)).write placeTable 8 0x7F
  { (m1.setBytes placeLine line) with poison := m1.poison.filter (fun w => !(placeLine ≤ w && w < placeLine + 64)) }

/-- The machine with the instruction of a table word placed where `step` fetches next: a partition of all dies whose task
entry 0 on core 0 holds one line with it, and an activation of that task on context 0 (log 13). -/
def State.withFetchWord (s : State) (nbits w : Nat) : State :=
  { s with
    mem := placeMem s.mem (oneLine (tableHead nbits w) (tableTail nbits w))
    parts := [(0, { Part.reset with dies := 8, root := placeRoot })]
    cores := AMap.set s.cores 0 (placeCore (s.core 0))
    agenda := []
    cur := (0, 0) }

end Sys2Proof.Machine
end

