-- ==== Sys2Proof/Safety.lean ====
section
/-!
DEFINITION. The terms in which claims are stated: what of a context, a core and the machine an instruction leaves alone when it retires,
what a safe run is, and the invariant of the state.
-/

namespace Sys2Proof.Machine

/-! ### Safe runs -/

/-- The form that every reachable state has: memory in its canonical form. -/
abbrev State.Inv (s : State) : Prop := s.mem.wf = true

/-- One state follows another in a step that is neither a fault nor a refusal. -/
abbrev Steps (s t : State) : Prop := step s = .next t

/-! ### Contexts and cores without their bookkeeping -/

/-- No single step of the debugger (R197) and no migration (R51) follows the running context's instruction. -/
abbrev Steady (s : State) : Prop := s.me.step1 = false ∧ s.me.migok = false

/-- What of a context an instruction that retires leaves alone unless it names it: every register, CSR and handle, its activation and
its TLB. The IP, BUDGET, the latches of the instruction in hand and the stall reason are set to fixed values. -/
def Ctx.arch (x : Ctx) : Ctx :=
  { x with ip := 0, budget := 0, latch := ⟨0, 0, 0, 0⟩, rbuf := [], rcur := 0, fill := .none, elem := [], stall := 0, issued := false,
           nobp := false }

/-- A core but for its contexts, the quantum's count of retired instructions (R57) and what it sees of the quantum (log 58). -/
def CoreSt.side (k : CoreSt) : CoreSt := { k with ctxs := Vector.replicate 4 Ctx.reset, retired := 0, synced := false }

/-- `t` is `s` after the running context's instruction has retired to `ip'` with its registers as in `r` and memory as `m`: nothing else
of the context, its core, the other contexts, the other cores and the fabric has changed. -/
structure Retired (s t : State) (ip' : Word) (r : Ctx) (m : Memory) : Prop where
  ip    : t.me.ip = ip'
  regs  : t.me.arch = r.arch
  mem   : t.mem = m
  peers : ∀ c, c4 c ≠ s.cur.2 → t.ctx s.cur.1 c = s.ctx s.cur.1 c
  core  : (t.core s.cur.1).side = (s.core s.cur.1).side
  cores : ∀ n, n ≠ s.cur.1 → t.core n = s.core n
  eps   : t.eps = s.eps
  homes : t.homes = s.homes
  cur   : t.cur = s.cur
  time  : t.time = s.time

/-- An instruction completes: it retires in sequence (R90) with the registers of `r`, and memory is as before. -/
def Completes (i : Instr) (s : State) (r : Ctx) : Prop :=
  ∃ t, exec i s = .next t ∧ Retired s t (nextIp s.me.latch.nh s.me.ip) r s.mem

/-- An instruction completes at another IP: a transfer of control (R214, R215). -/
def CompletesAt (i : Instr) (s : State) (ip' : Word) (r : Ctx) : Prop :=
  ∃ t, exec i s = .next t ∧ Retired s t ip' r s.mem

/-- An instruction completes in sequence with memory as `m`. -/
def CompletesMem (i : Instr) (s : State) (r : Ctx) (m : Memory) : Prop :=
  ∃ t, exec i s = .next t ∧ Retired s t (nextIp s.me.latch.nh s.me.ip) r m

/-- The integer result `y` of R199 and R204 goes to register `d` and nothing else changes. -/
def GivesInt (i : Instr) (s : State) (d : GReg) (q : IQ) (y : Int) : Prop := Completes i s (s.me.putG d (extR q y))

/-- The value `v` goes to register `d` and nothing else changes. -/
def Gives (i : Instr) (s : State) (d : GReg) (v : Word) : Prop := Completes i s (s.me.putG d v)

end Sys2Proof.Machine
end

