-- ==== Sys2Proof/Certificates/Slice0/Obligations.lean ====
section
/-!
DEFINITION. The statements about the machine, for the provers.
-/

section
open Sys2Proof Sys2Proof.Machine

/-! ### Integer instructions -/

/-- R204: the results of opcode 0x01 other than DIV and REM, for every format and every register: the value of the table, wrapped and
extended to 64 bits, goes to D (g0 discards it), the IP advances in sequence, and nothing else changes. -/
def Obligations.IntegerRegisterForms : Prop :=
  ∀ (s : State) (d a b : GReg) (q : IQ), Steady s →
    let x := s.g a
    let y := s.g b
    let n := szOf q
    let k := patOf q y % n
    GivesInt (.add d q a b) s d q (opnd q x + opnd q y) ∧
    GivesInt (.sub d q a b) s d q (opnd q x - opnd q y) ∧
    GivesInt (.mul d q a b) s d q (opnd q x * opnd q y) ∧
    GivesInt (.mulh d q a b) s d q (opnd q x * opnd q y / 2 ^ n) ∧
    GivesInt (.and d q a b) s d q (patOf q x &&& patOf q y : Nat) ∧
    GivesInt (.or d q a b) s d q (patOf q x ||| patOf q y : Nat) ∧
    GivesInt (.xor d q a b) s d q (patOf q x ^^^ patOf q y : Nat) ∧
    GivesInt (.andn d q a b) s d q (patOf q x &&& (2 ^ n - 1 - patOf q y) : Nat) ∧
    GivesInt (.shl d q a b) s d q (patOf q x * 2 ^ k : Nat) ∧
    GivesInt (.shr d q a b) s d q (patOf q x / 2 ^ k : Nat) ∧
    GivesInt (.sha d q a b) s d q (toSigned n (patOf q x) / 2 ^ k) ∧
    GivesInt (.rot d q a b) s d q (patOf q x * 2 ^ k % 2 ^ n + patOf q x / 2 ^ (n - k) : Nat) ∧
    GivesInt (.min d q a b) s d q (min (opnd q x) (opnd q y)) ∧
    GivesInt (.max d q a b) s d q (max (opnd q x) (opnd q y)) ∧
    GivesInt (.cmpeq d q a b) s d q (if opnd q x = opnd q y then 1 else 0) ∧
    GivesInt (.cmpne d q a b) s d q (if opnd q x ≠ opnd q y then 1 else 0) ∧
    GivesInt (.cmplt d q a b) s d q (if opnd q x < opnd q y then 1 else 0) ∧
    GivesInt (.cmple d q a b) s d q (if opnd q x ≤ opnd q y then 1 else 0)

/-- R203, R204: the forms of opcode 0x02 other than DIV and REM do the same with the second operand the sign-extended immediate. -/
def Sys2Proof.Says.IntegerImmediate16Forms : Prop :=
  ∀ (s : State) (d a : GReg) (q : IQ) (i : BitVec 16), Steady s →
    let x := s.g a
    let y : Word := i.signExtend 64
    let n := szOf q
    let k := patOf q y % n
    GivesInt (.addI16 d q a i) s d q (opnd q x + opnd q y) ∧
    GivesInt (.subI16 d q a i) s d q (opnd q x - opnd q y) ∧
    GivesInt (.mulI16 d q a i) s d q (opnd q x * opnd q y) ∧
    GivesInt (.mulhI16 d q a i) s d q (opnd q x * opnd q y / 2 ^ n) ∧
    GivesInt (.andI16 d q a i) s d q (patOf q x &&& patOf q y : Nat) ∧
    GivesInt (.orI16 d q a i) s d q (patOf q x ||| patOf q y : Nat) ∧
    GivesInt (.xorI16 d q a i) s d q (patOf q x ^^^ patOf q y : Nat) ∧
    GivesInt (.andnI16 d q a i) s d q (patOf q x &&& (2 ^ n - 1 - patOf q y) : Nat) ∧
    GivesInt (.shlI16 d q a i) s d q (patOf q x * 2 ^ k : Nat) ∧
    GivesInt (.shrI16 d q a i) s d q (patOf q x / 2 ^ k : Nat) ∧
    GivesInt (.shaI16 d q a i) s d q (toSigned n (patOf q x) / 2 ^ k) ∧
    GivesInt (.rotI16 d q a i) s d q (patOf q x * 2 ^ k % 2 ^ n + patOf q x / 2 ^ (n - k) : Nat) ∧
    GivesInt (.minI16 d q a i) s d q (min (opnd q x) (opnd q y)) ∧
    GivesInt (.maxI16 d q a i) s d q (max (opnd q x) (opnd q y)) ∧
    GivesInt (.cmpeqI16 d q a i) s d q (if opnd q x = opnd q y then 1 else 0) ∧
    GivesInt (.cmpneI16 d q a i) s d q (if opnd q x ≠ opnd q y then 1 else 0) ∧
    GivesInt (.cmpltI16 d q a i) s d q (if opnd q x < opnd q y then 1 else 0) ∧
    GivesInt (.cmpleI16 d q a i) s d q (if opnd q x ≤ opnd q y then 1 else 0)

/-- R203, R204 for opcode 0x03, R206 and R207: the 48-bit immediates, MOVI with its three tails, the bit fields, SEL, and the counts of
bits. EXT and INS stand for a field that lies in the register, as WellFormed requires. -/
def Sys2Proof.Says.IntegerOtherForms : Prop :=
  ∀ (s : State) (d a b : GReg) (q : IQ) (i : BitVec 48) (i16 : BitVec 16) (i32 : BitVec 32) (i64 : BitVec 64) (pos w : BitVec 6), Steady s →
    pos.toNat + w.toNat + 1 ≤ 64 →
    let x := s.g a
    let y : Word := i.signExtend 64
    let m := w.toNat + 1
    GivesInt (.addI48 d q a i) s d q (opnd q x + opnd q y) ∧
    GivesInt (.andI48 d q a i) s d q (patOf q x &&& patOf q y : Nat) ∧
    GivesInt (.orI48 d q a i) s d q (patOf q x ||| patOf q y : Nat) ∧
    GivesInt (.xorI48 d q a i) s d q (patOf q x ^^^ patOf q y : Nat) ∧
    Gives (.movi16 d i16) s d (i16.signExtend 64) ∧
    Gives (.movi32 d i32) s d (i32.signExtend 64) ∧
    Gives (.movi64 d i64) s d i64 ∧
    Gives (.ext d a pos w) s d (BitVec.ofNat 64 (x.toNat / 2 ^ pos.toNat % 2 ^ m)) ∧
    (∃ v : Word, Gives (.ins d a pos w) s d v ∧ ∀ j < 64,
      v.getLsbD j = if pos.toNat ≤ j ∧ j < pos.toNat + m then x.getLsbD (j - pos.toNat) else (s.g d).getLsbD j) ∧
    Gives (.sel d a b) s d (if s.g d ≠ 0 then x else s.g b) ∧
    (∃ c : Nat, GivesInt (.clz d q a) s d q c ∧ c ≤ szOf q ∧ patOf q x < 2 ^ (szOf q - c) ∧
      (c < szOf q → 2 ^ (szOf q - c - 1) ≤ patOf q x)) ∧
    (∃ c : Nat, GivesInt (.ctz d q a) s d q c ∧ c ≤ szOf q ∧ (∀ j < c, (patOf q x).testBit j = false) ∧
      (c < szOf q → (patOf q x).testBit c = true)) ∧
    GivesInt (.popc d q a) s d q (((List.range (szOf q)).filter (fun j => (patOf q x).testBit j)).length : Nat) ∧
    (∃ c : Nat, GivesInt (.brev d q a) s d q c ∧ c < 2 ^ szOf q ∧ ∀ j < szOf q, c.testBit j = (patOf q x).testBit (szOf q - 1 - j))

/-- R203, R204, R206, R207: the integer instructions with an immediate, and those of one operand. -/
def Obligations.IntegerImmediateForms : Prop := Says.IntegerImmediate16Forms ∧ Says.IntegerOtherForms

/-- R205: the edges of DIV and REM, register and immediate forms. Where b = 0 at the operand width they trap with INT-DIVZERO at execution:
the activation aborts, its context is free, TVAL holds G(A), and no register is written. The most negative number by -1 wraps to itself
with remainder 0. Otherwise the quotient is truncated toward zero and the remainder has the sign of a. -/
def Obligations.DivideEdges : Prop :=
  ∀ (s : State) (d a b : GReg) (q : IQ) (i : BitVec 16) (div rem : Instr) (y : Word),
    (div = .div d q a b ∧ rem = .rem d q a b ∧ y = s.g b) ∨ (div = .divI16 d q a i ∧ rem = .remI16 d q a i ∧ y = i.signExtend 64) →
    let x := opnd q (s.g a)
    (opnd q y = 0 → ∀ op : Instr, op = div ∨ op = rem → ∃ t, exec op s = .next t ∧ t.me.st = .free ∧ t.me.trap.tval = s.g a ∧
      t.me.trap.cause = Cause.intDivzero.word false ∧ t.me.trap.tip = s.me.ip ∧ t.me.g = s.me.g) ∧
    (Steady s → q.sgn = true → x = -2 ^ (szOf q - 1) → opnd q y = -1 →
      GivesInt div s d q (-2 ^ (szOf q - 1)) ∧ GivesInt rem s d q 0) ∧
    (Steady s → opnd q y ≠ 0 → GivesInt div s d q (x.tdiv (opnd q y)) ∧ GivesInt rem s d q (x - opnd q y * x.tdiv (opnd q y)))

/-! ### Pointers, views and control -/

/-- R209, R210: pointer arithmetic keeps the view and wraps within 60 bits, PSUB is the signed distance of two addresses,
VIEWOF reads the view that its operand selects. -/
def Sys2Proof.Says.PointerForms : Prop :=
  ∀ (s : State) (d a b : GReg) (i : BitVec 16), Steady s →
    let p := s.g a
    let sum := fun (o : Word) => p.extractLsb' 60 4 ++ (p.extractLsb' 0 60 + o.extractLsb' 0 60)
    Gives (.padd d a b) s d (sum (s.g b)) ∧
    Gives (.paddI16 d a i) s d (sum (i.signExtend 64)) ∧
    Gives (.psub d a b) s d ((p.extractLsb' 0 60 - (s.g b).extractLsb' 0 60).signExtend 64) ∧
    Gives (.viewof d a) s d (if p.extractLsb' 60 4 = 0 then 0 else s.me.view.get (p.extractLsb' 60 4).toFin)

/-- R211: ISSPC classifies a pointer without trapping: 0 for a global one, 7 for a local one of no space, else the space's code plus 1. -/
def Obligations.IsspcClassifies : Prop :=
  ∀ (s : State) (d a : GReg), Steady s →
    let va := (s.g a).toNat % 2 ^ 60
    Gives (.isspc d a) s d
      (if va / 2 ^ 48 ≠ 0xFFF then 0
       else if va / 2 ^ 44 % 16 > 3 ∨ (va / 2 ^ 44 % 16 = 2 ∧ va / 2 ^ 40 % 16 ≠ 0) then 7
       else BitVec.ofNat 64 (va / 2 ^ 44 % 16 + 1))

/-- R212: a pointer that CASTSPC.G makes is in the space it names, CASTSPC.Q of it gives the offset back, and a pointer that is not in a
space of the running context gives all ones. -/
def Sys2Proof.Says.CastspcRoundTrip : Prop :=
  ∀ (s : State) (d a : GReg) (sp : Space), Steady s → s.cur.1 < 4096 →
    let w := if sp = .priv then 30 else 32
    (∃ p : Word, Gives (.castspc d true sp a) s d p ∧ vaOf p = p.toNat ∧ isLocal p = true ∧ spaceOf p = sp.code.toNat ∧
      offsetOf (spaceOf p) p = (s.g a).toNat % 2 ^ w ∧ s.castToOffset sp.code.toNat p = BitVec.ofNat 64 ((s.g a).toNat % 2 ^ w)) ∧
    (isLocal (s.g a) = false ∨ spaceOf (s.g a) ≠ sp.code.toNat ∨ ownerOf sp.code.toNat (s.g a) ≠ s.accessor sp.code.toNat →
      Gives (.castspc d false sp a) s d 0xFFFFFFFFFFFFFFFF)

/-- R213: HOWN hashes bits [59:12] of the pointer into the partition's core range. -/
def Obligations.HownHash : Prop :=
  ∀ (s : State) (d a : GReg), Steady s →
    let h0 := (s.g a).extractLsb' 12 48
    let h1 := h0 ^^^ (h0 >>> 12)
    let h2 := h1 ^^^ (h1 >>> 24)
    let h3 := h2 ^^^ (h2 >>> 36)
    let p := s.pOf s.cur.1
    let n := if (s.part p).det then (s.part p).shape else 512 * (s.part p).dies
    let b := if (s.part p).det then 0 else 512 * p
    Gives (.hown d a) s d (BitVec.ofNat 64 (b + h3.toNat % n))

/-- R210: VIEWSET writes the view unless the value is one that no view holds; view 0 stays 0. -/
def Sys2Proof.Says.ViewsetForms : Prop :=
  ∀ (s : State) (n : Fin 16) (a : GReg), Steady s →
    let v := s.g a
    let bad := v.extractLsb' 0 4 = 0xF ∨ v.extractLsb' 4 2 = 3 ∨ v.extractLsb' 9 7 ≠ 0 ∨
      (v.extractLsb' 4 2 ≠ 0 ∧ Fmt.ofCode (v.extractLsb' 0 4) ∉ [some .s8, some .f16, some .w16, some .f8a, some .f8b, some .o4])
    (¬ bad → Completes (.viewset n a) s (if n = 0 then s.me else { s.me with view := s.me.view.set n.val v n.isLt })) ∧
    (bad → ∃ t, exec (.viewset n a) s = .next t ∧ t.me.st = .free ∧ t.me.trap.cause = Cause.illegalOp.word false ∧ t.me.view = s.me.view)

/-- R209-R212: pointers and views. -/
def Obligations.PointerForms : Prop := Says.PointerForms ∧ Says.CastspcRoundTrip ∧ Says.ViewsetForms

/-- R202, R214, R215: NOP changes nothing but the IP; RET, the branches, CALL, LOOP, JMP and CALLR go where the rules say, in sequence
where not taken; CALL and CALLR write NextIP to their link, LOOP its counter, and nothing else changes. -/
def Sys2Proof.Says.ControlForms : Prop :=
  ∀ (s : State) (d a : GReg) (j : BitVec 27), Steady s →
    let seq := nextIp s.me.latch.nh s.me.ip
    let go := branchTarget s.me.ip j
    let x := s.g a
    Completes .nop s s.me ∧
    CompletesAt .ret s (s.g 30) s.me ∧
    CompletesAt (.br j) s go s.me ∧
    CompletesAt (.bz a j) s (if x = 0 then go else seq) s.me ∧
    CompletesAt (.bnz a j) s (if x ≠ 0 then go else seq) s.me ∧
    CompletesAt (.bltz a j) s (if x.toInt < 0 then go else seq) s.me ∧
    CompletesAt (.bgez a j) s (if 0 ≤ x.toInt then go else seq) s.me ∧
    CompletesAt (.call d j) s go (s.me.putG d seq) ∧
    CompletesAt (.loop a j) s (if x - 1 ≠ 0 then go else seq) (s.me.putG a (x - 1)) ∧
    CompletesAt (.jmp a) s x s.me ∧
    CompletesAt (.callr d a) s x (s.me.putG d seq)

/-- R109: where a direct branch goes, from the displacement in lines and the head index of its tail. -/
def Sys2Proof.Says.BranchTarget : Prop :=
  ∀ (ip : Word) (j : BitVec 27),
    let line := (ip.toNat / 64 % 2 ^ 54 : Nat)
    let disp := (j.extractLsb' 5 22).toInt
    branchTarget ip j = BitVec.ofInt 64 ((line + disp) * 64 + (j.extractLsb' 0 5).toNat) ∧
      (branchTarget ip j).toNat % 64 = (j.extractLsb' 0 5).toNat

/-- R109, R90: the next IP in sequence is the next head of the line, or the first head of the next line. -/
def Sys2Proof.Says.SequentialIp : Prop :=
  ∀ (nh line h : Nat), line < 2 ^ 54 - 1 → h < 64 → nh < 64 →
    (h < nh → nextIp nh (BitVec.ofNat 64 (line * 64 + h)) = BitVec.ofNat 64 (line * 64 + h + 1)) ∧
    (nh ≤ h → nextIp nh (BitVec.ofNat 64 (line * 64 + h)) = BitVec.ofNat 64 ((line + 1) * 64 + 1))

/-- R90, R109, R202, R214, R215: control, with where a direct branch and the sequence go. -/
def Obligations.ControlForms : Prop := Says.ControlForms ∧ Says.BranchTarget ∧ Says.SequentialIp

/-! ### Loads, stores and atomics -/

/-- An instruction completes in sequence with the registers of `r`, and every byte of memory, full-empty bit and mark of poison is as before: a
correctable error that the read meets is corrected (R150). -/
def Sys2Proof.ReadsInto (i : Instr) (s : State) (r : Ctx) : Prop :=
  ∃ m : Memory, CompletesMem i s r m ∧ (∀ j, m.byte j = s.mem.byte j) ∧ m.full = s.mem.full ∧ m.pending = s.mem.pending ∧ m.poison = s.mem.poison

/-- R216, R128-R130: a load or a load with acquire whose address decodes to a byte of a local memory gives the little-endian value there,
sign- or zero-extended as Q says, and nothing else changes. No write of the quantum is hidden from the core there (log 58: none is outside deterministic
mode). -/
def Sys2Proof.Says.LocalLoads : Prop :=
  ∀ (s : State) (d a : GReg) (q : IQ) (o16 : BitVec 16) (o48 : BitVec 48) (i : Instr) (o : Word) (k : Nat), Steady s →
    ((i = .ld d q a o16 ∨ i = .ldAcq d q a o16) ∧ o = o16.signExtend 64) ∨ ((i = .ldW d q a o48 ∨ i = .ldAcqW d q a o48) ∧ o = o48.signExtend 64) →
    s.myCore.advs = [] → s.decodeAddr (ptrOff (s.g a) o) (szOf q / 8) .load = .ok (.loc k) → s.mem.poisoned k (szOf q / 8) = false →
    s.hidden s.cur.1 k (szOf q / 8) = false →
    ReadsInto i s (s.me.putG d (extR q (leNat ((List.range (szOf q / 8)).map (fun j => s.mem.byte (k + j))))))

/-- R216, R146, R165: LD.SYNC and LD.SYNCE of a local word that is full give its value, SYNCE leaving the word empty; of an empty word they
park the context at the instruction with nothing changed in memory or in its registers. No answer of an earlier issue is in hand, and in
deterministic mode no other core has made the word full in the quantum (log 58). -/
def Sys2Proof.Says.LocalSyncLoads : Prop :=
  ∀ (s : State) (d a : GReg) (sg : Bool) (o16 : BitVec 16) (o48 : BitVec 48) (i : Instr) (o : Word) (k : Nat) (take : Bool), Steady s →
    (i = (if take then .ldSynce d sg a o16 else .ldSync d sg a o16) ∧ o = o16.signExtend 64) ∨
      (i = (if take then .ldSynceW d sg a o48 else .ldSyncW d sg a o48) ∧ o = o48.signExtend 64) →
    s.me.rbuf = [] → s.myCore.advs = [] → s.decodeAddr (ptrOff (s.g a) o) 8 .sync = .ok (.loc k) → s.mem.poisoned k 8 = false →
    (s.mem.isFull k = true → s.fullFor s.cur.1 k = true → ∃ t, exec i s = .next t ∧ Retired s t (nextIp s.me.latch.nh s.me.ip)
      (s.me.putG d (extR ⟨sg, 3⟩ (leNat ((List.range 8).map (fun j => s.mem.byte (k + j)))))) t.mem ∧ (∀ j, t.mem.byte j = s.mem.byte j) ∧
      (∀ j, t.mem.isFull j = if take = true ∧ wordOf j = wordOf k then false else s.mem.isFull j) ∧ t.mem.poison = s.mem.poison) ∧
    (s.mem.isFull k = false → ∃ t, exec i s = .next t ∧ t.me.st = .parked ∧ t.me.await = .syncEmpty (ptrOff (s.g a) o) ∧ t.mem = s.mem ∧
      t.me.ip = s.me.ip ∧ t.me.g = s.me.g)

/-- R128-R130, R146, R165, R216: loads from a local memory. -/
def Obligations.LocalLoads : Prop := Says.LocalLoads ∧ Says.LocalSyncLoads

/-- R218, R129, R146, R177: a store to a local memory that no earlier pending store holds up writes the low bytes of G(B) little-endian at the
address, ST.FE makes its word full, and every other byte and full-empty bit is as before. An ST.FE that comes in a cycle after a SYNCE of its word or
after an ST.FE of a later core or context waits for the next cycle (R224): it issues again with nothing changed. -/
def Obligations.LocalStores : Prop :=
  ∀ (s : State) (q : IQ) (sg : Bool) (a b : GReg) (col : BitVec 3) (o16 : BitVec 16) (o48 : BitVec 48) (i : Instr) (kind : StKind) (n : Nat)
    (o : Word) (k : Nat), Steady s → s.Inv →
    (i = .st q a b col o16 ∧ kind = .plain ∧ n = szOf q / 8 ∧ o = o16.signExtend 64) ∨
      (i = .stW q a b col o48 ∧ kind = .plain ∧ n = szOf q / 8 ∧ o = o48.signExtend 64) ∨
      (i = .stRel q a b col o16 ∧ kind = .rel ∧ n = szOf q / 8 ∧ o = o16.signExtend 64) ∨
      (i = .stRelW q a b col o48 ∧ kind = .rel ∧ n = szOf q / 8 ∧ o = o48.signExtend 64) ∨
      (i = .stFe sg a b col o16 ∧ kind = .fe ∧ n = 8 ∧ o = o16.signExtend 64) ∨
      (i = .stFeW sg a b col o48 ∧ kind = .fe ∧ n = 8 ∧ o = o48.signExtend 64) →
    s.decodeAddr (ptrOff (s.g a) o) n (if kind = .fe then .stfe else .store) = .ok (.loc k) →
    (if kind = .plain then s.laneBusy col = false else s.lanesMine = false ∧ s.me.failed = []) →
    let waits := kind = .fe ∧ (s.takenNow k = true ∨ s.inTurn (unitOf k) s.cur.1 s.cur.2.val = false)
    (¬ waits → ∃ t, exec i s = .next t ∧ Retired s t (nextIp s.me.latch.nh s.me.ip) s.me t.mem ∧
      (∀ j, t.mem.byte j = if k ≤ j ∧ j < k + n then (s.g b).extractLsb' (8 * (j - k)) 8 else s.mem.byte j) ∧
      (∀ j, t.mem.isFull j = if kind = .fe ∧ wordOf j = wordOf k then !s.mem.isPending j else s.mem.isFull j)) ∧
    (waits → ∃ t, exec i s = .next t ∧ t.me.ip = s.me.ip ∧ t.me.st = s.me.st ∧ t.me.g = s.me.g ∧ t.mem = s.mem)

/-- R221: the value that each atomic leaves in memory, from the old one, the low bits of G(B), and for ACAS of G(D). -/
def Sys2Proof.atomicResult (q : IQ) (op : Nat) (old b c : Nat) : Nat :=
  let n := szOf q
  let v := fun (x : Nat) => if q.sgn then toSigned n x else (x : Int)
  match op with
  | 0 => (old + b) % 2 ^ n
  | 1 => old &&& b
  | 2 => old ||| b
  | 3 => old ^^^ b
  | 4 => if v b < v old then b else old
  | 5 => if v old < v b then b else old
  | 6 => b
  | _ => if old = c then b else old

/-- R221, R222, R159: an atomic on a local memory gives the old value to D and leaves the operation's result there, every other byte as before. Where
the memory has performed an operation of a later core or context in this cycle, it waits for the next one and issues again. No answer of an
earlier issue is in hand. -/
def Obligations.LocalAtomics : Prop :=
  ∀ (s : State) (d a b : GReg) (q : IQ) (o : AOrd) (col : BitVec 3) (sc : Scope) (i : Instr) (op k : Nat), Steady s → s.Inv →
    (i, op) ∈ [(Instr.aadd d q a b o col sc, 0), (.aand d q a b o col sc, 1), (.aor d q a b o col sc, 2), (.axor d q a b o col sc, 3),
      (.amin d q a b o col sc, 4), (.amax d q a b o col sc, 5), (.aswap d q a b o col sc, 6), (.acas d q a b o col sc, 7)] →
    s.decodeAddr (s.g a) (szOf q / 8) .atomic = .ok (.loc k) → s.laneBusy col = false →
    (releasesAt o sc = true → s.lanesMine = false ∧ s.me.failed = []) → s.mem.poisoned k (szOf q / 8) = false → s.me.rbuf = [] →
    let n := szOf q / 8
    let old := leNat ((List.range n).map (fun j => s.mem.byte (k + j)))
    (s.inTurn (unitOf k) s.cur.1 s.cur.2.val = true → ∃ t, exec i s = .next t ∧
      Retired s t (nextIp s.me.latch.nh s.me.ip) (s.me.putG d (extR q old)) t.mem ∧
      leNat ((List.range n).map (fun j => t.mem.byte (k + j))) = atomicResult q op old (patOf q (s.g b)) (patOf q (s.g d)) ∧
      (∀ j, ¬ (k ≤ j ∧ j < k + n) → t.mem.byte j = s.mem.byte j) ∧ t.mem.full = s.mem.full) ∧
    (s.inTurn (unitOf k) s.cur.1 s.cur.2.val = false → ∃ t, exec i s = .next t ∧ t.me.ip = s.me.ip ∧ t.me.st = s.me.st ∧ t.me.g = s.me.g ∧
      t.mem = s.mem)

/-- R220, R143, R144: LDX and STX of an extent whose bytes lie on the core's own die, and LDX of a replicated page, which reads the replica there: the
element at the index, scaled by the width. No store or atomic of the core is pending, so that the store is performed at once (R176), no
write of the block is under way (R142), no write of the quantum is hidden from the load (log 58), and the page stored to, which is pinned (R143), has
not been evicted. -/
def Sys2Proof.Says.ExtentForms : Prop :=
  ∀ (s : State) (d a b : GReg) (q : IQ) (x : Fin 16) (i : BitVec 16) (e : Ext), Steady s → s.Inv →
    s.myTask.exts[x.val]? = some e → s.myCore.advs = [] → s.myCore.lanes = [] →
    let n := szOf q / 8
    let o : Int := ((s.g a).toInt + i.toInt) * n
    let pa := e.pa + o.toNat
    let rp := s.extRepl e ((vaOf e.base + o.toNat) % 2 ^ 60)
    let k := if rp = 0 then pa else replicaAt pa (dieOf s.cur.1)
    0 ≤ o → o + n ≤ e.len → pa % n = 0 → (rp = 0 → firstTier pa = true ∧ pa / 2 ^ 36 = dieOf s.cur.1) →
    (s.mem.poisoned k n = false → s.hidden s.cur.1 k n = false → s.atomicOut pa n = false → (rp ≠ 0 → blockOf k ∉ (s.home (dieOf s.cur.1)).marks) →
      ReadsInto (.ldx d q x a i) s (s.me.putG d (extR q (leNat ((List.range n).map (fun j => s.mem.byte (k + j))))))) ∧
    (e.wr = true → e.repl = 0 → s.hasMoved s.cur.1 (BitVec.ofNat 64 ((vaOf e.base + o.toNat) % 2 ^ 60)) = false → ∃ t, exec (.stx q x a b i) s = .next t ∧ Retired s t (nextIp s.me.latch.nh s.me.ip) s.me t.mem ∧
      ∀ j, t.mem.byte j = if pa ≤ j ∧ j < pa + n then (s.g b).extractLsb' (8 * (j - pa)) 8 else s.mem.byte j)

/-- R422, R432: an address lies in no trap ring and in no event ring of a partition. -/
def Sys2Proof.OutsideRings (s : State) (j : Nat) : Prop :=
  ∀ e ∈ s.parts, ¬ (e.2.trRing.base ≤ j ∧ j < e.2.trRing.base + 64 * 2 ^ e.2.trRing.sizelog) ∧
    ¬ (e.2.events.base ≤ j ∧ j < e.2.events.base + 16 * 2 ^ e.2.events.sizelog)

/-- R220, R195: an LDX or STX outside its extent, of an undeclared extent, or a store to one that is not writable, raises EXTENT-BOUNDS: the
activation aborts, no general register is written, and every byte of memory outside the rings that take records is as before. -/
def Sys2Proof.Says.ExtentBounds : Prop :=
  ∀ (s : State) (d a b : GReg) (q : IQ) (x : Fin 16) (i : BitVec 16) (op : Instr),
    let n := szOf q / 8
    let o : Int := ((s.g a).toInt + i.toInt) * n
    (op = .ldx d q x a i ∨ op = .stx q x a b i) →
    (∀ e, s.myTask.exts[x.val]? = some e → o < 0 ∨ (e.len : Int) < o + n ∨ (op = .stx q x a b i ∧ e.wr = false)) →
    ∃ t, exec op s = .next t ∧ t.me.st = .free ∧ t.me.trap.cause = Cause.extentBounds.word false ∧
      t.me.trap.tval = BitVec.ofNat 64 (x.val * 2 ^ 60 + (BitVec.ofInt 60 o).toNat) ∧ t.me.trap.tip = s.me.ip ∧ t.me.g = s.me.g ∧
      (s.Inv → ∀ j, OutsideRings s j → t.mem.byte j = s.mem.byte j)

/-- R144, R195, R220: loads and stores of an extent, and where they trap. -/
def Obligations.ExtentForms : Prop := Says.ExtentForms ∧ Says.ExtentBounds

/-- R162, R223: FENCE completes with nothing changed when no store of the colours of its mask waits: at a scope wider than the core no such
store pending in the lanes and none failed, at SYS no such window store outstanding. -/
def Sys2Proof.Says.FenceCompletes : Prop :=
  ∀ (s : State) (mask : BitVec 8) (sc : Scope), Steady s →
    (sc = .ctx ∨ sc = .core ∨ (s.maskBusy mask = false ∧ s.me.failed = [])) → (sc = .sys → s.windowBusy mask = false) →
    Completes (.fence mask sc) s s.me

/-- R162: at a scope wider than the core FENCE waits, without parking, while a store of the colours of its mask is pending in the lanes: it
issues again, and no register or memory changes. -/
def Sys2Proof.Says.FenceWaits : Prop :=
  ∀ (s : State) (mask : BitVec 8) (sc : Scope), (sc = .clus ∨ sc = .die ∨ sc = .pkg ∨ sc = .sys) → s.me.failed = [] → s.maskBusy mask = true →
    ∃ t, exec (.fence mask sc) s = .next t ∧ t.me.ip = s.me.ip ∧ t.me.st = s.me.st ∧ t.me.g = s.me.g ∧ t.mem = s.mem

/-- R162, R223: FENCE. -/
def Obligations.FenceForms : Prop := Says.FenceCompletes ∧ Says.FenceWaits

/-! ### Special registers and system instructions -/

/-- R186, R190, R226: what a CSR holds after a write of `v`, field by field: reserved bits read 0, BUDGET only falls, FRM keeps its value where
5 to 7 is written, a queue limit ignores 61 to 63, and a read-only CSR is unchanged. -/
def Sys2Proof.csrWritten (c : Csr) (old v : Word) : Word :=
  match c with
  | .vstart => v &&& 0x7F
  | .fcsr => if 5 ≤ (v >>> 5 &&& 7).toNat then (v &&& 0x11F) ||| (old &&& 0xE0) else v &&& 0x1FF
  | .budget => if v.toNat < old.toNat then v else old
  | .colour => v &&& 7
  | .migok => v &&& 1
  | .migthresh => v &&& 0xFFFF
  | .qlim0 | .qlim1 | .qlim2 | .qlim3 | .qlimg => if 60 < (v &&& 0x3F).toNat then old else v &&& 0x3F
  | .refuse => v
  | .tasksel => v &&& 7
  | .extsel => v &&& 0xF
  | .cause | .tval | .tip | .tmsg | .telem | .ttile | .tfmt | .coord | .featmask | .featreq | .guestctx | .xferid | .time | .quant
  | .taskbase | .tasklim | .taskgen | .extbase | .extlen | .sampcfg => old

/-- R225: CSRRD reads every CSR of R183 into D and changes nothing else, whether its access is P or not. -/
def Sys2Proof.Says.CsrReads : Prop :=
  ∀ (s : State) (d : GReg) (c : Csr), Steady s → Gives (.csrrd d c) s d (s.csr c)

/-- R225, R226, R184: the write forms of a CSR that is not P give the old value to D (CSRWR to none) and leave the CSR as R226 says; the IP
advances, and the other registers, the trap CSRs and memory are unchanged. The counts that the retirement itself moves, BUDGET and TIME in
deterministic mode, and a migration that the write of MIGOK or MIGTHRESH lets begin, are left out. -/
def Sys2Proof.Says.CsrWrites : Prop :=
  ∀ (s : State) (d a : GReg) (c : Csr) (i : Instr) (v : Word) (e : GReg), Steady s → csrPriv c = false →
    (i = .csrwr c a ∧ v = s.g a ∧ e = 0) ∨ (i = .csrswp d c a ∧ v = s.g a ∧ e = d) ∨
      (i = .csrset d c a ∧ v = s.csr c ||| s.g a ∧ e = d) ∨ (i = .csrclr d c a ∧ v = s.csr c &&& ~~~(s.g a) ∧ e = d) →
    (c = .budget ∨ c = .time → s.detAt s.cur.1 = false) → (c = .migok → v.getLsbD 0 = false) →
    ∃ t, exec i s = .next t ∧ t.csr c = csrWritten c (s.csr c) v ∧ (∀ r, t.g r = if r = e then (if e = 0 then 0 else s.csr c) else s.g r) ∧
      t.me.ip = nextIp s.me.latch.nh s.me.ip ∧ t.me.st = s.me.st ∧ t.me.v = s.me.v ∧ t.me.k = s.me.k ∧ t.me.c = s.me.c ∧ t.me.view = s.me.view ∧
      t.me.trap = s.me.trap ∧ t.mem = s.mem

/-- R184, R225: a write form of a P CSR raises PRIV: the activation aborts, its context is free, and no CSR but the trap CSRs has changed: every
other CSR reads as before but FEATREQ, which names the running activation's task and of which the core's task entries are as before. -/
def Sys2Proof.Says.CsrPrivTraps : Prop :=
  ∀ (s : State) (d a : GReg) (c : Csr) (i : Instr), csrPriv c = true →
    i = .csrwr c a ∨ i = .csrswp d c a ∨ i = .csrset d c a ∨ i = .csrclr d c a →
    ∃ t, exec i s = .next t ∧ t.me.st = .free ∧ t.me.trap.cause = Cause.priv.word false ∧ t.me.trap.tval = s.me.latch.tval ∧
      t.me.trap.tip = s.me.ip ∧ t.me.g = s.me.g ∧ t.myCore.tasks = s.myCore.tasks ∧
      ∀ c' : Csr, c' ∉ [Csr.cause, .tval, .tip, .tmsg, .telem, .ttile, .tfmt, .featreq] → t.csr c' = s.csr c'

/-- R184, R186, R190, R225, R226: the CSRs. -/
def Obligations.CsrForms : Prop := Says.CsrReads ∧ Says.CsrWrites ∧ Says.CsrPrivTraps

/-- R228: TIME gives the core's time, FEATQ the features present among those asked for, MIGOK writes its CSR. -/
def Sys2Proof.Says.SystemForms : Prop :=
  ∀ (s : State) (d a : GReg) (v : Bool), Steady s →
    Gives (.time d) s d (BitVec.ofNat 64 (if s.detAt s.cur.1 then
      (s.part (s.pOf s.cur.1)).quanta * s.myCore.quant.toNat + s.myCore.retired else s.time)) ∧
    Gives (.featq d a) s d (s.myCore.featmask &&& s.g a) ∧
    Completes (.migok false) s { s.me with migok := false } ∧
    ∃ t, exec (.migok v) s = .next t ∧ t.me.migok = v ∧ t.me.ip = nextIp s.me.latch.nh s.me.ip ∧ t.me.g = s.me.g ∧ t.mem = s.mem

/-- R228, R46, R192: TRAP raises SWTRAP with its operand in TVAL: the trap CSRs are written with the IP of the TRAP in TIP and the message
identifier in TMSG, the context is free, and the triggering message of an ordinary activation whose task goes on stands in its queue as
held, its slot no longer the context's. -/
def Sys2Proof.Says.TrapAborts : Prop :=
  ∀ (s : State) (a : GReg) (n : BitVec 16) (i : Instr) (v : Word),
    (i = .trap a ∧ v = s.g a) ∨ (i = .trapI16 n ∧ v = n.setWidth 64) →
    ∃ t, exec i s = .next t ∧ t.me.st = .free ∧ t.me.act = none ∧ t.me.sendBuf = [] ∧ t.me.g = s.me.g ∧ t.me.ip = s.me.ip ∧
      t.me.trap.cause = Cause.swtrap.word false ∧ t.me.trap.tval = v ∧ t.me.trap.tip = s.me.ip ∧
      t.me.trap.tmsg = BitVec.ofNat 64 s.me.msgId ∧ t.me.trap.telem = 0 ∧
      (∀ m, s.me.act = some m → m.m.msg.info = .plain → s.holds m = true →
        { m.m with held := true } ∈ (t.core m.core).queue m.queue ∧ m.m.slot ∉ (t.core m.core).slotsHeld)

/-- R202, R197: BKPT parks its context at itself with the trap CSRs written, cause BKPT and TVAL 0, and leaves its registers and memory. -/
def Sys2Proof.Says.BkptParks : Prop :=
  ∀ (s : State), ∃ t, exec .bkpt s = .next t ∧ t.me.st = .parked ∧ t.me.await = .bkpt true ∧ t.me.ip = s.me.ip ∧ t.me.g = s.me.g ∧
    t.me.trap.cause = Cause.bkpt.word false ∧ t.me.trap.tval = 0 ∧ t.me.trap.tip = s.me.ip ∧ t.mem = s.mem

/-- R46, R192, R197, R202, R228: an exception that aborts, and one that parks. -/
def Obligations.TrapForms : Prop := Says.TrapAborts ∧ Says.BkptParks

/-! ### Messages -/

/-- R229, R230, R231, R44: SEND, SENDP, SENDL and REPLY that find room in the send buffer hold a message there: words 0 to 4 from the five
registers at D, the payload read in ascending address, the envelope of R229, KIND 1 for SENDL; SEQ counts on and nothing else changes. -/
def Sys2Proof.Says.SendHolds : Prop :=
  ∀ (s : State) (d a b : GReg) (q : QSel) (n : BitVec 6) (tg : Option (BitVec 3)) (i : Instr) (dest kind : Nat) (pay : List Word), Steady s →
    (i = .send d q a b n tg ∧ dest = (s.g a).toNat % 4096 ∧ kind = 0) ∨ (i = .sendp d q a b n tg ∧ s.placeOf (s.g a) = some dest ∧ kind = 0) ∨
      (i = .sendl d q a b n tg ∧ dest = (s.g a).toNat % 4096 ∧ kind = 1) ∨
      (i = .reply d q b n tg ∧ dest = s.me.activation.m.msg.env.src ∧ kind = 0) →
    s.lanesMine = false → s.me.failed = [] → (n = 0 ∨ (s.g b).toNat % 8 = 0) → s.readWords (s.g b) [] n.toNat = .ok pay s →
    s.me.sendBuf.length < 8 → s.canLeave s.cur.1 [] = true →
    let tag := match tg with | some v => v.toNat | none => s.me.tag
    let env : Env := ⟨s.lnum s.cur.1, s.cur.2.val, q.code.toNat, tag, (s.myCore.task tag).gen, 8 * n.toNat, kind, s.me.seq⟩
    let words := (List.range 5).map (fun j => s.g (gOf (BitVec.ofNat 5 (d.val + j))))
    Completes i s { s.me with sendBuf := s.me.sendBuf ++ [⟨dest, ⟨env, words, pay, .plain⟩⟩], seq := s.me.seq + 1 }

/-- R231, R44, R254: a SENDA with nothing held, outside deterministic mode, to a core of the range with a free number, leaves at once: the
core's interface keeps a request to that core with the message. -/
def Sys2Proof.Says.SendaLeaves : Prop :=
  ∀ (s : State) (d a b : GReg) (q : QSel) (n : BitVec 6) (tg : Option (BitVec 3)) (pay : List Word), Steady s →
    s.lanesMine = false → s.me.failed = [] → (n = 0 ∨ (s.g b).toNat % 8 = 0) → s.readWords (s.g b) [] n.toNat = .ok pay s →
    s.me.sendBuf = [] → s.detAt s.cur.1 = false → (s.ep s.cur.1).backlog = [] → (s.ep s.cur.1).canSend ((s.g a).toNat % 4096) = true →
    (s.ep s.cur.1).out.length < 64 → ((s.ep s.cur.1).out.filter (fun o => o.dest == (s.g a).toNat % 4096)).length < 16 →
    (s.coreRange s.cur.1).1 ≤ (s.g a).toNat % 4096 → (s.g a).toNat % 4096 < (s.coreRange s.cur.1).1 + (s.coreRange s.cur.1).2 →
    let tag := match tg with | some v => v.toNat | none => s.me.tag
    let env : Env := ⟨s.lnum s.cur.1, s.cur.2.val, q.code.toNat, tag, (s.myCore.task tag).gen, 8 * n.toNat, 0, s.me.seq⟩
    let words := (List.range 5).map (fun j => s.g (gOf (BitVec.ofNat 5 (d.val + j))))
    ∃ t r, exec (.senda d q a b n tg) s = .next t ∧ (t.ep s.cur.1).out = (s.ep s.cur.1).out ++ [r] ∧ r.dest = (s.g a).toNat % 4096 ∧
      r.body = .msg ⟨env, words, pay, .plain⟩ ∧ t.me.sendBuf = [] ∧ t.me.seq = s.me.seq + 1 ∧ t.me.ip = nextIp s.me.latch.nh s.me.ip ∧
      t.me.g = s.me.g ∧ t.mem = s.mem

/-- R44, R229-R231, R254: sending. -/
def Obligations.SendForms : Prop := Says.SendHolds ∧ Says.SendaLeaves

/-- R233: MSGID and MSGPAY give the triggering message's identifier and the address of a byte of its payload, 0 beyond its length. -/
def Sys2Proof.Says.MessageReads : Prop :=
  ∀ (s : State) (d a : GReg), Steady s →
    let m := s.me.activation
    let e := m.m.msg.env
    Gives (.msgid d) s d (BitVec.ofNat 64 (e.src % 4096 * 2 ^ 18 + e.sctx % 4 * 2 ^ 16 + e.seq.toNat)) ∧
    Gives (.msgpay d a) s d (if (s.g a).toNat < e.plen then
      BitVec.ofNat 64 (0x0FFF300000000000 + s.lnum m.core % 4096 * 2 ^ 32 + 512 * m.m.slot + (if e.kind = 2 then 8 else 48) + (s.g a).toNat)
      else 0)

/-- R228, R233: system instructions and the reads of the triggering message. -/
def Obligations.SystemForms : Prop := Says.SystemForms ∧ Says.MessageReads

/-- R45, R234: DONE, and REQUEUE of an ordinary message outside deterministic mode, end an activation whose held messages can leave: the
context is free with no activation and nothing held, its registers as they were, and its inbox slot is free. The messages that DONE finds held
leave in their order: outside deterministic mode each, to a core of the range, becomes a request of the core's interface. REQUEUE puts the
message of a task that goes on at the tail of the queue it left, arriving now. -/
def Obligations.ActivationEnds : Prop :=
  ∀ (s : State) (m : Act), s.me.act = some m → s.canLeave s.cur.1 s.me.sendBuf = true →
    (∃ t, exec .done s = .next t ∧ t.me.st = .free ∧ t.me.act = none ∧ t.me.sendBuf = [] ∧ t.me.g = s.me.g ∧
      m.m.slot ∉ (t.core m.core).slotsHeld ∧
      (s.detAt s.cur.1 = false → (∀ o ∈ s.me.sendBuf, (s.coreRange s.cur.1).1 ≤ o.dest ∧ o.dest < (s.coreRange s.cur.1).1 + (s.coreRange s.cur.1).2) →
        ∃ l, (t.ep s.cur.1).out.map (fun r => (r.dest, r.body)) =
          (s.ep s.cur.1).out.map (fun r => (r.dest, r.body)) ++ s.me.sendBuf.map (fun o => (o.dest, ReqBody.msg o.msg)) ++ l)) ∧
    (s.me.sendBuf = [] → s.taskLive m.core m.m.msg = true → m.m.msg.info = .plain → m.m.msg.env.kind ≠ 4 → m.m.msg.env.kind ≠ 5 → s.detAt s.cur.1 = false → s.detAt m.core = false →
      ∃ t, exec .requeue s = .next t ∧ t.me.st = .free ∧ t.me.act = none ∧ t.me.g = s.me.g ∧ m.m.slot ∉ (t.core m.core).slotsHeld ∧
        (t.core m.core).queue m.queue = (s.core m.core).queue m.queue ++ [{ m.m with arrival := s.time, since := s.time, held := false }])

/-! ### Channels and the tag table -/

/-- R236, R238: CHBIND binds a handle to a 32-byte-aligned descriptor whose two words can be read; CHWAITF, CHWAITE, CHSTAT and CHPTR of a
valid handle with the role give the head, the tail, the fill and the slot's pointer; an empty or a full channel parks the context. -/
def Sys2Proof.Says.ChannelForms : Prop :=
  ∀ (s : State) (d a b : GReg) (c : CReg) (role : BitVec 2) (off : BitVec 16) (h : Chan) (w0 w1 hd tl : Word), Steady s →
    let p := s.g a
    (p.toNat % 32 = 0 → s.descWord p 0 = .ok w0 s → s.descWord p 8 = .ok w1 s →
      Completes (.chbind c a role) s (s.me.putC c ⟨true, role, p, w0, w1.extractLsb' 4 4, w1.extractLsb' 0 4⟩)) ∧
    (s.c c = h → h.valid = true → s.descWord h.desc 16 = .ok hd s → s.descWord h.desc 24 = .ok tl s →
      Gives (.chstat d c) s d (tl - hd) ∧
      Gives (.chptr d c b off) s d (ptrOff h.base
        (BitVec.ofNat 64 ((s.g b + off.signExtend 64).toNat % 2 ^ h.slotlog.toNat * 2 ^ (h.szlog.toNat + 3)))) ∧
      (h.role &&& 2 = 2 → tl ≠ hd → Gives (.chwaitf d c) s d hd) ∧
      (h.role &&& 1 = 1 → (tl - hd).toNat < 2 ^ h.slotlog.toNat → Gives (.chwaite d c) s d tl) ∧
      (h.role &&& 2 = 2 → tl = hd → ∃ t, exec (.chwaitf d c) s = .next t ∧ t.me.st = .parked ∧ t.me.await = .channelEmpty h.desc ∧
        t.me.ip = s.me.ip ∧ t.me.g = s.me.g) ∧
      (h.role &&& 1 = 1 → 2 ^ h.slotlog.toNat ≤ (tl - hd).toNat → ∃ t, exec (.chwaite d c) s = .next t ∧ t.me.st = .parked ∧
        t.me.await = .channelFull h.desc (2 ^ h.slotlog.toNat) ∧ t.me.ip = s.me.ip ∧ t.me.g = s.me.g))

/-- R238: CHADVH and CHADVT of a descriptor in local memory, outside deterministic mode, with every earlier store performed and in their turn (R159),
add N to HEAD and to TAIL; no register and no other byte changes. -/
def Sys2Proof.Says.ChannelAdvances : Prop :=
  ∀ (s : State) (c : CReg) (n : BitVec 16) (i : Instr) (k off : Nat), Steady s → s.Inv → s.detAt s.cur.1 = false →
    (i = .chadvh c n ∧ off = 16 ∧ (s.c c).role &&& 2 = 2) ∨ (i = .chadvt c n ∧ off = 24 ∧ (s.c c).role &&& 1 = 1) →
    (s.c c).valid = true → s.decodeAddr (ptrOff (s.c c).desc (BitVec.ofNat 64 off)) 8 .atomic = .ok (.loc k) → s.lanesMine = false →
    s.me.failed = [] → s.mem.poisoned k 8 = false → s.me.rbuf = [] → s.inTurn (unitOf k) s.cur.1 s.cur.2.val = true →
    ∃ t, exec i s = .next t ∧ Retired s t (nextIp s.me.latch.nh s.me.ip) s.me t.mem ∧
      BitVec.ofNat 64 (t.mem.read k 8) = BitVec.ofNat 64 (s.mem.read k 8) + n.setWidth 64 ∧
      ∀ j, ¬ (k ≤ j ∧ j < k + 8) → t.mem.byte j = s.mem.byte j

/-- R453: in deterministic mode an advance of a descriptor in local memory waits on the core for the quantum's end; memory is unchanged. -/
def Sys2Proof.Says.ChannelAdvanceDeferred : Prop :=
  ∀ (s : State) (c : CReg) (n : BitVec 16) (i : Instr) (k off : Nat), Steady s → s.detAt s.cur.1 = true →
    (i = .chadvh c n ∧ off = 16 ∧ (s.c c).role &&& 2 = 2) ∨ (i = .chadvt c n ∧ off = 24 ∧ (s.c c).role &&& 1 = 1) →
    (s.c c).valid = true → s.decodeAddr (ptrOff (s.c c).desc (BitVec.ofNat 64 off)) 8 .atomic = .ok (.loc k) → s.lanesMine = false →
    s.me.failed = [] →
    ∃ t, exec i s = .next t ∧ t.mem = s.mem ∧ t.me.g = s.me.g ∧ t.me.ip = nextIp s.me.latch.nh s.me.ip ∧
      t.myCore.advs = s.myCore.advs ++ [⟨s.cur.2.val, s.me.serial, s.me.msgId, s.me.tag, s.me.colour, k, ptrOff (s.c c).desc (BitVec.ofNat 64 off), n.toNat⟩]

/-- R236, R238, R453: channels. -/
def Obligations.ChannelForms : Prop := Says.ChannelForms ∧ Says.ChannelAdvances ∧ Says.ChannelAdvanceDeferred

/-- R240: TLOOK finds a granule's entry; TSET of an absent granule writes a valid entry in its slot and gives 0xFFFF, of a present one gives its
slot and changes nothing; TCLR clears a slot and gives what it held; TINV clears the valid entries that overlap a range, or every entry where the
length is 0, and counts the valid ones. A slot beyond the table traps. -/
def Sys2Proof.Says.TagForms : Prop :=
  ∀ (s : State) (d a b : GReg), Steady s →
    let g := granuleOf (s.g a)
    let n := (s.g b).toNat
    let m := (s.g a).toNat
    let hit := fun (w : Word) => tagValid w && (s.g b == 0 || (decide (granuleOf w * 512 < vaOf (s.g a) + n) && decide (vaOf (s.g a) < granuleOf w * 512 + 512)))
    (∀ t, s.myCore.tagOf g = some t → Gives (.tlook d a) s d (BitVec.ofNat 64 t) ∧ (n < 384 → Gives (.tset d a b) s d (BitVec.ofNat 64 t))) ∧
    (s.myCore.tagOf g = none → Gives (.tlook d a) s d 0xFFFF ∧ (n < 384 → ∃ t, exec (.tset d a b) s = .next t ∧
      t.g d = (if d = 0 then 0 else 0xFFFF) ∧ (∀ r, r ≠ d → t.g r = s.g r) ∧ t.mem = s.mem ∧ t.me.ip = nextIp s.me.latch.nh s.me.ip ∧
      tagValid (t.myCore.tagEntry n) = true ∧ granuleOf (t.myCore.tagEntry n) = g ∧ ∀ j, j ≠ n → t.myCore.tagEntry j = s.myCore.tagEntry j)) ∧
    (m < 384 → ∃ t, exec (.tclr d a) s = .next t ∧ t.g d = (if d = 0 then 0 else s.myCore.tagEntry m) ∧ (∀ r, r ≠ d → t.g r = s.g r) ∧
      t.mem = s.mem ∧ t.me.ip = nextIp s.me.latch.nh s.me.ip ∧ t.myCore.tagEntry m = 0 ∧ ∀ j, j ≠ m → t.myCore.tagEntry j = s.myCore.tagEntry j) ∧
    (∃ t, exec (.tinv d a b) s = .next t ∧ (∀ r, r ≠ d → t.g r = s.g r) ∧ t.mem = s.mem ∧ t.me.ip = nextIp s.me.latch.nh s.me.ip ∧
      (∀ e ∈ t.myCore.tags, hit e.2 = false) ∧ (∀ e ∈ s.myCore.tags, hit e.2 = false → s.g b ≠ 0 → e ∈ t.myCore.tags) ∧
      (∀ e ∈ t.myCore.tags, e ∈ s.myCore.tags) ∧ (s.g b = 0 → ∀ j, t.myCore.tagEntry j = 0) ∧
      t.g d = (if d = 0 then 0 else BitVec.ofNat 64 (s.myCore.tags.filter (fun e => hit e.2)).length))

/-- R241, R195: TSET and TCLR of a slot beyond the table raise TAG-SLOT-BAD with the slot in TVAL; the table is unchanged. -/
def Sys2Proof.Says.TagSlotBad : Prop :=
  ∀ (s : State) (d a b : GReg) (i : Instr) (v : Word), (i = .tset d a b ∧ v = s.g b) ∨ (i = .tclr d a ∧ v = s.g a) → 384 ≤ v.toNat →
    ∃ t, exec i s = .next t ∧ t.me.st = .free ∧ t.me.trap.cause = Cause.tagSlotBad.word false ∧ t.me.trap.tval = v ∧
      t.myCore.tags = s.myCore.tags ∧ t.me.g = s.me.g

/-- R195, R240, R241: the tag table. -/
def Obligations.TagForms : Prop := Says.TagForms ∧ Says.TagSlotBad

/-! ### The vector unit -/

/-- R271, R272: an instruction completes with lane `j` of `d` the low bits of `(res j).1` where lane `j` is active and as before where it is
not, FCSR collects the flags of the active lanes (R70), memory is as `m`, and nothing else changes. -/
def Sys2Proof.GivesLanesMem (i : Instr) (s : State) (d : VReg) (q : KReg) (f : Fmt) (res : Nat → Nat × Fl) (m : Memory) : Prop :=
  ∃ v : VWord, CompletesMem i s ({ s.me with
      fcsr := fcsrSet s.me.fcsr ((s.actLanes q f.width (lanesOf f)).foldl (fun a j => a ||| (res j).2) 0) }.putV d v) m ∧
    ∀ j < lanesOf f, lane v f.width j = if s.act q f.width j then (res j).1 % 2 ^ f.width else lane (s.v d) f.width j

/-- The same with memory as before. -/
def Sys2Proof.GivesLanes (i : Instr) (s : State) (d : VReg) (q : KReg) (f : Fmt) (res : Nat → Nat × Fl) : Prop := GivesLanesMem i s d q f res s.mem

/-- R63: the integer that a result delivers, wrapped to the format or clamped to its range. -/
def Sys2Proof.delivered (f : Fmt) (sat : Bool) (y : Int) : Nat := ((if sat then max f.imin (min f.imax y) else y) % 2 ^ f.width).toNat

/-- R271: which mask bit governs a lane, for each lane width; with k0 every lane is active. -/
def Sys2Proof.Says.MaskGovernsLanes : Prop :=
  ∀ (s : State) (q : KReg) (f : Fmt) (j : Nat), f ≠ .o4 → j < lanesOf f →
    f.width * lanesOf f = 1024 ∧ s.act 0 f.width j = true ∧
    (f.width = 8 → s.act q f.width j = (s.k q).getLsbD (j / 4)) ∧ (f.width = 16 → s.act q f.width j = (s.k q).getLsbD (j / 2)) ∧
    (f.width = 32 ∨ f.width = 64 → s.act q f.width j = (s.k q).getLsbD j)

/-- R277, R278: the arithmetic, bitwise and shift instructions on integer lanes, for every integer format and mask: the value of the table,
wrapped or saturated, in each active lane, no flag set, and the edges of VDIV. -/
def Obligations.VectorIntegerForms : Prop :=
  ∀ (s : State) (d a b : VReg) (q : KReg) (f : Fmt) (rm : Rm) (sat : Bool), Steady s → s.me.vstart = 0 → f.isInt = true →
    let w := f.width
    let p := fun j => lane (s.v a) w j
    let r := fun j => lane (s.v b) w j
    let x := fun j => decodeI f (p j)
    let y := fun j => decodeI f (r j)
    let k := fun j => r j % w
    let int := fun (g : Nat → Int) (sat : Bool) (j : Nat) => (delivered f sat (g j), (0 : Fl))
    let bits := fun (g : Nat → Nat) (j : Nat) => (g j, (0 : Fl))
    GivesLanes (.vadd d q a b f rm sat) s d q f (int (fun j => x j + y j) sat) ∧
    GivesLanes (.vsub d q a b f rm sat) s d q f (int (fun j => x j - y j) sat) ∧
    GivesLanes (.vmul d q a b f rm sat) s d q f (int (fun j => x j * y j) sat) ∧
    GivesLanes (.vdiv d q a b f rm sat) s d q f (int (fun j =>
      if y j = 0 then (if f.signed = true ∧ x j < 0 then f.imin else f.imax) else (x j).tdiv (y j)) sat) ∧
    GivesLanes (.vmin d q a b f) s d q f (int (fun j => min (x j) (y j)) false) ∧
    GivesLanes (.vmax d q a b f) s d q f (int (fun j => max (x j) (y j)) false) ∧
    GivesLanes (.vabs d q a f sat) s d q f (int (fun j => (x j).natAbs) sat) ∧
    GivesLanes (.vneg d q a f sat) s d q f (int (fun j => -(x j)) sat) ∧
    GivesLanes (.vand d q a b f) s d q f (bits (fun j => p j &&& r j)) ∧
    GivesLanes (.vor d q a b f) s d q f (bits (fun j => p j ||| r j)) ∧
    GivesLanes (.vxor d q a b f) s d q f (bits (fun j => p j ^^^ r j)) ∧
    GivesLanes (.vshl d q a b f) s d q f (bits (fun j => p j * 2 ^ k j)) ∧
    GivesLanes (.vshr d q a b f) s d q f (bits (fun j => p j / 2 ^ k j)) ∧
    GivesLanes (.vsha d q a b f) s d q f (bits (fun j => (toSigned w (p j) / 2 ^ k j % 2 ^ w).toNat))

/-- R277, R279, R66, R68-R70: the same instructions, VSQRT and the FMA forms on float lanes with NANTRAP off: each active lane is the rounding of
the exact value by the effective mode, and FCSR collects the flags of every active lane. -/
def Obligations.VectorFloatForms : Prop :=
  ∀ (s : State) (d a b : VReg) (q : KReg) (f : Fmt) (rm : Rm) (sat : Bool), Steady s → s.me.vstart = 0 → f.isArithFloat = true →
    fcsrNanTrap s.me.fcsr = false →
    let w := f.width
    let x := fun j => decodeF f (lane (s.v a) w j)
    let y := fun j => decodeF f (lane (s.v b) w j)
    let z := fun j => decodeF f (lane (s.v d) w j)
    let m := effRm s.me.fcsr rm
    let sel := fun (big : Bool) (u v : FV) => if u.isNaN ∨ v.isNaN then (f.qnan, u.snv ||| v.snv)
      else roundF f .rne (if cmpBelow u v = big then v else u)
    let sgn := fun (u v : FV) => ((roundF f .rne v).1, (roundF f .rne v).2 ||| u.snv)
    GivesLanes (.vadd d q a b f rm sat) s d q f (fun j => fAdd f m (x j) (y j)) ∧
    GivesLanes (.vsub d q a b f rm sat) s d q f (fun j => fAdd f m (x j) (y j).neg) ∧
    GivesLanes (.vmul d q a b f rm sat) s d q f (fun j => fMul f m (x j) (y j)) ∧
    GivesLanes (.vdiv d q a b f rm sat) s d q f (fun j => fDiv f m (x j) (y j)) ∧
    GivesLanes (.vmin d q a b f) s d q f (fun j => sel false (x j) (y j)) ∧
    GivesLanes (.vmax d q a b f) s d q f (fun j => sel true (x j) (y j)) ∧
    GivesLanes (.vabs d q a f sat) s d q f (fun j => sgn (x j) (x j).abs) ∧
    GivesLanes (.vneg d q a f sat) s d q f (fun j => sgn (x j) (x j).neg) ∧
    GivesLanes (.vsqrt d q a f rm) s d q f (fun j => fSqrt f m (x j)) ∧
    GivesLanes (.vfma d q a b f rm) s d q f (fun j => fFma f m (x j) (y j) (z j)) ∧
    GivesLanes (.vfms d q a b f rm) s d q f (fun j => fFma f m (x j) (y j) (z j).neg) ∧
    GivesLanes (.vfnma d q a b f rm) s d q f (fun j => fFma f m (x j).neg (y j) (z j))

/-- R71, R274: under NANTRAP a value operation whose result is a NaN in some active lane aborts with NAN-FIRST at the lowest such lane, its
destination unchanged and the flags of every active lane set (VADD and VMUL stand for the forms of R277). -/
def Sys2Proof.Says.NanFirstTraps : Prop :=
  ∀ (s : State) (d a b : VReg) (q : KReg) (f : Fmt) (rm : Rm) (sat : Bool) (j : Nat) (i : Instr) (r : Nat → Nat × Fl), s.me.vstart = 0 →
    f.isArithFloat = true → fcsrNanTrap s.me.fcsr = true →
    let x := fun j => decodeF f (lane (s.v a) f.width j)
    let y := fun j => decodeF f (lane (s.v b) f.width j)
    (i = .vadd d q a b f rm sat ∧ r = fun j => fAdd f (effRm s.me.fcsr rm) (x j) (y j)) ∨
      (i = .vmul d q a b f rm sat ∧ r = fun j => fMul f (effRm s.me.fcsr rm) (x j) (y j)) →
    let on := fun j => j < lanesOf f ∧ s.act q f.width j = true
    on j → isNaNPat f (r j).1 = true → (∀ k < j, on k → isNaNPat f (r k).1 = false) →
    ∃ t, exec i s = .next t ∧ t.me.st = .free ∧ t.me.trap.cause = Cause.nanFirst.word false ∧
      t.me.trap.telem = BitVec.ofNat 64 j ∧ t.me.v = s.me.v ∧
      t.me.fcsr = fcsrSet s.me.fcsr ((s.actLanes q f.width (lanesOf f)).foldl (fun a k => a ||| (r k).2) 0)

/-- R64-R70: rounding the value of a pattern gives the pattern back with no flag, for every float format, mode and pattern that is no NaN. -/
def Obligations.RoundingIsExactOnValues : Prop :=
  ∀ (f : Fmt) (m : Mode) (x : Nat), f.isFloat = true → x < 2 ^ f.width → (decodeF f x).isNaN = false → roundF f m (decodeF f x) = (x, flNone)

/-- R280, R72: VCVT converts the elements that fit the wider of the two widths, where active, and sets the lanes beyond them to 0; NANTRAP off
or the target an integer format. -/
def Sys2Proof.Says.VectorConverts : Prop :=
  ∀ (s : State) (d a : VReg) (q : KReg) (f t : Fmt) (rm : Rm) (sat : Bool), Steady s → s.me.vstart = 0 → f ≠ .o4 → t ≠ .o4 →
    (fcsrNanTrap s.me.fcsr = false ∨ t.isInt = true) →
    let w := max f.width t.width
    let n := 1024 / w
    let r := fun j => convert f t (effRm s.me.fcsr rm) sat (lane (s.v a) f.width j)
    ∃ v : VWord, Completes (.vcvt d q a f t rm sat) s
        ({ s.me with fcsr := fcsrSet s.me.fcsr ((s.actLanes q w n).foldl (fun a j => a ||| (r j).2) 0) }.putV d v) ∧
      ∀ j < lanesOf t, lane v t.width j =
        if n ≤ j then 0 else if s.act q w j then (r j).1 % 2 ^ t.width else lane (s.v d) t.width j

/-- R282, R284: the moves and permutes copy lane patterns into the active lanes, set no flag and trap on no NaN; VSEL writes every lane, VEXT
gives one lane to a register. -/
def Sys2Proof.Says.VectorMoves : Prop :=
  ∀ (s : State) (d a b : VReg) (q : KReg) (g h : GReg) (f : Fmt) (sat : Bool), Steady s → s.me.vstart = 0 → f ≠ .o4 →
    let w := f.width
    let n := lanesOf f
    let x := fun j => lane (s.v a) w j
    let y := fun j => lane (s.v b) w j
    let wide := fun (m v : Nat) => if f.signed then toSigned m v else (v : Int)
    let mv := fun (g : Nat → Nat) (j : Nat) => (g j, (0 : Fl))
    GivesLanes (.vsel d q a b f) s d 0 f (mv (fun j => if s.act q w j then x j else y j)) ∧
    GivesLanes (.vmov d q a f) s d q f (mv x) ∧
    GivesLanes (.vbcast d q g f) s d q f (mv (fun _ => (s.g g).toNat)) ∧
    GivesLanes (.viota d q g f) s d q f (mv (fun j => (s.g g).toNat + j)) ∧
    Gives (.vext h a g f) s h (BitVec.ofInt 64 (wide w (x ((s.g g).toNat % n)))) ∧
    GivesLanes (.vshuf d q a b f) s d q f (mv (fun j => x (y j % n))) ∧
    GivesLanes (.vrot d q a g f) s d q f (mv (fun j => x ((j + (s.g g).toNat) % n))) ∧
    (f.isInt = true → w ≤ 32 → GivesLanes (.vpack d q a b f sat) s d q f
      (mv (fun j => delivered f sat (wide (2 * w) (if j < n / 2 then lane (s.v a) (2 * w) j else lane (s.v b) (2 * w) (j - n / 2)))))) ∧
    (f.isInt = true → 16 ≤ w → GivesLanes (.vunpack d q a g f) s d q f
      (mv (fun j => (wide (w / 2) (lane (s.v a) (w / 2) (n * ((s.g g).toNat % 2) + j)) % 2 ^ w).toNat)))

/-- R72, R280, R282, R284: conversion, moves and permutes. -/
def Obligations.VectorMoves : Prop := Says.VectorConverts ∧ Says.VectorMoves

/-- R281: VCMP writes bit j for each active lane whose comparison holds and 0 for every other bit; -0 equals +0; NV is set by a signalling
NaN, and in LT and LE by any NaN. -/
def Obligations.VectorCompares : Prop :=
  ∀ (s : State) (d q : KReg) (a b : VReg) (f : Fmt) (i : Instr) (hold : FV → FV → Bool) (quiet : Bool), Steady s → s.me.vstart = 0 →
    f ∈ [Fmt.s32, .n32, .s64, .n64, .f32, .f64] →
    (i = .vcmpEq d q a b f ∧ hold = cmpEq ∧ quiet = true) ∨ (i = .vcmpNe d q a b f ∧ hold = (fun x y => !cmpEq x y) ∧ quiet = true) ∨
      (i = .vcmpLt d q a b f ∧ hold = cmpLt ∧ quiet = false) ∨
      (i = .vcmpLe d q a b f ∧ hold = (fun x y => cmpLt x y || cmpEq x y) ∧ quiet = false) ∨
      (i = .vcmpUnord d q a b f ∧ hold = (fun x y => x.isNaN || y.isNaN) ∧ quiet = true) →
    let x := fun j => decodeV f (lane (s.v a) f.width j)
    let y := fun j => decodeV f (lane (s.v b) f.width j)
    let bad := fun j => x j = .nan true ∨ y j = .nan true ∨ (quiet = false ∧ ((x j).isNaN = true ∨ (y j).isNaN = true))
    ∃ (v : BitVec 32) (fl : Fl), Completes i s ({ s.me with fcsr := fcsrSet s.me.fcsr fl }.putK d v) ∧
      (∀ j < 32, v.getLsbD j = (decide (j < lanesOf f) && s.act q f.width j && hold (x j) (y j))) ∧
      ((∃ j < lanesOf f, s.act q f.width j = true ∧ bad j) → fl = flNV) ∧
      ((∀ j < lanesOf f, s.act q f.width j = true → ¬ bad j) → fl = 0)

/-- R283, R84: the reductions over the active lanes in ascending order. Integer sums and dot products wrap or clamp at each step, minima and
maxima are those of the active lanes, and with no active lane the results are 0, the format's maximum and its minimum. Float forms, with NANTRAP
off, round each step; with no active lane they give +0 and the canonical NaN. -/
def Obligations.VectorReductions : Prop :=
  ∀ (s : State) (d : GReg) (q : KReg) (a b : VReg) (f : Fmt) (rm : Rm) (sat : Bool), Steady s → s.me.vstart = 0 →
    let w := f.width
    let l := s.actLanes q w (lanesOf f)
    let p := fun j => lane (s.v a) w j
    let r := fun j => lane (s.v b) w j
    let m := effRm s.me.fcsr rm
    let step := fun (z : Int) => decodeI f (delivered f sat z)
    let ext := fun (z : Int) => if f.signed then BitVec.ofInt 64 z else BitVec.ofNat 64 z.toNat
    (f.isInt = true →
      Gives (.vredSum d q a f rm sat) s d (ext (l.foldl (fun z j => step (z + decodeI f (p j))) 0)) ∧
      Gives (.vdot d q a b f rm sat) s d (ext (l.foldl (fun z j => step (z + decodeI f (p j) * decodeI f (r j))) 0)) ∧
      Gives (.vredMin d q a f rm sat) s d (ext (l.foldl (fun z j => min z (decodeI f (p j))) f.imax)) ∧
      Gives (.vredMax d q a f rm sat) s d (ext (l.foldl (fun z j => max z (decodeI f (p j))) f.imin))) ∧
    (f.isArithFloat = true → fcsrNanTrap s.me.fcsr = false →
      let run := fun (i : Instr) (empty : Nat) (first : Nat → Nat × Fl) (next : Nat → Nat → Nat × Fl) =>
        let z := match l with
          | [] => (empty, flNone)
          | j :: t => t.foldl (fun (u : Nat × Fl) k => ((next u.1 k).1, u.2 ||| (next u.1 k).2)) (first j)
        Completes i s ({ s.me with fcsr := fcsrSet s.me.fcsr z.2 }.putG d (BitVec.ofNat 64 z.1))
      let one := fun j => ((roundF f .rne (decodeF f (p j))).1, (roundF f .rne (decodeF f (p j))).2 ||| (decodeF f (p j)).snv)
      run (.vredSum d q a f rm sat) 0 one (fun u k => fAdd f m (decodeF f u) (decodeF f (p k))) ∧
      run (.vredMin d q a f rm sat) f.qnan one (fun u k => fMinMax f false (decodeF f u) (decodeF f (p k))) ∧
      run (.vredMax d q a f rm sat) f.qnan one (fun u k => fMinMax f true (decodeF f u) (decodeF f (p k))) ∧
      run (.vdot d q a b f rm sat) 0 (fun j => fMul f m (decodeF f (p j)) (decodeF f (r j)))
        (fun u k => fFma f m (decodeF f (p k)) (decodeF f (r k)) (decodeF f u)))

/-- R289: the mask operations; a write to k0 is discarded. -/
def Sys2Proof.Says.MaskForms : Prop :=
  ∀ (s : State) (d a b : KReg) (g : GReg), Steady s → s.me.vstart = 0 →
    let gives := fun (i : Instr) (v : BitVec 32) => Completes i s (s.me.putK d v)
    gives (.kand d a b) (s.k a &&& s.k b) ∧ gives (.kor d a b) (s.k a ||| s.k b) ∧ gives (.kxor d a b) (s.k a ^^^ s.k b) ∧
    gives (.knot d a) (~~~(s.k a)) ∧ gives (.kset d g) ((s.g g).setWidth 32) ∧
    Gives (.kpop g a) s g (BitVec.ofNat 64 ((List.range 32).filter (fun j => (s.k a).getLsbD j)).length) ∧
    Gives (.kget g a) s g ((s.k a).setWidth 64)

/-- R271, R289: masks. -/
def Obligations.MaskForms : Prop := Says.MaskGovernsLanes ∧ Says.MaskForms

/-- R290-R292: VSCALE gives the least E8 scale under which every active lane fits the target, 127 where all are zero, 254 with OF where none
fits, and with NANTRAP off 0xFF with NV where a lane is not finite. VQUANT under a scale that is not a NaN, NANTRAP off, codes the lanes for an
8-bit target, an inactive one as 0, into the low bytes with every higher byte 0. A quad that it writes is never malformed. -/
def Obligations.Quantisation : Prop :=
  (∀ (s : State) (d : GReg) (q : KReg) (a : VReg) (f : Fmt) (t : QTgt) (h : BitVec 4), Steady s → s.me.vstart = 0 →
    let l := s.actLanes q f.width (lanesOf f)
    let x := fun j => decodeF f (lane (s.v a) f.width j)
    let big := match t with | .s8 => 127 | .f8a => 448 | .f8b => 57344 | .o4 => 7
    let fits := fun (e : Nat) => ∀ j ∈ l, cmpLt (.fin false big ((h.toNat : Int) + e - 127)) (x j).abs = false
    let gives := fun (v : Nat) (fl : Fl) => Completes (.vscale d q a f t h) s ({ s.me with fcsr := fcsrSet s.me.fcsr fl }.putG d (BitVec.ofNat 64 v))
    ((∃ j ∈ l, (x j).isFin = false) → fcsrNanTrap s.me.fcsr = false → gives 0xFF flNV) ∧
    ((∀ j ∈ l, (x j).isFin = true) →
      ((∀ j ∈ l, (x j).isZero = true) → gives 127 0) ∧
      ((∃ j ∈ l, (x j).isZero = false) → (∀ e < 255, fits e → (∀ e' < e, ¬ fits e') → gives e 0) ∧ ((∀ e < 255, ¬ fits e) → gives 254 flOF)))) ∧
  (∀ (s : State) (d : VReg) (q : KReg) (a : VReg) (b : GReg) (f : Fmt) (rm : Rm) (t : QTgt) (o : Fmt), Steady s → s.me.vstart = 0 →
    (t, o) ∈ [(QTgt.s8, Fmt.s8), (.f8a, .f8a), (.f8b, .f8b)] → f.isArithFloat = true → fcsrNanTrap s.me.fcsr = false →
    (s.g b).extractLsb' 0 8 ≠ 0xFF →
    let y := fun j => if s.act q f.width j then (decodeF f (lane (s.v a) f.width j)).scale (127 - ((s.g b).toNat % 256 : Nat)) else .fin false 0 0
    let c := fun j => convV o (effRm s.me.fcsr rm) (y j)
    ∃ v : VWord, Completes (.vquant d q a b f rm t) s
        ({ s.me with fcsr := fcsrSet s.me.fcsr ((List.range (lanesOf f)).foldl (fun u j => u ||| (c j).2) 0) }.putV d v) ∧
      ∀ j < 128, lane v 8 j = if j < lanesOf f then (c j).1 % 256 else 0) ∧
  (∀ (m : Mode) (ys : List FV), ∃ b0 b1, (quadCode m ys).1 = [b0, b1] ∧ (quadDecode (b0 % 256 + 256 * (b1 % 256))).2 = false)

/-- R285-R288: a vector load through view 0 whose active elements all lie in local memory gives each active lane its bytes, little-endian, for
the region, strided and indexed forms; inactive elements are not accessed and keep their lanes. No write of the quantum is hidden from the core
there (log 58). -/
def Sys2Proof.Says.VectorLoads : Prop :=
  ∀ (s : State) (d x : VReg) (q : KReg) (a b : GReg) (f : Fmt) (rm : Rm) (i : Instr) (off : Nat → Word) (key : Nat → Nat), Steady s →
    s.me.vstart = 0 → f ≠ .o4 → (s.g a).extractLsb' 60 4 = 0 → s.myCore.advs = [] →
    let w := f.width
    (i = .vld d q a f rm false ∧ off = (fun j => BitVec.ofNat 64 (j * w / 8))) ∨
      (i = .vlds d q a b f rm false ∧ off = (fun (j : Nat) => BitVec.ofInt 64 ((j : Int) * (s.g b).toInt))) ∨
      (i = .vgather d q a x f rm false ∧ 32 ≤ w ∧ off = (fun j => BitVec.ofInt 64 (toSigned w (lane (s.v x) w j) * (w / 8 : Nat)))) →
    (∀ j < lanesOf f, s.act q w j = true →
      s.decodeAddr (ptrOff (s.g a) (off j)) (w / 8) .load = .ok (.loc (key j)) ∧ s.mem.poisoned (key j) (w / 8) = false ∧
        s.hidden s.cur.1 (key j) (w / 8) = false) →
    ∃ m : Memory, GivesLanesMem i s d q f (fun j => (leNat ((List.range (w / 8)).map (fun n => s.mem.byte (key j + n))), 0)) m ∧
      (∀ j, m.byte j = s.mem.byte j) ∧ m.full = s.mem.full ∧ m.poison = s.mem.poison

/-- R285-R288: a vector store through view 0 whose active elements all lie in local memory writes them one at a time in ascending order, no
register changes, and every byte outside the active elements is as before. -/
def Sys2Proof.Says.VectorStores : Prop :=
  ∀ (s : State) (d x : VReg) (q : KReg) (a b : GReg) (f : Fmt) (rm : Rm) (i : Instr) (off : Nat → Word) (key : Nat → Nat), Steady s → s.Inv →
    s.me.vstart = 0 → f ≠ .o4 → (s.g a).extractLsb' 60 4 = 0 → s.laneBusy s.me.colour = false →
    let w := f.width
    let n := w / 8
    let l := s.actLanes q w (lanesOf f)
    (i = .vst d q a f rm false ∧ off = (fun j => BitVec.ofNat 64 (j * w / 8))) ∨
      (i = .vsts d q a b f rm false ∧ off = (fun (j : Nat) => BitVec.ofInt 64 ((j : Int) * (s.g b).toInt))) ∨
      (i = .vscatter d q a x f rm false ∧ 32 ≤ w ∧ off = (fun j => BitVec.ofInt 64 (toSigned w (lane (s.v x) w j) * (w / 8 : Nat)))) →
    (∀ j ∈ l, s.decodeAddr (ptrOff (s.g a) (off j)) n .store = .ok (.loc (key j))) →
    CompletesMem i s s.me (l.foldl (fun m j => m.store (key j) n (lane (s.v d) w j)) s.mem) ∧
    ∀ k, (∀ j ∈ l, ¬ (key j ≤ k ∧ k < key j + n)) →
      (l.foldl (fun m j => m.store (key j) n (lane (s.v d) w j)) s.mem).byte k = s.mem.byte k

/-- R285-R288: vector loads and stores of local memory. -/
def Obligations.VectorMemory : Prop := Says.VectorLoads ∧ Says.VectorStores

/-- R273: a vector instruction that may not resume raises VSTART-BAD where VSTART is not 0, and a memory form where VSTART is beyond its lanes;
no vector register changes. -/
def Sys2Proof.Says.VstartBad : Prop :=
  ∀ (s : State) (d a b : VReg) (q k j : KReg) (g h : GReg) (f f' : Fmt) (rm : Rm) (sat : Bool) (i : Instr), s.me.vstart ≠ 0 →
    (i ∈ [Instr.vadd d q a b f rm sat, .vsub d q a b f rm sat, .vmul d q a b f rm sat, .vdiv d q a b f rm sat, .vmin d q a b f, .vmax d q a b f,
        .vabs d q a f sat, .vneg d q a f sat, .vsqrt d q a f rm, .vand d q a b f, .vor d q a b f, .vxor d q a b f, .vshl d q a b f, .vshr d q a b f,
        .vsha d q a b f, .vfma d q a b f rm, .vfms d q a b f rm, .vfnma d q a b f rm, .vcvt d q a f f' rm sat, .vcmpEq k q a b f, .vcmpNe k q a b f,
        .vcmpLt k q a b f, .vcmpLe k q a b f, .vcmpUnord k q a b f, .vsel d q a b f, .vmov d q a f, .vbcast d q g f, .vext g a h f, .viota d q g f,
        .vredSum g q a f rm sat, .vredMin g q a f rm sat, .vredMax g q a f rm sat, .vdot g q a b f rm sat, .vshuf d q a b f, .vrot d q a g f,
        .vpack d q a b f sat, .vunpack d q a g f, .kand k j q, .kor k j q, .kxor k j q, .knot k j, .kpop g j, .kset k g, .kget g j] ∨
      (i ∈ [Instr.vld d q g f rm false, .vst d q g f rm false, .vlds d q g h f rm false, .vsts d q g h f rm false] ∧ f ≠ .o4 ∧ (s.g g).extractLsb' 60 4 = 0 ∧ lanesOf f ≤ s.me.vstart.toNat)) →
    ∃ t, exec i s = .next t ∧ t.me.st = .free ∧ t.me.trap.cause = Cause.vstartBad.word false ∧ t.me.trap.tval = s.me.vstart.setWidth 64 ∧
      t.me.v = s.me.v ∧ t.me.k = s.me.k ∧ t.me.g = s.me.g ∧ t.me.fcsr = s.me.fcsr

/-- R71, R273, R274: NAN-FIRST and VSTART-BAD. -/
def Obligations.VectorTraps : Prop := Says.NanFirstTraps ∧ Says.VstartBad

/-! ### The units that a core's instructions act on -/

/-- An instruction of the running context retires in sequence from `s` to `t` with `v` in `d` (g0 discards it) and no other general register,
no vector, mask, view, channel or trap register changed; what it does beside is stated of `t`. -/
def Sys2Proof.RetiresWith (i : Instr) (s t : State) (d : GReg) (v : Word) : Prop :=
  exec i s = .next t ∧ t.me.ip = nextIp s.me.latch.nh s.me.ip ∧ t.me.st = s.me.st ∧ (∀ r, t.g r = if r = d ∧ d ≠ 0 then v else s.g r) ∧
    t.me.v = s.me.v ∧ t.me.k = s.me.k ∧ t.me.c = s.me.c ∧ t.me.view = s.me.view ∧ t.me.trap = s.me.trap ∧ t.me.fcsr = s.me.fcsr

/-- R309: MPUT writes a shadow pointer and its view, or the shape, once its check passes; MGET reads the shadow set; MPARAM-BAD leaves it. -/
def Sys2Proof.Says.MatrixParameters : Prop :=
  ∀ (s : State) (a d : GReg) (i : Fin 4) (j : Fin 7), s.me.activation.wayfarer = false →
    let x := s.g a
    let ok := if i.val = 3 then x.extractLsb' 27 37 = 0 ∧ 8 ≤ x.toNat % 65536 ∧ x.toNat % 65536 ≤ 16384 else s.ownLocal x = true
    (Steady s → Gives (.mget d j) s d (s.myCore.shadow.get j)) ∧
    (Steady s → ok → ∃ t, RetiresWith (.mput i a) s t 0 0 ∧ t.mem = s.mem ∧ ∀ n : Fin 7, t.myCore.shadow.get n =
      if n.val = i.val then x else if i.val < 3 ∧ n.val = 4 + i.val then s.viewOf x else s.myCore.shadow.get n) ∧
    (¬ ok → ∃ t, exec (.mput i a) s = .next t ∧ t.me.st = .free ∧ t.me.trap.cause = Cause.mparamBad.word false ∧ t.me.trap.tval = x ∧
      t.myCore.shadow = s.myCore.shadow)

/-- R295, R296, R298, R305, R310: a member whose clasp has closed completes its MGANG with the target serial, or aborts with GANG-MISMATCH; in
deterministic mode a member that may join, with no MGANG of its core issued before it, joins with its snapshot and parks, and one that has waited joins
with the snapshot that it took when it issued. -/
def Sys2Proof.Says.GangForms : Prop :=
  ∀ (s : State) (d a : GReg) (tag : BitVec 16) (v : Nat) (k : Nat), s.me.activation.wayfarer = false →
    let r := s.ring (clusOf s.cur.1)
    let m : Member := ⟨s.cur.1, s.cur.2.val, s.myCore.shadow.toList, tag, s.g a⟩
    (Steady s → r.result s.cur.1 s.cur.2.val = some (false, v) → ∃ t, RetiresWith (.mgang d a tag) s t d (BitVec.ofNat 64 v) ∧ t.mem = s.mem ∧
      (t.ring (clusOf s.cur.1)).result s.cur.1 s.cur.2.val = none) ∧
    (r.result s.cur.1 s.cur.2.val = some (true, v) → ∃ t, exec (.mgang d a tag) s = .next t ∧ t.me.st = .free ∧
      t.me.trap.cause = Cause.gangMismatch.word false ∧ t.me.trap.tval = BitVec.ofNat 64 v ∧ t.me.g = s.me.g) ∧
    (r.result s.cur.1 s.cur.2.val = none → r.forming.any (fun x => x.core == s.cur.1) = false → ¬ (r.running.isSome ∧ r.closed.isSome) →
      isLocal (s.g a) = true → spaceOf (s.g a) = 2 → s.decodeAddr (s.g a) 8 .load = .ok (.loc k) → (s.g a).toNat % 16 = 0 → s.checkOp m = none →
      s.lanesMine = false → s.me.failed = [] → s.detAt s.cur.1 = true → (∀ x ∈ r.queue, x.core ≠ s.cur.1) →
      ∃ t, exec (.mgang d a tag) s = .next t ∧ t.me.st = .parked ∧
        t.me.await = .clasp (s.g a) ∧ (t.ring (clusOf s.cur.1)).forming = r.forming ++ [m] ∧ t.me.g = s.me.g ∧ t.me.ip = s.me.ip ∧ t.mem = s.mem) ∧
    (∀ w, r.result s.cur.1 s.cur.2.val = none → r.forming.any (fun x => x.core == s.cur.1) = false → ¬ (r.running.isSome ∧ r.closed.isSome) →
      r.queue.find? (fun x => x.core == s.cur.1) = some w → w.ctx = s.cur.2.val → s.lanesMine = false → s.me.failed = [] → s.detAt s.cur.1 = true →
      ∃ t, exec (.mgang d a tag) s = .next t ∧ t.me.st = .parked ∧ (t.ring (clusOf s.cur.1)).forming = r.forming ++ [w] ∧ t.me.g = s.me.g ∧
        t.me.ip = s.me.ip ∧ t.mem = s.mem)

/-- R312, R313: MWAIT completes with no register and no byte changed once the barrier's serial is reached and its status is clean, and parks before; MSTAT gives
the status word. No write of the quantum to the barrier is hidden from the core (log 58). -/
def Sys2Proof.Says.BarrierForms : Prop :=
  ∀ (s : State) (a b d : GReg) (k l : Nat), Steady s → s.me.activation.wayfarer = false → s.myCore.advs = [] →
    let p := s.g a
    let serial : BitVec 32 := BitVec.ofNat 32 (s.mem.read k 8 / 2 ^ 32)
    let want : BitVec 32 := (s.g b).setWidth 32
    isLocal p = true → spaceOf p = 2 → s.decodeAddr p 8 .load = .ok (.loc k) → p.toNat % 16 = 0 →
    s.decodeAddr (ptrOff p 8) 8 .load = .ok (.loc l) → s.mem.poisoned k 8 = false → s.mem.poisoned l 8 = false →
    s.hidden s.cur.1 k 8 = false → s.hidden s.cur.1 l 8 = false →
    ((s.mem.read l 8).testBit 63 = false → ReadsInto (.mstat d a) s (s.me.putG d (BitVec.ofNat 64 (s.mem.read l 8)))) ∧
    ((serial - want).toNat < 2 ^ 31 → (s.mem.read l 8).testBit 63 = false → (fcsrNanTrap s.me.fcsr = false ∨ s.mem.read l 8 / 2 ^ 57 % 8 = 0) →
      ReadsInto (.mwait a b) s s.me) ∧
    (¬ (serial - want).toNat < 2 ^ 31 → ∃ t, exec (.mwait a b) s = .next t ∧ t.me.st = .parked ∧ t.me.await = .phase p want ∧ t.me.g = s.me.g ∧
      t.me.ip = s.me.ip ∧ ∀ j, t.mem.byte j = s.mem.byte j) ∧
    ((s.mem.read l 8).testBit 63 = true → ∃ t, exec (.mstat d a) s = .next t ∧ t.me.st = .free ∧
      t.me.trap.cause = Cause.matrixDataError.word false ∧ t.me.trap.tval = p ∧ t.me.g = s.me.g)

/-- R296, R305, R309, R310, R312, R313: the matrix unit's instructions. -/
def Obligations.MatrixForms : Prop := Says.MatrixParameters ∧ Says.GangForms ∧ Says.BarrierForms

/-- R322: a CPREQ whose record can be read and passes the checks, on a core with room in its board and a free request number, enters an ISSUED
entry in the board and sends its request to the streamer that R317 chooses. -/
def Sys2Proof.Says.CopyRequest : Prop :=
  ∀ (s : State) (a : GReg) (r : List Word) (str : Nat), Steady s → s.myCore.board.length < 64 → (s.g a).toNat % 8 = 0 →
    s.readWords (s.g a) [] 14 = .ok r s → s.checkLayout (s.g a) r (s.viewOf (r.getD 0 0)) (s.viewOf (r.getD 1 0)) = .ok () s →
    s.strChoose (r.getD 0 0) (r.getD 1 0) = .ok str s → s.lanesMine = false → s.me.failed = [] →
    (s.ep s.cur.1).backlog = [] → (s.ep s.cur.1).canSend (4096 + strEng str) = true →
    ∃ t o, RetiresWith (.cpreq a) s t 0 0 ∧ t.mem = s.mem ∧
      t.myCore.board = s.myCore.board ++ [⟨s.me.tag, recId r, r.getD 11 0 != 0, .issued, 0, s.me.msgId, [], s.timeAt s.cur.1⟩] ∧
      (t.ep s.cur.1).out = (s.ep s.cur.1).out ++ [o] ∧ o.dest = 4096 + strEng str ∧
      o.body = .copy s.cur.1 s.cur.2.val s.me.tag s.me.activation.m.msg.env.gen r (s.viewOf (r.getD 0 0)) (s.viewOf (r.getD 1 0))

/-- R325, R321: CPTEST gives the word of an entry and frees it in a final state, but for one with DONEIP set that a CPWAIT has yet to return; CPWAIT
parks before a final state, else gives the word and frees the entry; an id of no entry raises XFER-ID-BAD. -/
def Sys2Proof.Says.CopyTests : Prop :=
  ∀ (s : State) (d a : GReg) (e : BoardE),
    let id := s.g a
    let free := s.myCore.board.filter (fun x => !(x.tag == e.tag && x.xferid == e.xferid))
    let word : Word := BitVec.ofNat 64 (e.bytes % 2 ^ 40 * 256 + e.st.code)
    (id ≠ 0 → id.toNat < 65536 → s.myCore.entry s.me.tag id.toNat = some e →
      (Steady s → e.st.final = false → Gives (.cptest d a) s d word) ∧
      (Steady s → e.st.final = true → e.doneip = true → e.waiters ≠ [] → Gives (.cptest d a) s d word) ∧
      (Steady s → e.st.final = true → e.doneip = false ∨ e.waiters = [] →
        ∃ t, RetiresWith (.cptest d a) s t d word ∧ t.mem = s.mem ∧ t.myCore.board = free) ∧
      (Steady s → e.st.final = true → e.waiters = [] ∨ e.waiters = [(s.cur.2.val, s.me.msgId)] →
        ∃ t, RetiresWith (.cpwait d a) s t d word ∧ t.mem = s.mem ∧ t.myCore.board = free) ∧
      (e.st.final = false → ∃ t, exec (.cpwait d a) s = .next t ∧ t.me.st = .parked ∧ t.me.await = .xfer id ∧ t.me.g = s.me.g ∧
        t.me.ip = s.me.ip ∧ t.mem = s.mem)) ∧
    (id = 0 ∨ 65536 ≤ id.toNat ∨ s.myCore.entry s.me.tag id.toNat = none → ∀ i : Instr, i = .cptest d a ∨ i = .cpwait d a →
      ∃ t, exec i s = .next t ∧ t.me.st = .free ∧ t.me.trap.cause = Cause.xferIdBad.word false ∧ t.me.trap.tval = id ∧ t.me.g = s.me.g)

/-- R321, R322, R325: the streamer's instructions. -/
def Obligations.CopyForms : Prop := Says.CopyRequest ∧ Says.CopyTests

/-- R356: LVCMP compares two levels serially, and reads no board; its four examples. -/
def Obligations.LevelComparison : Prop :=
  (∀ (s : State) (d a b : GReg) (off : BitVec 16), Steady s →
    let x : BitVec 32 := (s.g a).setWidth 32
    let y : BitVec 32 := (s.g b).setWidth 32 + off.signExtend 32
    Gives (.lvcmp d a b off) s d (if (x - y).toNat < 2 ^ 31 then 1 else 0)) ∧
  (∀ s : State, Steady s → s.g 2 = 2 → s.g 10 = 0xFFFFFFFE →
    Gives (.lvcmp 9 2 10 0) s 9 1 ∧ Gives (.lvcmp 9 10 2 0) s 9 0 ∧ Gives (.lvcmp 9 2 10 4) s 9 1 ∧ Gives (.lvcmp 9 2 10 5) s 9 0) ∧
  decode 0xCA48 0x12840000 = .ok (.lvcmp 9 2 10 0)

/-- R354, R357, R348: LVREAD and LVSTAT give the fields of a bound block and its front outside deterministic mode, and their unbound words;
LVFREEZE and LVTHAW give the front's state and apply the transition of R348. -/
def Sys2Proof.Says.FrontReads : Prop :=
  ∀ (s : State) (d a : GReg), Steady s → s.myPart.fevs = [] → s.detAt s.cur.1 = false →
    let p := s.pOf s.cur.1
    let setD := fun (i : Instr) (v : Word) => ∃ t, RetiresWith i s t d v ∧ t.mem = s.mem ∧ t.fus = s.fus ∧ t.fronts = s.fronts
    (s.blkAt (s.g a) = none →
      Gives (.lvread d a) s d 0 ∧ Gives (.lvstat d a) s d 3 ∧ setD (.lvfreeze d a) 3 ∧ setD (.lvthaw d a) 3) ∧
    (∀ b, s.blkAt (s.g a) = some b →
      let bs := s.frontBlks p b.tag b.front
      let n := fun st => (bs.filter (fun e => e.2.st == st)).length
      let st := s.frontSt p b.tag b.front
      Gives (.lvread d a) s d (BitVec.ofNat 64 (b.st.code * 2 ^ 60 + b.stage % 256 * 2 ^ 52 + b.steplog % 32 * 2 ^ 47 + b.level.toNat)) ∧
      Gives (.lvstat d a) s d (BitVec.ofNat 64 (b.front % 2 ^ 16 * 2 ^ 48 + n .faulted % 2 ^ 16 * 2 ^ 32 + n .dispatched % 2 ^ 16 * 2 ^ 16 +
        (if ∀ e ∈ bs, e.2.st = .done then 4 else 0) + st.code)) ∧
      (∃ t, RetiresWith (.lvfreeze d a) s t d (BitVec.ofNat 64 st.code) ∧ t.fus = s.fus ∧ (st = .running → t.frontSt p b.tag b.front =
        if ∃ e ∈ bs, e.2.st = .dispatched then .freezing else .frozen)) ∧
      (∃ t, RetiresWith (.lvthaw d a) s t d (BitVec.ofNat 64 st.code) ∧ (st = .frozen → t.frontSt p b.tag b.front = .running) ∧
        (st ≠ .frozen → t.fus = s.fus ∧ t.fronts = s.fronts)))

/-- R351, R353, R355: LVBIND of a record that passes every check binds the block from it and gives the number of its unbound neighbours; LVUNBIND
frees a block that may be freed and gives 0, else gives 0x10 plus its state; LVCOMMIT of the dispatched block, once every earlier store and copy
is performed, publishes the new level. Outside deterministic mode, where bindings of one cycle go in the order of R334: out of its turn LVUNBIND issues
again with nothing changed. -/
def Sys2Proof.Says.FrontChanges : Prop :=
  ∀ (s : State) (d a b : GReg) (front : BitVec 16) (r : List Word) (x : Blk) (id : Nat), Steady s → s.detAt s.cur.1 = false →
    let p := s.pOf s.cur.1
    let n := (s.g b).toNat
    let y := s.blkOf p r n front.toNat
    let turn := s.inTurn (some (0x2000 + p)) s.cur.1 s.cur.2.val
    (turn = true → (s.g a).toNat % 8 = 0 → s.readWords (s.g a) [] 15 = .ok r s → n < 32768 → n / 4096 = s.lnum s.cur.1 / 512 → s.checkRecord r n = none →
      s.blk p n = none → (∀ e ∈ s.blks p, y.names e.1 ∨ e.2.names n → pairBad y n e.2 e.1 = false) →
      p ≤ s.fuOf p n → s.fuOf p n < p + (s.part p).dies →
      ∃ t, RetiresWith (.lvbind d a b front) s t d (BitVec.ofNat 64 (y.nbrs.filter (fun m => (s.blk p m.id).isNone)).length) ∧ t.mem = s.mem ∧
        t.blk p n = some { y with st := if ∃ m ∈ y.nbrs, s.blk p m.id = none then .pending
          else if y.endv = true ∧ y.level = y.endl then .done else .waiting }) ∧
    (turn = true → s.blkAt (s.g a) = none → Gives (.lvunbind d a) s d 0x10) ∧
    (turn = true → s.blkAt (s.g a) = some x →
      let free := x.st = .pending ∨ x.st = .done ∨ (s.frontSt p x.tag x.front = .frozen ∧ (x.st = .waiting ∨ x.st = .faulted))
      (¬ free → Gives (.lvunbind d a) s d (BitVec.ofNat 64 (16 + x.st.code))) ∧
      (free → ∃ t, RetiresWith (.lvunbind d a) s t d 0 ∧ t.mem = s.mem ∧ t.blk p (s.g a).toNat = none)) ∧
    (turn = false → ∃ t, exec (.lvunbind d a) s = .next t ∧ t.me.ip = s.me.ip ∧ t.me.st = s.me.st ∧ t.me.g = s.me.g ∧ t.fus = s.fus ∧ t.mem = s.mem) ∧
    (s.me.activation.m.msg.info = .dispatch id → (s.g a).toNat = id → s.blkAt (s.g a) = some x → s.me.activation.committed = false →
      s.me.act.isSome = true → (s.g b).setWidth 32 = x.level + x.step → s.lanesMine = false → s.me.failed = [] → s.copiesDone s.me.activation = true →
      ∃ t, RetiresWith (.lvcommit a b) s t 0 0 ∧ t.me.activation.committed = true ∧ ∃ z, t.blk p id = some z ∧ z.level = x.level + x.step ∧ z.st = x.st)

/-- R348, R351, R353-R355, R357: the front unit's instructions. -/
def Obligations.FrontForms : Prop := Says.FrontReads ∧ Says.FrontChanges

/-- R384, R385, R137: RFENCE completes with nothing changed where no covered colour has a store outstanding or dropped, parks where one is outstanding,
and raises WINDOW-BROKEN where one was dropped, clearing the covered records. WSTAT and WSEQ through a translation the context holds give the
entry's words, or 0 for a page that is no transmit page; where a store of the core to the page fails another check than W they raise PAGE-PROT, so
on a receive page, where a core stores nothing. That a link with no key in either slot counts as in KEY-HOLD is the model's reading (log 67). -/
def Obligations.WindowForms : Prop :=
  ∀ (s : State) (d a : GReg) (mask : BitVec 8) (x : TlbE),
    let covered := fun (c : Nat) => c < 8 ∧ mask.getLsbD c = true
    let out := ∃ c, covered c ∧ get8 s.me.wout c ≠ 0
    (Steady s → ¬ out → (∀ c, covered c → s.me.drop c = none) → Completes (.rfence mask) s s.me) ∧
    (out → ∃ t, exec (.rfence mask) s = .next t ∧ t.me.st = .parked ∧ t.me.await = .rfence ∧ t.me.g = s.me.g ∧ t.me.ip = s.me.ip ∧ t.mem = s.mem) ∧
    (¬ out → ∀ c w, covered c → s.me.drop c = some w → (∀ j < c, covered j → s.me.drop j = none) →
      ∃ t, exec (.rfence mask) s = .next t ∧ t.me.st = .free ∧ t.me.trap.cause = Cause.windowBroken.word false ∧ t.me.trap.tval = w ∧
        ∀ j < 8, t.me.drop j = if mask.getLsbD j then none else s.me.drop j) ∧
    (isLocal (s.g a) = false → s.me.tlbHit (vaOf (s.g a)) = some x →
      pteRxw x.pte = true ∨ s.checkAttr (s.pOf s.cur.1) 4 (x.pte ||| 8) .store ≠ none →
      ∀ i ∈ [Instr.wstat d a, .wseq d a], ∃ t, exec i s = .next t ∧ t.me.st = .free ∧ t.me.trap.cause = Cause.pageProt.word false ∧
        t.me.trap.tval = s.g a) ∧
    (Steady s → isLocal (s.g a) = false → s.me.tlbHit (vaOf (s.g a)) = some x →
      s.checkAttr (s.pOf s.cur.1) 4 (x.pte ||| 8) .store = none →
      let e := s.went (winXd x.pte) (winEntry x.pte)
      let l := s.link e.link
      let bit := fun (c : Bool) (k : Nat) => if c then 2 ^ k else 0
      Gives (.wseq d a) s d (if pteTxw x.pte then BitVec.ofNat 64 (e.acked.toNat * 2 ^ 32 + e.sent.toNat) else 0) ∧
      Gives (.wstat d a) s d (if pteTxw x.pte then BitVec.ofNat 64 (2 ^ 63 + bit e.loop 62 + bit e.broken 61 + bit (!e.loop && (l.tx.hold || (l.tx.slot0.isNone && l.tx.slot1.isNone))) 60 +
        bit (!e.loop && !l.up) 59 + e.link % 16 * 2 ^ 55 + winXd x.pte * 2 ^ 54 + winEntry x.pte * 2 ^ 45 + e.tpkg % 4096 * 2 ^ 33 +
        e.trxw % 1024 * 2 ^ 23 + e.size % 2 ^ 22) else 0))

/-- R401-R403: RLCRUN of a block that can be read and passes CheckBlock gives 1 where the core has a command already and else queues its command
behind the running one, or at an idle controller starts it with FACTOR on the cores of its mask, and gives 0; RLCNORM outside a phase that may report gives 0 and inside one gives 1, its report kept; RLCSTAT gives the
word of the core's latest command; RLCSTOP gives the same word and removes a queued command with exit code 6. -/
def Obligations.RefinementForms : Prop :=
  ∀ (s : State) (d a : GReg) (b hi : List Word) (k14 k15 : List Nat) (clr serial : Nat), Steady s →
    let cl := clusOf s.cur.1
    let ctl := s.rlc cl
    let p := s.g a
    (p.toNat % 8 = 0 → s.rlcPtrOk p = true → s.readWords p [] 14 = .ok b s → s.storeKeys (ptrOff p 112) = .ok k14 s →
      s.storeKeys (ptrOff p 120) = .ok k15 s → s.readWords (ptrOff p 128) [] 16 = .ok hi s → blockBadRlc s.myTask b hi = false →
      (s.rlcBusy = true → Gives (.rlcrun d a) s d 1) ∧
      (s.rlcBusy = false → s.lanesMine = false → s.me.failed = [] →
        let c : RCmd := ⟨b, p, k14, k15, s.me.tag, s.me.activation.m.msg.env.gen, s.cur.1, s.cur.2.val⟩
        (s.detAt (16 * cl) = true → ∃ t, RetiresWith (.rlcrun d a) s t d 0 ∧ t.mem = s.mem ∧ (t.rlc cl).pend = ctl.pend ++ [.cmd c]) ∧
        (s.detAt (16 * cl) = false → ctl.run.isSome = true → ∃ t, RetiresWith (.rlcrun d a) s t d 0 ∧ t.mem = s.mem ∧
          (t.rlc cl).queue = ctl.queue ++ [c]) ∧
        (s.detAt (16 * cl) = false → ctl.run = none → ctl.queue = [] → (s.part (s.pOf (16 * cl))).pre = .running →
          ∃ t r, RetiresWith (.rlcrun d a) s t d 0 ∧ t.mem = s.mem ∧ (t.rlc cl).run = some r ∧ r.cmd = c ∧ r.phase = .factor ∧ r.rung = 0 ∧
            r.i = 0 ∧ r.serial = ctl.serial + 1 ∧
            r.sent = ((List.range 16).filter (fun k => (b.getD 7 0).getLsbD k)).map (fun k => (r.serial, k))))) ∧
    (s.lanesMine = false → s.me.failed = [] → s.rlcReportable = none → Gives (.rlcnorm d a) s d 0) ∧
    (s.lanesMine = false → s.me.failed = [] → s.rlcReportable = some (clr, serial) → s.me.act.isSome = true → s.detAt (16 * clr) = true →
      ∃ t, RetiresWith (.rlcnorm d a) s t d 1 ∧ t.mem = s.mem ∧ t.me.activation.reported = true ∧
        (t.rlc clr).pend = (s.rlc clr).pend ++ [.report (s.me.activation.core % 16) serial (s.g a)]) ∧
    (∀ r k, s.lanesMine = false → s.me.failed = [] → s.rlcReportable = some (clr, serial) → s.me.act.isSome = true → s.detAt (16 * clr) = false →
      (s.rlc clr).run = some r → r.stop = none → k < 16 → (r.cmd.mask r.phase).testBit k = true → k ≠ s.me.activation.core % 16 →
      AMap.find r.reports k = none →
      ∃ t r', RetiresWith (.rlcnorm d a) s t d 1 ∧ t.mem = s.mem ∧ t.me.activation.reported = true ∧ (t.rlc clr).run = some r' ∧
        AMap.find r'.reports (s.me.activation.core % 16) = some (s.g a)) ∧
    (∀ l, AMap.find ctl.latest s.cur.1 = some l →
      let word : Word := if l.ptr ≠ p then 0 else BitVec.ofNat 64 (2 ^ 63 + l.exit % 256 * 2 ^ 48 + l.iter % 2 ^ 32 * 2 ^ 16 + l.rung % 256 * 2 ^ 8 +
        s.rlcPhase * 16 + l.st.code)
      Gives (.rlcstat d a) s d word ∧
      (¬ (l.ptr = p ∧ (l.st = .queued ∨ l.st = .running)) → Gives (.rlcstop d a) s d word) ∧
      (∀ c rest, l.ptr = p → l.st = .queued → s.detAt (16 * cl) = false → ctl.run = none → ctl.queue = c :: rest → c.core = s.cur.1 →
        ∃ t, RetiresWith (.rlcstop d a) s t d word ∧ (t.rlc cl).queue = rest ∧
          AMap.find (t.rlc cl).latest s.cur.1 = some ⟨c.ptr, .ended, 6, 0, 0⟩)) ∧
    (AMap.find ctl.latest s.cur.1 = none → Gives (.rlcstat d a) s d 0 ∧ Gives (.rlcstop d a) s d 0)

/-! ### Reset, firmware and the leader -/

/-- R427, R447, R450: MODULE_RESET keeps what flash holds, starts TIME at 0, leaves every interface, router, home, ring and controller at reset,
and ends in recovery, memory outside the package as it was, without an image that passes the boot check, else runs it: its digest is
measured, and of the firmware cores that reach a majority the first leads, and those that it does not reach have no lease; every partition is then
legal and of usable dies, and the fences are those of R246. Where none reaches a majority all have lost their leases and say so, and no partition is
made. Which cores a firmware core reaches is what it last found, or all of them (log 68). That the first core of a majority leads at epoch 1 (log 27), that
memory outside the package stands over a reset (log 28), the words in firmware's log (log 32) and that FLASH_REWRITE acts only after a boot from SRAM (log 36)
are the model's choices or readings too. RECOVERY_IMAGE_WRITE runs an image that passes from SRAM and
changes nothing for another, and FLASH_REWRITE, which only the SRAM image may do, replaces the image in flash. -/
def Obligations.BootEvents : Prop :=
  ∀ (s : State) (bad : BitVec 8) (img : FwImage) (ok : Bool),
    let known := fun (m : Nat) => if (s.fw m).group = 0 then (0x3FF : BitVec 10) else (s.fw m).group
    let meets := fun (n : Nat) => (List.range 10).filter (fun m => m == n || ((known n).getLsbD m && (known m).getLsbD n))
    let up := fun (t : State) (i : FwImage) (b : Boot) => t.pkg.boot = b ∧ t.pkg.fwDigest = Config.sha512 i.body ∧
      (∀ n < 10, 6 ≤ (meets n).length → (∀ m < n, (meets m).length < 6) → (t.fw n).leader = true ∧ (t.fw n).epoch = 1 ∧
        (∀ m < 10, m ≠ n → (t.fw m).leader = false) ∧ ∀ m < 10, ((t.fw m).lost = true ↔ m ∉ meets n)) ∧
      ((∀ n < 10, (meets n).length < 6) → ∀ m < 10, (t.fw m).lost = true ∧ (t.fw m).leader = false)
    (∃ t, exec (.moduleReset bad) s = .next t ∧ t.pkg.flash = s.pkg.flash ∧ t.pkg.fwVersion = s.pkg.fwVersion ∧ t.pkg.badDies = bad ∧
      t.time = 0 ∧ t.eps = [] ∧ t.routers = [] ∧ t.homes = [] ∧ t.rings = [] ∧ t.rlcs = [] ∧ t.links = [] ∧
      match s.pkg.flash with
      | none => t.pkg.boot = .recovery ∧ t.parts = [] ∧ t.cores = [] ∧ t.mem = s.mem.initial
      | some i =>
        if s.bootCheck i = true then up t i .running ∧
          (∀ e ∈ t.parts, legalPart (e.1, e.2.dies) = true ∧ ∀ d ∈ diesOf (e.1, e.2.dies), bad.getLsbD d = false) ∧
          (∀ n < 10, 6 ≤ (meets n).length → t.fences = t.fenced) ∧
          ((∀ n < 10, (meets n).length < 6) → t.parts = [] ∧
            t.pkg.fwlog = ((List.range 8).filter (fun d => bad.getLsbD d)).map (fun d => [BitVec.ofNat 64 d]) ++
              (List.range 10).map (fun m => [BitVec.ofNat 64 m, Cause.leaseLost.word false, (known m).setWidth 64]))
        else t.pkg.boot = .recovery ∧ t.parts = [] ∧ t.cores = [] ∧ t.mem = s.mem.initial) ∧
    (∃ t, exec (.recoveryImageWrite img) s = .next t ∧
      if s.pkg.boot = .recovery ∧ s.bootCheck img = true then up t img .sram ∧ t.pkg.flash = s.pkg.flash ∧ t.time = s.time ∧
        (∀ n < 10, s.parts = [] → 6 ≤ (meets n).length → t.fences = t.fenced) else t = s) ∧
    (s.pkg.boot = .sram → ∃ t, exec (.flashRewrite img ok) s = .next t ∧
      t.pkg.flash = (if ok then some img else none) ∧ t.pkg.boot = s.pkg.boot ∧ t.mem = s.mem ∧ t.cores = s.cores ∧ t.parts = s.parts) ∧
    (s.pkg.boot ≠ .sram → exec (.flashRewrite img ok) s = .next s)

/-- R22-R25, R28-R30, R418, R419: PARTITION_CONFIGURE of a legal configuration leaves its partitions and no other, and the fences of R246;
MODE_SELECT writes a mode of an idle partition or module and no other. -/
def Obligations.ConfigurationEvents : Prop :=
  ∀ (s : State) (p : Nat) (P : Part) (a : Bool) (l : List (Nat × Nat)) (g : List (Nat × Nat × Nat)), s.hasLeader = true →
    let kept := (s.parts.filter (fun e => l.contains (e.1, e.2.dies) && !g.any (fun x => x.1 == e.1))).flatMap (fun e => e.2.second)
    (s.legalConfig l = true → legalGrants l g kept = true → (∀ e ∈ s.parts, s.launched e.1 = false) →
      ∃ t, exec (.partitionConfigure l g) s = .next t ∧ (∀ e ∈ t.parts, (e.1, e.2.dies) ∈ l) ∧
        (∀ q ∈ l, (AMap.find t.parts q.1).isSome = true) ∧ t.fences = t.fenced ∧ t.pkg = s.pkg ∧ t.time = s.time) ∧
    (AMap.find s.parts p = some P → s.launched p = false →
      let sets := fun (fn : ModeFn) (P' : Part) => ∃ t, exec (.modeSelect p fn a) s = .next t ∧ AMap.find t.parts p = some P' ∧
        (∀ q, q ≠ p → AMap.find t.parts q = AMap.find s.parts q) ∧ t.pkg = s.pkg ∧ t.cores = s.cores ∧ t.mem = s.mem
      sets .pageFault { P with pfHost := a } ∧ sets .trapDisp { P with trapHost := a } ∧ sets .launchSpread { P with spreadHost := a }) ∧
    (s.idleAll = true →
      let sets := fun (fn : ModeFn) (k : Pkg) => ∃ t, exec (.modeSelect p fn a) s = .next t ∧ t.pkg = k ∧ t.parts = s.parts ∧ t.cores = s.cores ∧
        t.mem = s.mem
      sets .power { s.pkg with powerHost := a } ∧ sets .keys { s.pkg with keysHost := a } ∧ sets .leader { s.pkg with leaderHost := a })

/-- R418, R419, R427: a leader renews for 1 ms the lease of each firmware core that it reaches and that reaches it, which takes packets again, while it
reaches six or holds the host's lease, and renews none otherwise; a firmware core records the group that it finds, and once it has seen its lease
lapsed for its rank delay asks those of a group of six or more that reach it for votes of the next epoch, and in a smaller group has lost its lease; a
vote is given once an epoch, and the sixth makes the candidate lead; the host designates a leader after a 5/5 split. In recovery no firmware core runs an
image, and none of this happens. That a leader without a majority renews nothing, that a renewal goes only to cores that reach each other, and that the
host's lease does not lapse is the model's reading (log 27). -/
def Obligations.LeaderEvents : Prop :=
  ∀ (s : State) (n : Nat), n < 10 →
    let f := s.fw n
    let till := s.time + 2000000
    let meets := fun (m : Nat) => m = n ∨ (f.group.getLsbD m = true ∧ (s.fw m).group.getLsbD n = true)
    let size := ((List.range 10).filter (fun m => decide (meets m))).length
    (s.pkg.boot = .recovery → ∀ g k, exec (.leaseRenew n) s = .next s ∧ exec (.leaseLapse n g) s = .next s ∧ exec (.voteRequest n) s = .next s ∧
      exec (.leaderDesignate k) s = .next s) ∧
    (s.pkg.boot ≠ .recovery →
    (f.leader = true → f.expiry ≤ s.time + 1500000 →
      (f.host = true ∨ (s.time < f.expiry ∧ 6 ≤ size) → ∃ t, exec (.leaseRenew n) s = .next t ∧
        (∀ m < 10, t.fw m = if meets m then { s.fw m with expiry := till, lost := false, leader := decide (m = n) } else s.fw m) ∧
        t.pkg = s.pkg ∧ t.mem = s.mem ∧ t.parts = s.parts) ∧
      (f.host = false → size < 6 → exec (.leaseRenew n) s = .next s)) ∧
    (∀ g : BitVec 10, g.getLsbD n = true →
      let wide := ((List.range 10).filter (fun m => g.getLsbD m)).length
      (s.time < f.expiry + 20000 * n → ∃ t, exec (.leaseLapse n g) s = .next t ∧ t.fw n = { f with group := g } ∧ ∀ m, m ≠ n → t.fw m = s.fw m) ∧
      (s.pkg.leaderHost = false → f.expiry + 20000 * n ≤ s.time → f.retryAt ≤ s.time →
        (6 ≤ wide → ∃ t, exec (.leaseLapse n g) s = .next t ∧ (t.fw n).epoch = f.epoch + 1 ∧ (t.fw n).voted = f.epoch + 1 ∧ (t.fw n).votes = [n] ∧
          (t.fw n).leader = false ∧ (t.fw n).group = g ∧ ∀ m < 10, m ≠ n → t.fw m =
            if g.getLsbD m = true ∧ (s.fw m).group.getLsbD n = true then { s.fw m with asks := (s.fw m).asks ++ [(n, f.epoch + 1)] } else s.fw m) ∧
        (wide < 6 → f.host = false → ∃ t, exec (.leaseLapse n g) s = .next t ∧ (t.fw n).lost = true ∧ (t.fw n).leader = false ∧
          (t.fw n).group = g ∧ ∀ m, m ≠ n → t.fw m = s.fw m))) ∧
    (∀ c e rest, f.asks = (c, e) :: rest → c < 10 → c ≠ n →
      (e ≤ f.voted ∨ s.time < f.expiry → ∃ t, exec (.voteRequest n) s = .next t ∧ t.fw n = { f with asks := rest } ∧ ∀ m, m ≠ n → t.fw m = s.fw m) ∧
      (f.voted < e → f.host = false → f.expiry ≤ s.time → ∃ t, exec (.voteRequest n) s = .next t ∧ (t.fw n).voted = e ∧
        ((s.fw c).epoch = e → (s.fw c).leader = false → 5 ≤ (s.fw c).votes.length → n ∉ (s.fw c).votes →
          (t.fw c).leader = true ∧ (t.fw c).expiry = till))) ∧
    (∀ k, socketFw k = some n → (n = 8 ∨ ((s.fw 8).group.getLsbD n = true ∧ f.group.getLsbD 8 = true)) →
      (∀ m < 10, (s.fw m).lost = true ∧ ((List.range 10).filter (fun j => (s.fw m).group.getLsbD j)).length = 5) ∨ s.pkg.leaderHost = true →
      ∃ t, exec (.leaderDesignate k) s = .next t ∧ t.pkg.leaderReg = k ∧ (t.fw n).leader = true ∧ (t.fw n).host = true ∧ (t.fw n).expiry = till))

/-- R425, R426: the leader answers a request for measurement 1 to 3, or for the manifest of a partition's deterministic launch, with the signed
bytes; a key exchange begins for a direction without a key, and its end gives the direction the derived key and asks for the switch; in
host-assisted mode the host writes a slot; the first key of a direction goes into slot 0 (log 36). -/
def Obligations.KeyEvents : Prop :=
  ∀ (s : State) (n : Nat) (secret key : BitVec 256) (salt : BitVec 48) (slot : Bool),
    let l := s.link n
    let k : KeySlot := ⟨Config.deriveKey secret, Config.deriveSalt secret, 0⟩
    (s.hasLeader = true →
      (∀ i : BitVec 8, 1 ≤ i.toNat → i.toNat ≤ 3 → ∃ t, exec (.spdmRequest i) s = .next t ∧
        t.pkg.spdm = s.pkg.spdm ++ [signed (bytes512 (s.measure i.toNat))] ∧ t.mem = s.mem ∧ t.cores = s.cores) ∧
      (∀ (p : Nat) (P : Part), p < 8 → AMap.find s.parts p = some P → P.manifest ≠ [] → ∃ t,
        exec (.spdmRequest (BitVec.ofNat 8 (0x80 + p))) s = .next t ∧ t.pkg.spdm = s.pkg.spdm ++ [signed (s.manifestBytes P)] ∧ t.mem = s.mem) ∧
      (s.pkg.keysHost = false → l.up = true → l.tx.now = none → ∃ t, exec (.keyExchangeStart n true) s = .next t ∧
        t.link n = { l with exchTx := true } ∧ ∀ m, m ≠ n → t.link m = s.link m) ∧
      (s.pkg.keysHost = false → l.up = true → l.rx.now = none → ∃ t, exec (.keyExchangeStart n false) s = .next t ∧
        t.link n = { l with exchRx := true } ∧ ∀ m, m ≠ n → t.link m = s.link m) ∧
      (l.exchTx = true → l.sendq = [] → l.tx.slot0 = none → l.tx.slot1 = none → l.tx.bit = false → ∃ t,
        exec (.keyExchangeComplete n true secret) s = .next t ∧ (t.link n).exchTx = false ∧ (t.link n).tx.slot0 = some k ∧ (t.link n).tx.now = some k ∧
          (t.link n).tx.hold = false ∧ (t.link n).rx = l.rx) ∧
      (l.exchRx = true → l.sendq = [] → l.rx.slot0.isSome = true → l.rx.slot1 = none → l.rx.bit = false → ∃ t,
        exec (.keyExchangeComplete n false secret) s = .next t ∧ (t.link n).exchRx = false ∧ (t.link n).rx.slot1 = some k ∧ (t.link n).rx.switch = true ∧
          (t.link n).rx.slot0 = l.rx.slot0 ∧ (t.link n).tx = l.tx)) ∧
    (s.pkg.keysHost = true → l.sendq = [] → ∃ t, exec (.hostKeyWrite n true slot key salt) s = .next t ∧
      (if slot then (t.link n).tx.slot1 else (t.link n).tx.slot0) = some ⟨key, salt, 0⟩ ∧
      (if slot then (t.link n).tx.slot0 else (t.link n).tx.slot1) = (if slot then l.tx.slot0 else l.tx.slot1) ∧
      (t.link n).tx.switch = decide (slot ≠ l.tx.bit) ∧ (t.link n).rx = l.rx)

/-! ### Command queues -/

/-- R407-R409: QUEUE_RESUME clears ERR; PACKET_CHOOSE takes the first packet in the order of the queues, or stops the first queue in error with its
code and its vector: BAD-TAIL (2) where TAIL - HEAD exceeds the size, HOST-FAULT (3) where the packet at HEAD cannot be read, BAD-PACKET (1) where its KIND
is EXTENTS or none, or a NOP, END, INVAL or DISPOSE has a reserved bit of word 0 set, or an ACTION of 3; a NOP completes. A packet that completes moves HEAD past it and its EXTENTS packets. -/
def Obligations.QueueEvents : Prop :=
  ∀ (s : State) (p q : Nat) (P : Part), AMap.find s.parts p = some P →
    (∃ t P', exec (.queueResume p q) s = .next t ∧ AMap.find t.parts p = some P' ∧ (P'.q (q % 64)) = { P.q (q % 64) with err := 0 } ∧
      (∀ j, j ≠ q % 64 → P'.q j = P.q j) ∧ t.mem = s.mem ∧ t.cores = s.cores) ∧
    (∀ pre post, P.packet = none → s.leased p = true → queueOrder P.rr = pre ++ q :: post → (∀ j ∈ pre, s.lookQueue p j = .none) →
      (∀ w x, s.lookQueue p q = .packet w x → ∃ t, exec (.packetChoose p) s = .next t ∧
        AMap.find t.parts p = some { P with packet := some ⟨q, w, x⟩ } ∧ t.mem = s.mem ∧ t.cores = s.cores) ∧
      (∀ e, s.lookQueue p q = .fail e → ∃ t P', exec (.packetChoose p) s = .next t ∧ AMap.find t.parts p = some P' ∧ P'.packet = none ∧
        (P'.q q) = { P.q q with err := e.code } ∧ P'.msix = P.msix ++ [4 * p + 1] ∧ t.mem = s.mem ∧ t.cores = s.cores) ∧
      (let c := P.q q
       let n := (c.tail - c.head).toNat
       let stops := fun (e : Nat) => ∃ t P', exec (.packetChoose p) s = .next t ∧ AMap.find t.parts p = some P' ∧ P'.packet = none ∧
         (P'.q q) = { c with err := e } ∧ t.mem = s.mem ∧ t.cores = s.cores
       c.en = true → c.err = 0 → P.serves p q = true →
        (2 ^ c.sizelog < n → stops 2) ∧
        (0 < n → n ≤ 2 ^ c.sizelog → s.packetAt p c 0 = none → stops 3) ∧
        (∀ w, 0 < n → n ≤ 2 ^ c.sizelog → s.packetAt p c 0 = some w →
          let w0 := w.getD 0 0
          pkKind w = 2 ∨ 6 ≤ pkKind w ∨ (pkKind w = 0 ∧ bitsNat w0 0 60 ≠ 0) ∨ (pkKind w = 3 ∧ (bitsNat w0 49 11 ≠ 0 ∨ bitsNat w0 0 46 ≠ 0)) ∨
            (pkKind w = 4 ∧ bitsNat w0 0 60 ≠ 0) ∨ (pkKind w = 5 ∧ (bitsNat w0 2 58 ≠ 0 ∨ bitsNat w0 0 2 = 3)) → stops 1))) ∧
    (∀ k, P.packet = some k → pkKind k.words = 0 → ∃ t P', exec (.nopPacket p) s = .next t ∧ AMap.find t.parts p = some P' ∧ P'.packet = none ∧
      P'.rr = k.q ∧ (P'.q k.q) = { P.q k.q with head := (P.q k.q).head + 1 } ∧ t.mem = s.mem ∧ t.cores = s.cores) ∧
    (∀ k, ∃ P', AMap.find (s.packetDone p k).parts p = some P' ∧ P'.packet = none ∧
      (P'.q k.q) = { P.q k.q with head := (P.q k.q).head + BitVec.ofNat 32 (1 + pkExts k.words) })

/-- R54, R328, R412, R414, R415, R421: a LAUNCH that fails a check stops its queue with the code and installs nothing; one that waits for the host's page
stays the packet in hand, as does one that waits for an engine's use of the pages that could leave (log 17); one that passes installs the task, from the state in which its pages are present, on each core it uses whose entry is
INVALID and which has its features, VALID with the image's bounds and the next generation, leaves the entry of every other, and completes. END makes
the entry INVALID on every core of the partition, leaves the other entries, and completes when no activation of the task remains. INVAL waits for the
blocks that the streamers' channels have begun, then takes every TLB entry that overlaps the range from the partition's contexts, and no other. -/
def Obligations.PacketEvents : Prop :=
  ∀ (s : State) (p : Nat) (P : Part) (k : Packet), AMap.find s.parts p = some P → P.packet = some k →
    let cores := s.launchCores p (P.q k.q).die k.words
    let tag := pf k.words 46 3
    let va := (k.words.getD 1 0).toNat
    let n := (k.words.getD 2 0).toNat
    (∀ e, pkKind k.words = 1 → s.launchCheck p k cores = .fail e → ∃ t P', exec (.launch p) s = .next t ∧ AMap.find t.parts p = some P' ∧
      P'.packet = none ∧ (P'.q k.q) = { P.q k.q with err := e.code } ∧ t.cores = s.cores ∧ t.mem = s.mem) ∧
    (∀ s1, pkKind k.words = 1 → s.launchCheck p k cores = .later s1 → exec (.launch p) s = .next s1) ∧
    (∀ a s1, pkKind k.words = 1 → s.launchCheck p k cores = .ask a s1 → ∃ t, exec (.launch p) s = .next t ∧
      (t.part p).packet = (s1.part p).packet ∧ t.cores = s1.cores ∧ t.mem = s1.mem) ∧
    (∀ (im : Image) x s1 P1, pkKind k.words = 1 → s.launchCheck p k cores = .ok (im, x) s1 → AMap.find s1.parts p = some P1 → ∃ t P',
      exec (.launch p) s = .next t ∧ AMap.find t.parts p = some P' ∧ P'.packet = none ∧
      (P'.q k.q) = { P1.q k.q with head := (P1.q k.q).head + BitVec.ofNat 32 (1 + pkExts k.words) } ∧
      ∀ c ∈ cores, let e := (s1.core c).task tag
        (t.core c).task tag = if e.st = .invalid ∧ (s1.core c).featmask &&& im.featreq = im.featreq then
          ⟨.valid, im.base, im.lim, e.gen + 1, im.cline, im.featreq, im.budget, im.views, x, im.keepLo, im.keepHi, im.digest⟩ else e) ∧
    (pkKind k.words = 3 → ∃ t P', exec (.endPacket p) s = .next t ∧ AMap.find t.parts p = some P' ∧
      (∀ c, s.pOf c = p → ((t.core c).task tag).st = .invalid ∧ ∀ j, j % 8 ≠ tag → (t.core c).task j = (s.core c).task j) ∧
      (t.taskRuns p tag = true → P'.packet = some k) ∧
      (t.taskRuns p tag = false → P'.packet = none ∧ (P'.q k.q) = { P.q k.q with head := (P.q k.q).head + 1 })) ∧
    (pkKind k.words = 4 → va % 4096 ≠ 0 → ∃ t P', exec (.inval p) s = .next t ∧ AMap.find t.parts p = some P' ∧ (P'.q k.q).err = 1 ∧
      t.cores = s.cores) ∧
    (pkKind k.words = 4 → va % 4096 = 0 → (∃ c ∈ s.chansOf p, c.midBlock = true) → exec (.inval p) s = .next s) ∧
    (pkKind k.words = 4 → va % 4096 = 0 → (∀ c ∈ s.chansOf p, c.midBlock = false) → ∃ t P', exec (.inval p) s = .next t ∧ AMap.find t.parts p = some P' ∧ P'.packet = none ∧ t.mem = s.mem ∧
      ∀ c x, s.pOf c = p → (t.ctx c x).tlb = (s.ctx c x).tlb.filter (fun e => !(n == 0 || e.inRange (va % 2 ^ 60) n)))

/-- R416, R422, R423: RELEASE puts a held message first among those not held, DISCARD frees its slot, END ends its task: the entry is INVALID on every
core of the partition and the message's task is no more. A disposition by firmware does the first below RETRY aborts and the last from RETRY on, and
logs a record that holds no message; a write of TRHEAD moves it. That a DISPOSE of kind END completes at once, though activations of the task may still
run, is the model's reading (log 22). -/
def Obligations.DispositionEvents : Prop :=
  ∀ (s : State) (p : Nat) (P : Part) (k : Packet) (m : QMsg) (head : BitVec 32) (die : Nat) (r : TrapRec), AMap.find s.parts p = some P →
    let core := s.knum (512 * p) (bitsNat (k.words.getD 1 0) 0 12)
    let q := bitsNat (k.words.getD 1 0) 12 3
    let id := (k.words.getD 2 0).toNat
    let gone := ((s.core core).queue q).filter (fun x => x.slot != m.slot)
    let ended := fun (t : State) => (∀ c, s.pOf c = p → ((t.core c).task m.msg.env.tag).st = .invalid ∧
      ∀ j, j % 8 ≠ m.msg.env.tag % 8 → (t.core c).task j = (s.core c).task j)
    (P.packet = some k → pkKind k.words = 5 → s.mayDispose p = true → s.heldMsg core q id = some m → s.pOf core = p → q < 5 →
      (pf k.words 0 2 = 0 → ∃ t, exec (.disposeRelease p) s = .next t ∧
        (t.core core).queue q = gone.filter (·.held) ++ [{ m with held := false, since := s.timeAt core }] ++ gone.filter (fun x => !x.held)) ∧
      (pf k.words 0 2 = 1 → ∃ t, exec (.disposeDiscard p) s = .next t ∧ (t.core core).queue q = gone) ∧
      (pf k.words 0 2 = 2 → s.taskLive core m.msg = true → ∃ t P', exec (.disposeEnd p) s = .next t ∧ ended t ∧ t.taskLive core m.msg = false ∧
        (∀ x ∈ (t.core core).queue q, x.msg.env.tag ≠ m.msg.env.tag) ∧ AMap.find t.parts p = some P' ∧ P'.packet = none ∧
        (P'.q k.q) = { P.q k.q with head := (P.q k.q).head + 1 })) ∧
    (s.partKey die = p → P.trapHost = false → P.recs.find? (fun x => x.die == die) = some r →
      ((r.kindA = false ∨ r.held = false) → ∃ t P', exec (.trapDisposition die) s = .next t ∧ AMap.find t.parts p = some P' ∧
        P'.fwlog = P.fwlog ++ [r.words] ∧ P'.msix = P.msix ++ [4 * p + 3] ∧ P'.recs.length + 1 = P.recs.length ∧ t.cores = s.cores) ∧
      (r.kindA = true → r.held = true → s.mayDispose p = true → s.heldMsg r.core r.queue r.msgid = some m → r.queue < 5 →
        (AMap.get 0 P.aborts r.msgid + 1 < P.retry → ∃ t P', exec (.trapDisposition die) s = .next t ∧
          { m with held := false, since := s.timeAt r.core } ∈ (t.core r.core).queue r.queue ∧ AMap.find t.parts p = some P' ∧
          AMap.get 0 P'.aborts r.msgid = AMap.get 0 P.aborts r.msgid + 1) ∧
        (P.retry ≤ AMap.get 0 P.aborts r.msgid + 1 → s.taskLive r.core m.msg = true → s.pOf r.core = p → ∃ t P',
          exec (.trapDisposition die) s = .next t ∧ ended t ∧ t.taskLive r.core m.msg = false ∧ AMap.find t.parts p = some P' ∧
          AMap.get 0 P'.aborts r.msgid = AMap.get 0 P.aborts r.msgid + 1))) ∧
    (P.recs = [] → ∃ t P', exec (.trheadWrite p head) s = .next t ∧ AMap.find t.parts p = some P' ∧ P'.trRing.head = head ∧
      P'.trRing.tail = P.trRing.tail ∧ t.mem = s.mem ∧ t.cores = s.cores)

/-! ### Page faults, pre-emption, deadlock -/

/-- R152, R420, R421: the oldest fault that may be served is served by firmware: its page is brought in and its context runs again, or where no
object is at the address the context aborts with PAGE-PROT; in host-assisted mode it takes the lowest free tag of PRI, while the host's allocation has
room (the lowest tag: the model's choice, log 72). A service that has to wait for an engine's use of the pages that could leave leaves the fault (log 17). A
request may stand for firmware's own need of a page, which no context waits for: a failure stops the queue of the LAUNCH that still waits for that page with
HOST-FAULT, and no other packet. A response frees its tag, and with Success the faults of the page are served; a free tag's response is ignored; a time-out is a Failure. -/
def Obligations.PageFaultEvents : Prop :=
  ∀ (s : State) (die p : Nat) (P : Part) (f : PFault), s.partKey die = p → AMap.find s.parts p = some P →
    let s0 := s.pruneFaults p
    let need := vaOf (s0.ctx f.core f.ctx).ip / 64 * 64 :: (s0.ctx f.core f.ctx).elem
    (s0.dueFault p die = some f →
      (∀ n, P.pfHost = true → s.pkg.pri.length < s.pkg.priAlloc → (List.range 512).find? (fun t => (AMap.find s.pkg.pri t).isNone) = some n → ∃ t P', exec (.pageFaultService die) s = .next t ∧
        AMap.find t.pkg.pri n = some ⟨p, f.core, f.ctx, f.va, f.write, s.time⟩ ∧ AMap.find t.parts p = some P' ∧ { f with asked := true } ∈ P'.faults) ∧
      (∀ s1 P1, P.pfHost = false → s0.pageIn p f.va need false = .done s1 → AMap.find s1.parts p = some P1 → ∃ t P',
        exec (.pageFaultService die) s = .next t ∧ AMap.find t.parts p = some P' ∧ P'.faults = P1.faults.filter (fun g => !(s0.sameFaults p f).contains g) ∧
        t.mem = s1.mem ∧ (f ∈ P1.faults → s1.detAt f.core = false → s1.rests f.core = false →
          (t.ctx f.core f.ctx).st = .running ∧ (t.ctx f.core f.ctx).await = .none)) ∧
      (P.pfHost = false → s0.pageIn p f.va need false = .unmapped → ∃ t, exec (.pageFaultService die) s = .next t ∧
        (t.ctx f.core f.ctx).st = .free ∧ (t.ctx f.core f.ctx).trap.tval = BitVec.ofNat 64 f.va ∧
        (t.ctx f.core f.ctx).trap.cause = Cause.pageProt.word ((s0.ctx f.core f.ctx).trap.cause.extractLsb' 12 4 == 0)) ∧
      (P.pfHost = false → s0.pageIn p f.va need false = .later → exec (.pageFaultService die) s = .next s0)) ∧
    (∀ (n : BitVec 9) (c : PrgCode),
      (AMap.find s.pkg.pri n.toNat = none → exec (.prgResponse n c) s = .next s) ∧
      (∀ q, AMap.find s.pkg.pri n.toNat = some q →
        (q.core ≠ 4096 → s.askedFault q = none ∨ c = .success → ∃ t, exec (.prgResponse n c) s = .next t ∧ AMap.find t.pkg.pri n.toNat = none) ∧
        (∀ g, q.core ≠ 4096 → q.part = p → s.askedFault q = some g → s.staleFault g = false → ∃ t P', exec (.prgResponse n .success) s = .next t ∧
          AMap.find t.parts p = some P' ∧ g ∉ P'.faults) ∧
        (q.since + 2 ^ 31 ≤ s.time → exec (.priTimeout n) s = exec (.prgResponse n .failure) s ∧
          (q.core ≠ 4096 → s.askedFault q = none → ∃ t, exec (.priTimeout n) s = .next t ∧ AMap.find t.pkg.pri n.toNat = none)) ∧
        (q.core = 4096 → ∃ t, exec (.prgResponse n .success) s = .next t ∧ AMap.find t.pkg.pri n.toNat = none ∧ t.parts = s.parts ∧ t.mem = s.mem) ∧
        (∀ k, q.core = 4096 → q.ctx = 0 → q.part = p → P.packet = some k → c ≠ .success →
          (∀ a s1, pkKind k.words = 1 → (s.freeTag n.toNat).launchTry p k = .ask a s1 → a / 4096 = q.va / 4096 → ∃ t P',
            exec (.prgResponse n c) s = .next t ∧ AMap.find t.pkg.pri n.toNat = none ∧ AMap.find t.parts p = some P' ∧ P'.packet = none ∧
            (P'.q k.q) = { P.q k.q with err := 3 }) ∧
          (pkKind k.words ≠ 1 → ∃ t, exec (.prgResponse n c) s = .next t ∧ AMap.find t.pkg.pri n.toNat = none ∧ t.parts = s.parts))))

/-- R49, R56, R424: a request asks a running partition to stop and moves a frozen one; it is saved once every context is free and no engine works
for it, with a PREEMPT record, whose die is the model's choice (log 53); window entries that hold its stores beyond PREEMPTWAIT break; a saved one runs again; DEADTIME cycles of deadlock
freeze it. -/
def Obligations.PreemptionEvents : Prop :=
  ∀ (s : State) (p : Nat) (P : Part), AMap.find s.parts p = some P →
    (P.pre = .running → ∃ t P', exec (.preemptRequest p) s = .next t ∧ AMap.find t.parts p = some P' ∧ P'.pre = .asked ∧ P'.frozen = false ∧
      P'.preSince = s.time ∧ P'.queues = P.queues ∧ t.mem = s.mem ∧ t.cores = s.cores) ∧
    (P.pre = .asked → s.allFree p = true → s.engineWork p = false → s.requestsOut p = false → s.windowWork p = false → ∃ t P',
      exec (.preemptComplete p) s = .next t ∧ AMap.find t.parts p = some P' ∧ P'.pre = .saved ∧ t.cores = s.cores ∧
      (P.trapHost = false → ∃ r, P'.recs = P.recs ++ [r] ∧ r.words.getD 0 0 = Cause.preempt.word false ∧ r.kindA = false ∧ r.die = p)) ∧
    (s.waitsWindow p = true → P.preSince + P.preemptwait ≤ s.time → ∃ t, exec (.preemptwaitExpiry p) s = .next t ∧
      ∀ xd < 2, ∀ n ∈ s.holders p xd, (t.went xd n).broken = true) ∧
    (P.pre = .saved → (∀ e ∈ s.rlcs, s.pOf (16 * e.1) ≠ p) → ∃ t P', exec (.preemptResume p) s = .next t ∧ AMap.find t.parts p = some P' ∧
      P'.pre = .running ∧ P'.queues = P.queues ∧ t.mem = s.mem) ∧
    (P.frozen = false → s.deadNow p = true → P.idleSince + P.deadtime ≤ s.time → ∃ t P', exec (.deadlockDetect p) s = .next t ∧
      AMap.find t.parts p = some P' ∧ P'.frozen = true ∧ t.cores = s.cores)

/-! ### Activations -/

/-- R33, R40, R41: a free context, in deterministic mode the one that its core starts first (log 41), starts the message that R40 chooses, with the registers that R33 gives, g6 among
them, the payload's generic inbox address; the rest of g, v and k are zero, the handles invalid, COLOUR and MIGOK 0. An exit message that its command traps
starts like any other, to trap where it would issue its first instruction. A message that has waited more than 65,536 cycles in Q1 to Q3 moves up one queue. -/
def Sys2Proof.Says.ActivationStarts : Prop :=
  ∀ (s : State) (core ctx q : Nat) (m : QMsg), q < 5 → s.startable core ctx = some (q, m) →
    (s.detAt core = true → s.firstStart core = some (ctx % 4)) →
    let task := (s.core core).task m.msg.env.tag
    let a : Act := ⟨m, q, core, ctx % 4, false, false, false⟩
    (m.msg.info = .plain → m.msg.env.kind ≠ 4 → a.codeLine = false → ∃ t, exec (.activationStart core ctx) s = .next t ∧
      let x := t.ctx core ctx
      x.st = .running ∧ x.act = some a ∧ x.ip = m.msg.words.getD 0 0 ∧
      (∀ i ∈ [1, 2, 3, 4], x.g.toList.getD i 0 = m.msg.words.getD i 0) ∧ x.g.toList.getD 5 0 = BitVec.ofNat 64 m.msg.env.id ∧
      x.g.toList.getD 6 0 = (if m.msg.env.plen = 0 then 0 else BitVec.ofNat 64 (0x0FFF300000000000 + s.lnum core % 4096 * 2 ^ 32 + 512 * m.slot +
        (if m.msg.env.kind = 2 then 8 else 48))) ∧
      x.g.toList.getD 7 0 = BitVec.ofNat 64 m.msg.env.plen ∧ (∀ i, i = 0 ∨ (8 ≤ i ∧ i < 32) → x.g.toList.getD i 0 = 0) ∧
      x.v = Vector.replicate 16 0 ∧ x.k = Vector.replicate 8 0 ∧ x.view = task.views ∧ x.budget = task.budget ∧ x.fcsr = 0 ∧ x.vstart = 0 ∧
      x.c = Vector.replicate 16 Chan.reset ∧ x.colour = 0 ∧ x.migok = false ∧
      x.trap = ⟨0, 0, 0, 0, 0, 0, 0⟩ ∧ x.sendBuf = [] ∧ m.slot ∈ (t.core core).slotsHeld ∧
      (t.core core).queue q = ((s.core core).queue q).filter (fun y => y.slot != m.slot)) ∧
    (∀ code, m.msg.info = .rlcExit code true → ∃ t, exec (.activationStart core ctx) s = .next t ∧ (t.ctx core ctx).st = .running ∧
      (t.ctx core ctx).act = some a ∧ (t.ctx core ctx).exitTrap = some code)

/-- R36, R41, R255: a complete request that is new to its pair is held for its turn, in the order of arrival, those of one cycle by core and context (R159), and a duplicate of an answered one is answered again; the first
waiting message enters a queue, where its arrival at the interface puts it; a message that has waited more than 65,536 cycles moves up one queue. -/
def Sys2Proof.Says.AdmissionEvents : Prop :=
  ∀ (s : State) (n : Nat) (a : Asm) (left : List Asm) (w : AtIf) (rest : List AtIf) (s' : State) (q : Nat) (m : QMsg),
    let e := s.ep n
    let r : InReq := ⟨a.src, a.num, a.kind, a.body, s.time⟩
    let held := insertBy InReq.before r e.ready
    (takeFirst (fun (x : Asm) => x.got.length == x.mlen + 1) e.asm = some (a, left) →
      ((a.num + 32 - AMap.get 0 e.expect a.src) % 32 < 16 → e.ready.any (fun y => y.src == a.src && y.num == a.num) = false →
        Endp.due { e with ready := held } InReq.atOnce = none → ∃ t, exec (.requestReassembled n) s = .next t ∧
          (t.ep n).ready = held ∧ (t.ep n).asm = left ∧ t.mem = s.mem ∧ t.cores = s.cores) ∧
      (∀ k, 16 ≤ (a.num + 32 - AMap.get 0 e.expect a.src) % 32 → e.ready = [] → e.kept.find? (fun k => k.src == a.src && k.num == a.num) = some k →
        ∃ t, exec (.requestReassembled n) s = .next t ∧ (t.ep n).asm = left ∧ (t.ep n).ready = [] ∧
          (t.ep n).inj1 = e.inj1 ++ rspFlits a.src n a.num k.rsp ∧ t.mem = s.mem ∧ t.cores = s.cores)) ∧
    ((s.core n).waiting = w :: rest → w.launch = false → s.enters n w.msg w.origin w.arrival = (s', .queued) → ∃ t, exec (.slotFreedAdmit n) s = .next t ∧
      (t.core n).waiting = rest ∧ (t.core n).queues = (s'.core n).queues ∧ t.mem = s'.mem) ∧
    (1 ≤ q → q ≤ 3 → (s.part (s.pOf n)).pre = .running → m ∈ (s.core n).queue q → ∃ t, exec (.queueAging n) s = .next t ∧ t.mem = s.mem ∧
      (m.held = false → m.since + 65536 < s.timeAt n → { m with since := s.timeAt n } ∈ (t.core n).queue (q - 1) ∧ m ∉ (t.core n).queue q) ∧
      (m.held = true ∨ s.timeAt n ≤ m.since + 65536 → m ∈ (t.core n).queue q))

/-- R33, R36, R40, R41, R255: messages become activations. -/
def Obligations.ActivationEvents : Prop := Says.ActivationStarts ∧ Says.AdmissionEvents

/-- R47, R50-R53, R195, R449: a parked context whose condition holds runs on at its instruction; BUDGET at its end aborts; a migrating context leaves
as a wayfarer and stays parked till that runs, or runs on where no target is left; a wayfarer runs at its target with what it brought, and the
context that shipped it is free (that it brings its masks, where R53 and R293 differ, and that the target's trap CSRs stay, is the model's reading, log 31);
a turn passes to the other core, whose contexts that a quantum's end has woken run on. -/
def Sys2Proof.Says.ContextEvents : Prop :=
  ∀ (s : State) (core ctx : Nat),
    let x := s.ctx core ctx
    (x.st = .parked → s.parkDue core ctx = true → s.detAt core = false → s.frozenAt core = false → s.rests core = false → ∃ t,
      exec (.parkResume core ctx) s = .next t ∧ t.ctx core ctx = { x with st := .running, await := .none, stall := 0 } ∧ t.mem = s.mem) ∧
    (∀ h, x.st = .parked → x.await = .migrate h → s.shipReady core ctx = true → x.hold = false →
      (s.migTarget core ctx h = none → s.rests core = false → ∃ t, exec (.migrationShip core ctx) s = .next t ∧ (t.ctx core ctx).st = .running ∧
        (t.ctx core ctx).ip = x.ip ∧ (t.ctx core ctx).g = x.g ∧ t.mem = s.mem) ∧
      (∀ k c, s.migTarget core ctx h = some (k, c) → s.canLeave core x.sendBuf = true → ∃ t, exec (.migrationShip core ctx) s = .next t ∧
        (t.ctx core ctx).st = .parked ∧ (t.ctx core ctx).await = .shipped ∧ (t.ctx core ctx).sendBuf = [] ∧
        x.wayfarer core ctx c ∈ (t.core k).arrivals)) ∧
    (∀ w rest, takeFirst (fun (w : Wayfarer) => w.ctx == ctx % 4) (s.core core).arrivals = some (w, rest) → x.st = .free →
      ¬ (w.hopCore = core ∧ w.hopCtx % 4 = ctx % 4) → ∃ t,
      exec (.wayfarerArrive core ctx) s = .next t ∧ (t.core core).arrivals = rest ∧ (∀ j, t.mem.byte j = s.mem.byte j) ∧
      (t.ctx w.hopCore w.hopCtx).st = .free ∧
      let y := t.ctx core ctx
      y.st = .running ∧ y.act = w.act ∧ y.ip = w.ip ∧ y.g = w.g ∧ y.k = w.k ∧ y.budget = w.budget ∧ y.fcsr = w.fcsr ∧ y.colour = w.colour ∧
        y.v = Vector.replicate 16 0 ∧ y.trap = x.trap) ∧
    (∀ a h on since, s.pairOf core = some (a, h) → s.turnOf h = (on, since) →
      let other := if on = h then a else h
      (s.detAt core = false ∧ (s.core other).hasWork = true ∧ since + 4096 ≤ s.time) ∨
        (s.detAt core = true ∧ (s.core on).qdone = true ∧ (s.core other).qdone = false) → ∃ t, exec (.turnSwitch core) s = .next t ∧
        t.turnOf h = (other, s.time) ∧ (∀ n, n ≠ other → t.core n = s.core n) ∧ t.mem = s.mem ∧ ∀ c < 4, let y := s.ctx other c
          t.ctx other c = if y.st = .parked ∧ y.await = .none ∧ y.hold = false then { y with st := .running, stall := 0 } else y) ∧
    (x.charged = true → x.budget = 0 → s.frozenAt core = false → ∃ t, exec (.budgetExpiry core ctx) s = .next t ∧ (t.ctx core ctx).st = .free ∧
      (t.ctx core ctx).trap.cause = Cause.budget.word false ∧ (t.ctx core ctx).trap.tip = x.ip ∧ (t.ctx core ctx).g = x.g)

/-- R47, R57, R58, R234, R453: a logical core's quantum ends at QUANT retired instructions, and its running contexts park till the next. The shape's
quantum ends when every core has ended it and the pages of its channel advances can be had: the count of quanta goes up and each core's count of the next one
starts at 0. A channel advance of the
quantum then adds its count to its word, shown where nothing else of the quantum waits, and two messages that REQUEUE has returned re-enter the tail of
their queue in the order of R58, whichever came to the task queue first, arriving at the time of the new quantum. -/
def Sys2Proof.Says.QuantumEvents : Prop :=
  ∀ (s : State) (core p : Nat) (P : Part), AMap.find s.parts p = some P →
    (s.detAt core = true → (s.core core).qdone = false → s.rests core = false → (s.core core).quant.toNat ≤ (s.core core).retired → ∃ t,
      exec (.logicalQuantumEnd core) s = .next t ∧ t.core core = { s.core core with qdone := true, ctxs := (t.core core).ctxs } ∧
      (∀ c < 4, let x := s.ctx core c
        t.ctx core c = if x.st = .running then { x with st := .parked, await := .quantum, stall := Stall.quantum.code } else x) ∧
      (∀ n, n ≠ core → t.core n = s.core n) ∧ t.mem = s.mem) ∧
    (s.quantumDue p = true → (∀ c x r, FEv.op c x r ∉ P.fevs) → (s.advsDo p).2 = true → ∃ t P', exec (.quantumEnd p) s = .next t ∧ AMap.find t.parts p = some P' ∧
      P'.quanta = P.quanta + 1 ∧ (∀ c, s.pOf c = p → (t.core c).retired = 0 ∧ (t.core c).qdone = false) ∧
      (∀ a : Adv, s.Inv → P.events.en = false → P.trapHost = false → P.fevs = [] → P.taskq = [] → s.rlcs = [] → s.rings = [] → s.fus = [] → s.boardUpd = [] →
        core ∈ s.shapeCores p → (s.core core).advs = [a] → (∀ n ∈ s.shapeCores p, n ≠ core → (s.core n).advs = []) → isLocal a.va = true →
        s.mem.poisoned a.pa 8 = false → t.mem.read a.pa 8 = (s.mem.read a.pa 8 + a.n) % 2 ^ 64 ∧
          (∀ j, ¬ (a.pa ≤ j ∧ j < a.pa + 8) → t.mem.byte j = s.mem.byte j) ∧ (t.core core).advs = []) ∧
      (∀ (d1 d2 : Deliv) (q l1 l2 : Nat), P.fevs = [] → P.taskq = [d2, d1] → s.rlcs = [] → s.rings = [] → s.fus = [] → s.boardUpd = [] →
        (∀ n ∈ s.shapeCores p, (s.core n).advs = []) → d1.core < d2.core ∨ (d1.core = d2.core ∧ d1.ctx < d2.ctx) → q < 5 →
        d1.dest = core → d2.dest = core → d1.back = some (q, l1) → d2.back = some (q, l2) → s.pOf core = p →
        s.taskLive core d1.msg = true → s.taskLive core d2.msg = true →
        let now := (P.quanta + 1) * (s.core core).quant.toNat
        (t.core core).queue q = (s.core core).queue q ++ [⟨d1.msg, l1, now, now, false, none⟩, ⟨d2.msg, l2, now, now, false, none⟩]))

/-- R47-R53, R57, R58, R449, R453: contexts and quanta. -/
def Obligations.ContextEvents : Prop := Says.ContextEvents ∧ Says.QuantumEvents

/-! ### Debugging -/

/-- R104, R196, R197: the debugger holds a context at a boundary, writes a register of a held or parked one and no other, and releases it; it sets a
breakpoint or a single step; a match parks the context at its instruction; a BKPT park ends after a BKPT instruction, or at TIP where a debugger is attached,
for which the model takes the enable of debugging (log 54). A fault of decoding is taken where no breakpoint is met first, and before either the trap of an
exit message. -/
def Obligations.DebugEvents : Prop :=
  ∀ (s : State) (core ctx : Nat) (v : VWord) (n : Fin 4) (on : Bool) (ip : Word) (tag : BitVec 3),
    let x := s.ctx core ctx
    let w : Word := v.setWidth 64
    let sets := fun (i : Instr) (y : Ctx) => ∃ t, exec i s = .next t ∧ t.ctx core ctx = y ∧ t.mem = s.mem ∧ ∀ k, k ≠ core → t.core k = s.core k
    (s.debugAt core = true → x.await ≠ .shipped → x.st ≠ .running ∨ (x.rpend = false ∧ x.rbuf = [] ∧ (x.stall = 0 ∨ x.vstart = 0)) → sets (.debugHold core ctx) { x with hold := true }) ∧
    (s.debugAt core = true → x.await ≠ .shipped → x.hold = true ∨ x.st = .parked →
      (∀ r, sets (.debugWrite core ctx (.g r) v) (x.putG r w)) ∧ (∀ r, sets (.debugWrite core ctx (.v r) v) (x.putV r v)) ∧
      (∀ r, sets (.debugWrite core ctx (.k r) v) (x.putK r (v.setWidth 32))) ∧
      (∀ r, sets (.debugWrite core ctx (.view r) v) (if viewBad (viewClean w) then x else x.putView r (viewClean w)))) ∧
    sets (.debugRelease core ctx) { x with hold := false } ∧
    sets (.breakpointSet core (.step ctx on)) { x with step1 := on } ∧
    (∃ t, exec (.breakpointSet core (.bp n on ip tag)) s = .next t ∧ t.core core = { s.core core with bps := (s.core core).bps.set n.val ⟨on, ip, tag⟩ n.isLt } ∧
      t.mem = s.mem) ∧
    (∀ b, x.st = .parked → x.await = .bkpt b → s.rests core = false → ∃ t, exec (.bkptRelease core ctx) s = .next t ∧ (t.ctx core ctx).st = .running ∧
      (t.ctx core ctx).ip = (if b = true ∧ s.debugAt core = false then nextIp x.latch.nh x.trap.tip else x.trap.tip) ∧ (t.ctx core ctx).g = x.g ∧ t.mem = s.mem) ∧
    (∀ k, (s.at core ctx).matchBp core (c4 ctx).val = some k → x.exitTrap = none → x.st = .running → x.hold = false → x.budget ≠ 0 → s.idle core = false → ∃ t, exec (.breakpointMatch core ctx) s = .next t ∧
      (t.ctx core ctx).st = .parked ∧ (t.ctx core ctx).ip = x.ip ∧ (t.ctx core ctx).g = x.g ∧ (t.ctx core ctx).trap.cause = Cause.bkpt.word false ∧
      (t.ctx core ctx).trap.tval = BitVec.ofNat 64 k ∧ (t.ctx core ctx).trap.tip = x.ip ∧ t.mem = s.mem) ∧
    (∀ code, x.st = .running → x.hold = false → x.budget ≠ 0 → s.idle core = false → x.exitTrap = some code → ∃ t, exec (.decodingFault core ctx) s = .next t ∧
      (t.ctx core ctx).st = .free ∧ (t.ctx core ctx).trap.cause = Cause.rlcTrapExit.word false ∧ (t.ctx core ctx).trap.tval = BitVec.ofNat 64 code) ∧
    (∀ f s1 e, x.st = .running → x.hold = false → x.budget ≠ 0 → s.idle core = false → x.exitTrap = none →
      (s.at core ctx).matchBp core (c4 ctx).val = none → (s.at core ctx).fetch = .ok f s1 → decode f.head f.tail = .error e → ∃ t, exec (.decodingFault core ctx) s = .next t ∧
      (t.ctx core ctx).st = .free ∧ (t.ctx core ctx).trap.cause = (decodeCause e).word false ∧
      (t.ctx core ctx).trap.tval = BitVec.ofNat 64 (f.head.toNat + f.tail.toNat % 2 ^ 32 * 2 ^ 16))

/-! ### The fabric -/

/-- R246, R248, R250, R258: in its turn of a cycle a router sends a flit over its first open productive link, with AGE one higher, to arrive there in the
next cycle, ejects a flit that has arrived and whose payload check holds, and turns a flit of the response plane with a bad header into POISON; a
poison sink has the header's sources send again; a port that has held a flit for 128 cycles asserts throttle. -/
def Sys2Proof.Says.RouterEvents : Prop :=
  ∀ (s : State) (r : Nat) (rsp : Bool) (f : Flit), r < 256 →
    ((s.router r).moved rsp = false → s.injector r rsp true = none → s.injector r rsp false = none → (s.router r).ins rsp = [f] →
      let coming := fun (u : State) (n : Nat) => if rsp then (u.router n).nx1 else (u.router n).nx0
      (∀ d, hdrBad f.hdr = false → s.dstRouter (hSrc f.hdr) (hDst f.hdr) ≠ r →
        s.pick r [] (s.dstRouter (hSrc f.hdr) (hDst f.hdr)) = some d → ∃ t, exec (.flitRoute r rsp) s = .next t ∧
          coming t (d.next r) = coming s (d.next r) ++ [{ f with hdr := hopped f.hdr }] ∧ (t.router r).ins rsp = [] ∧ (t.router r).moved rsp = true ∧
          t.eps = s.eps ∧ t.mem = s.mem) ∧
      (∀ v, hdrBad f.hdr = false → s.dstRouter (hSrc f.hdr) (hDst f.hdr) = r → hKind f.hdr ≠ 15 → f.body = .rsp v →
        (s.ep (hDst f.hdr)).rsps.length < 16 → (∀ x ∈ (s.ep (hDst f.hdr)).rsps, ¬ (x.src = hSrc f.hdr ∧ x.num = hSeq f.hdr / 8)) → ∃ t,
        exec (.flitRoute r rsp) s = .next t ∧ (t.router r).ins rsp = [] ∧ t.mem = s.mem ∧
        (f.crcOk = true → (t.ep (hDst f.hdr)).rsps = (s.ep (hDst f.hdr)).rsps ++
          [⟨hSrc f.hdr, hSeq f.hdr / 8, bitsNat f.hdr 12 3, [hSeq f.hdr % 8], .rsp v⟩]) ∧
        (f.crcOk = false → t.eps = s.eps)) ∧
      (hdrBad f.hdr = true → rsp = true → (s.router r).done0 = false → ∃ t, exec (.flitRoute r rsp) s = .next t ∧ (t.router r).in1 = [] ∧
        (t.router r).in0 = (s.router r).in0 ++ [{ f with hdr := poisoned r f.hdr }] ∧ t.eps = s.eps ∧ t.mem = s.mem)) ∧
    (∀ h rest, r < 8 → (s.ep (4096 + 0x40 + r)).poison = h :: rest → ∃ t n, exec (.poisonSink r) s = .next t ∧
      (t.ep (4096 + 0x40 + r)).poison = rest ∧ (t.ep (4096 + 0x40 + r)).inj1 = (s.ep (4096 + 0x40 + r)).inj1 ++
        mkFlit (mkHdr (epNum (bitsNat h 40 12)) (0x40 + r) 13 (hSeq h / 8) (hSeq h % 8) 0) [] .nack :: n) ∧
    (∀ n ∈ portEps r true, 128 ≤ (s.ep n).waited rsp → ∃ t, exec (.throttle r rsp) s = .next t ∧
      ((t.router r).thr rsp).isSome = true ∧ (t.router r).in0 = (s.router r).in0 ∧ (t.router r).in1 = (s.router r).in1 ∧
      t.eps = s.eps ∧ t.mem = s.mem)

/-- R255-R257, R263: a whole response ends its request and answers the context that waits for it; HELD starts the request's timer again and BUSY
its back-off, with k = 0 where the payload check failed, and k not counting this BUSY (log 56); a NACK, a time-out and the end of a back-off have the request sent again with its number,
and a remote operation sent again 16 times faults; a stay notice parks the context. -/
def Sys2Proof.Says.ResponseEvents : Prop :=
  ∀ (s : State) (n dest num mlen : Nat) (got : List Nat) (rest : List InRsp) (o : OutReq) (m : RMode) (sg : Bool) (ctx pa size : Nat) (va : Word),
    let e := s.ep n
    let read := n < 4096 ∧ o.use = .reply ∧ o.body = .rld m sg ctx pa size va ∧ m ∈ [RMode.plain, .sync, .synce, .fe] ∧ ctx < 4 ∧ (s.ctx n ctx).rpend = true
    let comes := fun (b : FlitBody) => got.length = mlen + 1 ∧ e.rsps = ⟨dest, num, mlen, got, b⟩ :: rest
    let ended := e.out.filter (fun x => !(x.dest == dest && x.num == num))
    let again := e.inj0 ++ reqFlits o.dest n o.kind o.num o.body
    e.out.find? (fun x => x.dest == dest && x.num == num) = some o →
    (∀ v, comes (.rsp v) →
      (v.st = .done ∨ v.st = .fault → read → e.backlog = [] → ∃ t, exec (.responseReceive n) s = .next t ∧ (t.ep n).rsps = rest ∧
        (t.ep n).out = ended ∧ (t.ctx n ctx).rbuf = (s.ctx n ctx).rbuf ++ [v.ans (dest - 4096) o.body] ∧
        (t.ctx n ctx).rpend = false ∧ t.mem = s.mem) ∧
      (v.st = .held → ∃ t o', exec (.responseReceive n) s = .next t ∧ (t.ep n).rsps = rest ∧
        (t.ep n).out.find? (fun x => x.dest == dest && x.num == num) = some o' ∧ o'.timer = s.time ∧ o'.body = o.body ∧ t.cores = s.cores) ∧
      (v.st = .busy → ∃ t o', exec (.responseReceive n) s = .next t ∧ (t.ep n).rsps = rest ∧
        (t.ep n).out.find? (fun x => x.dest == dest && x.num == num) = some o' ∧
        o'.backoff = some (s.time + if v.k0 then 64 else min 4096 (64 * 2 ^ o.busy)) ∧ o'.body = o.body ∧ t.cores = s.cores)) ∧
    (comes .nack → e.out.filter (fun x => x.num == num) = [o] → ∃ t, exec (.nackReceive n) s = .next t ∧
      (t.ep n).rsps = rest ∧ (t.ep n).inj0 = again ∧ t.mem = s.mem ∧ t.cores = s.cores) ∧
    (∀ why, comes (.stay why) → ∃ t o', exec (.stayNoticeReceive n) s = .next t ∧ (t.ep n).rsps = rest ∧
      (t.ep n).out.find? (fun x => x.dest == dest && x.num == num) = some o' ∧ o'.timer = s.time ∧ o'.resends = 0 ∧ t.mem = s.mem ∧
      (read → (s.ctx n ctx).st = .running → (t.ctx n ctx).st = .parked ∧ (t.ctx n ctx).await = (if why = 0 then .lodge else .syncEmpty va))) ∧
    (o.backoff = none → o.timer + Config.retx ≤ s.time →
      (o.isRemote = false ∨ o.resends < 16 → ∃ t, exec (.retxTimeout n dest num) s = .next t ∧ (t.ep n).inj0 = again ∧ t.mem = s.mem ∧
        t.cores = s.cores) ∧
      (read → o.isRemote = true → 16 ≤ o.resends → e.backlog = [] → ∃ t, exec (.retxTimeout n dest num) s = .next t ∧ (t.ep n).out = ended ∧
        (t.ctx n ctx).rbuf = (s.ctx n ctx).rbuf ++ [(Rsp.plain .fault Cause.remoteFault.code).ans (dest - 4096) o.body])) ∧
    (∀ u, o.backoff = some u → u ≤ s.time → ∃ t, exec (.busyBackoff n dest num) s = .next t ∧ (t.ep n).inj0 = again ∧ t.mem = s.mem ∧
      t.cores = s.cores)

/-- R246-R258, R263: the fabric. -/
def Obligations.FabricEvents : Prop := Says.RouterEvents ∧ Says.ResponseEvents

/-! ### The homes -/

/-- R150, R159, R260, R261: a home performs the next request of a pair, with an empty wait list: a read gives its block with the reader's pending stores, a
SYNC or SYNCE the block as memory holds it, SYNCE leaving its word pending, a poisoned one fails, a write stores its bytes, an atomic gives the old value and stores the new one; a request that must wait joins the list;
CONFIRM empties a pending word, RETURN keeps it full, on every replica of a replicated page (log 61), CANCEL takes a waiting request away and learns whether it
did (log 56). A write's page has not been evicted meanwhile. -/
def Sys2Proof.Says.HomeRequests : Prop :=
  ∀ (s : State) (h : Nat) (r : InReq) (left : List InReq), r.num < 32 →
    let e := s.ep (4096 + h)
    let answers := fun (t : State) (v : Rsp) => (t.ep (4096 + h)).inj1 = e.inj1 ++ rspFlits r.src (4096 + h) r.num v ∧
      AMap.get 0 (t.ep (4096 + h)).expect r.src = (r.num + 1) % 32 ∧ (t.ep (4096 + h)).ready = left
    ((s.home h).wait = [] →
      (∀ m sg c pa size va, e.due InReq.asks = some (r, left) → s.homePlan h r.src r.body = .perform (.rld m sg c pa size va) →
        (s.mem.poisoned pa size = true → ∃ t, exec (.remoteRead h) s = .next t ∧ answers t (.plain .fault Cause.eccUncorrected.code) ∧
          t.mem = s.mem ∧ t.cores = s.cores) ∧
        (s.mem.poisoned pa size = false → ∃ t, exec (.remoteRead h) s = .next t ∧
          (if m = .sync ∨ m = .synce then answers t (.block (s.mem.bytes (64 * blockOf pa) 64)) ∧ t.cores = s.cores
            else answers t (.block (s.blockFor r.src pa size)) ∧ t.cores = (s.see r.src c pa size).cores) ∧
          t.mem = if m = .synce then (s.keysOf r.src pa va).foldl (fun m k => m.setPending k true) (s.mem.scrub pa size) else s.mem.scrub pa size)) ∧
      (∀ fe c pa size val col va id sgn, e.due (fun r => r.body.sort == .write) = some (r, left) → s.hasMoved r.src va = false →
        s.homePlan h r.src r.body = .perform (.rst fe 0 c pa size val col va id sgn) → s.tooEarly r.src (.rst fe 0 c pa size val col va id sgn) = false →
        (fe = true → r.since ≠ s.time) → ∃ t,
          exec (.remoteWrite h) s = .next t ∧ answers t .ok ∧ t.mem = s.mem.storeFe pa size val fe ∧ t.cores = (s.landed r.src id).cores) ∧
      (∀ op sgn c pa size opnd cmp va, e.due (fun r => r.body.sort == .atomic) = some (r, left) → s.hasMoved r.src va = false →
        s.homePlan h r.src r.body = .perform (.rat op sgn 0 c pa size opnd cmp va) → s.tooEarly r.src (.rat op sgn 0 c pa size opnd cmp va) = false → r.since ≠ s.time →
        s.mem.poisoned pa size = false → ∃ t, exec (.remoteAtomic h) s = .next t ∧ answers t (.data (s.mem.read pa size)) ∧
          t.mem = ((s.mem.scrub pa size).atomic pa size op sgn opnd cmp).2 ∧ t.cores = (s.noteSync r.src).cores) ∧
      (∀ sg c pa size va, e.due (InReq.isMode .confirm) = some (r, left) → s.homePlan h r.src r.body = .perform (.rld .confirm sg c pa size va) → ∃ t,
        exec (.synceConfirm h) s = .next t ∧ answers t .ok ∧ t.cores = s.cores ∧
        t.mem = (s.keysOf r.src pa va).foldl (fun m k => (m.setPending k false).setEmpty k) s.mem) ∧
      (∀ sg c pa size va, e.due (InReq.isMode .ret) = some (r, left) → s.homePlan h r.src r.body = .perform (.rld .ret sg c pa size va) → ∃ t,
        exec (.synceReturn h) s = .next t ∧ answers t .ok ∧ t.cores = s.cores ∧
        t.mem = (s.keysOf r.src pa va).foldl (fun m k => (m.setPending k false).setFull k) s.mem)) ∧
    (∀ b, e.due InReq.asks = some (r, left) → s.homePlan h r.src r.body = .wait b → (s.home h).wait.length < 64 → ∃ t,
      exec (.remoteRead h) s = .next t ∧ (t.home h).wait = (s.home h).wait ++ [⟨r.src, r.num, b, s.time, s.time⟩] ∧ t.mem = s.mem) ∧
    (let others := fun (l : Lodged) => !l.cancelled r.src r.body
     e.due (InReq.isMode .cancel) = some (r, left) → (s.home h).wait.filter others = [] → ∃ t, exec (.waitCancel h) s = .next t ∧
      (t.home h).wait = [] ∧ (t.home h).lodge = (s.home h).lodge.filter others ∧ t.mem = s.mem ∧ t.cores = s.cores ∧
      answers t (.data (if ((s.home h).wait ++ (s.home h).lodge).all others then 0 else 1)))

/-- R262, R263: firmware serves the oldest entry of a home's lodge, a read at the address that its page has; a home sends a stay notice for an entry
that has waited 4,096 cycles since its last one, a copy's from the streamer's engine (log 20). -/
def Sys2Proof.Says.LodgeEvents : Prop :=
  ∀ (s : State) (h : Nat) (l : Lodged) (rest : List Lodged), l.num < 32 →
    let e := s.ep (4096 + h)
    let g := 4096 + l.engine h
    let notice := fun (why : Nat) => mkFlit (mkHdr (epNum l.src) (epNum g) 12 l.num 0 0) (wordsBytes [BitVec.ofNat 64 why]) (.stay why)
    (∀ sg c pa0 size va pa, h < 16 → (s.home h).lodge = l :: rest → (s.home h).wait = [] → l.body = .rld .plain sg c pa0 size va →
      s.retranslate l.src pa0 va = some pa → secondTier pa = false → s.mem.poisoned pa size = false → ∃ t, exec (.lodgeService h) s = .next t ∧
        (t.home h).lodge = rest ∧ (t.ep (4096 + h)).inj1 = e.inj1 ++ rspFlits l.src (4096 + h) l.num (.block (s.blockFor l.src pa size)) ∧
        t.mem = s.mem.scrub pa size) ∧
    (l.told + 4096 ≤ s.time →
      ((s.home h).lodge = [l] → (s.home h).wait = [] → ∃ t, exec (.stayNoticeSend h) s = .next t ∧
        (t.ep g).inj1 = (s.ep g).inj1 ++ [notice 0] ∧ (t.home h).lodge = [{ l with told := s.time }] ∧ t.mem = s.mem) ∧
      ((s.home h).lodge = [] → (s.home h).wait = [l] → ∃ t, exec (.stayNoticeSend h) s = .next t ∧
        (t.ep g).inj1 = (s.ep g).inj1 ++ [notice 1] ∧ (t.home h).wait = [{ l with told := s.time }] ∧ t.mem = s.mem))

/-- R159, R260-R263: the homes. -/
def Obligations.HomeEvents : Prop := Says.HomeRequests ∧ Says.LodgeEvents

/-! ### Engines -/

/-- R142, R251, R305, R318: an engine's write at a core or at another engine writes its bytes and no other and is acknowledged; a phase of a replica
write is applied, where no request waits there; a streamer's read at another engine gives its block, with the mark of poison in word 1 (log 20), and on a marked
line waits; a running matrix operation that completes writes each element of its C, rounded to F32, advances its barrier's serial and phase, changes no other byte than these and the status word, and the closed one starts. -/
def Sys2Proof.Says.EngineWrites : Prop :=
  ∀ (s : State) (n : Nat) (r : InReq) (left : List InReq) (k : Nat) (bytes : List Byte) (how : WrHow) (a b : Nat), s.Inv → how.fe = false →
    let written := fun (t : State) (ep : Nat) => (t.ep ep).ready = left ∧
      (t.ep ep).inj1 = (s.ep ep).inj1 ++ rspFlits r.src ep r.num .ok ∧
      ∀ j, t.mem.byte j = if k ≤ j ∧ j < k + bytes.length then bytes.getD (j - k) 0 else s.mem.byte j
    ((s.ep n).due (fun r => r.body.sort == .ewr) = some (r, left) → r.body = .ewr k bytes how a b →
      ∃ t, exec (.engineWrite n) s = .next t ∧ written t n ∧ t.cores = s.cores) ∧
    ((s.ep (4096 + n)).due (fun r => r.body.sort == .repl || r.body.sort == .xfer || (r.body.sort == .read && r.kind == 7)) = some (r, left) →
      (r.body = .xfer k bytes how a b → how.repl = 0 → ∃ t, exec (.xferReceive n) s = .next t ∧ written t (4096 + n) ∧ t.cores = s.cores) ∧
      (∀ job size val fe bad, r.body = .repl job 1 k size val fe bad → (s.home n).wait = [] → ∃ t, exec (.xferReceive n) s = .next t ∧ (t.ep (4096 + n)).ready = left ∧
        t.mem = s.mem.storeRepl k size val fe bad ∧ ((∀ j ∈ (s.home (r.src - 4096)).jobs, j.id = job → dieOf j.src ≠ n) → t.cores = s.cores)) ∧
      (∀ m sg c size va, r.body = .rld m sg c k size va →
        (sMem (blockOf k) (s.home n).marks = true → exec (.xferReceive n) s = .next s) ∧
        (sMem (blockOf k) (s.home n).marks = false → ∃ t, exec (.xferReceive n) s = .next t ∧ (t.ep (4096 + n)).ready = left ∧
          (t.ep (4096 + n)).inj1 = (s.ep (4096 + n)).inj1 ++ rspFlits r.src (4096 + n) r.num
            ⟨.done, 0, if s.mem.poisoned k size then 1 else 0, s.mem.bytes (64 * blockOf k) 64, false⟩ ∧
          t.mem = s.mem.scrub k size ∧ t.cores = s.cores))) ∧
    (∀ g, (s.ring n).running = some g → g.since ≠ s.time → s.detAt (16 * n) = false → (s.part (s.pOf (16 * n))).events.en = false →
      let key := memberKey (g.member 0).core (g.member 0).barrier
      let ser := (s.mem.read (key + 4) 4 + 1) % 2 ^ 32
      ∃ t, exec (.matrixFlip n) s = .next t ∧ t.mem.read key 8 = ser * 2 ^ 32 + ser % 2 ∧ (t.ring n).closed = none ∧
        (t.ring n).running = (s.ring n).closed.map (fun c => { c with quantum := (s.part (s.pOf (16 * n))).quanta, since := s.time }) ∧ t.cores = s.cores ∧
        (∀ j, ¬ (key ≤ j ∧ j < key + 16) → (∀ o ∈ opOuts s.mem g, ¬ (o.key ≤ j ∧ j < o.key + 4)) → t.mem.byte j = s.mem.byte j) ∧
        ((opOuts s.mem g).Pairwise (fun a b => a.key + 4 ≤ b.key ∨ b.key + 4 ≤ a.key) → ∀ o ∈ opOuts s.mem g, o.key + 4 ≤ key ∨ key + 16 ≤ o.key →
          t.mem.read o.key 4 = (roundF .f32 .rne o.val).1 % 2 ^ 32))

/-- R317, R321, R322, R327, R329: the next request of a pair takes the lowest free channel (log 12); a channel whose page is absent parks in the lodge;
one that reads a local memory takes the bytes; a copy that is over, or whose element fails, frees its channel and its final state goes to the
board, a channel's turn in deterministic mode coming in the order of R58 (log 41); a change reaches the board, and a final one frees an entry whose completion message is asked for. -/
def Sys2Proof.Says.CopyEvents : Prop :=
  ∀ (s : State) (str ch : Nat) (c : StrChan),
    let ep := 4096 + strEng str
    (∀ r left core ctx tag gen rcd sv dv n, (s.ep ep).due (fun r => r.body.sort == .copy) = some (r, left) →
      r.body = .copy core ctx tag gen rcd sv dv → (upTo 16).find? (fun n => (AMap.find (s.str str).chans n).isNone) = some n → ∃ t,
        exec (.copyAccept str) s = .next t ∧ (t.ep ep).ready = left ∧
        AMap.find (t.str str).chans n = some ⟨core, ctx, tag, gen, rcd, sv, dv, r.num, 0, [], 0, false, 0, 0, false, none, []⟩ ∧
        t.boardUpd = s.boardUpd ++ [⟨core, tag, recId rcd, .accepted, 0⟩]) ∧
    (AMap.find (s.str str).chans ch = some c → c.lodged = false → s.copyTurn c = true →
      (s.copyNext str c = .ended → c.rcd.getD 11 0 = 0 → c.rcd.getD 12 0 = 0 → ∃ t, exec (.copyComplete str ch) s = .next t ∧
        AMap.find (t.str str).chans ch = none ∧ t.boardUpd = s.boardUpd ++ [⟨c.core, c.tag, recId c.rcd, .complete, c.bytes⟩]) ∧
      (∀ p k sl rp n co held, s.copyNext str c = .read p (.here k sl rp (some co)) n held → ∃ t, exec (.copyComplete str ch) s = .next t ∧
        AMap.find (t.str str).chans ch = some ({ c with held := held }.take (s.mem.bytes k n) (s.mem.poisoned k n)) ∧ t.cores = s.cores) ∧
      (∀ p, s.copyNext str c = .absent p → s.lodgeCount (strHome str) < 64 → ∃ t, exec (.copyComplete str ch) s = .next t ∧
        AMap.find (t.str str).chans ch = some { c with lodged := true, held := [] } ∧ (t.home (strHome str)).lodge.length = (s.home (strHome str)).lodge.length + 1) ∧
      (∀ p, s.copyNext str c = .fault p → c.rcd.getD 11 0 = 0 → ∃ t, exec (.copyFault str ch) s = .next t ∧ AMap.find (t.str str).chans ch = none ∧
        t.boardUpd = s.boardUpd ++ [⟨c.core, c.tag, recId c.rcd, .faulted, c.bytes⟩])) ∧
    (∀ core u rest e, s.detAt core = false → takeFirst (fun (u : BoardUpd) => u.core == core) s.boardUpd = some (u, rest) →
      (s.core core).board = [e] → e.tag = u.tag → e.xferid = u.xferid → e.st.final = false → e.waiters = [] → ∃ t,
        exec (.transferBoardUpdate core) s = .next t ∧ t.boardUpd = rest ∧
        (t.core core).board = if u.st.final = true ∧ e.doneip = true then [] else [{ e with st := u.st, bytes := max e.bytes u.bytes }])

/-- R142, R251, R305, R317-R329: the engines. -/
def Obligations.EngineEvents : Prop := Says.EngineWrites ∧ Says.CopyEvents

/-- R333, R340, R347, R355: a front unit dispatches the runnable block that its scan reaches first; a notice that has reached it updates the copies of
the block's neighbour where it is not older and of the same binding; a commit that had to wait is performed as the instruction performs it. -/
def Obligations.FrontEvents : Prop :=
  ∀ (s : State) (die p : Nat) (b : Blk), s.partKey die = p →
    (∀ id, (s.part p).det = false → (s.part p).pre = .running → (s.part p).frozen = false → (s.fu die).doneAt ≠ some s.time → s.scanNext die = some (id, b) → s.fuOf p id = die →
      p ≤ die → die < p + (s.part p).dies → ∃ t,
        exec (.blockDispatch die) s = .next t ∧ t.blk p id = some { b with st := .dispatched, count := b.count + 1 } ∧ (t.fu die).scan = (id + 1) % 4096) ∧
    (∀ n rest, (s.part p).det = false → (s.fu die).notices = n :: rest → s.blk p n.dst = some b → ∃ t, exec (.levelNotice die) s = .next t ∧
      (t.fu die).notices = rest ∧ t.mem = s.mem ∧ t.cores = s.cores ∧
      (∀ f, s.blk p n.frm = some f → f.bind = n.bind → t.blk p n.dst = some { b with nbrs := b.nbrs.map (fun x =>
        if x.id = n.frm ∧ (n.level - x.copy).toNat < 2 ^ 31 then { x with copy := n.level } else x) }) ∧
      ((∀ f, s.blk p n.frm = some f → f.bind ≠ n.bind) → t.blk p n.dst = some b)) ∧
    (∀ core ctx x y s1, (s.ctx core ctx).st = .running → (s.ctx core ctx).hold = false → (s.ctx core ctx).stall = Stall.fence.code → s.rests core = false →
      decode (s.ctx core ctx).latch.head (s.ctx core ctx).latch.tail = .ok (.lvcommit x y) →
      (s.at core ctx).lvcommitDo ((s.at core ctx).g x) ((s.at core ctx).g y) = .ok () s1 →
      (∃ t, exec (.levelPublish core ctx) s = .next t ∧ t = s1.retire) ∧ exec (.levelPublish core ctx) s = exec (.lvcommit x y) (s.at core ctx))

/-! ### Windows and links -/

/-- R371-R376: the source engine sends the next stores of an entry in one packet, as many as R374 lets it (log 25), which wait for their acknowledgement; an ACK frees the stores it covers
and a MISS breaks the entry; the target takes a packet in sequence, answers a duplicate again, and discards one on a closed path; firmware writes
an idle entry and a receive window, and reopens a path, and does none of the three in recovery. BROKEN cleared by a 1 with V kept at 1, V set to 1 where it was or
after a reopen, and a reopen ended by a send are the model's reading (log 49). -/
def Sys2Proof.Says.WindowEvents : Prop :=
  ∀ (s : State) (xd n : Nat) (p : Pkt) (rest : List Pkt) (a : WStore) (q : List WStore),
    let w := s.went xd n
    (w.q = a :: q → w.v = true → w.broken = false → w.loop = false → w.headDue = true → (s.link w.link).up = true →
      (s.link w.link).tx.keyHold = false →
      let k := packMore a q (a.off + a.bytes.length) a.bytes.length 1
      ∃ t, exec (.windowPacketSend xd n) s = .next t ∧ t.went xd n = { w with q := w.q.drop k, outst := w.outst ++ w.q.take k, reopened := false }) ∧
    (takeFirst (fun (p : Pkt) => p.kind == .ack) (s.win xd).rxq = some (p, rest) → p.sxd = xd → p.sentry = n →
      (p.seq - w.acked).toNat ≤ w.outst.length → ∃ t, exec (.windowAckReceive xd) s = .next t ∧ (t.win xd).rxq = rest ∧
        t.went xd n = { w with acked := p.seq, outst := w.outst.drop (p.seq - w.acked).toNat } ∧ t.mem = s.mem) ∧
    (takeFirst (fun (p : Pkt) => p.kind == .miss) (s.win xd).rxq = some (p, rest) → p.sxd = xd → p.sentry = n → w.v = true → w.broken = false → ∃ t,
      exec (.windowMissReceive xd) s = .next t ∧ (t.win xd).rxq = rest ∧ t.went xd n = { w with broken := true, q := [], outst := [], reopened := false }) ∧
    (takeFirst (fun p => s.pktDue xd p) (s.win xd).rxq = some (p, rest) →
      let s1 := s.onWin xd (fun e => { e with rxq := rest })
      let ps := s.pathAt p.path
      (ps.closed = true → ∃ t, exec (.storePacketReceive xd) s = .next t ∧ (t.win xd).rxq = rest ∧ t.mem = s.mem ∧ t.paths = s.paths) ∧
      (∀ s2, ps.closed = false → p.seq = ps.exp → s1.reflect p = .ack s2 → ∃ t, exec (.storePacketReceive xd) s = .next t ∧
        t.pathAt p.path = { ps with exp := p.seq + BitVec.ofNat 32 p.nstore } ∧ (p.via = none → t.mem = s2.mem)) ∧
      (ps.closed = false → p.seq = ps.exp → s1.reflect p = .miss → ∃ t, exec (.storePacketReceive xd) s = .next t ∧
        (t.pathAt p.path).closed = true) ∧
      (ps.closed = false → p.seq ≠ ps.exp → ∃ t, exec (.storePacketReceive xd) s = .next t ∧ (t.win xd).rxq = rest ∧ t.mem = s.mem ∧
        t.paths = s.paths ∧ (∀ m, p.via = some m → t.link m =
          (s.sendPkt m ⟨none, .ack, p.spkg, s.pkg.number.toNat, p.trxw, p.sentry, p.sxd, 0, p.seq + BitVec.ofNat 32 p.nstore, 0, []⟩).link m))) ∧
    (∀ s1, w.q = a :: q → w.v = true → w.broken = false → w.loop = true → w.headDue = true →
      let k := s.pktOf xd n w 1 none
      let ps := s.pathAt k.path
      ps.closed = false → ps.exp = a.seq → (s.win xd).lodges k.path = false → s.reflect k ≠ .waits → (s.sentStores xd n w 1).reflect k = .ack s1 → ∃ t,
        exec (.loopbackApply xd n) s = .next t ∧ t.mem = s1.mem ∧ t.pathAt k.path = { ps with exp := a.seq + 1 }) ∧
    (s.pkg.boot = .recovery → ∀ w0 w1 : Word, exec (.windowEntryWrite xd n w0 w1) s = .next s ∧ exec (.receiveWindowWrite n w0 w1) s = .next s ∧
      exec (.pathReopen xd n) s = .next s) ∧
    (∀ w0 w1 : Word, s.pkg.boot ≠ .recovery → bitsNat w0 0 22 ≠ 0 → w0.getLsbD 63 = true → w0.getLsbD 62 = false → bitsNat w0 56 4 / 8 = xd → w.q = [] → w.outst = [] →
      s.wstFlying xd n = false → w.v = true ∨ w.reopened = true → ∃ t, exec (.windowEntryWrite xd n w0 w1) s = .next t ∧ t.mem = s.mem ∧
        let u := t.went xd n
        u.v = true ∧ u.loop = false ∧ u.link = bitsNat w0 56 4 ∧ u.part = bitsNat w0 53 3 ∧ u.tpkg = bitsNat w0 32 12 ∧ u.trxw = bitsNat w0 22 10 ∧
          u.size = bitsNat w0 0 22 ∧ u.broken = (w.broken && !w0.getLsbD 61) ∧ (w.v = false → u.sent = 0 ∧ u.acked = 0)) ∧
    (∀ w0 w1 : Word, s.pkg.boot ≠ .recovery → w0.getLsbD 63 = false → ∃ t, exec (.receiveWindowWrite n w0 w1) s = .next t ∧ t.mem = s.mem ∧
      AMap.find t.rxwin n = some ⟨false, w0.getLsbD 62, bitsNat w0 59 3, bitsNat w0 44 12, bitsNat w0 0 22, bitsNat w1 0 48⟩) ∧
    (s.pkg.boot ≠ .recovery → n / 1024 ≠ s.pkg.number.toNat → ∃ t, exec (.pathReopen xd n) s = .next t ∧ t.pathAt n = PathSt.reset ∧ (∀ k, k ≠ n → t.pathAt k = s.pathAt k) ∧
      t.mem = s.mem)

/-- R379-R383: a flit out of sequence or with a bad CRC is discarded, a first flit whose header check fails is not accepted, one in sequence is taken and a whole packet for this package goes to its engine; a NAK
changes no data, and an ACK frees the flits through its sequence; a link that falls, or has never trained, is down without keys, and once reported down stays as it is; retrained, which waits for step 5 of R450, it
starts both sequences anew with the unacknowledged packets, and one given up breaks its entries. -/
def Sys2Proof.Says.LinkEvents : Prop :=
  ∀ (s : State) (n seq : Nat) (f : LinkFlit) (p : Pkt),
    let l := s.link n
    (l.up = false ∨ f.crcOk = false ∨ f.seq ≠ l.rxseq → exec (.linkFlitReceive n f) s = .next s) ∧
    (l.up = true → f.crcOk = true → f.seq = l.rxseq → f.tagOk = true → f.slot = l.rx.bit → l.rx.now.isSome = true → f.first = true →
      f.stomp = false → Pkt.parse (some n) f.bytes = none → ∃ t, exec (.linkFlitReceive n f) s = .next t ∧ (t.link n).rxseq = l.rxseq ∧
        (t.link n).rxbuf = l.rxbuf ∧ t.wins = s.wins) ∧
    (l.up = true → f.crcOk = true → f.seq = l.rxseq → f.tagOk = true → f.slot = l.rx.bit → l.rx.now.isSome = true → f.first = true → f.last = true →
      f.stomp = false → Pkt.parse (some n) f.bytes = some p → p.dpkg = s.pkg.number.toNat → ∃ t, exec (.linkFlitReceive n f) s = .next t ∧
        (t.link n).rxseq = (l.rxseq + 1) % 4096 ∧ (t.link n).rxbuf = [] ∧ (t.link n).tx = l.tx ∧
        (t.win (n / 8)).rxq = (s.win (n / 8)).rxq ++ [p] ∧ t.mem = s.mem) ∧
    (∃ t, exec (.linkNak n seq) s = .next t ∧ t.links = s.links ∧ t.wins = s.wins ∧ t.mem = s.mem) ∧
    (l.replay.any (fun g => g.seq == seq) = true → l.sendq = [] → ∃ t, exec (.linkAck n seq) s = .next t ∧
      t.link n = { l with replay := freeThrough seq [] l.replay, ackAt := s.time } ∧ t.mem = s.mem) ∧
    (l.up = false → l.downAt ≠ 0 → exec (.linkDown n) s = .next s) ∧
    (l.up = true ∨ l.downAt = 0 → l.cut ≠ some n → ∃ t, exec (.linkDown n) s = .next t ∧ (t.link n).up = false ∧ (t.link n).downAt = max 1 s.time ∧ (t.link n).tx = LinkDir.reset ∧
      (t.link n).rx = LinkDir.reset ∧ (t.link n).replay = l.replay ∧ t.wins = s.wins) ∧
    (s.elected = false → exec (.linkRetrained n) s = .next s) ∧
    (s.elected = true → l.up = false → l.tx.slot0 = none → l.tx.slot1 = none → ∃ t, exec (.linkRetrained n) s = .next t ∧ (t.link n).up = true ∧ (t.link n).txseq = 0 ∧
      (t.link n).rxseq = 0 ∧ (t.link n).sendq = l.replay ++ l.sendq ∧ (t.link n).replay = [] ∧ t.mem = s.mem) ∧
    (l.up = false → ∃ t, exec (.linkDownTimeout n) s = .next t ∧ t.mem = s.mem ∧ ∀ k,
      let w := s.went (n / 8) k
      w.v = true → w.loop = false → w.link = n → (t.went (n / 8) k).broken = true)

/-- R371-R383: windows and links. -/
def Obligations.WindowEvents : Prop := Says.WindowEvents ∧ Says.LinkEvents

/-! ### Observation, power and registers -/

/-- R4, R432-R434, R437: the oldest sample that a core has taken goes to its slot of the ring where that lies in the partition's frames or in host
memory, or the drop is counted where the ring is full; the
writes of HEAD, DROP, the counters and the period act as their fields say (HEAD: log 35), and leave the partition's other rings, and memory. -/
def Sys2Proof.Says.ObservationEvents : Prop :=
  ∀ (s : State) (core p i : Nat) (P : Part) (h : BitVec 32) (v : Word) (sel : RingSel), AMap.find s.parts p = some P →
    let k := s.core core
    let r := P.samples
    let ring := fun (Q : Part) => match sel with | .sample => Q.samples | .event => Q.events
    let other := fun (Q : Part) => match sel with | .sample => Q.events | .event => Q.samples
    (∀ w rest, s.pOf core = p → k.samples = w :: rest → r.en = true →
      ((r.tail - r.head).toNat ≠ 2 ^ r.sizelog → s.ringOwn p (r.slotAt 32) = true → ∃ t P', exec (.sample core) s = .next t ∧
        AMap.find t.parts p = some P' ∧ P'.samples.tail = r.tail + 1 ∧ P'.events = P.events ∧
        t.mem = s.mem.setBytes (r.base + 32 * (r.tail.toNat % 2 ^ r.sizelog)) (wordsBytes w) ∧
        (t.core core).samples = rest ∧ (t.core core).ctxs = k.ctxs) ∧
      ((r.tail - r.head).toNat = 2 ^ r.sizelog → r.drop ≠ 0xFFFFFFFF → ∃ t P', exec (.sample core) s = .next t ∧ AMap.find t.parts p = some P' ∧
        P'.samples.tail = r.tail ∧ P'.samples.drop = r.drop + 1 ∧ t.mem = s.mem)) ∧
    (∃ t P', exec (.samplePeriodWrite p h) s = .next t ∧ AMap.find t.parts p = some P' ∧ P'.period = h ∧ t.mem = s.mem ∧
      ∀ n ∈ s.partCores p, (t.core n).sampcfg = h ∧ (t.core n).sampCount = 0 ∧ (t.core n).ctxs = (s.core n).ctxs) ∧
    (∃ t P', exec (.ringHeadWrite p sel h) s = .next t ∧ AMap.find t.parts p = some P' ∧ t.mem = s.mem ∧ t.cores = s.cores ∧
      other P' = other P ∧ P'.trRing = P.trRing ∧
      ring P' = if ((ring P).tail - h).toNat ≤ 2 ^ (ring P).sizelog then { ring P with head := h } else ring P) ∧
    (∃ t P', exec (.dropWrite p sel h) s = .next t ∧ AMap.find t.parts p = some P' ∧ ring P' = { ring P with drop := (ring P).drop &&& ~~~h } ∧
      other P' = other P ∧ P'.trRing = P.trRing ∧
      t.mem = s.mem ∧ t.cores = s.cores) ∧
    (∃ t P', exec (.counterWrite p i v) s = .next t ∧ AMap.find t.parts p = some P' ∧ (AMap.get Ctr.reset P'.counters i).val = v ∧
      (∀ j, j ≠ i → AMap.get Ctr.reset P'.counters j = AMap.get Ctr.reset P.counters j) ∧ t.mem = s.mem ∧ t.cores = s.cores) ∧
    (P.wraps + 1 ≤ s.engTime p / 2 ^ 48 → ∃ t P', exec (.timeWrap p) s = .next t ∧ AMap.find t.parts p = some P' ∧ P'.wraps = P.wraps + 1 ∧ t.cores = s.cores)

/-- R442-R445: a reallotment begins a new interval with no die out of tokens and gives out 16,000 tokens, at least 1,000 to each die; an exhausted die is
out of tokens; the host's allotments; an island above 250 W/cm² throttles, and no longer from 240 down. -/
def Obligations.PowerEvents : Prop :=
  ∀ (s : State) (die n flux : Nat) (l : List Nat),
    (s.pkg.tokenAt + 20000 ≤ s.time → ∃ t, exec .tokenReallot s = .next t ∧ t.pkg.outTok = 0 ∧ t.pkg.tokenAt = s.time ∧ t.mem = s.mem ∧ t.cores = s.cores ∧
      (s.pkg.powerHost = true → t.pkg.allot = s.pkg.allot) ∧
      (s.pkg.powerHost = false → t.pkg.allot.length = 8 ∧ (∀ a ∈ t.pkg.allot, 1000 ≤ a) ∧ t.pkg.allot.sum = 16000)) ∧
    (die < 8 → ∃ t, exec (.tokenExhaust die) s = .next t ∧ t.pkg.outTok.getLsbD die = true ∧
      (∀ d, d ≠ die → t.pkg.outTok.getLsbD d = s.pkg.outTok.getLsbD d) ∧ t.pkg.allot = s.pkg.allot ∧ t.mem = s.mem) ∧
    (s.pkg.powerHost = true → s.idleAll = true → (∀ a ∈ l, 1000 ≤ a) → l.sum ≤ 16000 → ∃ t, exec (.powerAllotWrite l) s = .next t ∧ t.pkg.allot = l ∧
      t.mem = s.mem ∧ t.cores = s.cores) ∧
    (250 < flux → ∃ t, exec (.thermalSample n flux) s = .next t ∧ n ∈ t.pkg.hot ∧ (∀ m ∈ s.pkg.hot, m ∈ t.pkg.hot) ∧ t.cores = s.cores) ∧
    (flux ≤ 240 → ∃ t, exec (.thermalSample n flux) s = .next t ∧ n ∉ t.pkg.hot ∧ (∀ m, m ≠ n → (m ∈ t.pkg.hot ↔ m ∈ s.pkg.hot)) ∧ t.mem = s.mem)

/-- R4, R357, R372, R380, R407, R421, R423, R427: the registers that software writes outside the core: QTAIL, QBASE of a queue that is off and empty, RETRY,
DEADTIME, PREEMPTWAIT, a route, PRI's allocation, the package number before a launch, a front frozen or thawed for the host, and an aligned word of host memory, which
reads as written while every byte outside it is as before: a word of no table, a word that is not valid, or a leaf of no receive page (the frames of
a receive page are zeroed as well). In recovery none of the registers is exposed. Which registers and fields a write here names, and the layout of a route, with
bit 63 for present and bits 3:0 for the link, are the model's choice (logs 11 and 73). -/
def Sys2Proof.Says.RegisterWrites : Prop :=
  ∀ (s : State) (p q pa xd pkg : Nat) (P : Part) (v : Word), AMap.find s.parts p = some P →
    let c := P.q (q % 64)
    let sets := fun (r : RegTarget) (P' : Part) => ∃ t, exec (.registerWrite r v) s = .next t ∧ AMap.find t.parts p = some P' ∧ t.mem = s.mem ∧
      t.cores = s.cores ∧ t.pkg = s.pkg
    (s.pkg.boot = .recovery → ∀ r : RegTarget, (∀ a, r ≠ .mem a) → exec (.registerWrite r v) s = .next s) ∧
    (s.pkg.boot ≠ .recovery →
    sets (.qtail p q) (P.setQ (q % 64) (fun _ => { c with tail := v.setWidth 32 })) ∧
    (c.en = false → c.head = c.tail → sets (.qbase p q) (P.setQ (q % 64) (fun _ => { c with base := v.toNat / 64 * 64 }))) ∧
    (v.toNat ≤ 15 → sets (.retry p) { P with retry := v.toNat }) ∧
    sets (.deadtime p) { P with deadtime := v.toNat } ∧ sets (.preemptwait p) { P with preemptwait := v.toNat } ∧
    (∃ t, exec (.registerWrite (.route xd pkg) v) s = .next t ∧ t.mem = s.mem ∧ t.parts = s.parts ∧
      AMap.find t.routes (xd * 4096 + pkg % 4096) = if v.getLsbD 63 = true ∧ bitsNat v 0 4 / 8 = xd then some (bitsNat v 0 4) else none) ∧
    (∃ t, exec (.registerWrite .priAlloc v) s = .next t ∧ t.pkg.priAlloc = v.toNat % 2 ^ 32 ∧ t.parts = s.parts ∧ t.mem = s.mem ∧ t.cores = s.cores) ∧
    (s.idleAll = true → ∃ t, exec (.registerWrite .package v) s = .next t ∧ t.pkg.number = v.setWidth 12 ∧ t.mem = s.mem ∧ t.cores = s.cores) ∧
    (∀ b, s.blk p q = some b → P.det = false →
      (s.frontSt p b.tag b.front = .running → ∃ t, exec (.registerWrite (.lvfreeze p q) v) s = .next t ∧ t.frontSt p b.tag b.front ≠ .running) ∧
      (s.frontSt p b.tag b.front = .frozen → ∃ t, exec (.registerWrite (.lvthaw p q) v) s = .next t ∧ t.frontSt p b.tag b.front = .running))) ∧
    (let k := s.partKey (pa / 2 ^ 36 % 8)
     s.Inv → pa % 8 = 0 → hostMem pa = true →
     tableLvl s.mem k (s.part k).dies pa 4 0 0 (s.part k).root = none ∨ (pteRxw v = false ∧ (pteV v = false ∨ pteLeaf v = true)) → ∃ t, exec (.registerWrite (.mem pa) v) s = .next t ∧
      t.mem.read pa 8 = v.toNat ∧ ∀ j, ¬ (pa ≤ j ∧ j < pa + 8) → t.mem.byte j = s.mem.byte j)

/-- R4, R357, R372, R380, R407, R421, R423, R427, R432-R434, R437: observation and the registers that software writes. -/
def Obligations.ObservationEvents : Prop := Says.ObservationEvents ∧ Says.RegisterWrites

/-! ### The machine as a whole -/

/-- R146, R190, R442, R447, R450: right after reset TIME is 0, there is no partition, every word is empty, and every context is free (log 4) with its CSRs at
the values of R190: the queue limits 12, QUANT 8,192, and 0 for the others that R190 lists; each die has 2,000 tokens. -/
def Obligations.ResetState : Prop :=
  State.reset.time = 0 ∧ State.reset.parts = [] ∧ State.reset.pkg.allot = List.replicate 8 2000 ∧ (∀ k, State.reset.mem.isFull k = false) ∧
  (∀ n c, (State.reset.ctx n c).st = .free) ∧
  ∀ (n : Nat) (c : Fin 4) (r : Csr),
    let s : State := { State.reset with cur := (n, c) }
    (r ∈ [Csr.qlim0, .qlim1, .qlim2, .qlim3, .qlimg] → s.csr r = 12) ∧ (r = .quant → s.csr r = 8192) ∧
    (r ∈ [Csr.vstart, .budget, .colour, .migok, .migthresh, .refuse, .guestctx, .xferid, .time, .sampcfg] → s.csr r = 0)

/-- The invariant holds right after reset: memory, with nothing listed, is in its canonical form (log 1). -/
def Obligations.ResetInv : Prop := State.reset.Inv

/-- From every state in which it holds, a step keeps the invariant: memory stays in its canonical form, whatever the step does, an instruction or an
event. -/
def Obligations.StepKeepsInv : Prop := ∀ s t : State, s.Inv → step s = .next t → t.Inv

/-- R94-R105: decoding gives back every well-formed instruction from its encoding, with every operand at every value that the encoding admits. -/
def Obligations.EncodeDecode : Prop :=
  ∀ i : Instr, i.isCore = true → i.wf = true → ∃ h t n, encode i = some (h, t, n) ∧ decode h t = .ok i

/-- Log 2: with an empty agenda a step of a core that may issue runs the instruction that the bytes at the IP of its next context decode to, with its
line fetched; an exit message that its command traps traps there instead; an event on the agenda runs where it is well-formed. -/
def Obligations.StepRunsDecoded : Prop :=
  (∀ (s : State) (c : Nat) (f : Fetched) (u : State) (i : Instr), s.agenda = [] →
    let n := s.cur.1
    let s1 : State := { (s.onCore n (fun k => { k with issued := true, rot := c })) with cur := (n, c4 c) }
    (s.core n).issued = false → (s.core n).expired = none → s.barred n = false → (s.core n).next (s.detAt n) = some c →
    (s1.me.exitTrap = none → s1.matchBp n (c4 c).val = none → s1.fetch = .ok f u → decode f.head f.tail = .ok i → step s = exec i (u.latched f)) ∧
    (s1.me.exitTrap.isSome = true → step s = exec (.decodingFault n (c4 c).val) s1)) ∧
  (∀ (s : State) (i : Instr) (t : List Turn), s.agenda = .event i :: t → i.wf = true → i.isCore = false → step s = exec i { s with agenda := t })

/-- Words written out from the encodings of R94 to R404 decode to the instructions that they stand for, one or more of each family. -/
def Obligations.DecodeWords : Prop :=
  decode 0x0001 0 = .ok .done ∧ decode 0x1148 0xFFFE = .ok (.movi16 9 0xFFFE) ∧ decode 0x1648 0x080000C8 = .ok (.ext 9 1 8 3) ∧
  decode 0x1A48 0x48000040 = .ok (.paddI16 9 9 64) ∧ decode 0x19EC 0xE805 = .ok (.castspc 29 true .priv 29) ∧ decode 0x1948 0x0806 = .ok (.hown 9 1) ∧
  decode 0x2100 0x4800 = .ok (.jmp 9) ∧ decode 0x8208 0x10C0A000 = .ok (.vadd 1 0 2 3 .f32 .rne false) ∧
  decode 0x8622 0x2980BE00 = .ok (.vfma 4 2 5 6 .f64 .dyn) ∧ decode 0x8A38 0x0800A0C0 = .ok (.vcvt 7 0 1 .f32 .f8a .rne false) ∧
  decode 0x8E18 0x0882A000 = .ok (.vcmpLt 3 0 1 2 .f32) ∧ decode 0x9210 0x48026000 = .ok (.vbcast 2 0 9 .n32) ∧
  decode 0x9648 0x0800A000 = .ok (.vredSum 9 0 1 .f32 .rne false) ∧ decode 0x9E08 0x1800A000 = .ok (.vld 1 0 3 .f32 .rne false) ∧
  decode 0xA508 0x10C0 = .ok (.kand 1 2 3) ∧ decode 0xA548 0x0804 = .ok (.kpop 9 1) ∧ decode 0xC258 0x40020015 = .ok (.mgang 11 8 0x15) ∧
  decode 0xC100 0x42C3 = .ok (.mwait 8 11) ∧ decode 0xC160 0x4004 = .ok (.mstat 12 8) ∧ decode 0xC550 0x4801 = .ok (.cptest 10 9) ∧
  decode 0xC948 0x5001 = .ok (.lvunbind 9 10) ∧ decode 0xD148 0x0800 = .ok (.rlcrun 9 1)

end
end

