-- ==== Sys2Proof/Laws/State.lean ====
section
/-!
SUPPORT. The state laws: for each named update of the state, each field that it leaves alone.
-/

namespace Sys2Proof.Machine

/-! ### setCore -/

@[simp] theorem State.setCore_mem (s : State) (n : Nat) (k : CoreSt) : (s.setCore n k).mem = s.mem := rfl
@[simp] theorem State.setCore_eps (s : State) (n : Nat) (k : CoreSt) : (s.setCore n k).eps = s.eps := rfl
@[simp] theorem State.setCore_routers (s : State) (n : Nat) (k : CoreSt) : (s.setCore n k).routers = s.routers := rfl
@[simp] theorem State.setCore_fences (s : State) (n : Nat) (k : CoreSt) : (s.setCore n k).fences = s.fences := rfl
@[simp] theorem State.setCore_homes (s : State) (n : Nat) (k : CoreSt) : (s.setCore n k).homes = s.homes := rfl
@[simp] theorem State.setCore_rings (s : State) (n : Nat) (k : CoreSt) : (s.setCore n k).rings = s.rings := rfl
@[simp] theorem State.setCore_rlcs (s : State) (n : Nat) (k : CoreSt) : (s.setCore n k).rlcs = s.rlcs := rfl
@[simp] theorem State.setCore_strs (s : State) (n : Nat) (k : CoreSt) : (s.setCore n k).strs = s.strs := rfl
@[simp] theorem State.setCore_boardUpd (s : State) (n : Nat) (k : CoreSt) : (s.setCore n k).boardUpd = s.boardUpd := rfl
@[simp] theorem State.setCore_fus (s : State) (n : Nat) (k : CoreSt) : (s.setCore n k).fus = s.fus := rfl
@[simp] theorem State.setCore_fronts (s : State) (n : Nat) (k : CoreSt) : (s.setCore n k).fronts = s.fronts := rfl
@[simp] theorem State.setCore_wins (s : State) (n : Nat) (k : CoreSt) : (s.setCore n k).wins = s.wins := rfl
@[simp] theorem State.setCore_rxwin (s : State) (n : Nat) (k : CoreSt) : (s.setCore n k).rxwin = s.rxwin := rfl
@[simp] theorem State.setCore_paths (s : State) (n : Nat) (k : CoreSt) : (s.setCore n k).paths = s.paths := rfl
@[simp] theorem State.setCore_routes (s : State) (n : Nat) (k : CoreSt) : (s.setCore n k).routes = s.routes := rfl
@[simp] theorem State.setCore_links (s : State) (n : Nat) (k : CoreSt) : (s.setCore n k).links = s.links := rfl
@[simp] theorem State.setCore_parts (s : State) (n : Nat) (k : CoreSt) : (s.setCore n k).parts = s.parts := rfl
@[simp] theorem State.setCore_fws (s : State) (n : Nat) (k : CoreSt) : (s.setCore n k).fws = s.fws := rfl
@[simp] theorem State.setCore_pkg (s : State) (n : Nat) (k : CoreSt) : (s.setCore n k).pkg = s.pkg := rfl
@[simp] theorem State.setCore_time (s : State) (n : Nat) (k : CoreSt) : (s.setCore n k).time = s.time := rfl
@[simp] theorem State.setCore_agenda (s : State) (n : Nat) (k : CoreSt) : (s.setCore n k).agenda = s.agenda := rfl
@[simp] theorem State.setCore_cur (s : State) (n : Nat) (k : CoreSt) : (s.setCore n k).cur = s.cur := rfl
@[simp] theorem State.setCore_fresh (s : State) (n : Nat) (k : CoreSt) : (s.setCore n k).fresh = s.fresh := rfl
@[simp] theorem State.setCore_lastAt (s : State) (n : Nat) (k : CoreSt) : (s.setCore n k).lastAt = s.lastAt := rfl
@[simp] theorem State.setCore_takenAt (s : State) (n : Nat) (k : CoreSt) : (s.setCore n k).takenAt = s.takenAt := rfl
@[simp] theorem State.setCore_wr (s : State) (n : Nat) (k : CoreSt) : (s.setCore n k).wr = s.wr := rfl

/-! ### onCore -/

@[simp] theorem State.onCore_mem (s : State) (n : Nat) (f : CoreSt → CoreSt) : (s.onCore n f).mem = s.mem := rfl
@[simp] theorem State.onCore_eps (s : State) (n : Nat) (f : CoreSt → CoreSt) : (s.onCore n f).eps = s.eps := rfl
@[simp] theorem State.onCore_routers (s : State) (n : Nat) (f : CoreSt → CoreSt) : (s.onCore n f).routers = s.routers := rfl
@[simp] theorem State.onCore_fences (s : State) (n : Nat) (f : CoreSt → CoreSt) : (s.onCore n f).fences = s.fences := rfl
@[simp] theorem State.onCore_homes (s : State) (n : Nat) (f : CoreSt → CoreSt) : (s.onCore n f).homes = s.homes := rfl
@[simp] theorem State.onCore_rings (s : State) (n : Nat) (f : CoreSt → CoreSt) : (s.onCore n f).rings = s.rings := rfl
@[simp] theorem State.onCore_rlcs (s : State) (n : Nat) (f : CoreSt → CoreSt) : (s.onCore n f).rlcs = s.rlcs := rfl
@[simp] theorem State.onCore_strs (s : State) (n : Nat) (f : CoreSt → CoreSt) : (s.onCore n f).strs = s.strs := rfl
@[simp] theorem State.onCore_boardUpd (s : State) (n : Nat) (f : CoreSt → CoreSt) : (s.onCore n f).boardUpd = s.boardUpd := rfl
@[simp] theorem State.onCore_fus (s : State) (n : Nat) (f : CoreSt → CoreSt) : (s.onCore n f).fus = s.fus := rfl
@[simp] theorem State.onCore_fronts (s : State) (n : Nat) (f : CoreSt → CoreSt) : (s.onCore n f).fronts = s.fronts := rfl
@[simp] theorem State.onCore_wins (s : State) (n : Nat) (f : CoreSt → CoreSt) : (s.onCore n f).wins = s.wins := rfl
@[simp] theorem State.onCore_rxwin (s : State) (n : Nat) (f : CoreSt → CoreSt) : (s.onCore n f).rxwin = s.rxwin := rfl
@[simp] theorem State.onCore_paths (s : State) (n : Nat) (f : CoreSt → CoreSt) : (s.onCore n f).paths = s.paths := rfl
@[simp] theorem State.onCore_routes (s : State) (n : Nat) (f : CoreSt → CoreSt) : (s.onCore n f).routes = s.routes := rfl
@[simp] theorem State.onCore_links (s : State) (n : Nat) (f : CoreSt → CoreSt) : (s.onCore n f).links = s.links := rfl
@[simp] theorem State.onCore_parts (s : State) (n : Nat) (f : CoreSt → CoreSt) : (s.onCore n f).parts = s.parts := rfl
@[simp] theorem State.onCore_fws (s : State) (n : Nat) (f : CoreSt → CoreSt) : (s.onCore n f).fws = s.fws := rfl
@[simp] theorem State.onCore_pkg (s : State) (n : Nat) (f : CoreSt → CoreSt) : (s.onCore n f).pkg = s.pkg := rfl
@[simp] theorem State.onCore_time (s : State) (n : Nat) (f : CoreSt → CoreSt) : (s.onCore n f).time = s.time := rfl
@[simp] theorem State.onCore_agenda (s : State) (n : Nat) (f : CoreSt → CoreSt) : (s.onCore n f).agenda = s.agenda := rfl
@[simp] theorem State.onCore_cur (s : State) (n : Nat) (f : CoreSt → CoreSt) : (s.onCore n f).cur = s.cur := rfl
@[simp] theorem State.onCore_fresh (s : State) (n : Nat) (f : CoreSt → CoreSt) : (s.onCore n f).fresh = s.fresh := rfl
@[simp] theorem State.onCore_lastAt (s : State) (n : Nat) (f : CoreSt → CoreSt) : (s.onCore n f).lastAt = s.lastAt := rfl
@[simp] theorem State.onCore_takenAt (s : State) (n : Nat) (f : CoreSt → CoreSt) : (s.onCore n f).takenAt = s.takenAt := rfl
@[simp] theorem State.onCore_wr (s : State) (n : Nat) (f : CoreSt → CoreSt) : (s.onCore n f).wr = s.wr := rfl

/-! ### onCtx -/

@[simp] theorem State.onCtx_mem (s : State) (n c : Nat) (f : Ctx → Ctx) : (s.onCtx n c f).mem = s.mem := rfl
@[simp] theorem State.onCtx_eps (s : State) (n c : Nat) (f : Ctx → Ctx) : (s.onCtx n c f).eps = s.eps := rfl
@[simp] theorem State.onCtx_routers (s : State) (n c : Nat) (f : Ctx → Ctx) : (s.onCtx n c f).routers = s.routers := rfl
@[simp] theorem State.onCtx_fences (s : State) (n c : Nat) (f : Ctx → Ctx) : (s.onCtx n c f).fences = s.fences := rfl
@[simp] theorem State.onCtx_homes (s : State) (n c : Nat) (f : Ctx → Ctx) : (s.onCtx n c f).homes = s.homes := rfl
@[simp] theorem State.onCtx_rings (s : State) (n c : Nat) (f : Ctx → Ctx) : (s.onCtx n c f).rings = s.rings := rfl
@[simp] theorem State.onCtx_rlcs (s : State) (n c : Nat) (f : Ctx → Ctx) : (s.onCtx n c f).rlcs = s.rlcs := rfl
@[simp] theorem State.onCtx_strs (s : State) (n c : Nat) (f : Ctx → Ctx) : (s.onCtx n c f).strs = s.strs := rfl
@[simp] theorem State.onCtx_boardUpd (s : State) (n c : Nat) (f : Ctx → Ctx) : (s.onCtx n c f).boardUpd = s.boardUpd := rfl
@[simp] theorem State.onCtx_fus (s : State) (n c : Nat) (f : Ctx → Ctx) : (s.onCtx n c f).fus = s.fus := rfl
@[simp] theorem State.onCtx_fronts (s : State) (n c : Nat) (f : Ctx → Ctx) : (s.onCtx n c f).fronts = s.fronts := rfl
@[simp] theorem State.onCtx_wins (s : State) (n c : Nat) (f : Ctx → Ctx) : (s.onCtx n c f).wins = s.wins := rfl
@[simp] theorem State.onCtx_rxwin (s : State) (n c : Nat) (f : Ctx → Ctx) : (s.onCtx n c f).rxwin = s.rxwin := rfl
@[simp] theorem State.onCtx_paths (s : State) (n c : Nat) (f : Ctx → Ctx) : (s.onCtx n c f).paths = s.paths := rfl
@[simp] theorem State.onCtx_routes (s : State) (n c : Nat) (f : Ctx → Ctx) : (s.onCtx n c f).routes = s.routes := rfl
@[simp] theorem State.onCtx_links (s : State) (n c : Nat) (f : Ctx → Ctx) : (s.onCtx n c f).links = s.links := rfl
@[simp] theorem State.onCtx_parts (s : State) (n c : Nat) (f : Ctx → Ctx) : (s.onCtx n c f).parts = s.parts := rfl
@[simp] theorem State.onCtx_fws (s : State) (n c : Nat) (f : Ctx → Ctx) : (s.onCtx n c f).fws = s.fws := rfl
@[simp] theorem State.onCtx_pkg (s : State) (n c : Nat) (f : Ctx → Ctx) : (s.onCtx n c f).pkg = s.pkg := rfl
@[simp] theorem State.onCtx_time (s : State) (n c : Nat) (f : Ctx → Ctx) : (s.onCtx n c f).time = s.time := rfl
@[simp] theorem State.onCtx_agenda (s : State) (n c : Nat) (f : Ctx → Ctx) : (s.onCtx n c f).agenda = s.agenda := rfl
@[simp] theorem State.onCtx_cur (s : State) (n c : Nat) (f : Ctx → Ctx) : (s.onCtx n c f).cur = s.cur := rfl
@[simp] theorem State.onCtx_fresh (s : State) (n c : Nat) (f : Ctx → Ctx) : (s.onCtx n c f).fresh = s.fresh := rfl
@[simp] theorem State.onCtx_lastAt (s : State) (n c : Nat) (f : Ctx → Ctx) : (s.onCtx n c f).lastAt = s.lastAt := rfl
@[simp] theorem State.onCtx_takenAt (s : State) (n c : Nat) (f : Ctx → Ctx) : (s.onCtx n c f).takenAt = s.takenAt := rfl
@[simp] theorem State.onCtx_wr (s : State) (n c : Nat) (f : Ctx → Ctx) : (s.onCtx n c f).wr = s.wr := rfl

/-! ### onMe -/

@[simp] theorem State.onMe_mem (s : State) (f : Ctx → Ctx) : (s.onMe f).mem = s.mem := rfl
@[simp] theorem State.onMe_eps (s : State) (f : Ctx → Ctx) : (s.onMe f).eps = s.eps := rfl
@[simp] theorem State.onMe_routers (s : State) (f : Ctx → Ctx) : (s.onMe f).routers = s.routers := rfl
@[simp] theorem State.onMe_fences (s : State) (f : Ctx → Ctx) : (s.onMe f).fences = s.fences := rfl
@[simp] theorem State.onMe_homes (s : State) (f : Ctx → Ctx) : (s.onMe f).homes = s.homes := rfl
@[simp] theorem State.onMe_rings (s : State) (f : Ctx → Ctx) : (s.onMe f).rings = s.rings := rfl
@[simp] theorem State.onMe_rlcs (s : State) (f : Ctx → Ctx) : (s.onMe f).rlcs = s.rlcs := rfl
@[simp] theorem State.onMe_strs (s : State) (f : Ctx → Ctx) : (s.onMe f).strs = s.strs := rfl
@[simp] theorem State.onMe_boardUpd (s : State) (f : Ctx → Ctx) : (s.onMe f).boardUpd = s.boardUpd := rfl
@[simp] theorem State.onMe_fus (s : State) (f : Ctx → Ctx) : (s.onMe f).fus = s.fus := rfl
@[simp] theorem State.onMe_fronts (s : State) (f : Ctx → Ctx) : (s.onMe f).fronts = s.fronts := rfl
@[simp] theorem State.onMe_wins (s : State) (f : Ctx → Ctx) : (s.onMe f).wins = s.wins := rfl
@[simp] theorem State.onMe_rxwin (s : State) (f : Ctx → Ctx) : (s.onMe f).rxwin = s.rxwin := rfl
@[simp] theorem State.onMe_paths (s : State) (f : Ctx → Ctx) : (s.onMe f).paths = s.paths := rfl
@[simp] theorem State.onMe_routes (s : State) (f : Ctx → Ctx) : (s.onMe f).routes = s.routes := rfl
@[simp] theorem State.onMe_links (s : State) (f : Ctx → Ctx) : (s.onMe f).links = s.links := rfl
@[simp] theorem State.onMe_parts (s : State) (f : Ctx → Ctx) : (s.onMe f).parts = s.parts := rfl
@[simp] theorem State.onMe_fws (s : State) (f : Ctx → Ctx) : (s.onMe f).fws = s.fws := rfl
@[simp] theorem State.onMe_pkg (s : State) (f : Ctx → Ctx) : (s.onMe f).pkg = s.pkg := rfl
@[simp] theorem State.onMe_time (s : State) (f : Ctx → Ctx) : (s.onMe f).time = s.time := rfl
@[simp] theorem State.onMe_agenda (s : State) (f : Ctx → Ctx) : (s.onMe f).agenda = s.agenda := rfl
@[simp] theorem State.onMe_cur (s : State) (f : Ctx → Ctx) : (s.onMe f).cur = s.cur := rfl
@[simp] theorem State.onMe_fresh (s : State) (f : Ctx → Ctx) : (s.onMe f).fresh = s.fresh := rfl
@[simp] theorem State.onMe_lastAt (s : State) (f : Ctx → Ctx) : (s.onMe f).lastAt = s.lastAt := rfl
@[simp] theorem State.onMe_takenAt (s : State) (f : Ctx → Ctx) : (s.onMe f).takenAt = s.takenAt := rfl
@[simp] theorem State.onMe_wr (s : State) (f : Ctx → Ctx) : (s.onMe f).wr = s.wr := rfl

/-! ### onMyCore -/

@[simp] theorem State.onMyCore_mem (s : State) (f : CoreSt → CoreSt) : (s.onMyCore f).mem = s.mem := rfl
@[simp] theorem State.onMyCore_eps (s : State) (f : CoreSt → CoreSt) : (s.onMyCore f).eps = s.eps := rfl
@[simp] theorem State.onMyCore_routers (s : State) (f : CoreSt → CoreSt) : (s.onMyCore f).routers = s.routers := rfl
@[simp] theorem State.onMyCore_fences (s : State) (f : CoreSt → CoreSt) : (s.onMyCore f).fences = s.fences := rfl
@[simp] theorem State.onMyCore_homes (s : State) (f : CoreSt → CoreSt) : (s.onMyCore f).homes = s.homes := rfl
@[simp] theorem State.onMyCore_rings (s : State) (f : CoreSt → CoreSt) : (s.onMyCore f).rings = s.rings := rfl
@[simp] theorem State.onMyCore_rlcs (s : State) (f : CoreSt → CoreSt) : (s.onMyCore f).rlcs = s.rlcs := rfl
@[simp] theorem State.onMyCore_strs (s : State) (f : CoreSt → CoreSt) : (s.onMyCore f).strs = s.strs := rfl
@[simp] theorem State.onMyCore_boardUpd (s : State) (f : CoreSt → CoreSt) : (s.onMyCore f).boardUpd = s.boardUpd := rfl
@[simp] theorem State.onMyCore_fus (s : State) (f : CoreSt → CoreSt) : (s.onMyCore f).fus = s.fus := rfl
@[simp] theorem State.onMyCore_fronts (s : State) (f : CoreSt → CoreSt) : (s.onMyCore f).fronts = s.fronts := rfl
@[simp] theorem State.onMyCore_wins (s : State) (f : CoreSt → CoreSt) : (s.onMyCore f).wins = s.wins := rfl
@[simp] theorem State.onMyCore_rxwin (s : State) (f : CoreSt → CoreSt) : (s.onMyCore f).rxwin = s.rxwin := rfl
@[simp] theorem State.onMyCore_paths (s : State) (f : CoreSt → CoreSt) : (s.onMyCore f).paths = s.paths := rfl
@[simp] theorem State.onMyCore_routes (s : State) (f : CoreSt → CoreSt) : (s.onMyCore f).routes = s.routes := rfl
@[simp] theorem State.onMyCore_links (s : State) (f : CoreSt → CoreSt) : (s.onMyCore f).links = s.links := rfl
@[simp] theorem State.onMyCore_parts (s : State) (f : CoreSt → CoreSt) : (s.onMyCore f).parts = s.parts := rfl
@[simp] theorem State.onMyCore_fws (s : State) (f : CoreSt → CoreSt) : (s.onMyCore f).fws = s.fws := rfl
@[simp] theorem State.onMyCore_pkg (s : State) (f : CoreSt → CoreSt) : (s.onMyCore f).pkg = s.pkg := rfl
@[simp] theorem State.onMyCore_time (s : State) (f : CoreSt → CoreSt) : (s.onMyCore f).time = s.time := rfl
@[simp] theorem State.onMyCore_agenda (s : State) (f : CoreSt → CoreSt) : (s.onMyCore f).agenda = s.agenda := rfl
@[simp] theorem State.onMyCore_cur (s : State) (f : CoreSt → CoreSt) : (s.onMyCore f).cur = s.cur := rfl
@[simp] theorem State.onMyCore_fresh (s : State) (f : CoreSt → CoreSt) : (s.onMyCore f).fresh = s.fresh := rfl
@[simp] theorem State.onMyCore_lastAt (s : State) (f : CoreSt → CoreSt) : (s.onMyCore f).lastAt = s.lastAt := rfl
@[simp] theorem State.onMyCore_takenAt (s : State) (f : CoreSt → CoreSt) : (s.onMyCore f).takenAt = s.takenAt := rfl
@[simp] theorem State.onMyCore_wr (s : State) (f : CoreSt → CoreSt) : (s.onMyCore f).wr = s.wr := rfl

/-! ### setG -/

@[simp] theorem State.setG_mem (s : State) (r : GReg) (v : Word) : (s.setG r v).mem = s.mem := rfl
@[simp] theorem State.setG_eps (s : State) (r : GReg) (v : Word) : (s.setG r v).eps = s.eps := rfl
@[simp] theorem State.setG_routers (s : State) (r : GReg) (v : Word) : (s.setG r v).routers = s.routers := rfl
@[simp] theorem State.setG_fences (s : State) (r : GReg) (v : Word) : (s.setG r v).fences = s.fences := rfl
@[simp] theorem State.setG_homes (s : State) (r : GReg) (v : Word) : (s.setG r v).homes = s.homes := rfl
@[simp] theorem State.setG_rings (s : State) (r : GReg) (v : Word) : (s.setG r v).rings = s.rings := rfl
@[simp] theorem State.setG_rlcs (s : State) (r : GReg) (v : Word) : (s.setG r v).rlcs = s.rlcs := rfl
@[simp] theorem State.setG_strs (s : State) (r : GReg) (v : Word) : (s.setG r v).strs = s.strs := rfl
@[simp] theorem State.setG_boardUpd (s : State) (r : GReg) (v : Word) : (s.setG r v).boardUpd = s.boardUpd := rfl
@[simp] theorem State.setG_fus (s : State) (r : GReg) (v : Word) : (s.setG r v).fus = s.fus := rfl
@[simp] theorem State.setG_fronts (s : State) (r : GReg) (v : Word) : (s.setG r v).fronts = s.fronts := rfl
@[simp] theorem State.setG_wins (s : State) (r : GReg) (v : Word) : (s.setG r v).wins = s.wins := rfl
@[simp] theorem State.setG_rxwin (s : State) (r : GReg) (v : Word) : (s.setG r v).rxwin = s.rxwin := rfl
@[simp] theorem State.setG_paths (s : State) (r : GReg) (v : Word) : (s.setG r v).paths = s.paths := rfl
@[simp] theorem State.setG_routes (s : State) (r : GReg) (v : Word) : (s.setG r v).routes = s.routes := rfl
@[simp] theorem State.setG_links (s : State) (r : GReg) (v : Word) : (s.setG r v).links = s.links := rfl
@[simp] theorem State.setG_parts (s : State) (r : GReg) (v : Word) : (s.setG r v).parts = s.parts := rfl
@[simp] theorem State.setG_fws (s : State) (r : GReg) (v : Word) : (s.setG r v).fws = s.fws := rfl
@[simp] theorem State.setG_pkg (s : State) (r : GReg) (v : Word) : (s.setG r v).pkg = s.pkg := rfl
@[simp] theorem State.setG_time (s : State) (r : GReg) (v : Word) : (s.setG r v).time = s.time := rfl
@[simp] theorem State.setG_agenda (s : State) (r : GReg) (v : Word) : (s.setG r v).agenda = s.agenda := rfl
@[simp] theorem State.setG_cur (s : State) (r : GReg) (v : Word) : (s.setG r v).cur = s.cur := rfl
@[simp] theorem State.setG_fresh (s : State) (r : GReg) (v : Word) : (s.setG r v).fresh = s.fresh := rfl
@[simp] theorem State.setG_lastAt (s : State) (r : GReg) (v : Word) : (s.setG r v).lastAt = s.lastAt := rfl
@[simp] theorem State.setG_takenAt (s : State) (r : GReg) (v : Word) : (s.setG r v).takenAt = s.takenAt := rfl
@[simp] theorem State.setG_wr (s : State) (r : GReg) (v : Word) : (s.setG r v).wr = s.wr := rfl

/-! ### setK -/

@[simp] theorem State.setK_mem (s : State) (r : KReg) (v : BitVec 32) : (s.setK r v).mem = s.mem := rfl
@[simp] theorem State.setK_eps (s : State) (r : KReg) (v : BitVec 32) : (s.setK r v).eps = s.eps := rfl
@[simp] theorem State.setK_routers (s : State) (r : KReg) (v : BitVec 32) : (s.setK r v).routers = s.routers := rfl
@[simp] theorem State.setK_fences (s : State) (r : KReg) (v : BitVec 32) : (s.setK r v).fences = s.fences := rfl
@[simp] theorem State.setK_homes (s : State) (r : KReg) (v : BitVec 32) : (s.setK r v).homes = s.homes := rfl
@[simp] theorem State.setK_rings (s : State) (r : KReg) (v : BitVec 32) : (s.setK r v).rings = s.rings := rfl
@[simp] theorem State.setK_rlcs (s : State) (r : KReg) (v : BitVec 32) : (s.setK r v).rlcs = s.rlcs := rfl
@[simp] theorem State.setK_strs (s : State) (r : KReg) (v : BitVec 32) : (s.setK r v).strs = s.strs := rfl
@[simp] theorem State.setK_boardUpd (s : State) (r : KReg) (v : BitVec 32) : (s.setK r v).boardUpd = s.boardUpd := rfl
@[simp] theorem State.setK_fus (s : State) (r : KReg) (v : BitVec 32) : (s.setK r v).fus = s.fus := rfl
@[simp] theorem State.setK_fronts (s : State) (r : KReg) (v : BitVec 32) : (s.setK r v).fronts = s.fronts := rfl
@[simp] theorem State.setK_wins (s : State) (r : KReg) (v : BitVec 32) : (s.setK r v).wins = s.wins := rfl
@[simp] theorem State.setK_rxwin (s : State) (r : KReg) (v : BitVec 32) : (s.setK r v).rxwin = s.rxwin := rfl
@[simp] theorem State.setK_paths (s : State) (r : KReg) (v : BitVec 32) : (s.setK r v).paths = s.paths := rfl
@[simp] theorem State.setK_routes (s : State) (r : KReg) (v : BitVec 32) : (s.setK r v).routes = s.routes := rfl
@[simp] theorem State.setK_links (s : State) (r : KReg) (v : BitVec 32) : (s.setK r v).links = s.links := rfl
@[simp] theorem State.setK_parts (s : State) (r : KReg) (v : BitVec 32) : (s.setK r v).parts = s.parts := rfl
@[simp] theorem State.setK_fws (s : State) (r : KReg) (v : BitVec 32) : (s.setK r v).fws = s.fws := rfl
@[simp] theorem State.setK_pkg (s : State) (r : KReg) (v : BitVec 32) : (s.setK r v).pkg = s.pkg := rfl
@[simp] theorem State.setK_time (s : State) (r : KReg) (v : BitVec 32) : (s.setK r v).time = s.time := rfl
@[simp] theorem State.setK_agenda (s : State) (r : KReg) (v : BitVec 32) : (s.setK r v).agenda = s.agenda := rfl
@[simp] theorem State.setK_cur (s : State) (r : KReg) (v : BitVec 32) : (s.setK r v).cur = s.cur := rfl
@[simp] theorem State.setK_fresh (s : State) (r : KReg) (v : BitVec 32) : (s.setK r v).fresh = s.fresh := rfl
@[simp] theorem State.setK_lastAt (s : State) (r : KReg) (v : BitVec 32) : (s.setK r v).lastAt = s.lastAt := rfl
@[simp] theorem State.setK_takenAt (s : State) (r : KReg) (v : BitVec 32) : (s.setK r v).takenAt = s.takenAt := rfl
@[simp] theorem State.setK_wr (s : State) (r : KReg) (v : BitVec 32) : (s.setK r v).wr = s.wr := rfl

/-! ### setV -/

@[simp] theorem State.setV_mem (s : State) (r : VReg) (v : VWord) : (s.setV r v).mem = s.mem := rfl
@[simp] theorem State.setV_eps (s : State) (r : VReg) (v : VWord) : (s.setV r v).eps = s.eps := rfl
@[simp] theorem State.setV_routers (s : State) (r : VReg) (v : VWord) : (s.setV r v).routers = s.routers := rfl
@[simp] theorem State.setV_fences (s : State) (r : VReg) (v : VWord) : (s.setV r v).fences = s.fences := rfl
@[simp] theorem State.setV_homes (s : State) (r : VReg) (v : VWord) : (s.setV r v).homes = s.homes := rfl
@[simp] theorem State.setV_rings (s : State) (r : VReg) (v : VWord) : (s.setV r v).rings = s.rings := rfl
@[simp] theorem State.setV_rlcs (s : State) (r : VReg) (v : VWord) : (s.setV r v).rlcs = s.rlcs := rfl
@[simp] theorem State.setV_strs (s : State) (r : VReg) (v : VWord) : (s.setV r v).strs = s.strs := rfl
@[simp] theorem State.setV_boardUpd (s : State) (r : VReg) (v : VWord) : (s.setV r v).boardUpd = s.boardUpd := rfl
@[simp] theorem State.setV_fus (s : State) (r : VReg) (v : VWord) : (s.setV r v).fus = s.fus := rfl
@[simp] theorem State.setV_fronts (s : State) (r : VReg) (v : VWord) : (s.setV r v).fronts = s.fronts := rfl
@[simp] theorem State.setV_wins (s : State) (r : VReg) (v : VWord) : (s.setV r v).wins = s.wins := rfl
@[simp] theorem State.setV_rxwin (s : State) (r : VReg) (v : VWord) : (s.setV r v).rxwin = s.rxwin := rfl
@[simp] theorem State.setV_paths (s : State) (r : VReg) (v : VWord) : (s.setV r v).paths = s.paths := rfl
@[simp] theorem State.setV_routes (s : State) (r : VReg) (v : VWord) : (s.setV r v).routes = s.routes := rfl
@[simp] theorem State.setV_links (s : State) (r : VReg) (v : VWord) : (s.setV r v).links = s.links := rfl
@[simp] theorem State.setV_parts (s : State) (r : VReg) (v : VWord) : (s.setV r v).parts = s.parts := rfl
@[simp] theorem State.setV_fws (s : State) (r : VReg) (v : VWord) : (s.setV r v).fws = s.fws := rfl
@[simp] theorem State.setV_pkg (s : State) (r : VReg) (v : VWord) : (s.setV r v).pkg = s.pkg := rfl
@[simp] theorem State.setV_time (s : State) (r : VReg) (v : VWord) : (s.setV r v).time = s.time := rfl
@[simp] theorem State.setV_agenda (s : State) (r : VReg) (v : VWord) : (s.setV r v).agenda = s.agenda := rfl
@[simp] theorem State.setV_cur (s : State) (r : VReg) (v : VWord) : (s.setV r v).cur = s.cur := rfl
@[simp] theorem State.setV_fresh (s : State) (r : VReg) (v : VWord) : (s.setV r v).fresh = s.fresh := rfl
@[simp] theorem State.setV_lastAt (s : State) (r : VReg) (v : VWord) : (s.setV r v).lastAt = s.lastAt := rfl
@[simp] theorem State.setV_takenAt (s : State) (r : VReg) (v : VWord) : (s.setV r v).takenAt = s.takenAt := rfl
@[simp] theorem State.setV_wr (s : State) (r : VReg) (v : VWord) : (s.setV r v).wr = s.wr := rfl

/-! ### setC -/

@[simp] theorem State.setC_mem (s : State) (r : CReg) (v : Chan) : (s.setC r v).mem = s.mem := rfl
@[simp] theorem State.setC_eps (s : State) (r : CReg) (v : Chan) : (s.setC r v).eps = s.eps := rfl
@[simp] theorem State.setC_routers (s : State) (r : CReg) (v : Chan) : (s.setC r v).routers = s.routers := rfl
@[simp] theorem State.setC_fences (s : State) (r : CReg) (v : Chan) : (s.setC r v).fences = s.fences := rfl
@[simp] theorem State.setC_homes (s : State) (r : CReg) (v : Chan) : (s.setC r v).homes = s.homes := rfl
@[simp] theorem State.setC_rings (s : State) (r : CReg) (v : Chan) : (s.setC r v).rings = s.rings := rfl
@[simp] theorem State.setC_rlcs (s : State) (r : CReg) (v : Chan) : (s.setC r v).rlcs = s.rlcs := rfl
@[simp] theorem State.setC_strs (s : State) (r : CReg) (v : Chan) : (s.setC r v).strs = s.strs := rfl
@[simp] theorem State.setC_boardUpd (s : State) (r : CReg) (v : Chan) : (s.setC r v).boardUpd = s.boardUpd := rfl
@[simp] theorem State.setC_fus (s : State) (r : CReg) (v : Chan) : (s.setC r v).fus = s.fus := rfl
@[simp] theorem State.setC_fronts (s : State) (r : CReg) (v : Chan) : (s.setC r v).fronts = s.fronts := rfl
@[simp] theorem State.setC_wins (s : State) (r : CReg) (v : Chan) : (s.setC r v).wins = s.wins := rfl
@[simp] theorem State.setC_rxwin (s : State) (r : CReg) (v : Chan) : (s.setC r v).rxwin = s.rxwin := rfl
@[simp] theorem State.setC_paths (s : State) (r : CReg) (v : Chan) : (s.setC r v).paths = s.paths := rfl
@[simp] theorem State.setC_routes (s : State) (r : CReg) (v : Chan) : (s.setC r v).routes = s.routes := rfl
@[simp] theorem State.setC_links (s : State) (r : CReg) (v : Chan) : (s.setC r v).links = s.links := rfl
@[simp] theorem State.setC_parts (s : State) (r : CReg) (v : Chan) : (s.setC r v).parts = s.parts := rfl
@[simp] theorem State.setC_fws (s : State) (r : CReg) (v : Chan) : (s.setC r v).fws = s.fws := rfl
@[simp] theorem State.setC_pkg (s : State) (r : CReg) (v : Chan) : (s.setC r v).pkg = s.pkg := rfl
@[simp] theorem State.setC_time (s : State) (r : CReg) (v : Chan) : (s.setC r v).time = s.time := rfl
@[simp] theorem State.setC_agenda (s : State) (r : CReg) (v : Chan) : (s.setC r v).agenda = s.agenda := rfl
@[simp] theorem State.setC_cur (s : State) (r : CReg) (v : Chan) : (s.setC r v).cur = s.cur := rfl
@[simp] theorem State.setC_fresh (s : State) (r : CReg) (v : Chan) : (s.setC r v).fresh = s.fresh := rfl
@[simp] theorem State.setC_lastAt (s : State) (r : CReg) (v : Chan) : (s.setC r v).lastAt = s.lastAt := rfl
@[simp] theorem State.setC_takenAt (s : State) (r : CReg) (v : Chan) : (s.setC r v).takenAt = s.takenAt := rfl
@[simp] theorem State.setC_wr (s : State) (r : CReg) (v : Chan) : (s.setC r v).wr = s.wr := rfl

/-! ### flags -/

@[simp] theorem State.flags_mem (s : State) (f : Fl) : (s.flags f).mem = s.mem := rfl
@[simp] theorem State.flags_eps (s : State) (f : Fl) : (s.flags f).eps = s.eps := rfl
@[simp] theorem State.flags_routers (s : State) (f : Fl) : (s.flags f).routers = s.routers := rfl
@[simp] theorem State.flags_fences (s : State) (f : Fl) : (s.flags f).fences = s.fences := rfl
@[simp] theorem State.flags_homes (s : State) (f : Fl) : (s.flags f).homes = s.homes := rfl
@[simp] theorem State.flags_rings (s : State) (f : Fl) : (s.flags f).rings = s.rings := rfl
@[simp] theorem State.flags_rlcs (s : State) (f : Fl) : (s.flags f).rlcs = s.rlcs := rfl
@[simp] theorem State.flags_strs (s : State) (f : Fl) : (s.flags f).strs = s.strs := rfl
@[simp] theorem State.flags_boardUpd (s : State) (f : Fl) : (s.flags f).boardUpd = s.boardUpd := rfl
@[simp] theorem State.flags_fus (s : State) (f : Fl) : (s.flags f).fus = s.fus := rfl
@[simp] theorem State.flags_fronts (s : State) (f : Fl) : (s.flags f).fronts = s.fronts := rfl
@[simp] theorem State.flags_wins (s : State) (f : Fl) : (s.flags f).wins = s.wins := rfl
@[simp] theorem State.flags_rxwin (s : State) (f : Fl) : (s.flags f).rxwin = s.rxwin := rfl
@[simp] theorem State.flags_paths (s : State) (f : Fl) : (s.flags f).paths = s.paths := rfl
@[simp] theorem State.flags_routes (s : State) (f : Fl) : (s.flags f).routes = s.routes := rfl
@[simp] theorem State.flags_links (s : State) (f : Fl) : (s.flags f).links = s.links := rfl
@[simp] theorem State.flags_parts (s : State) (f : Fl) : (s.flags f).parts = s.parts := rfl
@[simp] theorem State.flags_fws (s : State) (f : Fl) : (s.flags f).fws = s.fws := rfl
@[simp] theorem State.flags_pkg (s : State) (f : Fl) : (s.flags f).pkg = s.pkg := rfl
@[simp] theorem State.flags_time (s : State) (f : Fl) : (s.flags f).time = s.time := rfl
@[simp] theorem State.flags_agenda (s : State) (f : Fl) : (s.flags f).agenda = s.agenda := rfl
@[simp] theorem State.flags_cur (s : State) (f : Fl) : (s.flags f).cur = s.cur := rfl
@[simp] theorem State.flags_fresh (s : State) (f : Fl) : (s.flags f).fresh = s.fresh := rfl
@[simp] theorem State.flags_lastAt (s : State) (f : Fl) : (s.flags f).lastAt = s.lastAt := rfl
@[simp] theorem State.flags_takenAt (s : State) (f : Fl) : (s.flags f).takenAt = s.takenAt := rfl
@[simp] theorem State.flags_wr (s : State) (f : Fl) : (s.flags f).wr = s.wr := rfl

/-! ### onEp -/

@[simp] theorem State.onEp_mem (s : State) (n : Nat) (f : Endp → Endp) : (s.onEp n f).mem = s.mem := rfl
@[simp] theorem State.onEp_cores (s : State) (n : Nat) (f : Endp → Endp) : (s.onEp n f).cores = s.cores := rfl
@[simp] theorem State.onEp_routers (s : State) (n : Nat) (f : Endp → Endp) : (s.onEp n f).routers = s.routers := rfl
@[simp] theorem State.onEp_fences (s : State) (n : Nat) (f : Endp → Endp) : (s.onEp n f).fences = s.fences := rfl
@[simp] theorem State.onEp_homes (s : State) (n : Nat) (f : Endp → Endp) : (s.onEp n f).homes = s.homes := rfl
@[simp] theorem State.onEp_rings (s : State) (n : Nat) (f : Endp → Endp) : (s.onEp n f).rings = s.rings := rfl
@[simp] theorem State.onEp_rlcs (s : State) (n : Nat) (f : Endp → Endp) : (s.onEp n f).rlcs = s.rlcs := rfl
@[simp] theorem State.onEp_strs (s : State) (n : Nat) (f : Endp → Endp) : (s.onEp n f).strs = s.strs := rfl
@[simp] theorem State.onEp_boardUpd (s : State) (n : Nat) (f : Endp → Endp) : (s.onEp n f).boardUpd = s.boardUpd := rfl
@[simp] theorem State.onEp_fus (s : State) (n : Nat) (f : Endp → Endp) : (s.onEp n f).fus = s.fus := rfl
@[simp] theorem State.onEp_fronts (s : State) (n : Nat) (f : Endp → Endp) : (s.onEp n f).fronts = s.fronts := rfl
@[simp] theorem State.onEp_wins (s : State) (n : Nat) (f : Endp → Endp) : (s.onEp n f).wins = s.wins := rfl
@[simp] theorem State.onEp_rxwin (s : State) (n : Nat) (f : Endp → Endp) : (s.onEp n f).rxwin = s.rxwin := rfl
@[simp] theorem State.onEp_paths (s : State) (n : Nat) (f : Endp → Endp) : (s.onEp n f).paths = s.paths := rfl
@[simp] theorem State.onEp_routes (s : State) (n : Nat) (f : Endp → Endp) : (s.onEp n f).routes = s.routes := rfl
@[simp] theorem State.onEp_links (s : State) (n : Nat) (f : Endp → Endp) : (s.onEp n f).links = s.links := rfl
@[simp] theorem State.onEp_parts (s : State) (n : Nat) (f : Endp → Endp) : (s.onEp n f).parts = s.parts := rfl
@[simp] theorem State.onEp_fws (s : State) (n : Nat) (f : Endp → Endp) : (s.onEp n f).fws = s.fws := rfl
@[simp] theorem State.onEp_pkg (s : State) (n : Nat) (f : Endp → Endp) : (s.onEp n f).pkg = s.pkg := rfl
@[simp] theorem State.onEp_time (s : State) (n : Nat) (f : Endp → Endp) : (s.onEp n f).time = s.time := rfl
@[simp] theorem State.onEp_agenda (s : State) (n : Nat) (f : Endp → Endp) : (s.onEp n f).agenda = s.agenda := rfl
@[simp] theorem State.onEp_cur (s : State) (n : Nat) (f : Endp → Endp) : (s.onEp n f).cur = s.cur := rfl
@[simp] theorem State.onEp_fresh (s : State) (n : Nat) (f : Endp → Endp) : (s.onEp n f).fresh = s.fresh := rfl
@[simp] theorem State.onEp_lastAt (s : State) (n : Nat) (f : Endp → Endp) : (s.onEp n f).lastAt = s.lastAt := rfl
@[simp] theorem State.onEp_takenAt (s : State) (n : Nat) (f : Endp → Endp) : (s.onEp n f).takenAt = s.takenAt := rfl
@[simp] theorem State.onEp_wr (s : State) (n : Nat) (f : Endp → Endp) : (s.onEp n f).wr = s.wr := rfl

/-! ### onHome -/

@[simp] theorem State.onHome_mem (s : State) (n : Nat) (f : Home → Home) : (s.onHome n f).mem = s.mem := rfl
@[simp] theorem State.onHome_cores (s : State) (n : Nat) (f : Home → Home) : (s.onHome n f).cores = s.cores := rfl
@[simp] theorem State.onHome_eps (s : State) (n : Nat) (f : Home → Home) : (s.onHome n f).eps = s.eps := rfl
@[simp] theorem State.onHome_routers (s : State) (n : Nat) (f : Home → Home) : (s.onHome n f).routers = s.routers := rfl
@[simp] theorem State.onHome_fences (s : State) (n : Nat) (f : Home → Home) : (s.onHome n f).fences = s.fences := rfl
@[simp] theorem State.onHome_rings (s : State) (n : Nat) (f : Home → Home) : (s.onHome n f).rings = s.rings := rfl
@[simp] theorem State.onHome_rlcs (s : State) (n : Nat) (f : Home → Home) : (s.onHome n f).rlcs = s.rlcs := rfl
@[simp] theorem State.onHome_strs (s : State) (n : Nat) (f : Home → Home) : (s.onHome n f).strs = s.strs := rfl
@[simp] theorem State.onHome_boardUpd (s : State) (n : Nat) (f : Home → Home) : (s.onHome n f).boardUpd = s.boardUpd := rfl
@[simp] theorem State.onHome_fus (s : State) (n : Nat) (f : Home → Home) : (s.onHome n f).fus = s.fus := rfl
@[simp] theorem State.onHome_fronts (s : State) (n : Nat) (f : Home → Home) : (s.onHome n f).fronts = s.fronts := rfl
@[simp] theorem State.onHome_wins (s : State) (n : Nat) (f : Home → Home) : (s.onHome n f).wins = s.wins := rfl
@[simp] theorem State.onHome_rxwin (s : State) (n : Nat) (f : Home → Home) : (s.onHome n f).rxwin = s.rxwin := rfl
@[simp] theorem State.onHome_paths (s : State) (n : Nat) (f : Home → Home) : (s.onHome n f).paths = s.paths := rfl
@[simp] theorem State.onHome_routes (s : State) (n : Nat) (f : Home → Home) : (s.onHome n f).routes = s.routes := rfl
@[simp] theorem State.onHome_links (s : State) (n : Nat) (f : Home → Home) : (s.onHome n f).links = s.links := rfl
@[simp] theorem State.onHome_parts (s : State) (n : Nat) (f : Home → Home) : (s.onHome n f).parts = s.parts := rfl
@[simp] theorem State.onHome_fws (s : State) (n : Nat) (f : Home → Home) : (s.onHome n f).fws = s.fws := rfl
@[simp] theorem State.onHome_pkg (s : State) (n : Nat) (f : Home → Home) : (s.onHome n f).pkg = s.pkg := rfl
@[simp] theorem State.onHome_time (s : State) (n : Nat) (f : Home → Home) : (s.onHome n f).time = s.time := rfl
@[simp] theorem State.onHome_agenda (s : State) (n : Nat) (f : Home → Home) : (s.onHome n f).agenda = s.agenda := rfl
@[simp] theorem State.onHome_cur (s : State) (n : Nat) (f : Home → Home) : (s.onHome n f).cur = s.cur := rfl
@[simp] theorem State.onHome_fresh (s : State) (n : Nat) (f : Home → Home) : (s.onHome n f).fresh = s.fresh := rfl
@[simp] theorem State.onHome_lastAt (s : State) (n : Nat) (f : Home → Home) : (s.onHome n f).lastAt = s.lastAt := rfl
@[simp] theorem State.onHome_takenAt (s : State) (n : Nat) (f : Home → Home) : (s.onHome n f).takenAt = s.takenAt := rfl
@[simp] theorem State.onHome_wr (s : State) (n : Nat) (f : Home → Home) : (s.onHome n f).wr = s.wr := rfl

/-! ### onRing -/

@[simp] theorem State.onRing_mem (s : State) (n : Nat) (f : Ring → Ring) : (s.onRing n f).mem = s.mem := rfl
@[simp] theorem State.onRing_cores (s : State) (n : Nat) (f : Ring → Ring) : (s.onRing n f).cores = s.cores := rfl
@[simp] theorem State.onRing_eps (s : State) (n : Nat) (f : Ring → Ring) : (s.onRing n f).eps = s.eps := rfl
@[simp] theorem State.onRing_routers (s : State) (n : Nat) (f : Ring → Ring) : (s.onRing n f).routers = s.routers := rfl
@[simp] theorem State.onRing_fences (s : State) (n : Nat) (f : Ring → Ring) : (s.onRing n f).fences = s.fences := rfl
@[simp] theorem State.onRing_homes (s : State) (n : Nat) (f : Ring → Ring) : (s.onRing n f).homes = s.homes := rfl
@[simp] theorem State.onRing_rlcs (s : State) (n : Nat) (f : Ring → Ring) : (s.onRing n f).rlcs = s.rlcs := rfl
@[simp] theorem State.onRing_strs (s : State) (n : Nat) (f : Ring → Ring) : (s.onRing n f).strs = s.strs := rfl
@[simp] theorem State.onRing_boardUpd (s : State) (n : Nat) (f : Ring → Ring) : (s.onRing n f).boardUpd = s.boardUpd := rfl
@[simp] theorem State.onRing_fus (s : State) (n : Nat) (f : Ring → Ring) : (s.onRing n f).fus = s.fus := rfl
@[simp] theorem State.onRing_fronts (s : State) (n : Nat) (f : Ring → Ring) : (s.onRing n f).fronts = s.fronts := rfl
@[simp] theorem State.onRing_wins (s : State) (n : Nat) (f : Ring → Ring) : (s.onRing n f).wins = s.wins := rfl
@[simp] theorem State.onRing_rxwin (s : State) (n : Nat) (f : Ring → Ring) : (s.onRing n f).rxwin = s.rxwin := rfl
@[simp] theorem State.onRing_paths (s : State) (n : Nat) (f : Ring → Ring) : (s.onRing n f).paths = s.paths := rfl
@[simp] theorem State.onRing_routes (s : State) (n : Nat) (f : Ring → Ring) : (s.onRing n f).routes = s.routes := rfl
@[simp] theorem State.onRing_links (s : State) (n : Nat) (f : Ring → Ring) : (s.onRing n f).links = s.links := rfl
@[simp] theorem State.onRing_parts (s : State) (n : Nat) (f : Ring → Ring) : (s.onRing n f).parts = s.parts := rfl
@[simp] theorem State.onRing_fws (s : State) (n : Nat) (f : Ring → Ring) : (s.onRing n f).fws = s.fws := rfl
@[simp] theorem State.onRing_pkg (s : State) (n : Nat) (f : Ring → Ring) : (s.onRing n f).pkg = s.pkg := rfl
@[simp] theorem State.onRing_time (s : State) (n : Nat) (f : Ring → Ring) : (s.onRing n f).time = s.time := rfl
@[simp] theorem State.onRing_agenda (s : State) (n : Nat) (f : Ring → Ring) : (s.onRing n f).agenda = s.agenda := rfl
@[simp] theorem State.onRing_cur (s : State) (n : Nat) (f : Ring → Ring) : (s.onRing n f).cur = s.cur := rfl
@[simp] theorem State.onRing_fresh (s : State) (n : Nat) (f : Ring → Ring) : (s.onRing n f).fresh = s.fresh := rfl
@[simp] theorem State.onRing_lastAt (s : State) (n : Nat) (f : Ring → Ring) : (s.onRing n f).lastAt = s.lastAt := rfl
@[simp] theorem State.onRing_takenAt (s : State) (n : Nat) (f : Ring → Ring) : (s.onRing n f).takenAt = s.takenAt := rfl
@[simp] theorem State.onRing_wr (s : State) (n : Nat) (f : Ring → Ring) : (s.onRing n f).wr = s.wr := rfl

/-! ### onRlc -/

@[simp] theorem State.onRlc_mem (s : State) (n : Nat) (f : Rlc → Rlc) : (s.onRlc n f).mem = s.mem := rfl
@[simp] theorem State.onRlc_cores (s : State) (n : Nat) (f : Rlc → Rlc) : (s.onRlc n f).cores = s.cores := rfl
@[simp] theorem State.onRlc_eps (s : State) (n : Nat) (f : Rlc → Rlc) : (s.onRlc n f).eps = s.eps := rfl
@[simp] theorem State.onRlc_routers (s : State) (n : Nat) (f : Rlc → Rlc) : (s.onRlc n f).routers = s.routers := rfl
@[simp] theorem State.onRlc_fences (s : State) (n : Nat) (f : Rlc → Rlc) : (s.onRlc n f).fences = s.fences := rfl
@[simp] theorem State.onRlc_homes (s : State) (n : Nat) (f : Rlc → Rlc) : (s.onRlc n f).homes = s.homes := rfl
@[simp] theorem State.onRlc_rings (s : State) (n : Nat) (f : Rlc → Rlc) : (s.onRlc n f).rings = s.rings := rfl
@[simp] theorem State.onRlc_strs (s : State) (n : Nat) (f : Rlc → Rlc) : (s.onRlc n f).strs = s.strs := rfl
@[simp] theorem State.onRlc_boardUpd (s : State) (n : Nat) (f : Rlc → Rlc) : (s.onRlc n f).boardUpd = s.boardUpd := rfl
@[simp] theorem State.onRlc_fus (s : State) (n : Nat) (f : Rlc → Rlc) : (s.onRlc n f).fus = s.fus := rfl
@[simp] theorem State.onRlc_fronts (s : State) (n : Nat) (f : Rlc → Rlc) : (s.onRlc n f).fronts = s.fronts := rfl
@[simp] theorem State.onRlc_wins (s : State) (n : Nat) (f : Rlc → Rlc) : (s.onRlc n f).wins = s.wins := rfl
@[simp] theorem State.onRlc_rxwin (s : State) (n : Nat) (f : Rlc → Rlc) : (s.onRlc n f).rxwin = s.rxwin := rfl
@[simp] theorem State.onRlc_paths (s : State) (n : Nat) (f : Rlc → Rlc) : (s.onRlc n f).paths = s.paths := rfl
@[simp] theorem State.onRlc_routes (s : State) (n : Nat) (f : Rlc → Rlc) : (s.onRlc n f).routes = s.routes := rfl
@[simp] theorem State.onRlc_links (s : State) (n : Nat) (f : Rlc → Rlc) : (s.onRlc n f).links = s.links := rfl
@[simp] theorem State.onRlc_parts (s : State) (n : Nat) (f : Rlc → Rlc) : (s.onRlc n f).parts = s.parts := rfl
@[simp] theorem State.onRlc_fws (s : State) (n : Nat) (f : Rlc → Rlc) : (s.onRlc n f).fws = s.fws := rfl
@[simp] theorem State.onRlc_pkg (s : State) (n : Nat) (f : Rlc → Rlc) : (s.onRlc n f).pkg = s.pkg := rfl
@[simp] theorem State.onRlc_time (s : State) (n : Nat) (f : Rlc → Rlc) : (s.onRlc n f).time = s.time := rfl
@[simp] theorem State.onRlc_agenda (s : State) (n : Nat) (f : Rlc → Rlc) : (s.onRlc n f).agenda = s.agenda := rfl
@[simp] theorem State.onRlc_cur (s : State) (n : Nat) (f : Rlc → Rlc) : (s.onRlc n f).cur = s.cur := rfl
@[simp] theorem State.onRlc_fresh (s : State) (n : Nat) (f : Rlc → Rlc) : (s.onRlc n f).fresh = s.fresh := rfl
@[simp] theorem State.onRlc_lastAt (s : State) (n : Nat) (f : Rlc → Rlc) : (s.onRlc n f).lastAt = s.lastAt := rfl
@[simp] theorem State.onRlc_takenAt (s : State) (n : Nat) (f : Rlc → Rlc) : (s.onRlc n f).takenAt = s.takenAt := rfl
@[simp] theorem State.onRlc_wr (s : State) (n : Nat) (f : Rlc → Rlc) : (s.onRlc n f).wr = s.wr := rfl

/-! ### onStr -/

@[simp] theorem State.onStr_mem (s : State) (n : Nat) (f : Streamer → Streamer) : (s.onStr n f).mem = s.mem := rfl
@[simp] theorem State.onStr_cores (s : State) (n : Nat) (f : Streamer → Streamer) : (s.onStr n f).cores = s.cores := rfl
@[simp] theorem State.onStr_eps (s : State) (n : Nat) (f : Streamer → Streamer) : (s.onStr n f).eps = s.eps := rfl
@[simp] theorem State.onStr_routers (s : State) (n : Nat) (f : Streamer → Streamer) : (s.onStr n f).routers = s.routers := rfl
@[simp] theorem State.onStr_fences (s : State) (n : Nat) (f : Streamer → Streamer) : (s.onStr n f).fences = s.fences := rfl
@[simp] theorem State.onStr_homes (s : State) (n : Nat) (f : Streamer → Streamer) : (s.onStr n f).homes = s.homes := rfl
@[simp] theorem State.onStr_rings (s : State) (n : Nat) (f : Streamer → Streamer) : (s.onStr n f).rings = s.rings := rfl
@[simp] theorem State.onStr_rlcs (s : State) (n : Nat) (f : Streamer → Streamer) : (s.onStr n f).rlcs = s.rlcs := rfl
@[simp] theorem State.onStr_boardUpd (s : State) (n : Nat) (f : Streamer → Streamer) : (s.onStr n f).boardUpd = s.boardUpd := rfl
@[simp] theorem State.onStr_fus (s : State) (n : Nat) (f : Streamer → Streamer) : (s.onStr n f).fus = s.fus := rfl
@[simp] theorem State.onStr_fronts (s : State) (n : Nat) (f : Streamer → Streamer) : (s.onStr n f).fronts = s.fronts := rfl
@[simp] theorem State.onStr_wins (s : State) (n : Nat) (f : Streamer → Streamer) : (s.onStr n f).wins = s.wins := rfl
@[simp] theorem State.onStr_rxwin (s : State) (n : Nat) (f : Streamer → Streamer) : (s.onStr n f).rxwin = s.rxwin := rfl
@[simp] theorem State.onStr_paths (s : State) (n : Nat) (f : Streamer → Streamer) : (s.onStr n f).paths = s.paths := rfl
@[simp] theorem State.onStr_routes (s : State) (n : Nat) (f : Streamer → Streamer) : (s.onStr n f).routes = s.routes := rfl
@[simp] theorem State.onStr_links (s : State) (n : Nat) (f : Streamer → Streamer) : (s.onStr n f).links = s.links := rfl
@[simp] theorem State.onStr_parts (s : State) (n : Nat) (f : Streamer → Streamer) : (s.onStr n f).parts = s.parts := rfl
@[simp] theorem State.onStr_fws (s : State) (n : Nat) (f : Streamer → Streamer) : (s.onStr n f).fws = s.fws := rfl
@[simp] theorem State.onStr_pkg (s : State) (n : Nat) (f : Streamer → Streamer) : (s.onStr n f).pkg = s.pkg := rfl
@[simp] theorem State.onStr_time (s : State) (n : Nat) (f : Streamer → Streamer) : (s.onStr n f).time = s.time := rfl
@[simp] theorem State.onStr_agenda (s : State) (n : Nat) (f : Streamer → Streamer) : (s.onStr n f).agenda = s.agenda := rfl
@[simp] theorem State.onStr_cur (s : State) (n : Nat) (f : Streamer → Streamer) : (s.onStr n f).cur = s.cur := rfl
@[simp] theorem State.onStr_fresh (s : State) (n : Nat) (f : Streamer → Streamer) : (s.onStr n f).fresh = s.fresh := rfl
@[simp] theorem State.onStr_lastAt (s : State) (n : Nat) (f : Streamer → Streamer) : (s.onStr n f).lastAt = s.lastAt := rfl
@[simp] theorem State.onStr_takenAt (s : State) (n : Nat) (f : Streamer → Streamer) : (s.onStr n f).takenAt = s.takenAt := rfl
@[simp] theorem State.onStr_wr (s : State) (n : Nat) (f : Streamer → Streamer) : (s.onStr n f).wr = s.wr := rfl

/-! ### onFu -/

@[simp] theorem State.onFu_mem (s : State) (n : Nat) (f : FrontUnit → FrontUnit) : (s.onFu n f).mem = s.mem := rfl
@[simp] theorem State.onFu_cores (s : State) (n : Nat) (f : FrontUnit → FrontUnit) : (s.onFu n f).cores = s.cores := rfl
@[simp] theorem State.onFu_eps (s : State) (n : Nat) (f : FrontUnit → FrontUnit) : (s.onFu n f).eps = s.eps := rfl
@[simp] theorem State.onFu_routers (s : State) (n : Nat) (f : FrontUnit → FrontUnit) : (s.onFu n f).routers = s.routers := rfl
@[simp] theorem State.onFu_fences (s : State) (n : Nat) (f : FrontUnit → FrontUnit) : (s.onFu n f).fences = s.fences := rfl
@[simp] theorem State.onFu_homes (s : State) (n : Nat) (f : FrontUnit → FrontUnit) : (s.onFu n f).homes = s.homes := rfl
@[simp] theorem State.onFu_rings (s : State) (n : Nat) (f : FrontUnit → FrontUnit) : (s.onFu n f).rings = s.rings := rfl
@[simp] theorem State.onFu_rlcs (s : State) (n : Nat) (f : FrontUnit → FrontUnit) : (s.onFu n f).rlcs = s.rlcs := rfl
@[simp] theorem State.onFu_strs (s : State) (n : Nat) (f : FrontUnit → FrontUnit) : (s.onFu n f).strs = s.strs := rfl
@[simp] theorem State.onFu_boardUpd (s : State) (n : Nat) (f : FrontUnit → FrontUnit) : (s.onFu n f).boardUpd = s.boardUpd := rfl
@[simp] theorem State.onFu_fronts (s : State) (n : Nat) (f : FrontUnit → FrontUnit) : (s.onFu n f).fronts = s.fronts := rfl
@[simp] theorem State.onFu_wins (s : State) (n : Nat) (f : FrontUnit → FrontUnit) : (s.onFu n f).wins = s.wins := rfl
@[simp] theorem State.onFu_rxwin (s : State) (n : Nat) (f : FrontUnit → FrontUnit) : (s.onFu n f).rxwin = s.rxwin := rfl
@[simp] theorem State.onFu_paths (s : State) (n : Nat) (f : FrontUnit → FrontUnit) : (s.onFu n f).paths = s.paths := rfl
@[simp] theorem State.onFu_routes (s : State) (n : Nat) (f : FrontUnit → FrontUnit) : (s.onFu n f).routes = s.routes := rfl
@[simp] theorem State.onFu_links (s : State) (n : Nat) (f : FrontUnit → FrontUnit) : (s.onFu n f).links = s.links := rfl
@[simp] theorem State.onFu_parts (s : State) (n : Nat) (f : FrontUnit → FrontUnit) : (s.onFu n f).parts = s.parts := rfl
@[simp] theorem State.onFu_fws (s : State) (n : Nat) (f : FrontUnit → FrontUnit) : (s.onFu n f).fws = s.fws := rfl
@[simp] theorem State.onFu_pkg (s : State) (n : Nat) (f : FrontUnit → FrontUnit) : (s.onFu n f).pkg = s.pkg := rfl
@[simp] theorem State.onFu_time (s : State) (n : Nat) (f : FrontUnit → FrontUnit) : (s.onFu n f).time = s.time := rfl
@[simp] theorem State.onFu_agenda (s : State) (n : Nat) (f : FrontUnit → FrontUnit) : (s.onFu n f).agenda = s.agenda := rfl
@[simp] theorem State.onFu_cur (s : State) (n : Nat) (f : FrontUnit → FrontUnit) : (s.onFu n f).cur = s.cur := rfl
@[simp] theorem State.onFu_fresh (s : State) (n : Nat) (f : FrontUnit → FrontUnit) : (s.onFu n f).fresh = s.fresh := rfl
@[simp] theorem State.onFu_lastAt (s : State) (n : Nat) (f : FrontUnit → FrontUnit) : (s.onFu n f).lastAt = s.lastAt := rfl
@[simp] theorem State.onFu_takenAt (s : State) (n : Nat) (f : FrontUnit → FrontUnit) : (s.onFu n f).takenAt = s.takenAt := rfl
@[simp] theorem State.onFu_wr (s : State) (n : Nat) (f : FrontUnit → FrontUnit) : (s.onFu n f).wr = s.wr := rfl

/-! ### onWin -/

@[simp] theorem State.onWin_mem (s : State) (n : Nat) (f : WinEng → WinEng) : (s.onWin n f).mem = s.mem := rfl
@[simp] theorem State.onWin_cores (s : State) (n : Nat) (f : WinEng → WinEng) : (s.onWin n f).cores = s.cores := rfl
@[simp] theorem State.onWin_eps (s : State) (n : Nat) (f : WinEng → WinEng) : (s.onWin n f).eps = s.eps := rfl
@[simp] theorem State.onWin_routers (s : State) (n : Nat) (f : WinEng → WinEng) : (s.onWin n f).routers = s.routers := rfl
@[simp] theorem State.onWin_fences (s : State) (n : Nat) (f : WinEng → WinEng) : (s.onWin n f).fences = s.fences := rfl
@[simp] theorem State.onWin_homes (s : State) (n : Nat) (f : WinEng → WinEng) : (s.onWin n f).homes = s.homes := rfl
@[simp] theorem State.onWin_rings (s : State) (n : Nat) (f : WinEng → WinEng) : (s.onWin n f).rings = s.rings := rfl
@[simp] theorem State.onWin_rlcs (s : State) (n : Nat) (f : WinEng → WinEng) : (s.onWin n f).rlcs = s.rlcs := rfl
@[simp] theorem State.onWin_strs (s : State) (n : Nat) (f : WinEng → WinEng) : (s.onWin n f).strs = s.strs := rfl
@[simp] theorem State.onWin_boardUpd (s : State) (n : Nat) (f : WinEng → WinEng) : (s.onWin n f).boardUpd = s.boardUpd := rfl
@[simp] theorem State.onWin_fus (s : State) (n : Nat) (f : WinEng → WinEng) : (s.onWin n f).fus = s.fus := rfl
@[simp] theorem State.onWin_fronts (s : State) (n : Nat) (f : WinEng → WinEng) : (s.onWin n f).fronts = s.fronts := rfl
@[simp] theorem State.onWin_rxwin (s : State) (n : Nat) (f : WinEng → WinEng) : (s.onWin n f).rxwin = s.rxwin := rfl
@[simp] theorem State.onWin_paths (s : State) (n : Nat) (f : WinEng → WinEng) : (s.onWin n f).paths = s.paths := rfl
@[simp] theorem State.onWin_routes (s : State) (n : Nat) (f : WinEng → WinEng) : (s.onWin n f).routes = s.routes := rfl
@[simp] theorem State.onWin_links (s : State) (n : Nat) (f : WinEng → WinEng) : (s.onWin n f).links = s.links := rfl
@[simp] theorem State.onWin_parts (s : State) (n : Nat) (f : WinEng → WinEng) : (s.onWin n f).parts = s.parts := rfl
@[simp] theorem State.onWin_fws (s : State) (n : Nat) (f : WinEng → WinEng) : (s.onWin n f).fws = s.fws := rfl
@[simp] theorem State.onWin_pkg (s : State) (n : Nat) (f : WinEng → WinEng) : (s.onWin n f).pkg = s.pkg := rfl
@[simp] theorem State.onWin_time (s : State) (n : Nat) (f : WinEng → WinEng) : (s.onWin n f).time = s.time := rfl
@[simp] theorem State.onWin_agenda (s : State) (n : Nat) (f : WinEng → WinEng) : (s.onWin n f).agenda = s.agenda := rfl
@[simp] theorem State.onWin_cur (s : State) (n : Nat) (f : WinEng → WinEng) : (s.onWin n f).cur = s.cur := rfl
@[simp] theorem State.onWin_fresh (s : State) (n : Nat) (f : WinEng → WinEng) : (s.onWin n f).fresh = s.fresh := rfl
@[simp] theorem State.onWin_lastAt (s : State) (n : Nat) (f : WinEng → WinEng) : (s.onWin n f).lastAt = s.lastAt := rfl
@[simp] theorem State.onWin_takenAt (s : State) (n : Nat) (f : WinEng → WinEng) : (s.onWin n f).takenAt = s.takenAt := rfl
@[simp] theorem State.onWin_wr (s : State) (n : Nat) (f : WinEng → WinEng) : (s.onWin n f).wr = s.wr := rfl

/-! ### onLink -/

@[simp] theorem State.onLink_mem (s : State) (n : Nat) (f : Link → Link) : (s.onLink n f).mem = s.mem := rfl
@[simp] theorem State.onLink_cores (s : State) (n : Nat) (f : Link → Link) : (s.onLink n f).cores = s.cores := rfl
@[simp] theorem State.onLink_eps (s : State) (n : Nat) (f : Link → Link) : (s.onLink n f).eps = s.eps := rfl
@[simp] theorem State.onLink_routers (s : State) (n : Nat) (f : Link → Link) : (s.onLink n f).routers = s.routers := rfl
@[simp] theorem State.onLink_fences (s : State) (n : Nat) (f : Link → Link) : (s.onLink n f).fences = s.fences := rfl
@[simp] theorem State.onLink_homes (s : State) (n : Nat) (f : Link → Link) : (s.onLink n f).homes = s.homes := rfl
@[simp] theorem State.onLink_rings (s : State) (n : Nat) (f : Link → Link) : (s.onLink n f).rings = s.rings := rfl
@[simp] theorem State.onLink_rlcs (s : State) (n : Nat) (f : Link → Link) : (s.onLink n f).rlcs = s.rlcs := rfl
@[simp] theorem State.onLink_strs (s : State) (n : Nat) (f : Link → Link) : (s.onLink n f).strs = s.strs := rfl
@[simp] theorem State.onLink_boardUpd (s : State) (n : Nat) (f : Link → Link) : (s.onLink n f).boardUpd = s.boardUpd := rfl
@[simp] theorem State.onLink_fus (s : State) (n : Nat) (f : Link → Link) : (s.onLink n f).fus = s.fus := rfl
@[simp] theorem State.onLink_fronts (s : State) (n : Nat) (f : Link → Link) : (s.onLink n f).fronts = s.fronts := rfl
@[simp] theorem State.onLink_wins (s : State) (n : Nat) (f : Link → Link) : (s.onLink n f).wins = s.wins := rfl
@[simp] theorem State.onLink_rxwin (s : State) (n : Nat) (f : Link → Link) : (s.onLink n f).rxwin = s.rxwin := rfl
@[simp] theorem State.onLink_paths (s : State) (n : Nat) (f : Link → Link) : (s.onLink n f).paths = s.paths := rfl
@[simp] theorem State.onLink_routes (s : State) (n : Nat) (f : Link → Link) : (s.onLink n f).routes = s.routes := rfl
@[simp] theorem State.onLink_parts (s : State) (n : Nat) (f : Link → Link) : (s.onLink n f).parts = s.parts := rfl
@[simp] theorem State.onLink_fws (s : State) (n : Nat) (f : Link → Link) : (s.onLink n f).fws = s.fws := rfl
@[simp] theorem State.onLink_pkg (s : State) (n : Nat) (f : Link → Link) : (s.onLink n f).pkg = s.pkg := rfl
@[simp] theorem State.onLink_time (s : State) (n : Nat) (f : Link → Link) : (s.onLink n f).time = s.time := rfl
@[simp] theorem State.onLink_agenda (s : State) (n : Nat) (f : Link → Link) : (s.onLink n f).agenda = s.agenda := rfl
@[simp] theorem State.onLink_cur (s : State) (n : Nat) (f : Link → Link) : (s.onLink n f).cur = s.cur := rfl
@[simp] theorem State.onLink_fresh (s : State) (n : Nat) (f : Link → Link) : (s.onLink n f).fresh = s.fresh := rfl
@[simp] theorem State.onLink_lastAt (s : State) (n : Nat) (f : Link → Link) : (s.onLink n f).lastAt = s.lastAt := rfl
@[simp] theorem State.onLink_takenAt (s : State) (n : Nat) (f : Link → Link) : (s.onLink n f).takenAt = s.takenAt := rfl
@[simp] theorem State.onLink_wr (s : State) (n : Nat) (f : Link → Link) : (s.onLink n f).wr = s.wr := rfl

/-! ### onFw -/

@[simp] theorem State.onFw_mem (s : State) (n : Nat) (f : FwCore → FwCore) : (s.onFw n f).mem = s.mem := rfl
@[simp] theorem State.onFw_cores (s : State) (n : Nat) (f : FwCore → FwCore) : (s.onFw n f).cores = s.cores := rfl
@[simp] theorem State.onFw_eps (s : State) (n : Nat) (f : FwCore → FwCore) : (s.onFw n f).eps = s.eps := rfl
@[simp] theorem State.onFw_routers (s : State) (n : Nat) (f : FwCore → FwCore) : (s.onFw n f).routers = s.routers := rfl
@[simp] theorem State.onFw_fences (s : State) (n : Nat) (f : FwCore → FwCore) : (s.onFw n f).fences = s.fences := rfl
@[simp] theorem State.onFw_homes (s : State) (n : Nat) (f : FwCore → FwCore) : (s.onFw n f).homes = s.homes := rfl
@[simp] theorem State.onFw_rings (s : State) (n : Nat) (f : FwCore → FwCore) : (s.onFw n f).rings = s.rings := rfl
@[simp] theorem State.onFw_rlcs (s : State) (n : Nat) (f : FwCore → FwCore) : (s.onFw n f).rlcs = s.rlcs := rfl
@[simp] theorem State.onFw_strs (s : State) (n : Nat) (f : FwCore → FwCore) : (s.onFw n f).strs = s.strs := rfl
@[simp] theorem State.onFw_boardUpd (s : State) (n : Nat) (f : FwCore → FwCore) : (s.onFw n f).boardUpd = s.boardUpd := rfl
@[simp] theorem State.onFw_fus (s : State) (n : Nat) (f : FwCore → FwCore) : (s.onFw n f).fus = s.fus := rfl
@[simp] theorem State.onFw_fronts (s : State) (n : Nat) (f : FwCore → FwCore) : (s.onFw n f).fronts = s.fronts := rfl
@[simp] theorem State.onFw_wins (s : State) (n : Nat) (f : FwCore → FwCore) : (s.onFw n f).wins = s.wins := rfl
@[simp] theorem State.onFw_rxwin (s : State) (n : Nat) (f : FwCore → FwCore) : (s.onFw n f).rxwin = s.rxwin := rfl
@[simp] theorem State.onFw_paths (s : State) (n : Nat) (f : FwCore → FwCore) : (s.onFw n f).paths = s.paths := rfl
@[simp] theorem State.onFw_routes (s : State) (n : Nat) (f : FwCore → FwCore) : (s.onFw n f).routes = s.routes := rfl
@[simp] theorem State.onFw_links (s : State) (n : Nat) (f : FwCore → FwCore) : (s.onFw n f).links = s.links := rfl
@[simp] theorem State.onFw_parts (s : State) (n : Nat) (f : FwCore → FwCore) : (s.onFw n f).parts = s.parts := rfl
@[simp] theorem State.onFw_pkg (s : State) (n : Nat) (f : FwCore → FwCore) : (s.onFw n f).pkg = s.pkg := rfl
@[simp] theorem State.onFw_time (s : State) (n : Nat) (f : FwCore → FwCore) : (s.onFw n f).time = s.time := rfl
@[simp] theorem State.onFw_agenda (s : State) (n : Nat) (f : FwCore → FwCore) : (s.onFw n f).agenda = s.agenda := rfl
@[simp] theorem State.onFw_cur (s : State) (n : Nat) (f : FwCore → FwCore) : (s.onFw n f).cur = s.cur := rfl
@[simp] theorem State.onFw_fresh (s : State) (n : Nat) (f : FwCore → FwCore) : (s.onFw n f).fresh = s.fresh := rfl
@[simp] theorem State.onFw_lastAt (s : State) (n : Nat) (f : FwCore → FwCore) : (s.onFw n f).lastAt = s.lastAt := rfl
@[simp] theorem State.onFw_takenAt (s : State) (n : Nat) (f : FwCore → FwCore) : (s.onFw n f).takenAt = s.takenAt := rfl
@[simp] theorem State.onFw_wr (s : State) (n : Nat) (f : FwCore → FwCore) : (s.onFw n f).wr = s.wr := rfl

/-! ### onRouter -/

@[simp] theorem State.onRouter_mem (s : State) (n : Nat) (f : Router → Router) : (s.onRouter n f).mem = s.mem := rfl
@[simp] theorem State.onRouter_cores (s : State) (n : Nat) (f : Router → Router) : (s.onRouter n f).cores = s.cores := rfl
@[simp] theorem State.onRouter_eps (s : State) (n : Nat) (f : Router → Router) : (s.onRouter n f).eps = s.eps := rfl
@[simp] theorem State.onRouter_fences (s : State) (n : Nat) (f : Router → Router) : (s.onRouter n f).fences = s.fences := rfl
@[simp] theorem State.onRouter_homes (s : State) (n : Nat) (f : Router → Router) : (s.onRouter n f).homes = s.homes := rfl
@[simp] theorem State.onRouter_rings (s : State) (n : Nat) (f : Router → Router) : (s.onRouter n f).rings = s.rings := rfl
@[simp] theorem State.onRouter_rlcs (s : State) (n : Nat) (f : Router → Router) : (s.onRouter n f).rlcs = s.rlcs := rfl
@[simp] theorem State.onRouter_strs (s : State) (n : Nat) (f : Router → Router) : (s.onRouter n f).strs = s.strs := rfl
@[simp] theorem State.onRouter_boardUpd (s : State) (n : Nat) (f : Router → Router) : (s.onRouter n f).boardUpd = s.boardUpd := rfl
@[simp] theorem State.onRouter_fus (s : State) (n : Nat) (f : Router → Router) : (s.onRouter n f).fus = s.fus := rfl
@[simp] theorem State.onRouter_fronts (s : State) (n : Nat) (f : Router → Router) : (s.onRouter n f).fronts = s.fronts := rfl
@[simp] theorem State.onRouter_wins (s : State) (n : Nat) (f : Router → Router) : (s.onRouter n f).wins = s.wins := rfl
@[simp] theorem State.onRouter_rxwin (s : State) (n : Nat) (f : Router → Router) : (s.onRouter n f).rxwin = s.rxwin := rfl
@[simp] theorem State.onRouter_paths (s : State) (n : Nat) (f : Router → Router) : (s.onRouter n f).paths = s.paths := rfl
@[simp] theorem State.onRouter_routes (s : State) (n : Nat) (f : Router → Router) : (s.onRouter n f).routes = s.routes := rfl
@[simp] theorem State.onRouter_links (s : State) (n : Nat) (f : Router → Router) : (s.onRouter n f).links = s.links := rfl
@[simp] theorem State.onRouter_parts (s : State) (n : Nat) (f : Router → Router) : (s.onRouter n f).parts = s.parts := rfl
@[simp] theorem State.onRouter_fws (s : State) (n : Nat) (f : Router → Router) : (s.onRouter n f).fws = s.fws := rfl
@[simp] theorem State.onRouter_pkg (s : State) (n : Nat) (f : Router → Router) : (s.onRouter n f).pkg = s.pkg := rfl
@[simp] theorem State.onRouter_time (s : State) (n : Nat) (f : Router → Router) : (s.onRouter n f).time = s.time := rfl
@[simp] theorem State.onRouter_agenda (s : State) (n : Nat) (f : Router → Router) : (s.onRouter n f).agenda = s.agenda := rfl
@[simp] theorem State.onRouter_cur (s : State) (n : Nat) (f : Router → Router) : (s.onRouter n f).cur = s.cur := rfl
@[simp] theorem State.onRouter_fresh (s : State) (n : Nat) (f : Router → Router) : (s.onRouter n f).fresh = s.fresh := rfl
@[simp] theorem State.onRouter_lastAt (s : State) (n : Nat) (f : Router → Router) : (s.onRouter n f).lastAt = s.lastAt := rfl
@[simp] theorem State.onRouter_takenAt (s : State) (n : Nat) (f : Router → Router) : (s.onRouter n f).takenAt = s.takenAt := rfl
@[simp] theorem State.onRouter_wr (s : State) (n : Nat) (f : Router → Router) : (s.onRouter n f).wr = s.wr := rfl

/-! ### onPkg -/

@[simp] theorem State.onPkg_mem (s : State) (f : Pkg → Pkg) : (s.onPkg f).mem = s.mem := rfl
@[simp] theorem State.onPkg_cores (s : State) (f : Pkg → Pkg) : (s.onPkg f).cores = s.cores := rfl
@[simp] theorem State.onPkg_eps (s : State) (f : Pkg → Pkg) : (s.onPkg f).eps = s.eps := rfl
@[simp] theorem State.onPkg_routers (s : State) (f : Pkg → Pkg) : (s.onPkg f).routers = s.routers := rfl
@[simp] theorem State.onPkg_fences (s : State) (f : Pkg → Pkg) : (s.onPkg f).fences = s.fences := rfl
@[simp] theorem State.onPkg_homes (s : State) (f : Pkg → Pkg) : (s.onPkg f).homes = s.homes := rfl
@[simp] theorem State.onPkg_rings (s : State) (f : Pkg → Pkg) : (s.onPkg f).rings = s.rings := rfl
@[simp] theorem State.onPkg_rlcs (s : State) (f : Pkg → Pkg) : (s.onPkg f).rlcs = s.rlcs := rfl
@[simp] theorem State.onPkg_strs (s : State) (f : Pkg → Pkg) : (s.onPkg f).strs = s.strs := rfl
@[simp] theorem State.onPkg_boardUpd (s : State) (f : Pkg → Pkg) : (s.onPkg f).boardUpd = s.boardUpd := rfl
@[simp] theorem State.onPkg_fus (s : State) (f : Pkg → Pkg) : (s.onPkg f).fus = s.fus := rfl
@[simp] theorem State.onPkg_fronts (s : State) (f : Pkg → Pkg) : (s.onPkg f).fronts = s.fronts := rfl
@[simp] theorem State.onPkg_wins (s : State) (f : Pkg → Pkg) : (s.onPkg f).wins = s.wins := rfl
@[simp] theorem State.onPkg_rxwin (s : State) (f : Pkg → Pkg) : (s.onPkg f).rxwin = s.rxwin := rfl
@[simp] theorem State.onPkg_paths (s : State) (f : Pkg → Pkg) : (s.onPkg f).paths = s.paths := rfl
@[simp] theorem State.onPkg_routes (s : State) (f : Pkg → Pkg) : (s.onPkg f).routes = s.routes := rfl
@[simp] theorem State.onPkg_links (s : State) (f : Pkg → Pkg) : (s.onPkg f).links = s.links := rfl
@[simp] theorem State.onPkg_parts (s : State) (f : Pkg → Pkg) : (s.onPkg f).parts = s.parts := rfl
@[simp] theorem State.onPkg_fws (s : State) (f : Pkg → Pkg) : (s.onPkg f).fws = s.fws := rfl
@[simp] theorem State.onPkg_time (s : State) (f : Pkg → Pkg) : (s.onPkg f).time = s.time := rfl
@[simp] theorem State.onPkg_agenda (s : State) (f : Pkg → Pkg) : (s.onPkg f).agenda = s.agenda := rfl
@[simp] theorem State.onPkg_cur (s : State) (f : Pkg → Pkg) : (s.onPkg f).cur = s.cur := rfl
@[simp] theorem State.onPkg_fresh (s : State) (f : Pkg → Pkg) : (s.onPkg f).fresh = s.fresh := rfl
@[simp] theorem State.onPkg_lastAt (s : State) (f : Pkg → Pkg) : (s.onPkg f).lastAt = s.lastAt := rfl
@[simp] theorem State.onPkg_takenAt (s : State) (f : Pkg → Pkg) : (s.onPkg f).takenAt = s.takenAt := rfl
@[simp] theorem State.onPkg_wr (s : State) (f : Pkg → Pkg) : (s.onPkg f).wr = s.wr := rfl

/-! ### onMem -/

@[simp] theorem State.onMem_cores (s : State) (f : Memory → Memory) : (s.onMem f).cores = s.cores := rfl
@[simp] theorem State.onMem_eps (s : State) (f : Memory → Memory) : (s.onMem f).eps = s.eps := rfl
@[simp] theorem State.onMem_routers (s : State) (f : Memory → Memory) : (s.onMem f).routers = s.routers := rfl
@[simp] theorem State.onMem_fences (s : State) (f : Memory → Memory) : (s.onMem f).fences = s.fences := rfl
@[simp] theorem State.onMem_homes (s : State) (f : Memory → Memory) : (s.onMem f).homes = s.homes := rfl
@[simp] theorem State.onMem_rings (s : State) (f : Memory → Memory) : (s.onMem f).rings = s.rings := rfl
@[simp] theorem State.onMem_rlcs (s : State) (f : Memory → Memory) : (s.onMem f).rlcs = s.rlcs := rfl
@[simp] theorem State.onMem_strs (s : State) (f : Memory → Memory) : (s.onMem f).strs = s.strs := rfl
@[simp] theorem State.onMem_boardUpd (s : State) (f : Memory → Memory) : (s.onMem f).boardUpd = s.boardUpd := rfl
@[simp] theorem State.onMem_fus (s : State) (f : Memory → Memory) : (s.onMem f).fus = s.fus := rfl
@[simp] theorem State.onMem_fronts (s : State) (f : Memory → Memory) : (s.onMem f).fronts = s.fronts := rfl
@[simp] theorem State.onMem_wins (s : State) (f : Memory → Memory) : (s.onMem f).wins = s.wins := rfl
@[simp] theorem State.onMem_rxwin (s : State) (f : Memory → Memory) : (s.onMem f).rxwin = s.rxwin := rfl
@[simp] theorem State.onMem_paths (s : State) (f : Memory → Memory) : (s.onMem f).paths = s.paths := rfl
@[simp] theorem State.onMem_routes (s : State) (f : Memory → Memory) : (s.onMem f).routes = s.routes := rfl
@[simp] theorem State.onMem_links (s : State) (f : Memory → Memory) : (s.onMem f).links = s.links := rfl
@[simp] theorem State.onMem_parts (s : State) (f : Memory → Memory) : (s.onMem f).parts = s.parts := rfl
@[simp] theorem State.onMem_fws (s : State) (f : Memory → Memory) : (s.onMem f).fws = s.fws := rfl
@[simp] theorem State.onMem_pkg (s : State) (f : Memory → Memory) : (s.onMem f).pkg = s.pkg := rfl
@[simp] theorem State.onMem_time (s : State) (f : Memory → Memory) : (s.onMem f).time = s.time := rfl
@[simp] theorem State.onMem_agenda (s : State) (f : Memory → Memory) : (s.onMem f).agenda = s.agenda := rfl
@[simp] theorem State.onMem_cur (s : State) (f : Memory → Memory) : (s.onMem f).cur = s.cur := rfl
@[simp] theorem State.onMem_fresh (s : State) (f : Memory → Memory) : (s.onMem f).fresh = s.fresh := rfl
@[simp] theorem State.onMem_lastAt (s : State) (f : Memory → Memory) : (s.onMem f).lastAt = s.lastAt := rfl
@[simp] theorem State.onMem_takenAt (s : State) (f : Memory → Memory) : (s.onMem f).takenAt = s.takenAt := rfl
@[simp] theorem State.onMem_wr (s : State) (f : Memory → Memory) : (s.onMem f).wr = s.wr := rfl

/-! ### tick -/

@[simp] theorem State.tick_mem (s : State) : (s.tick).mem = s.mem := rfl
@[simp] theorem State.tick_cores (s : State) : (s.tick).cores = s.cores := rfl
@[simp] theorem State.tick_eps (s : State) : (s.tick).eps = s.eps := rfl
@[simp] theorem State.tick_routers (s : State) : (s.tick).routers = s.routers := rfl
@[simp] theorem State.tick_fences (s : State) : (s.tick).fences = s.fences := rfl
@[simp] theorem State.tick_homes (s : State) : (s.tick).homes = s.homes := rfl
@[simp] theorem State.tick_rings (s : State) : (s.tick).rings = s.rings := rfl
@[simp] theorem State.tick_rlcs (s : State) : (s.tick).rlcs = s.rlcs := rfl
@[simp] theorem State.tick_strs (s : State) : (s.tick).strs = s.strs := rfl
@[simp] theorem State.tick_boardUpd (s : State) : (s.tick).boardUpd = s.boardUpd := rfl
@[simp] theorem State.tick_fus (s : State) : (s.tick).fus = s.fus := rfl
@[simp] theorem State.tick_fronts (s : State) : (s.tick).fronts = s.fronts := rfl
@[simp] theorem State.tick_wins (s : State) : (s.tick).wins = s.wins := rfl
@[simp] theorem State.tick_rxwin (s : State) : (s.tick).rxwin = s.rxwin := rfl
@[simp] theorem State.tick_paths (s : State) : (s.tick).paths = s.paths := rfl
@[simp] theorem State.tick_routes (s : State) : (s.tick).routes = s.routes := rfl
@[simp] theorem State.tick_links (s : State) : (s.tick).links = s.links := rfl
@[simp] theorem State.tick_parts (s : State) : (s.tick).parts = s.parts := rfl
@[simp] theorem State.tick_fws (s : State) : (s.tick).fws = s.fws := rfl
@[simp] theorem State.tick_pkg (s : State) : (s.tick).pkg = s.pkg := rfl
@[simp] theorem State.tick_time (s : State) : (s.tick).time = s.time := rfl
@[simp] theorem State.tick_agenda (s : State) : (s.tick).agenda = s.agenda := rfl
@[simp] theorem State.tick_cur (s : State) : (s.tick).cur = s.cur := rfl
@[simp] theorem State.tick_lastAt (s : State) : (s.tick).lastAt = s.lastAt := rfl
@[simp] theorem State.tick_takenAt (s : State) : (s.tick).takenAt = s.takenAt := rfl
@[simp] theorem State.tick_wr (s : State) : (s.tick).wr = s.wr := rfl

/-! ### onPart -/

@[simp] theorem State.onPart_mem (s : State) (p : Nat) (f : Part → Part) : (s.onPart p f).mem = s.mem := by unfold State.onPart; split <;> rfl
@[simp] theorem State.onPart_cores (s : State) (p : Nat) (f : Part → Part) : (s.onPart p f).cores = s.cores := by unfold State.onPart; split <;> rfl
@[simp] theorem State.onPart_eps (s : State) (p : Nat) (f : Part → Part) : (s.onPart p f).eps = s.eps := by unfold State.onPart; split <;> rfl
@[simp] theorem State.onPart_routers (s : State) (p : Nat) (f : Part → Part) : (s.onPart p f).routers = s.routers := by unfold State.onPart; split <;> rfl
@[simp] theorem State.onPart_fences (s : State) (p : Nat) (f : Part → Part) : (s.onPart p f).fences = s.fences := by unfold State.onPart; split <;> rfl
@[simp] theorem State.onPart_homes (s : State) (p : Nat) (f : Part → Part) : (s.onPart p f).homes = s.homes := by unfold State.onPart; split <;> rfl
@[simp] theorem State.onPart_rings (s : State) (p : Nat) (f : Part → Part) : (s.onPart p f).rings = s.rings := by unfold State.onPart; split <;> rfl
@[simp] theorem State.onPart_rlcs (s : State) (p : Nat) (f : Part → Part) : (s.onPart p f).rlcs = s.rlcs := by unfold State.onPart; split <;> rfl
@[simp] theorem State.onPart_strs (s : State) (p : Nat) (f : Part → Part) : (s.onPart p f).strs = s.strs := by unfold State.onPart; split <;> rfl
@[simp] theorem State.onPart_boardUpd (s : State) (p : Nat) (f : Part → Part) : (s.onPart p f).boardUpd = s.boardUpd := by unfold State.onPart; split <;> rfl
@[simp] theorem State.onPart_fus (s : State) (p : Nat) (f : Part → Part) : (s.onPart p f).fus = s.fus := by unfold State.onPart; split <;> rfl
@[simp] theorem State.onPart_fronts (s : State) (p : Nat) (f : Part → Part) : (s.onPart p f).fronts = s.fronts := by unfold State.onPart; split <;> rfl
@[simp] theorem State.onPart_wins (s : State) (p : Nat) (f : Part → Part) : (s.onPart p f).wins = s.wins := by unfold State.onPart; split <;> rfl
@[simp] theorem State.onPart_rxwin (s : State) (p : Nat) (f : Part → Part) : (s.onPart p f).rxwin = s.rxwin := by unfold State.onPart; split <;> rfl
@[simp] theorem State.onPart_paths (s : State) (p : Nat) (f : Part → Part) : (s.onPart p f).paths = s.paths := by unfold State.onPart; split <;> rfl
@[simp] theorem State.onPart_routes (s : State) (p : Nat) (f : Part → Part) : (s.onPart p f).routes = s.routes := by unfold State.onPart; split <;> rfl
@[simp] theorem State.onPart_links (s : State) (p : Nat) (f : Part → Part) : (s.onPart p f).links = s.links := by unfold State.onPart; split <;> rfl
@[simp] theorem State.onPart_fws (s : State) (p : Nat) (f : Part → Part) : (s.onPart p f).fws = s.fws := by unfold State.onPart; split <;> rfl
@[simp] theorem State.onPart_pkg (s : State) (p : Nat) (f : Part → Part) : (s.onPart p f).pkg = s.pkg := by unfold State.onPart; split <;> rfl
@[simp] theorem State.onPart_time (s : State) (p : Nat) (f : Part → Part) : (s.onPart p f).time = s.time := by unfold State.onPart; split <;> rfl
@[simp] theorem State.onPart_agenda (s : State) (p : Nat) (f : Part → Part) : (s.onPart p f).agenda = s.agenda := by unfold State.onPart; split <;> rfl
@[simp] theorem State.onPart_cur (s : State) (p : Nat) (f : Part → Part) : (s.onPart p f).cur = s.cur := by unfold State.onPart; split <;> rfl
@[simp] theorem State.onPart_fresh (s : State) (p : Nat) (f : Part → Part) : (s.onPart p f).fresh = s.fresh := by unfold State.onPart; split <;> rfl
@[simp] theorem State.onPart_lastAt (s : State) (p : Nat) (f : Part → Part) : (s.onPart p f).lastAt = s.lastAt := by unfold State.onPart; split <;> rfl
@[simp] theorem State.onPart_takenAt (s : State) (p : Nat) (f : Part → Part) : (s.onPart p f).takenAt = s.takenAt := by unfold State.onPart; split <;> rfl
@[simp] theorem State.onPart_wr (s : State) (p : Nat) (f : Part → Part) : (s.onPart p f).wr = s.wr := by unfold State.onPart; split <;> rfl

end Sys2Proof.Machine
end

