-- ==== Sys2Proof/Laws/Regs.lean ====
section
/-!
SUPPORT. Laws of the sparse tables, of cores and contexts after an update, and of the registers of the running context.
-/

namespace Sys2Proof.Machine

/-! ### Sparse tables -/

@[simp] theorem AMap.get_nil {α : Type} (d : α) (k : Nat) : AMap.get d [] k = d := rfl

@[simp] theorem AMap.find_nil {α : Type} (k : Nat) : AMap.find ([] : AMap α) k = none := rfl

/-- Reading the entry just written. -/
@[simp] theorem AMap.get_set_self {α : Type} (d v : α) (m : AMap α) (k : Nat) : AMap.get d (AMap.set m k v) k = v := by
  induction m with
  | nil => simp [AMap.set, AMap.get]
  | cons e t ih =>
    obtain ⟨k', v'⟩ := e
    simp only [AMap.set]
    split
    · simp [AMap.get]
    · split
      · simp [AMap.get]
      · next h _ => simp [AMap.get, h, ih]

/-- A write leaves the other entries. -/
theorem AMap.get_set_ne {α : Type} (d v : α) (m : AMap α) {j k : Nat} (h : j ≠ k) : AMap.get d (AMap.set m k v) j = AMap.get d m j := by
  induction m with
  | nil => simp [AMap.set, AMap.get, h]
  | cons e t ih =>
    obtain ⟨k', v'⟩ := e
    simp only [AMap.set]
    split
    · next hk => subst hk; simp [AMap.get, h]
    · split
      · simp [AMap.get, h]
      · simp [AMap.get, ih]

/-- Reading an entry after a write. -/
theorem AMap.get_set {α : Type} (d v : α) (m : AMap α) (j k : Nat) :
    AMap.get d (AMap.set m k v) j = if j = k then v else AMap.get d m j := by
  split
  · next h => subst h; simp
  · next h => exact AMap.get_set_ne d v m h

/-- Finding an entry after a write. -/
theorem AMap.find_set {α : Type} (v : α) (m : AMap α) (j k : Nat) :
    AMap.find (AMap.set m k v) j = if j = k then some v else AMap.find m j := by
  induction m with
  | nil => simp only [AMap.set, AMap.find]
  | cons e t ih =>
    obtain ⟨k', v'⟩ := e
    simp only [AMap.set]
    split
    · next hk => subst hk; simp only [AMap.find]; split <;> rfl
    · split
      · simp only [AMap.find]
      · next h _ =>
        simp only [AMap.find, ih]
        by_cases hj : j = k
        · subst hj; simp [h]
        · simp [hj]

/-- An entry found is the entry read. -/
theorem AMap.get_of_find {α : Type} {d v : α} {m : AMap α} {k : Nat} (h : AMap.find m k = some v) : AMap.get d m k = v := by
  induction m with
  | nil => simp at h
  | cons e t ih =>
    obtain ⟨k', v'⟩ := e
    simp only [AMap.find, AMap.get] at h ⊢
    split at h
    · next hk => simp [hk]; simpa using h
    · next hk => simp [hk]; exact ih h

/-! ### Cores and contexts -/

@[simp] theorem State.core_setCore_self (s : State) (n : Nat) (k : CoreSt) : (s.setCore n k).core n = k := by
  simp [State.setCore, State.core]

theorem State.core_setCore_ne (s : State) (k : CoreSt) {n m : Nat} (h : m ≠ n) : (s.setCore n k).core m = s.core m := by
  simp [State.setCore, State.core, AMap.get_set_ne, h]

@[simp] theorem State.core_onCore_self (s : State) (n : Nat) (f : CoreSt → CoreSt) : (s.onCore n f).core n = f (s.core n) := by
  simp [State.onCore]

theorem State.core_onCore_ne (s : State) (f : CoreSt → CoreSt) {n m : Nat} (h : m ≠ n) : (s.onCore n f).core m = s.core m := by
  simp [State.onCore, State.core_setCore_ne, h]

@[simp] theorem c4_val (c : Fin 4) : c4 c.val = c := by
  apply Fin.ext; simp [c4]

@[simp] theorem CoreSt.ctx_setCtx_self (k : CoreSt) (c : Nat) (x : Ctx) : (k.setCtx c x).ctx c = x := by
  simp [CoreSt.setCtx, CoreSt.ctx, Vector.get_eq_getElem]

theorem CoreSt.ctx_setCtx_ne (k : CoreSt) (x : Ctx) {c d : Nat} (h : c4 d ≠ c4 c) : (k.setCtx c x).ctx d = k.ctx d := by
  have h' : (c4 c).val ≠ (c4 d).val := fun e => h (Fin.ext e.symm)
  simp [CoreSt.setCtx, CoreSt.ctx, Vector.get_eq_getElem, Vector.getElem_set_ne, h']

@[simp] theorem State.ctx_onCtx_self (s : State) (n c : Nat) (f : Ctx → Ctx) : (s.onCtx n c f).ctx n c = f (s.ctx n c) := by
  simp [State.onCtx, State.ctx]

theorem State.ctx_onCtx_peer (s : State) (f : Ctx → Ctx) {n c d : Nat} (h : c4 d ≠ c4 c) : (s.onCtx n c f).ctx n d = s.ctx n d := by
  simp [State.onCtx, State.ctx, CoreSt.ctx_setCtx_ne, h]

theorem State.core_onCtx_ne (s : State) (f : Ctx → Ctx) {n m c : Nat} (h : m ≠ n) : (s.onCtx n c f).core m = s.core m := by
  simp [State.onCtx, State.core_onCore_ne, h]

@[simp] theorem State.me_onMe (s : State) (f : Ctx → Ctx) : (s.onMe f).me = f s.me := by
  simp [State.me, State.onMe]

theorem State.peer_onMe (s : State) (f : Ctx → Ctx) {c : Nat} (h : c4 c ≠ s.cur.2) : (s.onMe f).ctx s.cur.1 c = s.ctx s.cur.1 c := by
  rw [State.onMe, State.ctx_onCtx_peer]; simpa using h

theorem State.core_onMe_ne (s : State) (f : Ctx → Ctx) {n : Nat} (h : n ≠ s.cur.1) : (s.onMe f).core n = s.core n := by
  simp [State.onMe, State.core_onCtx_ne, h]

/-! ### Registers (R97) -/

@[simp] theorem Ctx.getG_zero (x : Ctx) : x.getG 0 = 0 := by simp [Ctx.getG]

/-- g[d] after a write of g[d]: the value, but g0 reads 0. -/
theorem Ctx.getG_putG (x : Ctx) (d r : GReg) (v : Word) : (x.putG d v).getG r = if r = d then (if d = 0 then 0 else v) else x.getG r := by
  unfold Ctx.putG Ctx.getG
  by_cases hd : d = 0
  · subst hd; by_cases hr : r = 0 <;> simp [hr]
  · by_cases hr : r = d
    · subst hr; simp [hd, Vector.get_eq_getElem]
    · have : d.val ≠ r.val := fun e => hr (Fin.ext e.symm)
      simp [hd, hr, Vector.get_eq_getElem, Vector.getElem_set_ne, this]

@[simp] theorem State.me_setG (s : State) (d : GReg) (v : Word) : (s.setG d v).me = s.me.putG d v := by simp [State.setG]
@[simp] theorem State.me_setK (s : State) (d : KReg) (v : BitVec 32) : (s.setK d v).me = s.me.putK d v := by simp [State.setK]
@[simp] theorem State.me_setV (s : State) (d : VReg) (v : VWord) : (s.setV d v).me = s.me.putV d v := by simp [State.setV]
@[simp] theorem State.me_setC (s : State) (d : CReg) (v : Chan) : (s.setC d v).me = s.me.putC d v := by simp [State.setC]

@[simp] theorem Ctx.putG_ip (x : Ctx) (d : GReg) (v : Word) : (x.putG d v).ip = x.ip := by unfold Ctx.putG; split <;> rfl
@[simp] theorem Ctx.putG_latch (x : Ctx) (d : GReg) (v : Word) : (x.putG d v).latch = x.latch := by unfold Ctx.putG; split <;> rfl
@[simp] theorem Ctx.putG_step1 (x : Ctx) (d : GReg) (v : Word) : (x.putG d v).step1 = x.step1 := by unfold Ctx.putG; split <;> rfl
@[simp] theorem Ctx.putG_migok (x : Ctx) (d : GReg) (v : Word) : (x.putG d v).migok = x.migok := by unfold Ctx.putG; split <;> rfl
@[simp] theorem Ctx.putK_ip (x : Ctx) (d : KReg) (v : BitVec 32) : (x.putK d v).ip = x.ip := by unfold Ctx.putK; split <;> rfl
@[simp] theorem Ctx.putK_latch (x : Ctx) (d : KReg) (v : BitVec 32) : (x.putK d v).latch = x.latch := by unfold Ctx.putK; split <;> rfl
@[simp] theorem Ctx.putK_step1 (x : Ctx) (d : KReg) (v : BitVec 32) : (x.putK d v).step1 = x.step1 := by unfold Ctx.putK; split <;> rfl
@[simp] theorem Ctx.putK_migok (x : Ctx) (d : KReg) (v : BitVec 32) : (x.putK d v).migok = x.migok := by unfold Ctx.putK; split <;> rfl
@[simp] theorem Ctx.putView_ip (x : Ctx) (n : Fin 16) (v : Word) : (x.putView n v).ip = x.ip := by unfold Ctx.putView; split <;> rfl
@[simp] theorem Ctx.putView_latch (x : Ctx) (n : Fin 16) (v : Word) : (x.putView n v).latch = x.latch := by unfold Ctx.putView; split <;> rfl
@[simp] theorem Ctx.putView_step1 (x : Ctx) (n : Fin 16) (v : Word) : (x.putView n v).step1 = x.step1 := by unfold Ctx.putView; split <;> rfl
@[simp] theorem Ctx.putView_migok (x : Ctx) (n : Fin 16) (v : Word) : (x.putView n v).migok = x.migok := by unfold Ctx.putView; split <;> rfl

end Sys2Proof.Machine
end

