-- ==== Sys2Proof/Laws/Memory.lean ====
section
/-!
SUPPORT. Laws of memory: the canonical form that every operation keeps, and what a byte reads as after each of them.
-/

namespace Sys2Proof.Machine

/-! ### Rising lists -/

theorem rising_iff (l : List Nat) : rising l = true ↔ l.Pairwise (· < ·) := by
  induction l with
  | nil => simp [rising]
  | cons a t ih =>
    cases t with
    | nil => simp [rising]
    | cons b u =>
      have hr : rising (a :: b :: u) = (decide (a < b) && rising (b :: u)) := rfl
      rw [hr, Bool.and_eq_true, decide_eq_true_eq, ih]
      constructor
      · rintro ⟨hab, h⟩
        refine List.pairwise_cons.2 ⟨fun x hx => ?_, h⟩
        rcases List.mem_cons.1 hx with rfl | hx
        · exact hab
        · exact Nat.lt_trans hab ((List.pairwise_cons.1 h).1 x hx)
      · intro h
        exact ⟨(List.pairwise_cons.1 h).1 b (by simp), (List.pairwise_cons.1 h).2⟩

theorem rising_filter (p : Nat → Bool) {l : List Nat} (h : rising l = true) : rising (l.filter p) = true :=
  (rising_iff _).2 (((rising_iff l).1 h).filter p)

theorem mem_sIns (k x : Nat) (l : List Nat) : x ∈ sIns k l ↔ x = k ∨ x ∈ l := by
  induction l with
  | nil => simp [sIns]
  | cons a t ih =>
    simp only [sIns]
    split
    · next h => simp [h]
    · split <;> simp [ih, or_left_comm]

theorem rising_sIns (k : Nat) {l : List Nat} (h : rising l = true) : rising (sIns k l) = true := by
  rw [rising_iff] at *
  induction l with
  | nil => simp [sIns]
  | cons a t ih =>
    simp only [sIns]
    split
    · exact h
    · split
      · next hk =>
        refine List.pairwise_cons.2 ⟨fun x hx => ?_, h⟩
        rcases List.mem_cons.1 hx with rfl | hx
        · exact hk
        · exact Nat.lt_trans hk ((List.pairwise_cons.1 h).1 x hx)
      · next hn hk =>
        refine List.pairwise_cons.2 ⟨fun x hx => ?_, ih (List.pairwise_cons.1 h).2⟩
        rcases (mem_sIns k x t).1 hx with rfl | hx
        · omega
        · exact (List.pairwise_cons.1 h).1 x hx

theorem rising_sDel (k : Nat) {l : List Nat} (h : rising l = true) : rising (sDel k l) = true := rising_filter _ h

theorem sMem_iff (k : Nat) (l : List Nat) : sMem k l = true ↔ k ∈ l := by simp [sMem]

theorem mem_sDel (k x : Nat) (l : List Nat) : x ∈ sDel k l ↔ x ∈ l ∧ x ≠ k := by simp [sDel]

/-! ### Cells -/

/-- The keys of the cells rise strictly and no cell holds what an unlisted key reads as. -/
theorem cellsWf_iff (l : List Host.Cell) :
    cellsWf l = true ↔ l.Pairwise (fun a b => a.1 < b.1) ∧ ∀ e ∈ l, e.2 ≠ unwritten := by
  simp [cellsWf, rising_iff, List.pairwise_map]

theorem mem_writeCell (l : List Host.Cell) (k : Nat) (b : Byte) (e : Host.Cell) (h : e ∈ writeCell l k b) :
    e ∈ l ∨ (e = (k, b) ∧ b ≠ unwritten) := by
  induction l with
  | nil =>
    simp only [writeCell] at h
    split at h
    · simp at h
    · next hb => simp at h; exact Or.inr ⟨h, hb⟩
  | cons c t ih =>
    obtain ⟨k', b'⟩ := c
    simp only [writeCell] at h
    split at h
    · split at h
      · exact Or.inl (List.mem_cons_of_mem _ h)
      · next hb =>
        rcases List.mem_cons.1 h with h | h
        · exact Or.inr ⟨h, hb⟩
        · exact Or.inl (List.mem_cons_of_mem _ h)
    · split at h
      · split at h
        · exact Or.inl h
        · next hb =>
          rcases List.mem_cons.1 h with h | h
          · exact Or.inr ⟨h, hb⟩
          · exact Or.inl h
      · rcases List.mem_cons.1 h with h | h
        · exact Or.inl (h ▸ List.mem_cons_self)
        · rcases ih h with h | h
          · exact Or.inl (List.mem_cons_of_mem _ h)
          · exact Or.inr h

/-- A write of a cell keeps the canonical form. -/
theorem cellsWf_writeCell {l : List Host.Cell} (k : Nat) (b : Byte) (h : cellsWf l = true) : cellsWf (writeCell l k b) = true := by
  rw [cellsWf_iff] at *
  refine ⟨?_, fun e he => ?_⟩
  · obtain ⟨h, -⟩ := h
    induction l with
    | nil => simp only [writeCell]; split <;> simp
    | cons c t ih =>
      obtain ⟨k', b'⟩ := c
      have ht := List.pairwise_cons.1 h
      simp only [writeCell]
      split
      · next hk =>
        subst hk
        split
        · exact ht.2
        · exact List.pairwise_cons.2 ⟨fun x hx => ht.1 x hx, ht.2⟩
      · split
        · next hk =>
          split
          · exact h
          · refine List.pairwise_cons.2 ⟨fun x hx => ?_, h⟩
            rcases List.mem_cons.1 hx with rfl | hx
            · exact hk
            · exact Nat.lt_trans hk (ht.1 x hx)
        · next hn hk =>
          refine List.pairwise_cons.2 ⟨fun x hx => ?_, ih ht.2⟩
          rcases mem_writeCell t k b x hx with hx | ⟨rfl, -⟩
          · exact ht.1 x hx
          · show k' < k
            omega
  · rcases mem_writeCell l k b e he with he | ⟨rfl, hb⟩
    · exact h.2 e he
    · exact hb

theorem cellsWf_filter (p : Host.Cell → Bool) {l : List Host.Cell} (h : cellsWf l = true) : cellsWf (l.filter p) = true := by
  rw [cellsWf_iff] at *
  exact ⟨h.1.filter p, fun e he => h.2 e (List.mem_filter.1 he).1⟩

/-- Reading a key of cells that all lie above it. -/
theorem readCell_below {l : List Host.Cell} {k : Nat} (h : ∀ e ∈ l, k < e.1) : readCell l k = unwritten := by
  cases l with
  | nil => rfl
  | cons c t =>
    obtain ⟨k', b'⟩ := c
    have hk : k < k' := h (k', b') (by simp)
    simp [readCell, Nat.ne_of_lt hk, hk]

/-- A read after a write of a cell. -/
theorem readCell_writeCell {l : List Host.Cell} (k j : Nat) (b : Byte) (h : cellsWf l = true) :
    readCell (writeCell l k b) j = if j = k then b else readCell l j := by
  rw [cellsWf_iff] at h
  obtain ⟨h, -⟩ := h
  induction l with
  | nil =>
    simp only [writeCell]
    split
    · next hb => simp [readCell, hb]
    · simp [readCell]
  | cons c t ih =>
    obtain ⟨k', b'⟩ := c
    have ht := List.pairwise_cons.1 h
    have below : ∀ j, j ≤ k' → readCell t j = unwritten := fun j hj =>
      readCell_below (fun e he => Nat.lt_of_le_of_lt hj (ht.1 e he))
    simp only [writeCell]
    split
    · next hk =>
      subst hk
      split
      · next hb =>
        by_cases hj : j = k
        · simp [hj, hb, below k (Nat.le_refl _)]
        · simp only [hj, if_false, readCell]
          split
          · next hlt => exact below j (Nat.le_of_lt hlt)
          · rfl
      · by_cases hj : j = k <;> simp [readCell, hj]
    · next hne =>
      split
      · next hlt =>
        split
        · next hb =>
          by_cases hj : j = k
          · subst hj
            simp [readCell, hne, hlt, hb]
          · simp [hj]
        · by_cases hj : j = k
          · simp [readCell, hj]
          · simp only [hj, if_false]
            rw [readCell]
            simp only [hj, if_false]
            split
            · next h1 =>
              simp [readCell, Nat.ne_of_lt (Nat.lt_trans h1 hlt), Nat.lt_trans h1 hlt]
            · rfl
      · next hge =>
        by_cases hj : j = k
        · subst hj
          simp only [readCell, hne, hge, if_false, if_true]
          simpa using ih ht.2
        · simp only [readCell, ih ht.2, hj, if_false]

/-! ### The canonical form -/

theorem Memory.wf_iff (m : Memory) :
    m.wf = true ↔ cellsWf m.cells = true ∧ rising m.full = true ∧ rising m.poison = true ∧ rising m.pending = true ∧
      rising m.corr = true := by
  simp [Memory.wf, Bool.and_eq_true, and_assoc]

/-- The package's memory right after reset has the canonical form. -/
theorem Memory.reset_wf : Memory.reset.wf = true := rfl

theorem Memory.wf_setByte {m : Memory} (k : Nat) (b : Byte) (h : m.wf = true) : (m.setByte k b).wf = true := by
  rw [Memory.wf_iff] at *
  exact ⟨cellsWf_writeCell k b h.1, h.2⟩

theorem Memory.wf_setBytes {m : Memory} (k : Nat) (l : List Byte) (h : m.wf = true) : (m.setBytes k l).wf = true := by
  induction l generalizing m k with
  | nil => exact h
  | cons b t ih => exact ih (k + 1) (Memory.wf_setByte k b h)

theorem Memory.wf_write {m : Memory} (k n v : Nat) (h : m.wf = true) : (m.write k n v).wf = true := Memory.wf_setBytes k _ h

theorem Memory.wf_setFull {m : Memory} (k : Nat) (h : m.wf = true) : (m.setFull k).wf = true := by
  rw [Memory.wf_iff] at *
  exact ⟨h.1, rising_sIns _ h.2.1, h.2.2⟩

theorem Memory.wf_setEmpty {m : Memory} (k : Nat) (h : m.wf = true) : (m.setEmpty k).wf = true := by
  rw [Memory.wf_iff] at *
  exact ⟨h.1, rising_sDel _ h.2.1, h.2.2⟩

theorem Memory.wf_setPending {m : Memory} (k : Nat) (on : Bool) (h : m.wf = true) : (m.setPending k on).wf = true := by
  rw [Memory.wf_iff] at *
  refine ⟨h.1, h.2.1, h.2.2.1, ?_, h.2.2.2.2⟩
  cases on
  · exact rising_sDel _ h.2.2.2.1
  · exact rising_sIns _ h.2.2.2.1

theorem Memory.wf_setPoison {m : Memory} (k : Nat) (on : Bool) (h : m.wf = true) : (m.setPoison k on).wf = true := by
  rw [Memory.wf_iff] at *
  refine ⟨h.1, h.2.1, ?_, h.2.2.2⟩
  cases on
  · exact rising_sDel _ h.2.2.1
  · exact rising_sIns _ h.2.2.1

theorem Memory.wf_renew {m : Memory} (k : Nat) (h : m.wf = true) : (m.renew k).wf = true := by
  rw [Memory.wf_iff] at *
  exact ⟨h.1, h.2.1, rising_sDel _ h.2.2.1, h.2.2.2.1, rising_sDel _ h.2.2.2.2⟩

theorem Memory.wf_scrub {m : Memory} (k n : Nat) (h : m.wf = true) : (m.scrub k n).wf = true := by
  rw [Memory.wf_iff] at *
  exact ⟨h.1, h.2.1, h.2.2.1, h.2.2.2.1, rising_filter _ h.2.2.2.2⟩

theorem Memory.wf_store {m : Memory} (k n v : Nat) (h : m.wf = true) : (m.store k n v).wf = true := by
  simp only [Memory.store]
  split
  · exact Memory.wf_renew _ (Memory.wf_write _ _ _ h)
  · exact Memory.wf_write _ _ _ h

theorem Memory.wf_storeFe {m : Memory} (k n v : Nat) (fe : Bool) (h : m.wf = true) : (m.storeFe k n v fe).wf = true := by
  simp only [Memory.storeFe]
  split
  · exact Memory.wf_setFull _ (Memory.wf_store _ _ _ h)
  · exact Memory.wf_store _ _ _ h

theorem Memory.wf_orWord {m : Memory} (k bits : Nat) (h : m.wf = true) : (m.orWord k bits).wf = true := Memory.wf_write _ _ _ h

theorem Memory.wf_atomic {m : Memory} (pa size op : Nat) (sgn : Bool) (opnd cmp : Nat) (h : m.wf = true) :
    (m.atomic pa size op sgn opnd cmp).2.wf = true := by
  simp only [Memory.atomic]
  split
  · exact Memory.wf_store _ _ _ h
  · exact h

theorem Memory.wf_zero {m : Memory} (k n : Nat) (h : m.wf = true) : (m.zero k n).wf = true := by
  rw [Memory.wf_iff] at *
  exact ⟨cellsWf_filter _ h.1, rising_filter _ h.2.1, rising_filter _ h.2.2.1, rising_filter _ h.2.2.2.1,
    rising_filter _ h.2.2.2.2⟩

/-- A fold keeps the canonical form if each of its steps does. -/
theorem Memory.wf_foldl {α : Type} (f : Memory → α → Memory) (l : List α) {m : Memory} (h : m.wf = true)
    (hf : ∀ m a, m.wf = true → (f m a).wf = true) : (l.foldl f m).wf = true := by
  induction l generalizing m with
  | nil => exact h
  | cons a t ih => exact ih (hf m a h)

theorem Memory.wf_copyRun {m : Memory} (src dst n : Nat) (h : m.wf = true) : (m.copyRun src dst n).wf = true :=
  Memory.wf_foldl _ _ (Memory.wf_foldl _ _ (Memory.wf_foldl _ _ (Memory.wf_zero _ _ h) (fun _ _ h => Memory.wf_setByte _ _ h))
    (fun _ _ h => Memory.wf_setPoison _ _ h)) (fun _ _ h => Memory.wf_setPending _ _ h)

theorem Memory.wf_fillTable {m : Memory} (k bits : Nat) (h : m.wf = true) : (m.fillTable k bits).wf = true :=
  Memory.wf_foldl _ _ (Memory.wf_zero _ _ h) (fun _ _ h => Memory.wf_write _ _ _ h)

theorem Memory.wf_cleanse {m : Memory} (lo hi : Nat) (h : m.wf = true) : (m.cleanse lo hi).wf = true := by
  rw [Memory.wf_iff] at *
  exact ⟨h.1, h.2.1, rising_filter _ h.2.2.1, h.2.2.2.1, rising_filter _ h.2.2.2.2⟩

theorem Memory.wf_writeOuts {m : Memory} (g : GOp) (l : List MOut) (h : m.wf = true) : (writeOuts m g l).wf = true := by
  simp only [writeOuts]
  refine Memory.wf_foldl _ _ ?_ (fun m o h => ?_)
  · split
    · exact h
    · exact Memory.wf_foldl _ _ h (fun _ _ h => Memory.wf_cleanse _ _ h)
  · split
    · exact Memory.wf_write _ _ _ h
    · exact Memory.wf_setPoison _ _ (Memory.wf_write _ _ _ h)

theorem Memory.wf_engineWrite {m : Memory} (k : Nat) (bytes : List Byte) (how : WrHow) (h : m.wf = true) :
    (m.engineWrite k bytes how).wf = true := by
  simp only [Memory.engineWrite]
  refine Memory.wf_foldl _ _ (Memory.wf_setBytes _ _ h) (fun m w h => ?_)
  have hf : (if how.fe then m.setFull w else m).wf = true := by
    split
    · exact Memory.wf_setFull _ h
    · exact h
  split
  · exact Memory.wf_setPoison _ _ hf
  · split
    · exact Memory.wf_renew _ hf
    · exact hf

theorem Memory.wf_storeRepl {m : Memory} (pa size val : Nat) (fe bad : Bool) (h : m.wf = true) : (m.storeRepl pa size val fe bad).wf = true := by
  simp only [Memory.storeRepl]
  split
  · exact Memory.wf_setPoison _ _ (Memory.wf_storeFe _ _ _ _ h)
  · exact Memory.wf_storeFe _ _ _ _ h

theorem State.zeroFrames_wf (s : State) (frames : List Nat) (n : Nat) (h : s.mem.wf = true) : (s.zeroFrames frames n).mem.wf = true :=
  Memory.wf_foldl _ _ h (fun _ _ h => Memory.wf_zero _ _ h)

theorem Memory.wf_initial {m : Memory} (h : m.wf = true) : m.initial.wf = true := by
  rw [Memory.wf_iff] at *
  exact ⟨cellsWf_filter _ h.1, rfl, rising_filter _ h.2.2.1, rfl, rising_filter _ h.2.2.2.2⟩

theorem RingReg.wf_put {m : Memory} (r : RingReg) (size : Nat) (ws : List Word) (h : m.wf = true) : (r.put m size ws).2.1.wf = true := by
  simp only [RingReg.put]
  split
  · exact h
  · exact Memory.wf_setBytes _ _ h

/-! ### What a quantum hides (log 58) -/

/-- Outside deterministic mode nothing is hidden from a load. -/
theorem State.hidden_free {s : State} {core : Nat} (k n : Nat) (h : s.detAt core = false) : s.hidden core k n = false := by
  simp [State.hidden, h]

/-- Nor from a core that an atomic or a FENCE has synchronised in the quantum. -/
theorem State.hidden_synced {s : State} {core : Nat} (k n : Nat) (h : (s.core core).synced = true) : s.hidden core k n = false := by
  simp [State.hidden, h]

theorem State.fullFor_free {s : State} {core : Nat} (k : Nat) (h : s.detAt core = false) : s.fullFor core k = s.mem.isFull k := by
  simp [State.fullFor, h]

/-- A load from which nothing is hidden reads memory. -/
theorem State.readFor_of_hidden {s : State} {core k n : Nat} (h : s.hidden core k n = false) : s.readFor core k n = s.mem.read k n := by
  simp [State.readFor, h]

/-! ### Reads -/

theorem Memory.byte_setByte {m : Memory} (k j : Nat) (b : Byte) (h : m.wf = true) :
    (m.setByte k b).byte j = if j = k then b else m.byte j := readCell_writeCell k j b ((Memory.wf_iff m).1 h).1

/-- What a byte reads as after a list of bytes is written. -/
theorem Memory.byte_setBytes {m : Memory} (k j : Nat) (l : List Byte) (h : m.wf = true) :
    (m.setBytes k l).byte j = if k ≤ j ∧ j < k + l.length then l.getD (j - k) 0 else m.byte j := by
  induction l generalizing m k with
  | nil =>
    simp [Memory.setBytes]
  | cons b t ih =>
    rw [Memory.setBytes, ih (k + 1) (Memory.wf_setByte k b h), Memory.byte_setByte k j b h]
    by_cases hj : j = k
    · subst hj
      simp
    · by_cases h2 : k + 1 ≤ j ∧ j < k + 1 + t.length
      · have h3 : k ≤ j ∧ j < k + (b :: t).length := by simp only [List.length_cons]; omega
        obtain ⟨d, hd⟩ : ∃ d, j - k = d + 1 := ⟨j - k - 1, by omega⟩
        have h4 : j - (k + 1) = d := by omega
        rw [if_pos h2, if_pos h3, hd, h4]
        rfl
      · have h3 : ¬ (k ≤ j ∧ j < k + (b :: t).length) := by simp only [List.length_cons]; omega
        rw [if_neg h2, if_neg h3, if_neg hj]

@[simp] theorem Memory.byte_setFull (m : Memory) (k j : Nat) : (m.setFull k).byte j = m.byte j := rfl
@[simp] theorem Memory.byte_setEmpty (m : Memory) (k j : Nat) : (m.setEmpty k).byte j = m.byte j := rfl
@[simp] theorem Memory.byte_setPending (m : Memory) (k j : Nat) (on : Bool) : (m.setPending k on).byte j = m.byte j := rfl
@[simp] theorem Memory.byte_renew (m : Memory) (k j : Nat) : (m.renew k).byte j = m.byte j := rfl
@[simp] theorem Memory.byte_scrub (m : Memory) (k n j : Nat) : (m.scrub k n).byte j = m.byte j := rfl
@[simp] theorem Memory.byte_setPoison (m : Memory) (k j : Nat) (on : Bool) : (m.setPoison k on).byte j = m.byte j := rfl

/-- A store's bytes are those of its write. -/
@[simp] theorem Memory.byte_store (m : Memory) (k n v j : Nat) : (m.store k n v).byte j = (m.write k n v).byte j := by
  simp only [Memory.store]
  split <;> rfl

@[simp] theorem Memory.byte_storeFe (m : Memory) (k n v j : Nat) (fe : Bool) : (m.storeFe k n v fe).byte j = (m.write k n v).byte j := by
  simp only [Memory.storeFe]
  split <;> simp

/-- Reading bytes is reading each of them. -/
theorem Memory.bytes_eq (m : Memory) (k n : Nat) : m.bytes k n = (List.range n).map (fun j => m.byte (k + j)) := by
  induction n generalizing k with
  | zero => rfl
  | succ n ih =>
    rw [Memory.bytes, ih, List.range_succ_eq_map, List.map_cons, List.map_map]
    refine congrArg₂ _ rfl (List.map_congr_left fun j _ => ?_)
    show m.byte (k + 1 + j) = m.byte (k + (j + 1))
    congr 1; omega

theorem Memory.bytes_length (m : Memory) (k n : Nat) : (m.bytes k n).length = n := by simp [Memory.bytes_eq]

/-- Bytes just written read back. -/
theorem Memory.bytes_setBytes {m : Memory} (k : Nat) (l : List Byte) (h : m.wf = true) : (m.setBytes k l).bytes k l.length = l := by
  refine List.ext_getElem (by simp [Memory.bytes_eq]) fun i h1 h2 => ?_
  have hi : k ≤ k + i ∧ k + i < k + l.length := by omega
  simp only [Memory.bytes_eq, List.getElem_map, List.getElem_range]
  rw [Memory.byte_setBytes _ _ _ h, if_pos hi]
  simp [h2]

/-- Bytes that a write does not reach read as before. -/
theorem Memory.bytes_setBytes_ne {m : Memory} (k j n : Nat) (l : List Byte) (h : m.wf = true) (hd : j + n ≤ k ∨ k + l.length ≤ j) :
    (m.setBytes k l).bytes j n = m.bytes j n := by
  rw [Memory.bytes_eq, Memory.bytes_eq]
  refine List.map_congr_left fun i hi => ?_
  have hi' := List.mem_range.1 hi
  rw [Memory.byte_setBytes _ _ _ h, if_neg (by omega)]

theorem leBytes_length (n v : Nat) : (leBytes n v).length = n := by
  induction n generalizing v with
  | zero => rfl
  | succ n ih => simp [leBytes, ih]

/-- The value of little-endian bytes. -/
theorem leNat_leBytes (n v : Nat) : leNat (leBytes n v) = v % 256 ^ n := by
  induction n generalizing v with
  | zero => simp [leBytes, leNat, Nat.mod_one]
  | succ n ih =>
    simp only [leBytes, leNat, ih]
    have h8 : (BitVec.ofNat 8 v).toNat = v % 256 := BitVec.toNat_ofNat v 8
    rw [h8, Nat.pow_succ', Nat.mod_mul]

/-- A word just written reads back (R3). -/
theorem Memory.read_write {m : Memory} (k n v : Nat) (h : m.wf = true) : (m.write k n v).read k n = v % 256 ^ n := by
  have := Memory.bytes_setBytes (m := m) k (leBytes n v) h
  rw [leBytes_length] at this
  rw [Memory.read, Memory.write, this, leNat_leBytes]

/-- A word that a write does not reach reads as before. -/
theorem Memory.read_write_ne {m : Memory} (k n v j i : Nat) (h : m.wf = true) (hd : j + i ≤ k ∨ k + n ≤ j) :
    (m.write k n v).read j i = m.read j i := by
  rw [Memory.read, Memory.write, Memory.bytes_setBytes_ne _ _ _ _ h (by rw [leBytes_length]; exact hd), Memory.read]

@[simp] theorem Memory.read_setPoison (m : Memory) (k j n : Nat) (on : Bool) : (m.setPoison k on).read j n = m.read j n := by
  simp [Memory.read, Memory.bytes_eq]

@[simp] theorem Memory.read_renew (m : Memory) (k j n : Nat) : (m.renew k).read j n = m.read j n := by
  simp [Memory.read, Memory.bytes_eq]

@[simp] theorem Memory.read_scrub (m : Memory) (k i j n : Nat) : (m.scrub k i).read j n = m.read j n := by
  simp [Memory.read, Memory.bytes_eq]

theorem Memory.read_store {m : Memory} (k n v : Nat) (h : m.wf = true) : (m.store k n v).read k n = v % 256 ^ n := by
  simp only [Memory.store]
  split
  · rw [Memory.read_renew, Memory.read_write k n v h]
  · exact Memory.read_write k n v h

/-! ### Full-empty bits -/

/-- The full-empty bit of a word just made full. -/
theorem Memory.isFull_setFull (m : Memory) (k j : Nat) :
    (m.setFull k).isFull j = if wordOf j = wordOf k then !m.isPending j else m.isFull j := by
  have h1 : sMem (wordOf j) (sIns (wordOf k) m.full) = (decide (wordOf j = wordOf k) || sMem (wordOf j) m.full) := by
    rw [Bool.eq_iff_iff]; simp [sMem_iff, mem_sIns]
  simp only [Memory.isFull, Memory.setFull, Memory.isPending, h1]
  split <;> simp [*]

/-- The full-empty bit of a word just made empty. -/
theorem Memory.isFull_setEmpty (m : Memory) (k j : Nat) :
    (m.setEmpty k).isFull j = if wordOf j = wordOf k then false else m.isFull j := by
  have h1 : sMem (wordOf j) (sDel (wordOf k) m.full) = (!decide (wordOf j = wordOf k) && sMem (wordOf j) m.full) := by
    rw [Bool.eq_iff_iff]; simp [sMem_iff, mem_sDel, and_comm]
  simp only [Memory.isFull, Memory.setEmpty, h1]
  split <;> simp [*]

theorem Memory.full_setBytes (m : Memory) (k : Nat) (l : List Byte) : (m.setBytes k l).full = m.full := by
  induction l generalizing m k with
  | nil => rfl
  | cons b t ih => exact ih _ _

theorem Memory.pending_setBytes (m : Memory) (k : Nat) (l : List Byte) : (m.setBytes k l).pending = m.pending := by
  induction l generalizing m k with
  | nil => rfl
  | cons b t ih => exact ih _ _

theorem Memory.poison_setBytes (m : Memory) (k : Nat) (l : List Byte) : (m.setBytes k l).poison = m.poison := by
  induction l generalizing m k with
  | nil => rfl
  | cons b t ih => exact ih _ _

@[simp] theorem Memory.full_store (m : Memory) (k n v : Nat) : (m.store k n v).full = m.full := by
  simp only [Memory.store]
  split <;> exact Memory.full_setBytes _ _ _

@[simp] theorem Memory.pending_store (m : Memory) (k n v : Nat) : (m.store k n v).pending = m.pending := by
  simp only [Memory.store]
  split <;> exact Memory.pending_setBytes _ _ _

end Sys2Proof.Machine
end

