-- ==== Sys2Proof/Laws/PerInstr.lean ====
section
/-!
SUPPORT. A statement about every instruction, one lemma for each constructor: an instruction of a handler core has
an encoding and an event has none (R94, R101, R451).
-/

namespace Sys2Proof.Laws.Encodable

/-- The encoder answers words for exactly the rows that a core fetches from instruction lines. -/
def Statement (i : Instr) : Prop := (encode i).isSome = i.isCore

theorem nop : Statement (.nop) := rfl
theorem done : Statement (.done) := rfl
theorem ret : Statement (.ret) := rfl
theorem bkpt : Statement (.bkpt) := rfl
theorem add (d : GReg) (q : IQ) (a : GReg) (b : GReg) : Statement (.add d q a b) := rfl
theorem sub (d : GReg) (q : IQ) (a : GReg) (b : GReg) : Statement (.sub d q a b) := rfl
theorem mul (d : GReg) (q : IQ) (a : GReg) (b : GReg) : Statement (.mul d q a b) := rfl
theorem mulh (d : GReg) (q : IQ) (a : GReg) (b : GReg) : Statement (.mulh d q a b) := rfl
theorem div (d : GReg) (q : IQ) (a : GReg) (b : GReg) : Statement (.div d q a b) := rfl
theorem rem (d : GReg) (q : IQ) (a : GReg) (b : GReg) : Statement (.rem d q a b) := rfl
theorem and (d : GReg) (q : IQ) (a : GReg) (b : GReg) : Statement (.and d q a b) := rfl
theorem or (d : GReg) (q : IQ) (a : GReg) (b : GReg) : Statement (.or d q a b) := rfl
theorem xor (d : GReg) (q : IQ) (a : GReg) (b : GReg) : Statement (.xor d q a b) := rfl
theorem andn (d : GReg) (q : IQ) (a : GReg) (b : GReg) : Statement (.andn d q a b) := rfl
theorem shl (d : GReg) (q : IQ) (a : GReg) (b : GReg) : Statement (.shl d q a b) := rfl
theorem shr (d : GReg) (q : IQ) (a : GReg) (b : GReg) : Statement (.shr d q a b) := rfl
theorem sha (d : GReg) (q : IQ) (a : GReg) (b : GReg) : Statement (.sha d q a b) := rfl
theorem rot (d : GReg) (q : IQ) (a : GReg) (b : GReg) : Statement (.rot d q a b) := rfl
theorem min (d : GReg) (q : IQ) (a : GReg) (b : GReg) : Statement (.min d q a b) := rfl
theorem max (d : GReg) (q : IQ) (a : GReg) (b : GReg) : Statement (.max d q a b) := rfl
theorem cmpeq (d : GReg) (q : IQ) (a : GReg) (b : GReg) : Statement (.cmpeq d q a b) := rfl
theorem cmpne (d : GReg) (q : IQ) (a : GReg) (b : GReg) : Statement (.cmpne d q a b) := rfl
theorem cmplt (d : GReg) (q : IQ) (a : GReg) (b : GReg) : Statement (.cmplt d q a b) := rfl
theorem cmple (d : GReg) (q : IQ) (a : GReg) (b : GReg) : Statement (.cmple d q a b) := rfl
theorem clz (d : GReg) (q : IQ) (a : GReg) : Statement (.clz d q a) := rfl
theorem ctz (d : GReg) (q : IQ) (a : GReg) : Statement (.ctz d q a) := rfl
theorem popc (d : GReg) (q : IQ) (a : GReg) : Statement (.popc d q a) := rfl
theorem brev (d : GReg) (q : IQ) (a : GReg) : Statement (.brev d q a) := rfl
theorem addI16 (d : GReg) (q : IQ) (a : GReg) (i : BitVec 16) : Statement (.addI16 d q a i) := rfl
theorem subI16 (d : GReg) (q : IQ) (a : GReg) (i : BitVec 16) : Statement (.subI16 d q a i) := rfl
theorem mulI16 (d : GReg) (q : IQ) (a : GReg) (i : BitVec 16) : Statement (.mulI16 d q a i) := rfl
theorem mulhI16 (d : GReg) (q : IQ) (a : GReg) (i : BitVec 16) : Statement (.mulhI16 d q a i) := rfl
theorem divI16 (d : GReg) (q : IQ) (a : GReg) (i : BitVec 16) : Statement (.divI16 d q a i) := rfl
theorem remI16 (d : GReg) (q : IQ) (a : GReg) (i : BitVec 16) : Statement (.remI16 d q a i) := rfl
theorem andI16 (d : GReg) (q : IQ) (a : GReg) (i : BitVec 16) : Statement (.andI16 d q a i) := rfl
theorem orI16 (d : GReg) (q : IQ) (a : GReg) (i : BitVec 16) : Statement (.orI16 d q a i) := rfl
theorem xorI16 (d : GReg) (q : IQ) (a : GReg) (i : BitVec 16) : Statement (.xorI16 d q a i) := rfl
theorem andnI16 (d : GReg) (q : IQ) (a : GReg) (i : BitVec 16) : Statement (.andnI16 d q a i) := rfl
theorem shlI16 (d : GReg) (q : IQ) (a : GReg) (i : BitVec 16) : Statement (.shlI16 d q a i) := rfl
theorem shrI16 (d : GReg) (q : IQ) (a : GReg) (i : BitVec 16) : Statement (.shrI16 d q a i) := rfl
theorem shaI16 (d : GReg) (q : IQ) (a : GReg) (i : BitVec 16) : Statement (.shaI16 d q a i) := rfl
theorem rotI16 (d : GReg) (q : IQ) (a : GReg) (i : BitVec 16) : Statement (.rotI16 d q a i) := rfl
theorem minI16 (d : GReg) (q : IQ) (a : GReg) (i : BitVec 16) : Statement (.minI16 d q a i) := rfl
theorem maxI16 (d : GReg) (q : IQ) (a : GReg) (i : BitVec 16) : Statement (.maxI16 d q a i) := rfl
theorem cmpeqI16 (d : GReg) (q : IQ) (a : GReg) (i : BitVec 16) : Statement (.cmpeqI16 d q a i) := rfl
theorem cmpneI16 (d : GReg) (q : IQ) (a : GReg) (i : BitVec 16) : Statement (.cmpneI16 d q a i) := rfl
theorem cmpltI16 (d : GReg) (q : IQ) (a : GReg) (i : BitVec 16) : Statement (.cmpltI16 d q a i) := rfl
theorem cmpleI16 (d : GReg) (q : IQ) (a : GReg) (i : BitVec 16) : Statement (.cmpleI16 d q a i) := rfl
theorem addI48 (d : GReg) (q : IQ) (a : GReg) (i : BitVec 48) : Statement (.addI48 d q a i) := rfl
theorem andI48 (d : GReg) (q : IQ) (a : GReg) (i : BitVec 48) : Statement (.andI48 d q a i) := rfl
theorem orI48 (d : GReg) (q : IQ) (a : GReg) (i : BitVec 48) : Statement (.orI48 d q a i) := rfl
theorem xorI48 (d : GReg) (q : IQ) (a : GReg) (i : BitVec 48) : Statement (.xorI48 d q a i) := rfl
theorem movi16 (d : GReg) (i : BitVec 16) : Statement (.movi16 d i) := rfl
theorem movi32 (d : GReg) (i : BitVec 32) : Statement (.movi32 d i) := rfl
theorem movi64 (d : GReg) (i : BitVec 64) : Statement (.movi64 d i) := rfl
theorem ext (d : GReg) (a : GReg) (pos : BitVec 6) (w : BitVec 6) : Statement (.ext d a pos w) := rfl
theorem ins (d : GReg) (a : GReg) (pos : BitVec 6) (w : BitVec 6) : Statement (.ins d a pos w) := rfl
theorem sel (d : GReg) (a : GReg) (b : GReg) : Statement (.sel d a b) := rfl
theorem padd (d : GReg) (a : GReg) (b : GReg) : Statement (.padd d a b) := rfl
theorem paddI16 (d : GReg) (a : GReg) (i : BitVec 16) : Statement (.paddI16 d a i) := rfl
theorem psub (d : GReg) (a : GReg) (b : GReg) : Statement (.psub d a b) := rfl
theorem viewset (n : Fin 16) (a : GReg) : Statement (.viewset n a) := rfl
theorem viewof (d : GReg) (a : GReg) : Statement (.viewof d a) := rfl
theorem isspc (d : GReg) (a : GReg) : Statement (.isspc d a) := rfl
theorem castspc (d : GReg) (toGeneric : Bool) (sp : Space) (a : GReg) : Statement (.castspc d toGeneric sp a) := rfl
theorem hown (d : GReg) (a : GReg) : Statement (.hown d a) := rfl
theorem br (j : BitVec 27) : Statement (.br j) := rfl
theorem bz (a : GReg) (j : BitVec 27) : Statement (.bz a j) := rfl
theorem bnz (a : GReg) (j : BitVec 27) : Statement (.bnz a j) := rfl
theorem bltz (a : GReg) (j : BitVec 27) : Statement (.bltz a j) := rfl
theorem bgez (a : GReg) (j : BitVec 27) : Statement (.bgez a j) := rfl
theorem call (d : GReg) (j : BitVec 27) : Statement (.call d j) := rfl
theorem loop (a : GReg) (j : BitVec 27) : Statement (.loop a j) := rfl
theorem jmp (a : GReg) : Statement (.jmp a) := rfl
theorem callr (d : GReg) (a : GReg) : Statement (.callr d a) := rfl
theorem ld (d : GReg) (q : IQ) (a : GReg) (off : BitVec 16) : Statement (.ld d q a off) := rfl
theorem ldW (d : GReg) (q : IQ) (a : GReg) (off : BitVec 48) : Statement (.ldW d q a off) := rfl
theorem ldAcq (d : GReg) (q : IQ) (a : GReg) (off : BitVec 16) : Statement (.ldAcq d q a off) := rfl
theorem ldAcqW (d : GReg) (q : IQ) (a : GReg) (off : BitVec 48) : Statement (.ldAcqW d q a off) := rfl
theorem ldSync (d : GReg) (sgn : Bool) (a : GReg) (off : BitVec 16) : Statement (.ldSync d sgn a off) := rfl
theorem ldSyncW (d : GReg) (sgn : Bool) (a : GReg) (off : BitVec 48) : Statement (.ldSyncW d sgn a off) := rfl
theorem ldSynce (d : GReg) (sgn : Bool) (a : GReg) (off : BitVec 16) : Statement (.ldSynce d sgn a off) := rfl
theorem ldSynceW (d : GReg) (sgn : Bool) (a : GReg) (off : BitVec 48) : Statement (.ldSynceW d sgn a off) := rfl
theorem st (q : IQ) (a : GReg) (b : GReg) (col : BitVec 3) (off : BitVec 16) : Statement (.st q a b col off) := rfl
theorem stW (q : IQ) (a : GReg) (b : GReg) (col : BitVec 3) (off : BitVec 48) : Statement (.stW q a b col off) := rfl
theorem stRel (q : IQ) (a : GReg) (b : GReg) (col : BitVec 3) (off : BitVec 16) : Statement (.stRel q a b col off) := rfl
theorem stRelW (q : IQ) (a : GReg) (b : GReg) (col : BitVec 3) (off : BitVec 48) : Statement (.stRelW q a b col off) := rfl
theorem stFe (sgn : Bool) (a : GReg) (b : GReg) (col : BitVec 3) (off : BitVec 16) : Statement (.stFe sgn a b col off) := rfl
theorem stFeW (sgn : Bool) (a : GReg) (b : GReg) (col : BitVec 3) (off : BitVec 48) : Statement (.stFeW sgn a b col off) := rfl
theorem ldx (d : GReg) (q : IQ) (x : Fin 16) (a : GReg) (i : BitVec 16) : Statement (.ldx d q x a i) := rfl
theorem stx (q : IQ) (x : Fin 16) (a : GReg) (b : GReg) (i : BitVec 16) : Statement (.stx q x a b i) := rfl
theorem aadd (d : GReg) (q : IQ) (a : GReg) (b : GReg) (o : AOrd) (col : BitVec 3) (sc : Scope) : Statement (.aadd d q a b o col sc) := rfl
theorem aand (d : GReg) (q : IQ) (a : GReg) (b : GReg) (o : AOrd) (col : BitVec 3) (sc : Scope) : Statement (.aand d q a b o col sc) := rfl
theorem aor (d : GReg) (q : IQ) (a : GReg) (b : GReg) (o : AOrd) (col : BitVec 3) (sc : Scope) : Statement (.aor d q a b o col sc) := rfl
theorem axor (d : GReg) (q : IQ) (a : GReg) (b : GReg) (o : AOrd) (col : BitVec 3) (sc : Scope) : Statement (.axor d q a b o col sc) := rfl
theorem amin (d : GReg) (q : IQ) (a : GReg) (b : GReg) (o : AOrd) (col : BitVec 3) (sc : Scope) : Statement (.amin d q a b o col sc) := rfl
theorem amax (d : GReg) (q : IQ) (a : GReg) (b : GReg) (o : AOrd) (col : BitVec 3) (sc : Scope) : Statement (.amax d q a b o col sc) := rfl
theorem aswap (d : GReg) (q : IQ) (a : GReg) (b : GReg) (o : AOrd) (col : BitVec 3) (sc : Scope) : Statement (.aswap d q a b o col sc) := rfl
theorem acas (d : GReg) (q : IQ) (a : GReg) (b : GReg) (o : AOrd) (col : BitVec 3) (sc : Scope) : Statement (.acas d q a b o col sc) := rfl
theorem fence (mask : BitVec 8) (sc : Scope) : Statement (.fence mask sc) := rfl
theorem csrrd (d : GReg) (c : Csr) : Statement (.csrrd d c) := rfl
theorem csrwr (c : Csr) (a : GReg) : Statement (.csrwr c a) := rfl
theorem csrswp (d : GReg) (c : Csr) (a : GReg) : Statement (.csrswp d c a) := rfl
theorem csrset (d : GReg) (c : Csr) (a : GReg) : Statement (.csrset d c a) := rfl
theorem csrclr (d : GReg) (c : Csr) (a : GReg) : Statement (.csrclr d c a) := rfl
theorem trap (a : GReg) : Statement (.trap a) := rfl
theorem trapI16 (i : BitVec 16) : Statement (.trapI16 i) := rfl
theorem time (d : GReg) : Statement (.time d) := rfl
theorem featq (d : GReg) (a : GReg) : Statement (.featq d a) := rfl
theorem migok (v : Bool) : Statement (.migok v) := rfl
theorem send (d : GReg) (q : QSel) (a : GReg) (b : GReg) (n : BitVec 6) (t : Option (BitVec 3)) : Statement (.send d q a b n t) := rfl
theorem senda (d : GReg) (q : QSel) (a : GReg) (b : GReg) (n : BitVec 6) (t : Option (BitVec 3)) : Statement (.senda d q a b n t) := rfl
theorem sendp (d : GReg) (q : QSel) (a : GReg) (b : GReg) (n : BitVec 6) (t : Option (BitVec 3)) : Statement (.sendp d q a b n t) := rfl
theorem sendl (d : GReg) (q : QSel) (a : GReg) (b : GReg) (n : BitVec 6) (t : Option (BitVec 3)) : Statement (.sendl d q a b n t) := rfl
theorem reply (d : GReg) (q : QSel) (b : GReg) (n : BitVec 6) (t : Option (BitVec 3)) : Statement (.reply d q b n t) := rfl
theorem msgid (d : GReg) : Statement (.msgid d) := rfl
theorem msgpay (d : GReg) (a : GReg) : Statement (.msgpay d a) := rfl
theorem requeue : Statement (.requeue) := rfl
theorem chbind (c : CReg) (a : GReg) (role : BitVec 2) : Statement (.chbind c a role) := rfl
theorem chwaitf (d : GReg) (c : CReg) : Statement (.chwaitf d c) := rfl
theorem chwaite (d : GReg) (c : CReg) : Statement (.chwaite d c) := rfl
theorem chadvh (c : CReg) (n : BitVec 16) : Statement (.chadvh c n) := rfl
theorem chadvt (c : CReg) (n : BitVec 16) : Statement (.chadvt c n) := rfl
theorem chstat (d : GReg) (c : CReg) : Statement (.chstat d c) := rfl
theorem chptr (d : GReg) (c : CReg) (b : GReg) (off : BitVec 16) : Statement (.chptr d c b off) := rfl
theorem tlook (d : GReg) (a : GReg) : Statement (.tlook d a) := rfl
theorem tset (d : GReg) (a : GReg) (b : GReg) : Statement (.tset d a b) := rfl
theorem tclr (d : GReg) (a : GReg) : Statement (.tclr d a) := rfl
theorem tinv (d : GReg) (a : GReg) (b : GReg) : Statement (.tinv d a b) := rfl
theorem vadd (d : VReg) (k : KReg) (a : VReg) (b : VReg) (f : Fmt) (rm : Rm) (sat : Bool) : Statement (.vadd d k a b f rm sat) := rfl
theorem vsub (d : VReg) (k : KReg) (a : VReg) (b : VReg) (f : Fmt) (rm : Rm) (sat : Bool) : Statement (.vsub d k a b f rm sat) := rfl
theorem vmul (d : VReg) (k : KReg) (a : VReg) (b : VReg) (f : Fmt) (rm : Rm) (sat : Bool) : Statement (.vmul d k a b f rm sat) := rfl
theorem vdiv (d : VReg) (k : KReg) (a : VReg) (b : VReg) (f : Fmt) (rm : Rm) (sat : Bool) : Statement (.vdiv d k a b f rm sat) := rfl
theorem vmin (d : VReg) (k : KReg) (a : VReg) (b : VReg) (f : Fmt) : Statement (.vmin d k a b f) := rfl
theorem vmax (d : VReg) (k : KReg) (a : VReg) (b : VReg) (f : Fmt) : Statement (.vmax d k a b f) := rfl
theorem vabs (d : VReg) (k : KReg) (a : VReg) (f : Fmt) (sat : Bool) : Statement (.vabs d k a f sat) := rfl
theorem vneg (d : VReg) (k : KReg) (a : VReg) (f : Fmt) (sat : Bool) : Statement (.vneg d k a f sat) := rfl
theorem vsqrt (d : VReg) (k : KReg) (a : VReg) (f : Fmt) (rm : Rm) : Statement (.vsqrt d k a f rm) := rfl
theorem vand (d : VReg) (k : KReg) (a : VReg) (b : VReg) (f : Fmt) : Statement (.vand d k a b f) := rfl
theorem vor (d : VReg) (k : KReg) (a : VReg) (b : VReg) (f : Fmt) : Statement (.vor d k a b f) := rfl
theorem vxor (d : VReg) (k : KReg) (a : VReg) (b : VReg) (f : Fmt) : Statement (.vxor d k a b f) := rfl
theorem vshl (d : VReg) (k : KReg) (a : VReg) (b : VReg) (f : Fmt) : Statement (.vshl d k a b f) := rfl
theorem vshr (d : VReg) (k : KReg) (a : VReg) (b : VReg) (f : Fmt) : Statement (.vshr d k a b f) := rfl
theorem vsha (d : VReg) (k : KReg) (a : VReg) (b : VReg) (f : Fmt) : Statement (.vsha d k a b f) := rfl
theorem vfma (d : VReg) (k : KReg) (a : VReg) (b : VReg) (f : Fmt) (rm : Rm) : Statement (.vfma d k a b f rm) := rfl
theorem vfms (d : VReg) (k : KReg) (a : VReg) (b : VReg) (f : Fmt) (rm : Rm) : Statement (.vfms d k a b f rm) := rfl
theorem vfnma (d : VReg) (k : KReg) (a : VReg) (b : VReg) (f : Fmt) (rm : Rm) : Statement (.vfnma d k a b f rm) := rfl
theorem vcvt (d : VReg) (k : KReg) (a : VReg) (f : Fmt) (t : Fmt) (rm : Rm) (sat : Bool) : Statement (.vcvt d k a f t rm sat) := rfl
theorem vcmpEq (d : KReg) (k : KReg) (a : VReg) (b : VReg) (f : Fmt) : Statement (.vcmpEq d k a b f) := rfl
theorem vcmpNe (d : KReg) (k : KReg) (a : VReg) (b : VReg) (f : Fmt) : Statement (.vcmpNe d k a b f) := rfl
theorem vcmpLt (d : KReg) (k : KReg) (a : VReg) (b : VReg) (f : Fmt) : Statement (.vcmpLt d k a b f) := rfl
theorem vcmpLe (d : KReg) (k : KReg) (a : VReg) (b : VReg) (f : Fmt) : Statement (.vcmpLe d k a b f) := rfl
theorem vcmpUnord (d : KReg) (k : KReg) (a : VReg) (b : VReg) (f : Fmt) : Statement (.vcmpUnord d k a b f) := rfl
theorem vsel (d : VReg) (k : KReg) (a : VReg) (b : VReg) (f : Fmt) : Statement (.vsel d k a b f) := rfl
theorem vmov (d : VReg) (k : KReg) (a : VReg) (f : Fmt) : Statement (.vmov d k a f) := rfl
theorem vbcast (d : VReg) (k : KReg) (a : GReg) (f : Fmt) : Statement (.vbcast d k a f) := rfl
theorem vext (d : GReg) (a : VReg) (b : GReg) (f : Fmt) : Statement (.vext d a b f) := rfl
theorem viota (d : VReg) (k : KReg) (a : GReg) (f : Fmt) : Statement (.viota d k a f) := rfl
theorem vredSum (d : GReg) (k : KReg) (a : VReg) (f : Fmt) (rm : Rm) (sat : Bool) : Statement (.vredSum d k a f rm sat) := rfl
theorem vredMin (d : GReg) (k : KReg) (a : VReg) (f : Fmt) (rm : Rm) (sat : Bool) : Statement (.vredMin d k a f rm sat) := rfl
theorem vredMax (d : GReg) (k : KReg) (a : VReg) (f : Fmt) (rm : Rm) (sat : Bool) : Statement (.vredMax d k a f rm sat) := rfl
theorem vdot (d : GReg) (k : KReg) (a : VReg) (b : VReg) (f : Fmt) (rm : Rm) (sat : Bool) : Statement (.vdot d k a b f rm sat) := rfl
theorem vshuf (d : VReg) (k : KReg) (a : VReg) (b : VReg) (f : Fmt) : Statement (.vshuf d k a b f) := rfl
theorem vrot (d : VReg) (k : KReg) (a : VReg) (b : GReg) (f : Fmt) : Statement (.vrot d k a b f) := rfl
theorem vpack (d : VReg) (k : KReg) (a : VReg) (b : VReg) (f : Fmt) (sat : Bool) : Statement (.vpack d k a b f sat) := rfl
theorem vunpack (d : VReg) (k : KReg) (a : VReg) (b : GReg) (f : Fmt) : Statement (.vunpack d k a b f) := rfl
theorem vld (d : VReg) (k : KReg) (a : GReg) (f : Fmt) (rm : Rm) (sat : Bool) : Statement (.vld d k a f rm sat) := rfl
theorem vst (d : VReg) (k : KReg) (a : GReg) (f : Fmt) (rm : Rm) (sat : Bool) : Statement (.vst d k a f rm sat) := rfl
theorem vlds (d : VReg) (k : KReg) (a : GReg) (b : GReg) (f : Fmt) (rm : Rm) (sat : Bool) : Statement (.vlds d k a b f rm sat) := rfl
theorem vsts (d : VReg) (k : KReg) (a : GReg) (b : GReg) (f : Fmt) (rm : Rm) (sat : Bool) : Statement (.vsts d k a b f rm sat) := rfl
theorem vgather (d : VReg) (k : KReg) (a : GReg) (b : VReg) (f : Fmt) (rm : Rm) (sat : Bool) : Statement (.vgather d k a b f rm sat) := rfl
theorem vscatter (d : VReg) (k : KReg) (a : GReg) (b : VReg) (f : Fmt) (rm : Rm) (sat : Bool) : Statement (.vscatter d k a b f rm sat) := rfl
theorem kand (d : KReg) (a : KReg) (b : KReg) : Statement (.kand d a b) := rfl
theorem kor (d : KReg) (a : KReg) (b : KReg) : Statement (.kor d a b) := rfl
theorem kxor (d : KReg) (a : KReg) (b : KReg) : Statement (.kxor d a b) := rfl
theorem knot (d : KReg) (a : KReg) : Statement (.knot d a) := rfl
theorem kpop (d : GReg) (a : KReg) : Statement (.kpop d a) := rfl
theorem kset (d : KReg) (a : GReg) : Statement (.kset d a) := rfl
theorem kget (d : GReg) (a : KReg) : Statement (.kget d a) := rfl
theorem vscale (d : GReg) (k : KReg) (a : VReg) (f : Fmt) (t : QTgt) (h : BitVec 4) : Statement (.vscale d k a f t h) := rfl
theorem vquant (d : VReg) (k : KReg) (a : VReg) (b : GReg) (f : Fmt) (rm : Rm) (t : QTgt) : Statement (.vquant d k a b f rm t) := rfl
theorem mput (i : Fin 4) (a : GReg) : Statement (.mput i a) := rfl
theorem mget (d : GReg) (i : Fin 7) : Statement (.mget d i) := rfl
theorem mgang (d : GReg) (a : GReg) (tag : BitVec 16) : Statement (.mgang d a tag) := rfl
theorem mwait (a : GReg) (b : GReg) : Statement (.mwait a b) := rfl
theorem mstat (d : GReg) (a : GReg) : Statement (.mstat d a) := rfl
theorem cpreq (a : GReg) : Statement (.cpreq a) := rfl
theorem cptest (d : GReg) (a : GReg) : Statement (.cptest d a) := rfl
theorem cpwait (d : GReg) (a : GReg) : Statement (.cpwait d a) := rfl
theorem lvbind (d : GReg) (a : GReg) (b : GReg) (front : BitVec 16) : Statement (.lvbind d a b front) := rfl
theorem lvunbind (d : GReg) (a : GReg) : Statement (.lvunbind d a) := rfl
theorem lvread (d : GReg) (a : GReg) : Statement (.lvread d a) := rfl
theorem lvcommit (a : GReg) (b : GReg) : Statement (.lvcommit a b) := rfl
theorem lvcmp (d : GReg) (a : GReg) (b : GReg) (off : BitVec 16) : Statement (.lvcmp d a b off) := rfl
theorem lvfreeze (d : GReg) (a : GReg) : Statement (.lvfreeze d a) := rfl
theorem lvthaw (d : GReg) (a : GReg) : Statement (.lvthaw d a) := rfl
theorem lvstat (d : GReg) (a : GReg) : Statement (.lvstat d a) := rfl
theorem rfence (mask : BitVec 8) : Statement (.rfence mask) := rfl
theorem wstat (d : GReg) (a : GReg) : Statement (.wstat d a) := rfl
theorem wseq (d : GReg) (a : GReg) : Statement (.wseq d a) := rfl
theorem rlcrun (d : GReg) (a : GReg) : Statement (.rlcrun d a) := rfl
theorem rlcnorm (d : GReg) (a : GReg) : Statement (.rlcnorm d a) := rfl
theorem rlcstat (d : GReg) (a : GReg) : Statement (.rlcstat d a) := rfl
theorem rlcstop (d : GReg) (a : GReg) : Statement (.rlcstop d a) := rfl
theorem moduleReset (badStacks : BitVec 8) : Statement (.moduleReset badStacks) := rfl
theorem recoveryImageWrite (img : FwImage) : Statement (.recoveryImageWrite img) := rfl
theorem partitionConfigure (parts : List (Nat × Nat)) (grants : List (Nat × Nat × Nat)) : Statement (.partitionConfigure parts grants) := rfl
theorem modeSelect (part : Nat) (fn : ModeFn) (assisted : Bool) : Statement (.modeSelect part fn assisted) := rfl
theorem leaseRenew (fw : Nat) : Statement (.leaseRenew fw) := rfl
theorem leaseLapse (fw : Nat) (group : BitVec 10) : Statement (.leaseLapse fw group) := rfl
theorem voteRequest (fw : Nat) : Statement (.voteRequest fw) := rfl
theorem leaderDesignate (socket : Nat) : Statement (.leaderDesignate socket) := rfl
theorem queueResume (part : Nat) (q : Nat) : Statement (.queueResume part q) := rfl
theorem packetChoose (part : Nat) : Statement (.packetChoose part) := rfl
theorem nopPacket (part : Nat) : Statement (.nopPacket part) := rfl
theorem launch (part : Nat) : Statement (.launch part) := rfl
theorem endPacket (part : Nat) : Statement (.endPacket part) := rfl
theorem inval (part : Nat) : Statement (.inval part) := rfl
theorem disposeRelease (part : Nat) : Statement (.disposeRelease part) := rfl
theorem disposeDiscard (part : Nat) : Statement (.disposeDiscard part) := rfl
theorem disposeEnd (part : Nat) : Statement (.disposeEnd part) := rfl
theorem trapDisposition (die : Nat) : Statement (.trapDisposition die) := rfl
theorem trheadWrite (part : Nat) (head : BitVec 32) : Statement (.trheadWrite part head) := rfl
theorem pageFaultService (die : Nat) : Statement (.pageFaultService die) := rfl
theorem prgResponse (tag : BitVec 9) (code : PrgCode) : Statement (.prgResponse tag code) := rfl
theorem priTimeout (tag : BitVec 9) : Statement (.priTimeout tag) := rfl
theorem spdmRequest (index : BitVec 8) : Statement (.spdmRequest index) := rfl
theorem keyExchangeStart (link : Nat) (tx : Bool) : Statement (.keyExchangeStart link tx) := rfl
theorem keyExchangeComplete (link : Nat) (tx : Bool) (secret : BitVec 256) : Statement (.keyExchangeComplete link tx secret) := rfl
theorem hostKeyWrite (link : Nat) (tx : Bool) (slot : Bool) (key : BitVec 256) (salt : BitVec 48) : Statement (.hostKeyWrite link tx slot key salt) := rfl
theorem preemptRequest (part : Nat) : Statement (.preemptRequest part) := rfl
theorem preemptComplete (part : Nat) : Statement (.preemptComplete part) := rfl
theorem preemptwaitExpiry (part : Nat) : Statement (.preemptwaitExpiry part) := rfl
theorem preemptResume (part : Nat) : Statement (.preemptResume part) := rfl
theorem deadlockDetect (part : Nat) : Statement (.deadlockDetect part) := rfl
theorem requestReassembled (ep : Nat) : Statement (.requestReassembled ep) := rfl
theorem slotFreedAdmit (core : Nat) : Statement (.slotFreedAdmit core) := rfl
theorem activationStart (core : Nat) (ctx : Nat) : Statement (.activationStart core ctx) := rfl
theorem queueAging (core : Nat) : Statement (.queueAging core) := rfl
theorem budgetExpiry (core : Nat) (ctx : Nat) : Statement (.budgetExpiry core ctx) := rfl
theorem parkResume (core : Nat) (ctx : Nat) : Statement (.parkResume core ctx) := rfl
theorem migrationShip (core : Nat) (ctx : Nat) : Statement (.migrationShip core ctx) := rfl
theorem wayfarerArrive (core : Nat) (ctx : Nat) : Statement (.wayfarerArrive core ctx) := rfl
theorem logicalQuantumEnd (core : Nat) : Statement (.logicalQuantumEnd core) := rfl
theorem quantumEnd (part : Nat) : Statement (.quantumEnd part) := rfl
theorem turnSwitch (core : Nat) : Statement (.turnSwitch core) := rfl
theorem debugHold (core : Nat) (ctx : Nat) : Statement (.debugHold core ctx) := rfl
theorem debugWrite (core : Nat) (ctx : Nat) (r : DbgReg) (v : VWord) : Statement (.debugWrite core ctx r v) := rfl
theorem debugRelease (core : Nat) (ctx : Nat) : Statement (.debugRelease core ctx) := rfl
theorem breakpointSet (core : Nat) (b : BpSet) : Statement (.breakpointSet core b) := rfl
theorem breakpointMatch (core : Nat) (ctx : Nat) : Statement (.breakpointMatch core ctx) := rfl
theorem bkptRelease (core : Nat) (ctx : Nat) : Statement (.bkptRelease core ctx) := rfl
theorem flitRoute (router : Nat) (response : Bool) : Statement (.flitRoute router response) := rfl
theorem poisonSink (die : Nat) : Statement (.poisonSink die) := rfl
theorem throttle (router : Nat) (response : Bool) : Statement (.throttle router response) := rfl
theorem responseReceive (ep : Nat) : Statement (.responseReceive ep) := rfl
theorem nackReceive (ep : Nat) : Statement (.nackReceive ep) := rfl
theorem stayNoticeReceive (ep : Nat) : Statement (.stayNoticeReceive ep) := rfl
theorem retxTimeout (ep : Nat) (dest : Nat) (num : Nat) : Statement (.retxTimeout ep dest num) := rfl
theorem busyBackoff (ep : Nat) (dest : Nat) (num : Nat) : Statement (.busyBackoff ep dest num) := rfl
theorem remoteRead (home : Nat) : Statement (.remoteRead home) := rfl
theorem remoteWrite (home : Nat) : Statement (.remoteWrite home) := rfl
theorem remoteAtomic (home : Nat) : Statement (.remoteAtomic home) := rfl
theorem synceConfirm (home : Nat) : Statement (.synceConfirm home) := rfl
theorem synceReturn (home : Nat) : Statement (.synceReturn home) := rfl
theorem waitCancel (home : Nat) : Statement (.waitCancel home) := rfl
theorem lodgeService (home : Nat) : Statement (.lodgeService home) := rfl
theorem stayNoticeSend (home : Nat) : Statement (.stayNoticeSend home) := rfl
theorem engineWrite (core : Nat) : Statement (.engineWrite core) := rfl
theorem xferReceive (eng : Nat) : Statement (.xferReceive eng) := rfl
theorem matrixFlip (cluster : Nat) : Statement (.matrixFlip cluster) := rfl
theorem copyAccept (str : Nat) : Statement (.copyAccept str) := rfl
theorem copyComplete (str : Nat) (ch : Nat) : Statement (.copyComplete str ch) := rfl
theorem copyFault (str : Nat) (ch : Nat) : Statement (.copyFault str ch) := rfl
theorem transferBoardUpdate (core : Nat) : Statement (.transferBoardUpdate core) := rfl
theorem blockDispatch (die : Nat) : Statement (.blockDispatch die) := rfl
theorem levelNotice (die : Nat) : Statement (.levelNotice die) := rfl
theorem levelPublish (core : Nat) (ctx : Nat) : Statement (.levelPublish core ctx) := rfl
theorem windowPacketSend (xd : Nat) (entry : Nat) : Statement (.windowPacketSend xd entry) := rfl
theorem storePacketReceive (xd : Nat) : Statement (.storePacketReceive xd) := rfl
theorem windowAckReceive (xd : Nat) : Statement (.windowAckReceive xd) := rfl
theorem windowMissReceive (xd : Nat) : Statement (.windowMissReceive xd) := rfl
theorem loopbackApply (xd : Nat) (entry : Nat) : Statement (.loopbackApply xd entry) := rfl
theorem linkFlitReceive (link : Nat) (f : LinkFlit) : Statement (.linkFlitReceive link f) := rfl
theorem linkNak (link : Nat) (seq : Nat) : Statement (.linkNak link seq) := rfl
theorem linkAck (link : Nat) (seq : Nat) : Statement (.linkAck link seq) := rfl
theorem linkDown (link : Nat) : Statement (.linkDown link) := rfl
theorem linkRetrained (link : Nat) : Statement (.linkRetrained link) := rfl
theorem linkDownTimeout (link : Nat) : Statement (.linkDownTimeout link) := rfl
theorem windowEntryWrite (xd : Nat) (entry : Nat) (w0 : Word) (w1 : Word) : Statement (.windowEntryWrite xd entry w0 w1) := rfl
theorem receiveWindowWrite (entry : Nat) (w0 : Word) (w1 : Word) : Statement (.receiveWindowWrite entry w0 w1) := rfl
theorem pathReopen (xd : Nat) (path : Nat) : Statement (.pathReopen xd path) := rfl
theorem sample (core : Nat) : Statement (.sample core) := rfl
theorem samplePeriodWrite (part : Nat) (period : BitVec 32) : Statement (.samplePeriodWrite part period) := rfl
theorem ringHeadWrite (part : Nat) (r : RingSel) (head : BitVec 32) : Statement (.ringHeadWrite part r head) := rfl
theorem dropWrite (part : Nat) (r : RingSel) (bits : BitVec 32) : Statement (.dropWrite part r bits) := rfl
theorem counterWrite (part : Nat) (i : Nat) (v : Word) : Statement (.counterWrite part i v) := rfl
theorem timeWrap (part : Nat) : Statement (.timeWrap part) := rfl
theorem tokenReallot : Statement (.tokenReallot) := rfl
theorem tokenExhaust (die : Nat) : Statement (.tokenExhaust die) := rfl
theorem powerAllotWrite (allot : List Nat) : Statement (.powerAllotWrite allot) := rfl
theorem thermalSample (island : Nat) (flux : Nat) : Statement (.thermalSample island flux) := rfl
theorem registerWrite (r : RegTarget) (v : Word) : Statement (.registerWrite r v) := rfl
theorem decodingFault (core : Nat) (ctx : Nat) : Statement (.decodingFault core ctx) := rfl
theorem flashRewrite (img : FwImage) (ok : Bool) : Statement (.flashRewrite img ok) := rfl

end Sys2Proof.Laws.Encodable
end

