-- ==== Sys2Proof/Laws/Retire.lean ====
section
/-!
SUPPORT. What retiring does (R57, R90): the IP moves, and what `Ctx.arch` and `CoreSt.side` show is left alone.
-/

namespace Sys2Proof.Machine

/-! ### Counting and the end of a grant touch partitions only -/

@[simp] theorem State.count_mem (s : State) (die ev n : Nat) : (s.count die ev n).mem = s.mem := by
  unfold State.count; split <;> (try split) <;> rfl
@[simp] theorem State.count_cores (s : State) (die ev n : Nat) : (s.count die ev n).cores = s.cores := by
  unfold State.count; split <;> (try split) <;> rfl
@[simp] theorem State.count_eps (s : State) (die ev n : Nat) : (s.count die ev n).eps = s.eps := by
  unfold State.count; split <;> (try split) <;> rfl
@[simp] theorem State.count_routers (s : State) (die ev n : Nat) : (s.count die ev n).routers = s.routers := by
  unfold State.count; split <;> (try split) <;> rfl
@[simp] theorem State.count_fences (s : State) (die ev n : Nat) : (s.count die ev n).fences = s.fences := by
  unfold State.count; split <;> (try split) <;> rfl
@[simp] theorem State.count_homes (s : State) (die ev n : Nat) : (s.count die ev n).homes = s.homes := by
  unfold State.count; split <;> (try split) <;> rfl
@[simp] theorem State.count_rings (s : State) (die ev n : Nat) : (s.count die ev n).rings = s.rings := by
  unfold State.count; split <;> (try split) <;> rfl
@[simp] theorem State.count_rlcs (s : State) (die ev n : Nat) : (s.count die ev n).rlcs = s.rlcs := by
  unfold State.count; split <;> (try split) <;> rfl
@[simp] theorem State.count_strs (s : State) (die ev n : Nat) : (s.count die ev n).strs = s.strs := by
  unfold State.count; split <;> (try split) <;> rfl
@[simp] theorem State.count_boardUpd (s : State) (die ev n : Nat) : (s.count die ev n).boardUpd = s.boardUpd := by
  unfold State.count; split <;> (try split) <;> rfl
@[simp] theorem State.count_fus (s : State) (die ev n : Nat) : (s.count die ev n).fus = s.fus := by
  unfold State.count; split <;> (try split) <;> rfl
@[simp] theorem State.count_fronts (s : State) (die ev n : Nat) : (s.count die ev n).fronts = s.fronts := by
  unfold State.count; split <;> (try split) <;> rfl
@[simp] theorem State.count_wins (s : State) (die ev n : Nat) : (s.count die ev n).wins = s.wins := by
  unfold State.count; split <;> (try split) <;> rfl
@[simp] theorem State.count_rxwin (s : State) (die ev n : Nat) : (s.count die ev n).rxwin = s.rxwin := by
  unfold State.count; split <;> (try split) <;> rfl
@[simp] theorem State.count_paths (s : State) (die ev n : Nat) : (s.count die ev n).paths = s.paths := by
  unfold State.count; split <;> (try split) <;> rfl
@[simp] theorem State.count_routes (s : State) (die ev n : Nat) : (s.count die ev n).routes = s.routes := by
  unfold State.count; split <;> (try split) <;> rfl
@[simp] theorem State.count_links (s : State) (die ev n : Nat) : (s.count die ev n).links = s.links := by
  unfold State.count; split <;> (try split) <;> rfl
@[simp] theorem State.count_fws (s : State) (die ev n : Nat) : (s.count die ev n).fws = s.fws := by
  unfold State.count; split <;> (try split) <;> rfl
@[simp] theorem State.count_pkg (s : State) (die ev n : Nat) : (s.count die ev n).pkg = s.pkg := by
  unfold State.count; split <;> (try split) <;> rfl
@[simp] theorem State.count_time (s : State) (die ev n : Nat) : (s.count die ev n).time = s.time := by
  unfold State.count; split <;> (try split) <;> rfl
@[simp] theorem State.count_agenda (s : State) (die ev n : Nat) : (s.count die ev n).agenda = s.agenda := by
  unfold State.count; split <;> (try split) <;> rfl
@[simp] theorem State.count_cur (s : State) (die ev n : Nat) : (s.count die ev n).cur = s.cur := by
  unfold State.count; split <;> (try split) <;> rfl
@[simp] theorem State.count_fresh (s : State) (die ev n : Nat) : (s.count die ev n).fresh = s.fresh := by
  unfold State.count; split <;> (try split) <;> rfl
@[simp] theorem State.count_lastAt (s : State) (die ev n : Nat) : (s.count die ev n).lastAt = s.lastAt := by
  unfold State.count; split <;> (try split) <;> rfl
@[simp] theorem State.count_takenAt (s : State) (die ev n : Nat) : (s.count die ev n).takenAt = s.takenAt := by
  unfold State.count; split <;> (try split) <;> rfl
@[simp] theorem State.count_wr (s : State) (die ev n : Nat) : (s.count die ev n).wr = s.wr := by
  unfold State.count; split <;> (try split) <;> rfl
@[simp] theorem State.ungrant_mem (s : State) (n c : Nat) : (s.ungrant n c).mem = s.mem := rfl
@[simp] theorem State.ungrant_cores (s : State) (n c : Nat) : (s.ungrant n c).cores = s.cores := rfl
@[simp] theorem State.ungrant_eps (s : State) (n c : Nat) : (s.ungrant n c).eps = s.eps := rfl
@[simp] theorem State.ungrant_routers (s : State) (n c : Nat) : (s.ungrant n c).routers = s.routers := rfl
@[simp] theorem State.ungrant_fences (s : State) (n c : Nat) : (s.ungrant n c).fences = s.fences := rfl
@[simp] theorem State.ungrant_homes (s : State) (n c : Nat) : (s.ungrant n c).homes = s.homes := rfl
@[simp] theorem State.ungrant_rings (s : State) (n c : Nat) : (s.ungrant n c).rings = s.rings := rfl
@[simp] theorem State.ungrant_rlcs (s : State) (n c : Nat) : (s.ungrant n c).rlcs = s.rlcs := rfl
@[simp] theorem State.ungrant_strs (s : State) (n c : Nat) : (s.ungrant n c).strs = s.strs := rfl
@[simp] theorem State.ungrant_boardUpd (s : State) (n c : Nat) : (s.ungrant n c).boardUpd = s.boardUpd := rfl
@[simp] theorem State.ungrant_fus (s : State) (n c : Nat) : (s.ungrant n c).fus = s.fus := rfl
@[simp] theorem State.ungrant_fronts (s : State) (n c : Nat) : (s.ungrant n c).fronts = s.fronts := rfl
@[simp] theorem State.ungrant_wins (s : State) (n c : Nat) : (s.ungrant n c).wins = s.wins := rfl
@[simp] theorem State.ungrant_rxwin (s : State) (n c : Nat) : (s.ungrant n c).rxwin = s.rxwin := rfl
@[simp] theorem State.ungrant_paths (s : State) (n c : Nat) : (s.ungrant n c).paths = s.paths := rfl
@[simp] theorem State.ungrant_routes (s : State) (n c : Nat) : (s.ungrant n c).routes = s.routes := rfl
@[simp] theorem State.ungrant_links (s : State) (n c : Nat) : (s.ungrant n c).links = s.links := rfl
@[simp] theorem State.ungrant_fws (s : State) (n c : Nat) : (s.ungrant n c).fws = s.fws := rfl
@[simp] theorem State.ungrant_pkg (s : State) (n c : Nat) : (s.ungrant n c).pkg = s.pkg := rfl
@[simp] theorem State.ungrant_time (s : State) (n c : Nat) : (s.ungrant n c).time = s.time := rfl
@[simp] theorem State.ungrant_agenda (s : State) (n c : Nat) : (s.ungrant n c).agenda = s.agenda := rfl
@[simp] theorem State.ungrant_cur (s : State) (n c : Nat) : (s.ungrant n c).cur = s.cur := rfl
@[simp] theorem State.ungrant_fresh (s : State) (n c : Nat) : (s.ungrant n c).fresh = s.fresh := rfl
@[simp] theorem State.ungrant_lastAt (s : State) (n c : Nat) : (s.ungrant n c).lastAt = s.lastAt := rfl
@[simp] theorem State.ungrant_takenAt (s : State) (n c : Nat) : (s.ungrant n c).takenAt = s.takenAt := rfl
@[simp] theorem State.ungrant_wr (s : State) (n c : Nat) : (s.ungrant n c).wr = s.wr := rfl

/-! ### Advancing: the context moves, the core counts, partitions count -/

/-- What `advance` makes of the running context. -/
def Ctx.moved (x : Ctx) (det : Bool) (ip' : Word) : Ctx :=
  { x with latch := { x.latch with prev := x.ip }, ip := ip', rbuf := [], rcur := 0, elem := [], stall := 0, issued := true, nobp := false,
           budget := if det && x.budget != 0 then x.budget - 1 else x.budget }

@[simp] theorem Ctx.moved_arch (x : Ctx) (det : Bool) (ip' : Word) : (x.moved det ip').arch = x.arch := rfl
@[simp] theorem Ctx.moved_ip (x : Ctx) (det : Bool) (ip' : Word) : (x.moved det ip').ip = ip' := rfl
@[simp] theorem Ctx.moved_step1 (x : Ctx) (det : Bool) (ip' : Word) : (x.moved det ip').step1 = x.step1 := rfl
@[simp] theorem Ctx.moved_migok (x : Ctx) (det : Bool) (ip' : Word) : (x.moved det ip').migok = x.migok := rfl
@[simp] theorem CoreSt.count_side (k : CoreSt) (n : Nat) : ({ k with retired := n } : CoreSt).side = k.side := rfl
@[simp] theorem CoreSt.setCtx_side (k : CoreSt) (c : Nat) (x : Ctx) : (k.setCtx c x).side = k.side := rfl

@[simp] theorem State.advance_mem (s : State) (ip' : Word) : (s.advance ip').mem = s.mem := by
  by_cases h : s.detAt s.cur.1 = true <;> simp [State.advance, h]
@[simp] theorem State.advance_eps (s : State) (ip' : Word) : (s.advance ip').eps = s.eps := by
  by_cases h : s.detAt s.cur.1 = true <;> simp [State.advance, h]
@[simp] theorem State.advance_routers (s : State) (ip' : Word) : (s.advance ip').routers = s.routers := by
  by_cases h : s.detAt s.cur.1 = true <;> simp [State.advance, h]
@[simp] theorem State.advance_fences (s : State) (ip' : Word) : (s.advance ip').fences = s.fences := by
  by_cases h : s.detAt s.cur.1 = true <;> simp [State.advance, h]
@[simp] theorem State.advance_homes (s : State) (ip' : Word) : (s.advance ip').homes = s.homes := by
  by_cases h : s.detAt s.cur.1 = true <;> simp [State.advance, h]
@[simp] theorem State.advance_rings (s : State) (ip' : Word) : (s.advance ip').rings = s.rings := by
  by_cases h : s.detAt s.cur.1 = true <;> simp [State.advance, h]
@[simp] theorem State.advance_rlcs (s : State) (ip' : Word) : (s.advance ip').rlcs = s.rlcs := by
  by_cases h : s.detAt s.cur.1 = true <;> simp [State.advance, h]
@[simp] theorem State.advance_strs (s : State) (ip' : Word) : (s.advance ip').strs = s.strs := by
  by_cases h : s.detAt s.cur.1 = true <;> simp [State.advance, h]
@[simp] theorem State.advance_boardUpd (s : State) (ip' : Word) : (s.advance ip').boardUpd = s.boardUpd := by
  by_cases h : s.detAt s.cur.1 = true <;> simp [State.advance, h]
@[simp] theorem State.advance_fus (s : State) (ip' : Word) : (s.advance ip').fus = s.fus := by
  by_cases h : s.detAt s.cur.1 = true <;> simp [State.advance, h]
@[simp] theorem State.advance_fronts (s : State) (ip' : Word) : (s.advance ip').fronts = s.fronts := by
  by_cases h : s.detAt s.cur.1 = true <;> simp [State.advance, h]
@[simp] theorem State.advance_wins (s : State) (ip' : Word) : (s.advance ip').wins = s.wins := by
  by_cases h : s.detAt s.cur.1 = true <;> simp [State.advance, h]
@[simp] theorem State.advance_rxwin (s : State) (ip' : Word) : (s.advance ip').rxwin = s.rxwin := by
  by_cases h : s.detAt s.cur.1 = true <;> simp [State.advance, h]
@[simp] theorem State.advance_paths (s : State) (ip' : Word) : (s.advance ip').paths = s.paths := by
  by_cases h : s.detAt s.cur.1 = true <;> simp [State.advance, h]
@[simp] theorem State.advance_routes (s : State) (ip' : Word) : (s.advance ip').routes = s.routes := by
  by_cases h : s.detAt s.cur.1 = true <;> simp [State.advance, h]
@[simp] theorem State.advance_links (s : State) (ip' : Word) : (s.advance ip').links = s.links := by
  by_cases h : s.detAt s.cur.1 = true <;> simp [State.advance, h]
@[simp] theorem State.advance_fws (s : State) (ip' : Word) : (s.advance ip').fws = s.fws := by
  by_cases h : s.detAt s.cur.1 = true <;> simp [State.advance, h]
@[simp] theorem State.advance_pkg (s : State) (ip' : Word) : (s.advance ip').pkg = s.pkg := by
  by_cases h : s.detAt s.cur.1 = true <;> simp [State.advance, h]
@[simp] theorem State.advance_time (s : State) (ip' : Word) : (s.advance ip').time = s.time := by
  by_cases h : s.detAt s.cur.1 = true <;> simp [State.advance, h]
@[simp] theorem State.advance_agenda (s : State) (ip' : Word) : (s.advance ip').agenda = s.agenda := by
  by_cases h : s.detAt s.cur.1 = true <;> simp [State.advance, h]
@[simp] theorem State.advance_cur (s : State) (ip' : Word) : (s.advance ip').cur = s.cur := by
  by_cases h : s.detAt s.cur.1 = true <;> simp [State.advance, h]
@[simp] theorem State.advance_fresh (s : State) (ip' : Word) : (s.advance ip').fresh = s.fresh := by
  by_cases h : s.detAt s.cur.1 = true <;> simp [State.advance, h]
@[simp] theorem State.advance_lastAt (s : State) (ip' : Word) : (s.advance ip').lastAt = s.lastAt := by
  by_cases h : s.detAt s.cur.1 = true <;> simp [State.advance, h]
@[simp] theorem State.advance_takenAt (s : State) (ip' : Word) : (s.advance ip').takenAt = s.takenAt := by
  by_cases h : s.detAt s.cur.1 = true <;> simp [State.advance, h]
@[simp] theorem State.advance_wr (s : State) (ip' : Word) : (s.advance ip').wr = s.wr := by
  by_cases h : s.detAt s.cur.1 = true <;> simp [State.advance, h]

/-- The cores after `advance`: the running one with its context moved, and its count of the quantum in deterministic mode. -/
theorem State.advance_cores (s : State) (ip' : Word) :
    (s.advance ip').cores = (if s.detAt s.cur.1 then
      ((s.onMe (fun x => x.moved (s.detAt s.cur.1) ip')).onMyCore (fun k => { k with retired := k.retired + 1 })).cores
      else (s.onMe (fun x => x.moved (s.detAt s.cur.1) ip')).cores) := by
  unfold State.advance
  by_cases h : s.detAt s.cur.1 = true
  · simp only [h, if_true]; rw [State.count_cores, State.ungrant_cores]; rfl
  · simp only [h]; rw [State.count_cores, State.ungrant_cores]; rfl

/-- Cores are read from `cores` alone. -/
theorem State.core_congr {s t : State} (h : s.cores = t.cores) (n : Nat) : s.core n = t.core n := by simp [State.core, h]

@[simp] theorem State.advance_me (s : State) (ip' : Word) : (s.advance ip').me = s.me.moved (s.detAt s.cur.1) ip' := by
  have h := State.advance_cores s ip'
  unfold State.me State.ctx
  rw [State.advance_cur]
  split at h
  · rw [State.core_congr h]; simp [State.onMyCore, State.onMe, State.onCtx, CoreSt.ctx, CoreSt.setCtx, Vector.get_eq_getElem]
  · rw [State.core_congr h]; simp [State.onMe, State.onCtx]

theorem State.advance_core_ne (s : State) (ip' : Word) {n : Nat} (hn : n ≠ s.cur.1) : (s.advance ip').core n = s.core n := by
  have h := State.advance_cores s ip'
  split at h
  · rw [State.core_congr h, State.onMyCore, State.core_onCore_ne _ _ (by simpa using hn), State.core_onMe_ne _ _ hn]
  · rw [State.core_congr h, State.core_onMe_ne _ _ hn]

theorem State.advance_peer (s : State) (ip' : Word) {c : Nat} (hc : c4 c ≠ s.cur.2) :
    (s.advance ip').ctx s.cur.1 c = s.ctx s.cur.1 c := by
  have h := State.advance_cores s ip'
  have hp := State.peer_onMe s (fun x => x.moved (s.detAt s.cur.1) ip') hc
  unfold State.ctx at hp ⊢
  split at h
  · rw [State.core_congr h]
    simp only [State.onMyCore, State.onMe_cur, State.core_onCore_self]
    exact hp
  · rw [State.core_congr h]; exact hp

theorem State.advance_side (s : State) (ip' : Word) : ((s.advance ip').core s.cur.1).side = (s.core s.cur.1).side := by
  have h := State.advance_cores s ip'
  split at h <;> rw [State.core_congr h] <;> simp [State.onMyCore, State.onMe, State.onCtx]

/-! ### Retiring -/

/-- Without a single step and without migration, to retire is to advance. -/
theorem State.retireTo_eq (s : State) (ip' : Word) (h : Steady s) : s.retireTo ip' = s.advance ip' := by
  unfold State.retireTo State.migTest
  have hm : (s.advance ip').ctx s.cur.1 s.cur.2.val = s.me.moved (s.detAt s.cur.1) ip' := by
    have := State.advance_me s ip'
    rwa [State.me, State.advance_cur] at this
  simp [hm, h.1, h.2]

/-- What retiring does after a change of the running context's registers and of memory. -/
theorem retired_of (s u : State) (ip' : Word) (f : Ctx → Ctx) (m : Memory) (hu : Steady u) (hcur : u.cur = s.cur)
    (hme : u.me.arch = (f s.me).arch) (hmem : u.mem = m) (hp : ∀ c, c4 c ≠ s.cur.2 → u.ctx s.cur.1 c = s.ctx s.cur.1 c)
    (hside : (u.core s.cur.1).side = (s.core s.cur.1).side) (hcores : ∀ n, n ≠ s.cur.1 → u.core n = s.core n)
    (heps : u.eps = s.eps) (hhomes : u.homes = s.homes) (htime : u.time = s.time) :
    Retired s (u.retireTo ip') ip' (f s.me) m := by
  rw [State.retireTo_eq u ip' hu]
  refine ⟨by simp, by simpa using hme, by simpa using hmem, ?_, ?_, ?_, by simpa using heps, by simpa using hhomes, by simpa using hcur,
    by simpa using htime⟩
  · intro c hc
    have := State.advance_peer u ip' (c := c) (by rw [hcur]; exact hc)
    rw [hcur] at this
    rw [this, hp c hc]
  · have := State.advance_side u ip'
    rw [hcur] at this
    rw [this, hside]
  · intro n hn
    rw [State.advance_core_ne u ip' (by rw [hcur]; exact hn), hcores n hn]

/-- Retiring after a change of the running context alone. -/
theorem retired_onMe (s : State) (ip' : Word) (f : Ctx → Ctx) (h : (f s.me).step1 = false ∧ (f s.me).migok = false) :
    Retired s ((s.onMe f).retireTo ip') ip' (f s.me) s.mem := by
  refine retired_of s (s.onMe f) ip' f s.mem ?_ rfl (by simp) rfl (fun c hc => State.peer_onMe s f hc) ?_ (fun n hn => State.core_onMe_ne s f hn)
    rfl rfl rfl
  · simpa [Steady] using h
  · simp [State.onMe, State.onCtx]

/-- Retiring with nothing changed. -/
theorem retired_self (s : State) (ip' : Word) (h : Steady s) : Retired s (s.retireTo ip') ip' s.me s.mem :=
  retired_of s s ip' id s.mem h rfl rfl rfl (fun _ _ => rfl) rfl (fun _ _ => rfl) rfl rfl rfl

/-- An instruction that only writes a general register completes. -/
theorem retired_setG (s : State) (ip' : Word) (d : GReg) (v : Word) (h : Steady s) :
    Retired s ((s.setG d v).retireTo ip') ip' (s.me.putG d v) s.mem :=
  retired_onMe s ip' (fun x => x.putG d v) (by simpa using h)

/-- The sequential IP is not changed by a write of the registers. -/
theorem retire_eq (s u : State) (h : u.me.latch = s.me.latch) (h' : u.me.ip = s.me.ip) :
    u.retire = u.retireTo (nextIp s.me.latch.nh s.me.ip) := by
  unfold State.retire; rw [h, h']

end Sys2Proof.Machine
end

