-- ==== Sys2Proof/Laws/Record.lean ====
section
/-!
SUPPORT. Laws of what is recorded: counts, event records, trap records, vectors and log entries change the partitions' rings and counters and
memory, and nothing else. `Recorded` says it once, and each recording operation is shown to obey it.
-/

namespace Sys2Proof.Machine

/-! ### Partitions -/

/-- What of a partition nothing recorded changes: all but its counters, rings, records, vectors and log. -/
def Part.plan (P : Part) : Part :=
  { P with counters := [], samples := RingReg.reset, events := RingReg.reset, trRing := TrRing.reset, recs := [], dropped := 0, fwlog := [], msix := [] }

/-- The partitions with their plans. -/
def plansOf (l : AMap Part) : List (Nat × Part) := l.map (fun e => (e.1, e.2.plan))

/-- `t` is `s` after something has been recorded. -/
structure Recorded (s t : State) : Prop where
  rest  : t = { s with mem := t.mem, parts := t.parts }
  inv   : s.mem.wf = true → t.mem.wf = true
  plans : plansOf t.parts = plansOf s.parts

theorem Recorded.refl (s : State) : Recorded s s := ⟨rfl, id, rfl⟩

theorem Recorded.trans {s t u : State} (h : Recorded s t) (g : Recorded t u) : Recorded s u :=
  ⟨by rw [g.rest, h.rest], g.inv ∘ h.inv, g.plans.trans h.plans⟩

/-- Replacing a listed partition by one with the same plan leaves the plans. -/
theorem plansOf_set {l : AMap Part} {p : Nat} {P Q : Part} (h : AMap.find l p = some P) (hq : Q.plan = P.plan) :
    plansOf (AMap.set l p Q) = plansOf l := by
  induction l with
  | nil => simp [AMap.find] at h
  | cons e t ih =>
    obtain ⟨k, v⟩ := e
    simp only [AMap.find] at h
    simp only [AMap.set]
    split
    · next hk =>
      rw [if_pos hk] at h
      injection h with h
      subst h; subst hk
      simp [plansOf, hq]
    · next hk =>
      rw [if_neg hk] at h
      simp only [h, Option.isNone_some, Bool.and_false, Bool.false_eq_true, if_false]
      have := ih h
      simp only [plansOf, List.map_cons] at this ⊢
      rw [this]

theorem find_plansOf {l m : AMap Part} (h : plansOf l = plansOf m) (p : Nat) :
    (AMap.find l p).map Part.plan = (AMap.find m p).map Part.plan := by
  induction l generalizing m with
  | nil => cases m with
    | nil => rfl
    | cons e t => simp [plansOf] at h
  | cons e t ih =>
    cases m with
    | nil => simp [plansOf] at h
    | cons e' t' =>
      simp only [plansOf, List.map_cons, List.cons.injEq, Prod.mk.injEq] at h
      obtain ⟨⟨hk, hv⟩, ht⟩ := h
      obtain ⟨k, v⟩ := e
      obtain ⟨k', v'⟩ := e'
      simp only at hk hv
      subst hk
      simp only [AMap.find]
      split
      · simp [hv]
      · exact ih ht

theorem partKey_plansOf {l m : AMap Part} (h : plansOf l = plansOf m) (d : Nat) : partKey l d = partKey m d := by
  unfold partKey
  induction l generalizing m with
  | nil => cases m with
    | nil => rfl
    | cons e t => simp [plansOf] at h
  | cons e t ih =>
    cases m with
    | nil => simp [plansOf] at h
    | cons e' t' =>
      simp only [plansOf, List.map_cons, List.cons.injEq, Prod.mk.injEq] at h
      obtain ⟨⟨hk, hv⟩, ht⟩ := h
      have hd : e.2.dies = e'.2.dies := (by rw [hv] : e.2.plan.dies = e'.2.plan.dies)
      rw [List.find?_cons, List.find?_cons, hk, hd]
      cases decide (e'.1 ≤ d) && decide (d < e'.1 + e'.2.dies) with
      | true => exact hk
      | false => exact ih ht

/-! ### What a recording leaves -/

theorem Recorded.find {s t : State} (h : Recorded s t) {p : Nat} {P : Part} (hp : AMap.find s.parts p = some P) :
    ∃ Q, AMap.find t.parts p = some Q ∧ Q.plan = P.plan := by
  have := find_plansOf h.plans p
  rw [hp] at this
  cases ht : AMap.find t.parts p with
  | none => simp [ht] at this
  | some Q => exact ⟨Q, rfl, by simpa [ht] using this⟩

theorem Recorded.partKey {s t : State} (h : Recorded s t) (d : Nat) : t.partKey d = s.partKey d := partKey_plansOf h.plans d

theorem Recorded.pOf {s t : State} (h : Recorded s t) (n : Nat) : t.pOf n = s.pOf n := h.partKey _

theorem get_eq_find {α : Type} (d : α) (m : AMap α) (k : Nat) : AMap.get d m k = (AMap.find m k).getD d := by
  induction m with
  | nil => rfl
  | cons e t ih =>
    obtain ⟨k', v⟩ := e
    simp only [AMap.get, AMap.find]
    split
    · rfl
    · exact ih

theorem Recorded.part_plan {s t : State} (h : Recorded s t) (p : Nat) : (t.part p).plan = (s.part p).plan := by
  have := find_plansOf h.plans p
  simp only [State.part, get_eq_find]
  cases hs : AMap.find s.parts p <;> cases ht : AMap.find t.parts p <;> simp_all

theorem Recorded.core {s t : State} (h : Recorded s t) (n : Nat) : t.core n = s.core n := by rw [h.rest]; rfl
theorem Recorded.ctx {s t : State} (h : Recorded s t) (n c : Nat) : t.ctx n c = s.ctx n c := by rw [h.rest]; rfl
theorem Recorded.cores {s t : State} (h : Recorded s t) : t.cores = s.cores := by rw [h.rest]
theorem Recorded.eps {s t : State} (h : Recorded s t) : t.eps = s.eps := by rw [h.rest]
theorem Recorded.pkg {s t : State} (h : Recorded s t) : t.pkg = s.pkg := by rw [h.rest]
theorem Recorded.time {s t : State} (h : Recorded s t) : t.time = s.time := by rw [h.rest]
theorem Recorded.cur {s t : State} (h : Recorded s t) : t.cur = s.cur := by rw [h.rest]
theorem Recorded.wins {s t : State} (h : Recorded s t) : t.wins = s.wins := by rw [h.rest]
theorem Recorded.links {s t : State} (h : Recorded s t) : t.links = s.links := by rw [h.rest]
theorem Recorded.fus {s t : State} (h : Recorded s t) : t.fus = s.fus := by rw [h.rest]
theorem Recorded.strs {s t : State} (h : Recorded s t) : t.strs = s.strs := by rw [h.rest]
theorem Recorded.fws {s t : State} (h : Recorded s t) : t.fws = s.fws := by rw [h.rest]

theorem Recorded.det {s t : State} (h : Recorded s t) (p : Nat) : (t.part p).det = (s.part p).det := (by rw [h.part_plan p] : (t.part p).plan.det = (s.part p).plan.det)
theorem Recorded.dies {s t : State} (h : Recorded s t) (p : Nat) : (t.part p).dies = (s.part p).dies := (by rw [h.part_plan p] : (t.part p).plan.dies = (s.part p).plan.dies)

theorem Recorded.detAt {s t : State} (h : Recorded s t) (n : Nat) : t.detAt n = s.detAt n := by
  simp only [State.detAt, h.pOf, h.det]

theorem Recorded.lnum {s t : State} (h : Recorded s t) (n : Nat) : t.lnum n = s.lnum n := by
  simp only [State.lnum, h.pOf, h.detAt]

theorem Recorded.timeAt {s t : State} (h : Recorded s t) (n : Nat) : t.timeAt n = s.timeAt n := by
  have hq : (t.part (s.pOf n)).quanta = (s.part (s.pOf n)).quanta := (by rw [h.part_plan] : (t.part (s.pOf n)).plan.quanta = (s.part (s.pOf n)).plan.quanta)
  simp only [State.timeAt, h.pOf, h.det, h.core, h.time, hq]

/-! ### The operations that record -/

/-- A change of a partition that keeps its plan, with memory in its form, is a recording. -/
theorem Recorded.onPart (s : State) (p : Nat) (f : Part → Part) (hf : ∀ P, (f P).plan = P.plan) : Recorded s (s.onPart p f) := by
  unfold State.onPart
  cases h : AMap.find s.parts p with
  | none => exact Recorded.refl s
  | some P => exact ⟨rfl, id, plansOf_set h (hf P)⟩

theorem Recorded.onMem (s : State) (f : Memory → Memory) (hf : s.mem.wf = true → (f s.mem).wf = true) : Recorded s (s.onMem f) :=
  ⟨rfl, hf, rfl⟩

theorem Recorded.count (s : State) (die ev n : Nat) : Recorded s (s.count die ev n) := by
  unfold State.count
  cases h : AMap.find s.parts (s.partKey die) with
  | none => exact Recorded.refl s
  | some P =>
    show Recorded s (if P.pre = PreSt.saved then s else _)
    split
    · exact Recorded.refl s
    · exact ⟨rfl, id, plansOf_set h rfl⟩

theorem Recorded.ringCount (s : State) (a : Nat) : Recorded s (s.ringCount a) := by
  unfold State.ringCount
  split
  · exact Recorded.count _ _ _ _
  · exact Recorded.refl s

/-- A record put in a ring, wherever the ring stands, is a recording. -/
theorem Recorded.putRing (s : State) (p : Nat) (r : RingReg) (size : Nat) (ws : List Word) : Recorded s (s.putRing p r size ws).2.1 := by
  simp only [State.putRing]
  split
  · exact (⟨rfl, RingReg.wf_put r size ws, rfl⟩ : Recorded s { s with mem := (r.put s.mem size ws).2.1 }).trans (Recorded.ringCount _ _)
  · exact Recorded.refl s

theorem Recorded.putEvent (s : State) (p time src ev unit data : Nat) : Recorded s (s.putEvent p time src ev unit data) := by
  have fin : ∀ (u : State) (r : RingReg) (c : Bool) (d : Nat), Recorded s u →
      Recorded s (if c = true then u.onPart p (fun P => { P with events := r })
        else (u.onPart p (fun P => { P with events := r })).count d 0x16 1) := fun u r c d h => by
    have h' := h.trans (Recorded.onPart u p (fun P => { P with events := r }) (fun _ => rfl))
    split
    · exact h'
    · exact h'.trans (Recorded.count _ _ _ _)
  simp only [State.putEvent]
  split
  · exact fin _ _ _ _ ((Recorded.putRing s _ _ _ _).trans (Recorded.putRing _ _ _ _ _))
  · exact fin _ _ _ _ (Recorded.putRing s _ _ _ _)

theorem Recorded.event (s : State) (p time src ev unit data : Nat) : Recorded s (s.event p time src ev unit data) := by
  unfold State.event
  simp only
  split
  · exact Recorded.putEvent _ _ _ _ _ _ _
  · exact Recorded.refl s

theorem Recorded.coreEvent (s : State) (n ev data : Nat) : Recorded s (s.coreEvent n ev data) := Recorded.event _ _ _ _ _ _ _

theorem Recorded.msi (s : State) (p k : Nat) : Recorded s (s.msi p k) := Recorded.onPart _ _ _ (fun _ => rfl)

theorem Recorded.trFlush (s : State) (p n : Nat) : Recorded s (s.trFlush p n) := by
  induction n generalizing s with
  | zero => exact Recorded.refl s
  | succ n ih =>
    simp only [State.trFlush]
    split
    · exact Recorded.refl s
    · split
      · exact Recorded.refl s
      · refine Recorded.trans ?_ (ih _)
        split
        · refine Recorded.trans (Recorded.trans ?_ (Recorded.onPart _ _ _ ?_)) (Recorded.msi _ _ _)
          · exact Recorded.onMem s _ (fun h => Memory.wf_setBytes _ _ h)
          · exact fun _ => rfl
        · refine Recorded.trans ?_ (Recorded.onPart _ _ _ ?_)
          · exact Recorded.onMem s _ (fun h => Memory.wf_setBytes _ _ h)
          · exact fun _ => rfl

theorem Recorded.pushRec (s : State) (p : Nat) (r : TrapRec) : Recorded s (s.pushRec p r) := by
  unfold State.pushRec
  simp only
  split
  · refine Recorded.trans (Recorded.onPart _ _ _ ?_) (Recorded.count _ _ _ _)
    exact fun _ => rfl
  · refine Recorded.trans (Recorded.onPart _ _ _ ?_) (Recorded.trFlush _ _ _)
    exact fun _ => rfl

theorem Recorded.recordE (s : State) (p die : Nat) (c : Cause) (tval : Word) (telem : Nat) : Recorded s (s.recordE p die c tval telem) :=
  Recorded.pushRec _ _ _

theorem Recorded.recordX (s : State) (p xd : Nat) (c : Cause) (tval : Word) (telem : Nat) : Recorded s (s.recordX p xd c tval telem) :=
  Recorded.pushRec _ _ _

theorem Recorded.log (s : State) (p : Nat) (w : List Word) : Recorded s (s.log p w) :=
  Recorded.trans (Recorded.onPart _ _ (fun P => { P with fwlog := P.fwlog ++ [w] }) (fun _ => rfl)) (Recorded.msi _ _ _)

/-- Recordings in a row. -/
theorem Recorded.foldl {α : Type} (f : State → α → State) (l : List α) (s : State) (hf : ∀ s a, Recorded s (f s a)) : Recorded s (l.foldl f s) := by
  induction l generalizing s with
  | nil => exact Recorded.refl s
  | cons a t ih => exact (hf s a).trans (ih _)

end Sys2Proof.Machine
end

