-- ==== Sys2Proof/Tests/Slice0.lean ====
section
/-!
SUPPORT. The model's own tests: words written out from the encodings of R94 to R404, terms that WellFormed refuses, single
steps whose expected results are those of the spec's examples and tables, and for each statement with hypotheses a state
that meets them.
-/

namespace Sys2Proof.Tests
set_option Elab.async false
open Sys2Proof Sys2Proof.Machine

/-! ### Decoding and well-formedness -/

/-- Every word of a list decodes to the instruction beside it. -/
def decodes (l : List (Head × Word × Instr)) : Bool :=
  l.all fun e => match decode e.1 e.2.1 with
    | .ok i => decide (i = e.2.2)
    | .error _ => false

/-- Every word of a list is refused. -/
def refused (l : List (Head × Word)) : Bool :=
  l.all fun e => match decode e.1 e.2 with
    | .ok _ => false
    | .error _ => true

/-- Every term of a list is ill-formed. -/
def refusesAll (l : List Instr) : Bool := l.all fun i => !i.wf

theorem test_decode_control :
    decodes [
      (0x0000, 0x0, .nop),
      (0x0001, 0x0, .done),
      (0x0002, 0x0, .ret),
      (0x0003, 0x0, .bkpt)] = true := by decide +kernel

theorem test_decode_integer_register_1 :
    decodes [
      (0x050F, 0xF7C0, .add 1 ⟨true, 3⟩ 30 31),
      (0x0512, 0xEF81, .sub 2 ⟨false, 2⟩ 29 30),
      (0x051C, 0xE742, .mul 3 ⟨true, 0⟩ 28 29),
      (0x0521, 0xDF03, .mulh 4 ⟨false, 1⟩ 27 28),
      (0x052F, 0xD6C4, .div 5 ⟨true, 3⟩ 26 27),
      (0x0532, 0xCE85, .rem 6 ⟨false, 2⟩ 25 26),
      (0x053C, 0xC646, .and 7 ⟨true, 0⟩ 24 25),
      (0x0541, 0xBE07, .or 8 ⟨false, 1⟩ 23 24),
      (0x054F, 0xB5C8, .xor 9 ⟨true, 3⟩ 22 23),
      (0x0552, 0xAD89, .andn 10 ⟨false, 2⟩ 21 22),
      (0x055C, 0xA54A, .shl 11 ⟨true, 0⟩ 20 21),
      (0x0561, 0x9D0B, .shr 12 ⟨false, 1⟩ 19 20),
      (0x056F, 0x94CC, .sha 13 ⟨true, 3⟩ 18 19),
      (0x0572, 0x8C8D, .rot 14 ⟨false, 2⟩ 17 18)] = true := by decide +kernel

theorem test_decode_integer_register_2 :
    decodes [
      (0x057C, 0x844E, .min 15 ⟨true, 0⟩ 16 17),
      (0x0581, 0x7C0F, .max 16 ⟨false, 1⟩ 15 16),
      (0x058F, 0x73D0, .cmpeq 17 ⟨true, 3⟩ 14 15),
      (0x0592, 0x6B91, .cmpne 18 ⟨false, 2⟩ 13 14),
      (0x059C, 0x6352, .cmplt 19 ⟨true, 0⟩ 12 13),
      (0x05A1, 0x5B13, .cmple 20 ⟨false, 1⟩ 11 12),
      (0x05A7, 0x14, .clz 20 ⟨true, 3⟩ 0),
      (0x05AA, 0x815, .ctz 21 ⟨false, 2⟩ 1),
      (0x05B4, 0x1016, .popc 22 ⟨true, 0⟩ 2),
      (0x05B9, 0x1817, .brev 23 ⟨false, 1⟩ 3)] = true := by decide +kernel

theorem test_decode_integer_immediate_1 :
    decodes [
      (0x0A0F, 0xF0008000, .addI16 1 ⟨true, 3⟩ 30 0x8000),
      (0x0A12, 0xE8018001, .subI16 2 ⟨false, 2⟩ 29 0x8001),
      (0x0A1C, 0xE0028002, .mulI16 3 ⟨true, 0⟩ 28 0x8002),
      (0x0A21, 0xD8038003, .mulhI16 4 ⟨false, 1⟩ 27 0x8003),
      (0x0A2F, 0xD0048004, .divI16 5 ⟨true, 3⟩ 26 0x8004),
      (0x0A32, 0xC8058005, .remI16 6 ⟨false, 2⟩ 25 0x8005),
      (0x0A3C, 0xC0068006, .andI16 7 ⟨true, 0⟩ 24 0x8006),
      (0x0A41, 0xB8078007, .orI16 8 ⟨false, 1⟩ 23 0x8007),
      (0x0A4F, 0xB0088008, .xorI16 9 ⟨true, 3⟩ 22 0x8008),
      (0x0A52, 0xA8098009, .andnI16 10 ⟨false, 2⟩ 21 0x8009),
      (0x0A5C, 0xA00A800A, .shlI16 11 ⟨true, 0⟩ 20 0x800a),
      (0x0A61, 0x980B800B, .shrI16 12 ⟨false, 1⟩ 19 0x800b),
      (0x0A6F, 0x900C800C, .shaI16 13 ⟨true, 3⟩ 18 0x800c),
      (0x0A72, 0x880D800D, .rotI16 14 ⟨false, 2⟩ 17 0x800d)] = true := by decide +kernel

theorem test_decode_integer_immediate_2 :
    decodes [
      (0x0A7C, 0x800E800E, .minI16 15 ⟨true, 0⟩ 16 0x800e),
      (0x0A81, 0x780F800F, .maxI16 16 ⟨false, 1⟩ 15 0x800f),
      (0x0A8F, 0x70108010, .cmpeqI16 17 ⟨true, 3⟩ 14 0x8010),
      (0x0A92, 0x68118011, .cmpneI16 18 ⟨false, 2⟩ 13 0x8011),
      (0x0A9C, 0x60128012, .cmpltI16 19 ⟨true, 0⟩ 12 0x8012),
      (0x0AA1, 0x58138013, .cmpleI16 20 ⟨false, 1⟩ 11 0x8013)] = true := by decide +kernel

theorem test_decode_integer_wide :
    decodes [
      (0x0F4F, 0x8800800000000001, .addI48 9 ⟨true, 3⟩ 17 0x800000000001),
      (0x0F52, 0x9001800000000002, .andI48 10 ⟨false, 2⟩ 18 0x800000000002),
      (0x0F5C, 0x9802800000000003, .orI48 11 ⟨true, 0⟩ 19 0x800000000003),
      (0x0F61, 0xA003800000000004, .xorI48 12 ⟨false, 1⟩ 20 0x800000000004),
      (0x1148, 0xFFFE, .movi16 9 0xFFFE),
      (0x1250, 0x80000001, .movi32 10 0x80000001),
      (0x13F8, 0x8000000000000001, .movi64 31 0x8000000000000001),
      (0x1648, 0x80000C8, .ext 9 1 8 3),
      (0x1648, 0x80107E0, .ins 9 1 32 31),
      (0x1648, 0xF820000, .sel 9 1 30)] = true := by decide +kernel

theorem test_decode_pointers :
    decodes [
      (0x1948, 0x8C80, .padd 9 17 18),
      (0x1A48, 0x48000040, .paddI16 9 9 64),
      (0x1948, 0x8C81, .psub 9 17 18),
      (0x1978, 0x8802, .viewset 15 17),
      (0x1948, 0x8803, .viewof 9 17),
      (0x1948, 0x8804, .isspc 9 17),
      (0x19EC, 0xE805, .castspc 29 true .priv 29),
      (0x19EB, 0xE805, .castspc 29 false .inbox 29),
      (0x1948, 0x806, .hown 9 1)] = true := by decide +kernel

theorem test_decode_branches :
    decodes [
      (0x1E00, 0x7FFFFE3, .br 0x7ffffe3),
      (0x1E01, 0x8FFFFFE3, .bz 17 0x7ffffe3),
      (0x1E02, 0x97FFFFE3, .bnz 18 0x7ffffe3),
      (0x1E03, 0x9FFFFFE3, .bltz 19 0x7ffffe3),
      (0x1E04, 0xA7FFFFE3, .bgez 20 0x7ffffe3),
      (0x1E06, 0xB7FFFFE3, .loop 22 0x7ffffe3),
      (0x1EF5, 0x41, .call 30 0x41),
      (0x2100, 0x4800, .jmp 9),
      (0x21F0, 0x4801, .callr 30 9)] = true := by decide +kernel

theorem test_decode_memory_1 :
    decodes [
      (0x260B, 0x4000FFF8, .ld 1 ⟨false, 3⟩ 8 0xFFF8),
      (0x270E, 0x4000800000000000, .ldW 1 ⟨true, 2⟩ 8 0x800000000000),
      (0x2613, 0x4001FFF8, .ldAcq 2 ⟨false, 3⟩ 8 0xFFF8),
      (0x2716, 0x4001800000000000, .ldAcqW 2 ⟨true, 2⟩ 8 0x800000000000),
      (0x261B, 0x40020010, .ldSync 3 false 8 16),
      (0x271F, 0x4002000000000010, .ldSyncW 3 true 8 16),
      (0x2623, 0x40030010, .ldSynce 4 false 8 16),
      (0x2727, 0x4003000000000010, .ldSynceW 4 true 8 16),
      (0x2A03, 0x19010008, .st ⟨false, 3⟩ 3 4 1 8),
      (0x2B00, 0x1907000000000008, .stW ⟨false, 0⟩ 3 4 7 8),
      (0x2A03, 0x19090008, .stRel ⟨false, 3⟩ 3 4 1 8),
      (0x2B00, 0x190F000000000008, .stRelW ⟨false, 0⟩ 3 4 7 8),
      (0x2A03, 0x29900000, .stFe false 5 6 0 0),
      (0x2B07, 0x2995000000000001, .stFeW true 5 6 5 1)] = true := by decide +kernel

theorem test_decode_memory_2 :
    decodes [
      (0x2E4B, 0x20030002, .ldx 9 ⟨false, 3⟩ 3 4 2),
      (0x2E01, 0x216FFFFF, .stx ⟨false, 1⟩ 15 4 5 0xFFFF),
      (0x32A2, 0x52C00000, .aadd 20 ⟨false, 2⟩ 10 11 .none 0 .ctx),
      (0x32AF, 0x5B090009, .aand 21 ⟨true, 3⟩ 11 12 .acq 1 .core),
      (0x32B2, 0x63520012, .aor 22 ⟨false, 2⟩ 12 13 .rel 2 .clus),
      (0x32BF, 0x6B9B001B, .axor 23 ⟨true, 3⟩ 13 14 .ar 3 .die),
      (0x32C2, 0x73C40024, .amin 24 ⟨false, 2⟩ 14 15 .none 4 .pkg),
      (0x32CF, 0x7C0D002D, .amax 25 ⟨true, 3⟩ 15 16 .acq 5 .sys),
      (0x32D2, 0x84560030, .aswap 26 ⟨false, 2⟩ 16 17 .rel 6 .ctx),
      (0x32DF, 0x8C9F0039, .acas 27 ⟨true, 3⟩ 17 18 .ar 7 .core),
      (0x3600, 0x401, .fence 1 .pkg),
      (0x3600, 0x5FF, .fence 0xFF .sys)] = true := by decide +kernel

theorem test_decode_system :
    decodes [
      (0x3A48, 0x61, .csrrd 9 .time),
      (0x3A01, 0x48000021, .csrwr .colour 9),
      (0x3A42, 0x48000053, .csrswp 8 .qlim3 9),
      (0x3A43, 0x48000010, .csrset 8 .vstart 9),
      (0x3A04, 0x48000011, .csrclr 0 .fcsr 9),
      (0x3D00, 0x4800, .trap 9),
      (0x3E00, 0x55, .trapI16 0x55),
      (0x3D48, 0x1, .time 9),
      (0x3D48, 0x4002, .featq 9 8),
      (0x3D01, 0x3, .migok true)] = true := by decide +kernel

theorem test_decode_messages_1 :
    decodes [
      (0x42D8, 0x4A80038F, .send 27 .q0 9 10 56 (some 7)),
      (0x42D1, 0x5281037E, .senda 26 .q1 10 10 55 (some 6)),
      (0x42CA, 0x5A82036D, .sendp 25 .q2 11 10 54 (some 5)),
      (0x42C3, 0x6283035C, .sendl 24 .q3 12 10 53 (some 4)),
      (0x420C, 0x40000, .reply 1 .qg 0 0 none),
      (0x4548, 0x0, .msgid 9),
      (0x4548, 0x4001, .msgpay 9 8),
      (0x4500, 0x2, .requeue),
      (0x4A78, 0x48000003, .chbind 15 9 3),
      (0x4948, 0x7801, .chwaitf 9 15),
      (0x4948, 0x7002, .chwaite 9 14),
      (0x4A00, 0x6803FFFF, .chadvh 13 0xFFFF),
      (0x4A00, 0x60040001, .chadvt 12 1),
      (0x4948, 0x5805, .chstat 9 11)] = true := by decide +kernel

theorem test_decode_messages_2 :
    decodes [
      (0x4A48, 0x5206FFFF, .chptr 9 10 8 0xFFFF),
      (0x4D48, 0x4000, .tlook 9 8),
      (0x4D48, 0x41C1, .tset 9 8 7),
      (0x4D48, 0x4002, .tclr 9 8),
      (0x4D48, 0x41C3, .tinv 9 8 7)] = true := by decide +kernel

theorem test_decode_vector_arithmetic_1 :
    decodes [
      (0x8278, 0x380B000, .vadd 15 0 0 14 .f64 .rne false),
      (0x8278, 0x3801100, .vadd 15 0 0 14 .s16 .rne true),
      (0x8271, 0xB81B200, .vsub 14 1 1 14 .f64 .rtz false),
      (0x8271, 0xB811100, .vsub 14 1 1 14 .s16 .rne true),
      (0x826A, 0x1382B600, .vmul 13 2 2 14 .f64 .rup false),
      (0x826A, 0x13821100, .vmul 13 2 2 14 .s16 .rne true),
      (0x8263, 0x1B83BE00, .vdiv 12 3 3 14 .f64 .dyn false),
      (0x8263, 0x1B831100, .vdiv 12 3 3 14 .s16 .rne true),
      (0x820F, 0x10C48000, .vmin 1 7 2 3 .f16),
      (0x820F, 0x10C58000, .vmax 1 7 2 3 .f16),
      (0x820F, 0x10060100, .vabs 1 7 2 .s8 true),
      (0x820F, 0x10070100, .vneg 1 7 2 .s8 true),
      (0x820F, 0x10089400, .vsqrt 1 7 2 .w16 .rdn),
      (0x8249, 0x10C97000, .vand 9 1 2 3 .n64)] = true := by decide +kernel

theorem test_decode_vector_arithmetic_2 :
    decodes [
      (0x8251, 0x10CA7000, .vor 10 1 2 3 .n64),
      (0x8259, 0x10CB7000, .vxor 11 1 2 3 .n64),
      (0x8261, 0x10CC7000, .vshl 12 1 2 3 .n64),
      (0x8269, 0x10CD7000, .vshr 13 1 2 3 .n64),
      (0x8271, 0x10CE7000, .vsha 14 1 2 3 .n64),
      (0x8622, 0x2980A800, .vfma 4 2 5 6 .f32 .rna),
      (0x8622, 0x2981A800, .vfms 4 2 5 6 .f32 .rna),
      (0x8622, 0x2982A800, .vfnma 4 2 5 6 .f32 .rna),
      (0x8A38, 0x800A0C0, .vcvt 7 0 1 .f32 .f8a .rne false)] = true := by decide +kernel

theorem test_decode_vector_moves_1 :
    decodes [
      (0x8E19, 0x1100A000, .vcmpEq 3 1 2 4 .f32),
      (0x8E19, 0x1101A000, .vcmpNe 3 1 2 4 .f32),
      (0x8E19, 0x1102A000, .vcmpLt 3 1 2 4 .f32),
      (0x8E19, 0x1103A000, .vcmpLe 3 1 2 4 .f32),
      (0x8E19, 0x1104A000, .vcmpUnord 3 1 2 4 .f32),
      (0x9249, 0x10C0D000, .vsel 9 1 2 3 .f8b),
      (0x9249, 0x10010000, .vmov 9 1 2 .s8),
      (0x9249, 0xF8025000, .vbcast 9 1 31 .n16),
      (0x92F0, 0x17C32000, .vext 30 2 31 .s32),
      (0x9249, 0xF8046000, .viota 9 1 31 .n32),
      (0x96F1, 0x1000B200, .vredSum 30 1 2 .f64 .rtz false),
      (0x96F1, 0x1000B201, .vredMin 30 1 2 .f64 .rtz false),
      (0x96F1, 0x1000B202, .vredMax 30 1 2 .f64 .rtz false),
      (0x96F1, 0x10C12100, .vdot 30 1 2 3 .s32 .rne true)] = true := by decide +kernel

theorem test_decode_vector_moves_2 :
    decodes [
      (0x9A49, 0x10C04000, .vshuf 9 1 2 3 .n8),
      (0x9A49, 0x17C1A000, .vrot 9 1 2 31 .f32),
      (0x9A49, 0x10C21100, .vpack 9 1 2 3 .s16 true),
      (0x9A49, 0x17C33000, .vunpack 9 1 2 31 .s64)] = true := by decide +kernel

theorem test_decode_vector_memory_1 :
    decodes [
      (0x9E49, 0xF8000100, .vld 9 1 31 .s8 .rne true),
      (0x9E49, 0xF801A600, .vst 9 1 31 .f32 .rup false),
      (0x9E49, 0xFF82BE00, .vlds 9 1 31 30 .f64 .dyn false),
      (0x9E49, 0xFF836000, .vsts 9 1 31 30 .n32 .rne false),
      (0xA249, 0xFBC07000, .vgather 9 1 31 15 .n64 .rne false),
      (0xA249, 0xFBC1A200, .vscatter 9 1 31 15 .f32 .rtz false),
      (0xA508, 0x11C0, .kand 1 2 7),
      (0xA508, 0x11C1, .kor 1 2 7),
      (0xA508, 0x11C2, .kxor 1 2 7),
      (0xA508, 0x3803, .knot 1 7),
      (0xA5F8, 0x3804, .kpop 31 7),
      (0xA538, 0xF805, .kset 7 31),
      (0xA5F8, 0x3806, .kget 31 7),
      (0xAAF9, 0x1000A01E, .vscale 31 1 2 .f32 .o4 1)] = true := by decide +kernel

theorem test_decode_vector_memory_2 :
    decodes [
      (0xAA49, 0x17C1920C, .vquant 9 1 2 31 .w16 .rtz .f8a)] = true := by decide +kernel

theorem test_decode_units_1 :
    decodes [
      (0xC200, 0x48000003, .mput 3 9),
      (0xC250, 0x10004, .mget 10 4),
      (0xC258, 0x40020015, .mgang 11 8 0x15),
      (0xC100, 0x42C3, .mwait 8 11),
      (0xC160, 0x4004, .mstat 12 8),
      (0xC500, 0x4800, .cpreq 9),
      (0xC550, 0x4801, .cptest 10 9),
      (0xC550, 0x4802, .cpwait 10 9),
      (0xCA48, 0x1280FFFF, .lvbind 9 2 10 0xFFFF),
      (0xC948, 0x5001, .lvunbind 9 10),
      (0xC948, 0x5002, .lvread 9 10),
      (0xC948, 0x5005, .lvfreeze 9 10),
      (0xC948, 0x5006, .lvthaw 9 10),
      (0xC948, 0x5007, .lvstat 9 10)] = true := by decide +kernel

theorem test_decode_units_2 :
    decodes [
      (0xC900, 0x52C3, .lvcommit 10 11),
      (0xCA48, 0x12840000, .lvcmp 9 2 10 0),
      (0xCE00, 0xA5, .rfence 0xA5),
      (0xCD48, 0x4001, .wstat 9 8),
      (0xCD48, 0x4002, .wseq 9 8),
      (0xD148, 0x800, .rlcrun 9 1),
      (0xD148, 0x801, .rlcnorm 9 1),
      (0xD148, 0x802, .rlcstat 9 1),
      (0xD148, 0x803, .rlcstop 9 1)] = true := by decide +kernel

/-- R98, R101-R103: a reserved control selector, D of NOP not 0, an opcode that is not listed, LVCMP in T16, ADD's selector 20 with an immediate,
LD.SYNC of 4 bytes, and AUX of VADD not 0. -/
theorem test_refused_words : refused [(0x0004, 0), (0x0008, 0), (0x5000, 0), (0xC908, 4), (0x0A00, 0x00140000), (0x2602, 0x00020000),
    (0x8208, 0x10C0A001)] = true := by decide +kernel

theorem test_wf_refuses_bit_fields_and_loop : refusesAll [
      .ext 1 2 32 32,
      .ins 1 2 63 1,
      .loop 0 1] = true := by decide +kernel

theorem test_wf_refuses_narrow_atomics : refusesAll [
      .aadd 1 ⟨true, 1⟩ 2 3 .none 0 .pkg,
      .aand 1 ⟨true, 1⟩ 2 3 .none 0 .pkg,
      .aor 1 ⟨true, 1⟩ 2 3 .none 0 .pkg,
      .axor 1 ⟨true, 1⟩ 2 3 .none 0 .pkg,
      .amin 1 ⟨true, 1⟩ 2 3 .none 0 .pkg,
      .amax 1 ⟨true, 1⟩ 2 3 .none 0 .pkg,
      .aswap 1 ⟨true, 1⟩ 2 3 .none 0 .pkg,
      .acas 1 ⟨true, 1⟩ 2 3 .none 0 .pkg] = true := by decide +kernel

theorem test_wf_refuses_sends_and_channels : refusesAll [
      .send 28 .q0 1 2 3 none,
      .send 27 .q0 1 2 57 none,
      .send 27 .q0 1 2 0 none,
      .senda 28 .q0 1 2 3 none,
      .senda 27 .q0 1 2 57 none,
      .senda 27 .q0 1 2 0 none,
      .sendp 28 .q0 1 2 3 none,
      .sendp 27 .q0 1 2 57 none,
      .sendp 27 .q0 1 2 0 none,
      .sendl 28 .q0 1 2 3 none,
      .sendl 27 .q0 1 2 57 none,
      .sendl 27 .q0 1 2 0 none,
      .reply 28 .q0 2 3 none,
      .reply 27 .q0 2 57 none,
      .reply 27 .q0 2 0 none,
      .chbind 1 2 0,
      .chadvh 1 0,
      .chadvt 1 0] = true := by decide +kernel

theorem test_wf_refuses_vector_arithmetic : refusesAll [
      .vadd 1 0 2 3 .f8a .rne false,
      .vadd 1 0 2 3 .s32 .rtz false,
      .vadd 1 0 2 3 .f32 .rne true,
      .vsub 1 0 2 3 .f8a .rne false,
      .vsub 1 0 2 3 .s32 .rtz false,
      .vsub 1 0 2 3 .f32 .rne true,
      .vmul 1 0 2 3 .f8a .rne false,
      .vmul 1 0 2 3 .s32 .rtz false,
      .vmul 1 0 2 3 .f32 .rne true,
      .vdiv 1 0 2 3 .f8a .rne false,
      .vdiv 1 0 2 3 .s32 .rtz false,
      .vdiv 1 0 2 3 .f32 .rne true,
      .vmin 1 0 2 3 .f8b,
      .vmax 1 0 2 3 .o4,
      .vabs 1 0 2 .f8a false,
      .vabs 1 0 2 .f32 true,
      .vneg 1 0 2 .o4 false,
      .vneg 1 0 2 .f64 true,
      .vsqrt 1 0 2 .s32 .rne,
      .vand 1 0 2 3 .f32,
      .vor 1 0 2 3 .f32,
      .vxor 1 0 2 3 .f32,
      .vshl 1 0 2 3 .f32,
      .vshr 1 0 2 3 .f32,
      .vsha 1 0 2 3 .f32,
      .vfma 1 0 2 3 .n32 .rne,
      .vfms 1 0 2 3 .n32 .rne,
      .vfnma 1 0 2 3 .n32 .rne] = true := by decide +kernel

theorem test_wf_refuses_vector_moves : refusesAll [
      .vcvt 1 0 2 .o4 .f32 .rne false,
      .vcvt 1 0 2 .f32 .o4 .rne false,
      .vcvt 1 0 2 .f32 .s32 .rne true,
      .vcvt 1 0 2 .s32 .s16 .rtz false,
      .vcmpEq 1 0 2 3 .f16,
      .vcmpEq 1 0 2 3 .f8a,
      .vcmpNe 1 0 2 3 .f16,
      .vcmpNe 1 0 2 3 .f8a,
      .vcmpLt 1 0 2 3 .f16,
      .vcmpLt 1 0 2 3 .f8a,
      .vcmpLe 1 0 2 3 .f16,
      .vcmpLe 1 0 2 3 .f8a,
      .vcmpUnord 1 0 2 3 .s32,
      .vsel 1 0 2 3 .o4,
      .vmov 1 0 2 .o4,
      .vbcast 1 0 2 .o4,
      .vext 1 2 3 .o4,
      .viota 1 0 2 .f32,
      .vredSum 1 0 2 .f8a .rne false,
      .vredSum 1 0 2 .s32 .rup false,
      .vredSum 1 0 2 .f32 .rne true,
      .vredMin 1 0 2 .f8a .rne false,
      .vredMin 1 0 2 .s32 .rup false,
      .vredMin 1 0 2 .f32 .rne true,
      .vredMax 1 0 2 .f8a .rne false,
      .vredMax 1 0 2 .s32 .rup false,
      .vredMax 1 0 2 .f32 .rne true,
      .vdot 1 0 2 3 .o4 .rne false,
      .vdot 1 0 2 3 .n8 .dyn false,
      .vdot 1 0 2 3 .w16 .rne true,
      .vshuf 1 0 2 3 .o4,
      .vrot 1 0 2 3 .o4,
      .vpack 1 0 2 3 .s64 false,
      .vpack 1 0 2 3 .f32 false,
      .vunpack 1 0 2 3 .n8,
      .vunpack 1 0 2 3 .f32] = true := by decide +kernel

theorem test_wf_refuses_vector_memory : refusesAll [
      .vld 1 0 2 .o4 .rne false,
      .vld 1 0 2 .f32 .rne true,
      .vst 1 0 2 .o4 .rne false,
      .vst 1 0 2 .f32 .rne true,
      .vlds 1 0 2 3 .o4 .rne false,
      .vlds 1 0 2 3 .f32 .rne true,
      .vsts 1 0 2 3 .o4 .rne false,
      .vsts 1 0 2 3 .f32 .rne true,
      .vgather 1 0 2 3 .s16 .rne false,
      .vgather 1 0 2 3 .f32 .rne true,
      .vgather 1 0 2 3 .o4 .rne false,
      .vscatter 1 0 2 3 .s16 .rne false,
      .vscatter 1 0 2 3 .f32 .rne true,
      .vscatter 1 0 2 3 .o4 .rne false,
      .vscale 1 0 2 .s32 .o4 1,
      .vquant 1 0 2 3 .f8a .rne .s8] = true := by decide +kernel

theorem test_wf_refuses_events_of_absent_units_1 : refusesAll [
      .modeSelect 8 .power true,
      .leaseRenew 10,
      .leaseLapse 10 0,
      .voteRequest 10,
      .leaderDesignate 18,
      .queueResume 8 0,
      .queueResume 0 64,
      .packetChoose 8,
      .nopPacket 8,
      .launch 8,
      .endPacket 8,
      .inval 8,
      .disposeRelease 8,
      .disposeDiscard 8,
      .disposeEnd 8,
      .trapDisposition 8,
      .trheadWrite 8 0,
      .pageFaultService 8,
      .keyExchangeStart 16 true,
      .keyExchangeComplete 16 true 0,
      .hostKeyWrite 16 true true 0 0,
      .preemptRequest 8,
      .preemptComplete 8,
      .preemptwaitExpiry 8,
      .preemptResume 8,
      .deadlockDetect 8,
      .requestReassembled 8192,
      .slotFreedAdmit 4096,
      .activationStart 4096 0,
      .activationStart 0 4,
      .queueAging 4096,
      .budgetExpiry 4096 0,
      .budgetExpiry 0 4,
      .parkResume 4096 0,
      .parkResume 0 4,
      .migrationShip 4096 0,
      .migrationShip 0 4,
      .wayfarerArrive 4096 0,
      .wayfarerArrive 0 4,
      .logicalQuantumEnd 4096,
      .quantumEnd 8,
      .turnSwitch 4096,
      .debugHold 4096 0,
      .debugHold 0 4,
      .debugWrite 4096 0 .tip 0,
      .debugWrite 0 4 .tip 0,
      .debugRelease 4096 0,
      .debugRelease 0 4,
      .breakpointSet 4096 (.step 0 true),
      .breakpointMatch 4096 0,
      .breakpointMatch 0 4,
      .bkptRelease 4096 0,
      .bkptRelease 0 4,
      .flitRoute 256 true,
      .poisonSink 8,
      .throttle 256 true,
      .responseReceive 8192] = true := by decide +kernel

theorem test_wf_refuses_events_of_absent_units_2 : refusesAll [
      .nackReceive 8192,
      .stayNoticeReceive 8192,
      .retxTimeout 8192 0 0,
      .retxTimeout 0 8192 0,
      .retxTimeout 0 0 32,
      .busyBackoff 8192 0 0,
      .busyBackoff 0 8192 0,
      .busyBackoff 0 0 32,
      .remoteRead 18,
      .remoteWrite 18,
      .remoteAtomic 18,
      .synceConfirm 18,
      .synceReturn 18,
      .waitCancel 18,
      .lodgeService 18,
      .stayNoticeSend 18,
      .engineWrite 4096,
      .xferReceive 4096,
      .matrixFlip 256,
      .copyAccept 10,
      .copyComplete 10 0,
      .copyComplete 0 16,
      .copyFault 10 0,
      .copyFault 0 16,
      .transferBoardUpdate 4096,
      .blockDispatch 8,
      .levelNotice 8,
      .levelPublish 4096 0,
      .levelPublish 0 4,
      .windowPacketSend 2 0,
      .windowPacketSend 0 512,
      .storePacketReceive 2,
      .windowAckReceive 2,
      .windowMissReceive 2,
      .loopbackApply 2 0,
      .loopbackApply 0 512,
      .linkFlitReceive 16 ⟨0, false, 0, false, true, true, true, true, []⟩,
      .linkNak 16 0,
      .linkAck 16 0,
      .linkDown 16,
      .linkRetrained 16,
      .linkDownTimeout 16,
      .windowEntryWrite 2 0 0 0,
      .windowEntryWrite 0 512 0 0,
      .receiveWindowWrite 1024 0 0,
      .pathReopen 2 0,
      .sample 4096,
      .samplePeriodWrite 8 0,
      .ringHeadWrite 8 .sample 0,
      .dropWrite 8 .sample 0,
      .counterWrite 8 0 0,
      .counterWrite 0 64 0,
      .timeWrap 8,
      .tokenExhaust 8,
      .powerAllotWrite [16000],
      .thermalSample 1056 0,
      .decodingFault 4096 0,
      .decodingFault 0 4] = true := by decide +kernel

/-! ### Single steps of instructions -/

/-- A core whose context 0 runs an activation of task 0 at 0x400001, with some general registers. -/
def base (regs : List (GReg × Word)) : State :=
  (State.reset.withFetchWord 16 0).onMe (fun x => regs.foldl (fun x r => x.putG r.1 r.2) { x with latch := ⟨0, 0, 1, 0⟩ })

/-- An instruction answers a next state of which `p` holds. -/
def gives (i : Instr) (s : State) (p : State → Bool) : Bool :=
  match exec i s with
  | .next t => p t
  | .fault _ => false
  | .refused _ => false

/-- Each instruction of a list puts the value beside it into g9. -/
def putsAll (s : State) (l : List (Instr × Word)) : Bool := l.all fun e => gives e.1 s (fun t => t.g 9 == e.2)

/-- An instruction aborts its activation with a cause. -/
def traps (i : Instr) (s : State) (c : Cause) : Bool := gives i s (fun t => t.me.st == .free && t.me.trap.cause == c.word false)

/-- An instruction parks its context. -/
def parks (i : Instr) (s : State) : Bool := gives i s (fun t => t.me.st == .parked && t.me.ip == s.me.ip)

/-- A scratchpad pointer of core 0 (R128). -/
def pad (off : Nat) : Word := BitVec.ofNat 64 (0x0FFF100000000000 + off)

/-- A cluster pointer of cluster 0 (R128). -/
def clus (off : Nat) : Word := BitVec.ofNat 64 (0x0FFF200000000000 + off)

/-- The state with words of memory of core 0's scratchpad. -/
def withPad (l : List (Nat × Nat)) (s : State) : State :=
  s.onMem (fun m => l.foldl (fun m e => m.write (localKey 0 0 1 e.1) 8 e.2) m)

/-- R204's table, at 8 bits signed with a = 0x81 (-127) and b = 0x03, each by hand. -/
theorem test_integer_s8 : putsAll (base [(1, 0xFF81), (2, 0x103)]) [
    (.add 9 ⟨true, 0⟩ 1 2, 0xFFFFFFFFFFFFFF84), (.sub 9 ⟨true, 0⟩ 1 2, 0x7E), (.mul 9 ⟨true, 0⟩ 1 2, 0xFFFFFFFFFFFFFF83),
    (.mulh 9 ⟨true, 0⟩ 1 2, 0xFFFFFFFFFFFFFFFE), (.div 9 ⟨true, 0⟩ 1 2, 0xFFFFFFFFFFFFFFD6), (.rem 9 ⟨true, 0⟩ 1 2, 0xFFFFFFFFFFFFFFFF),
    (.and 9 ⟨true, 0⟩ 1 2, 1), (.or 9 ⟨true, 0⟩ 1 2, 0xFFFFFFFFFFFFFF83), (.xor 9 ⟨true, 0⟩ 1 2, 0xFFFFFFFFFFFFFF82),
    (.andn 9 ⟨true, 0⟩ 1 2, 0xFFFFFFFFFFFFFF80), (.shl 9 ⟨true, 0⟩ 1 2, 8), (.shr 9 ⟨true, 0⟩ 1 2, 0x10),
    (.sha 9 ⟨true, 0⟩ 1 2, 0xFFFFFFFFFFFFFFF0), (.rot 9 ⟨true, 0⟩ 1 2, 0xC), (.min 9 ⟨true, 0⟩ 1 2, 0xFFFFFFFFFFFFFF81),
    (.max 9 ⟨true, 0⟩ 1 2, 3), (.cmpeq 9 ⟨true, 0⟩ 1 2, 0), (.cmpne 9 ⟨true, 0⟩ 1 2, 1), (.cmplt 9 ⟨true, 0⟩ 1 2, 1), (.cmple 9 ⟨true, 0⟩ 1 2, 1),
    (.clz 9 ⟨true, 0⟩ 1, 0), (.ctz 9 ⟨true, 0⟩ 1, 0), (.popc 9 ⟨true, 0⟩ 1, 2), (.brev 9 ⟨true, 0⟩ 1, 0xFFFFFFFFFFFFFF81)] = true := by
  decide +kernel

/-- R204 and R203 with immediates, at 8 bits natural with a = 0x81 and the immediate -2 (0xFE). -/
theorem test_integer_n8_immediate : putsAll (base [(1, 0xFF81)]) [
    (.addI16 9 ⟨false, 0⟩ 1 0xFFFE, 0x7F), (.subI16 9 ⟨false, 0⟩ 1 0xFFFE, 0x83), (.mulI16 9 ⟨false, 0⟩ 1 0xFFFE, 0xFE),
    (.mulhI16 9 ⟨false, 0⟩ 1 0xFFFE, 0x7F), (.divI16 9 ⟨false, 0⟩ 1 0xFFFE, 0), (.remI16 9 ⟨false, 0⟩ 1 0xFFFE, 0x81),
    (.andI16 9 ⟨false, 0⟩ 1 0xFFFE, 0x80), (.orI16 9 ⟨false, 0⟩ 1 0xFFFE, 0xFF), (.xorI16 9 ⟨false, 0⟩ 1 0xFFFE, 0x7F),
    (.andnI16 9 ⟨false, 0⟩ 1 0xFFFE, 1), (.shlI16 9 ⟨false, 0⟩ 1 0xFFFE, 0x40), (.shrI16 9 ⟨false, 0⟩ 1 0xFFFE, 2),
    (.shaI16 9 ⟨false, 0⟩ 1 0xFFFE, 0xFE), (.rotI16 9 ⟨false, 0⟩ 1 0xFFFE, 0x60), (.minI16 9 ⟨false, 0⟩ 1 0xFFFE, 0x81),
    (.maxI16 9 ⟨false, 0⟩ 1 0xFFFE, 0xFE), (.cmpeqI16 9 ⟨false, 0⟩ 1 0xFFFE, 0), (.cmpneI16 9 ⟨false, 0⟩ 1 0xFFFE, 1),
    (.cmpltI16 9 ⟨false, 0⟩ 1 0xFFFE, 1), (.cmpleI16 9 ⟨false, 0⟩ 1 0xFFFE, 1), (.addI48 9 ⟨false, 3⟩ 1 0xFFFFFFFFFFFF, 0xFF80),
    (.andI48 9 ⟨false, 3⟩ 1 0xFFFFFFFFFF00, 0xFF00), (.orI48 9 ⟨false, 3⟩ 1 0x800000000000, 0xFFFF80000000FF81),
    (.xorI48 9 ⟨false, 3⟩ 1 0x810000000000, 0xFFFF81000000FF81)] = true := by decide +kernel

/-- R205, R204's note `SHL.N32 g9, g1, 33`, R206, and R207's example; SEL of the zero and the nonzero register. -/
theorem test_integer_edges : putsAll (base [(1, 0x5A3C), (2, 0x8000000000000000), (3, 0xFFFFFFFFFFFFFFFF), (9, 0xF0)]) [
    (.div 9 ⟨true, 3⟩ 2 3, 0x8000000000000000), (.rem 9 ⟨true, 3⟩ 2 3, 0), (.shlI16 9 ⟨false, 2⟩ 1 33, 0xB478), (.movi16 9 0xFFFE, 0xFFFFFFFFFFFFFFFE),
    (.movi32 9 0x80000000, 0xFFFFFFFF80000000), (.movi64 9 0x123456789ABCDEF0, 0x123456789ABCDEF0), (.ext 9 1 8 3, 0xA), (.ins 9 1 4 7, 0x3C0),
    (.sel 9 1 2, 0x5A3C), (.clz 9 ⟨false, 3⟩ 0, 64), (.ctz 9 ⟨false, 1⟩ 0, 16)] = true := by decide +kernel

theorem test_divide_by_zero_traps : traps (.div 9 ⟨false, 0⟩ 1 2) (base [(1, 5), (2, 0x100)]) .intDivzero = true := by decide +kernel
theorem test_remainder_by_zero_traps : traps (.remI16 9 ⟨true, 3⟩ 1 0) (base [(1, 5)]) .intDivzero = true := by decide +kernel
theorem test_g0_discards : gives (.movi16 0 5) (base []) (fun t => t.g 0 == 0) = true := by decide +kernel

/-- R209 to R213, with the pointers of R131's table: PADD keeps the view and wraps, PSUB is signed, ISSPC classifies. -/
theorem test_pointers : putsAll (base [(1, 0x5FFFFFFFFFFFFFFF), (2, 0x2000000000000001), (3, 0x0FFF1000_00012000), (4, 0x0FFF5000_00000000),
      (5, 0x0FFF2F00_00000000), (6, 0x123)]) [
    (.padd 9 1 2, 0x5000000000000000), (.paddI16 9 2 0xFFFF, 0x2000000000000000), (.psub 9 1 2, 0xFFFFFFFFFFFFFFFE), (.viewof 9 2, 0),
    (.isspc 9 2, 0), (.isspc 9 3, 2), (.isspc 9 4, 7), (.isspc 9 5, 7), (.castspc 9 false .scratch 3, 0x12000),
    (.castspc 9 false .priv 3, 0xFFFFFFFFFFFFFFFF), (.castspc 9 true .scratch 6, 0x0FFF1000_00000123), (.hown 9 6, 0)] = true := by decide +kernel

theorem test_viewset_sets : gives (.viewset 3 1) (base [(1, 0x1C)]) (fun t => t.me.view.get 3 == 0x1C) = true := by decide +kernel
theorem test_viewset_refuses_o4_beyond : traps (.viewset 3 1) (base [(1, 0xF)]) .illegalOp = true := by decide +kernel

/-- R214: displacement -1 line and head 3, and the wrap of LOOP at 0. -/
theorem test_branches : ([(Instr.br 0x7FFFFE3, 0x3FFFC3), (.bz 0 0x7FFFFE3, 0x3FFFC3), (.bnz 0 0x7FFFFE3, 0x400041), (.bltz 1 0x7FFFFE3, 0x3FFFC3),
    (.bgez 1 0x7FFFFE3, 0x400041), (.call 9 0x21, 0x400041), (.loop 2 0x7FFFFE3, 0x3FFFC3), (.loop 3 0x7FFFFE3, 0x400041), (.jmp 4, 0x1234),
    (.callr 9 4, 0x1234), (.ret, 0x77), (.nop, 0x400041)] : List (Instr × Word)).all (fun e =>
      gives e.1 (base [(1, 0xFFFFFFFFFFFFFFFF), (2, 0), (3, 1), (4, 0x1234), (30, 0x77)]) (fun t => t.me.ip == e.2)) = true := by decide +kernel

theorem test_call_links : gives (.callr 9 4) (base [(4, 0x1234)]) (fun t => t.g 9 == 0x400041) = true := by decide +kernel
theorem test_loop_counts : gives (.loop 2 0x21) (base []) (fun t => t.g 2 == 0xFFFFFFFFFFFFFFFF) = true := by decide +kernel

theorem test_done_frees : gives .done (base []) (fun t => t.me.st == .free && (t.core 0).slotsHeld == []) = true := by decide +kernel
theorem test_bkpt_parks : parks .bkpt (base []) = true := by decide +kernel

/-- R216: sign and zero extension, and the offset of 48 bits. -/
theorem test_loads : putsAll (withPad [(0x100, 0x1122334455667788), (0x108, 0x80)] (base [(1, pad 0x100)])) [
    (.ld 9 ⟨false, 3⟩ 1 0, 0x1122334455667788), (.ld 9 ⟨true, 0⟩ 1 0, 0xFFFFFFFFFFFFFF88), (.ldAcq 9 ⟨false, 1⟩ 1 2, 0x5566),
    (.ldW 9 ⟨true, 0⟩ 1 8, 0xFFFFFFFFFFFFFF80), (.ldAcqW 9 ⟨false, 2⟩ 1 0xFFFFFFFFFFFC, 0)] = true := by decide +kernel

theorem test_load_misaligned : traps (.ld 9 ⟨false, 3⟩ 1 4) (base [(1, pad 0)]) .misalign = true := by decide +kernel
/-- R131's example: the scratchpad offset 196,608 is SPACE-BOUNDS. -/
theorem test_load_out_of_space : traps (.ld 9 ⟨false, 3⟩ 1 0) (base [(1, pad 0x30000)]) .spaceBounds = true := by decide +kernel

/-- R218, R146: ST.FE fills, LD.SYNC reads, LD.SYNCE empties and then waits. -/
theorem test_full_empty : gives (.stFe false 1 2 0 0) (base [(1, pad 64), (2, 77)]) (fun t =>
    gives (.ldSync 9 false 1 0) t (fun u => u.g 9 == 77 && u.mem.isFull (localKey 0 0 1 64) && gives (.ldSynceW 9 false 1 0) u (fun v =>
      v.g 9 == 77 && !v.mem.isFull (localKey 0 0 1 64) && parks (.ldSynce 9 false 1 0) v && parks (.ldSyncW 9 false 1 0) v))) = true := by
  decide +kernel

/-- R218: the low bytes, little-endian, and no other byte. -/
theorem test_stores : ([.st ⟨false, 1⟩ 1 2 0 2, .stW ⟨true, 1⟩ 1 2 1 2, .stRel ⟨false, 1⟩ 1 2 2 2, .stRelW ⟨false, 1⟩ 1 2 3 2] : List Instr).all (fun i =>
    gives i (withPad [(64, 0x1122334455667788)] (base [(1, pad 64), (2, 0xAABBCCDD)])) (fun t =>
      t.mem.read (localKey 0 0 1 64) 8 == 0x11223344CCDD7788)) = true := by decide +kernel

theorem test_store_fe_wide : gives (.stFeW true 1 2 0 0) (base [(1, pad 64), (2, 77)]) (fun t => t.mem.isFull (localKey 0 0 1 64)) = true := by
  decide +kernel

/-- R221 at 32 bits: the old value to D and the new one to memory. -/
theorem test_atomics : ([(.aadd 9 ⟨true, 2⟩ 1 2 .none 0 .pkg, 0x7FFFFFFF), (.aand 9 ⟨true, 2⟩ 1 2 .acq 1 .ctx, 0x80000000),
    (.aor 9 ⟨true, 2⟩ 1 2 .rel 2 .core, 0xFFFFFFFF), (.axor 9 ⟨true, 2⟩ 1 2 .ar 3 .clus, 0x7FFFFFFF), (.amin 9 ⟨true, 2⟩ 1 2 .none 4 .die, 0x80000000),
    (.amax 9 ⟨false, 2⟩ 1 2 .none 5 .sys, 0xFFFFFFFF), (.aswap 9 ⟨true, 2⟩ 1 2 .none 0 .pkg, 0xFFFFFFFF),
    (.acas 9 ⟨true, 2⟩ 1 2 .none 0 .pkg, 0xFFFFFFFF)] : List (Instr × Nat)).all (fun e =>
      gives e.1 (withPad [(64, 0x80000000)] (base [(1, pad 64), (2, 0xFFFFFFFF), (9, 0x80000000)])) (fun t =>
        t.g 9 == 0xFFFFFFFF80000000 % 2 ^ 64 || t.g 9 == 0x80000000) && gives e.1 (withPad [(64, 0x80000000)] (base [(1, pad 64), (2, 0xFFFFFFFF), (9, 0x80000000)]))
        (fun t => t.mem.read (localKey 0 0 1 64) 8 == e.2)) = true := by decide +kernel

theorem test_acas_fails : gives (.acas 9 ⟨false, 2⟩ 1 2 .none 0 .pkg) (withPad [(64, 7)] (base [(1, pad 64), (2, 8), (9, 6)])) (fun t =>
    t.g 9 == 7 && t.mem.read (localKey 0 0 1 64) 8 == 7) = true := by decide +kernel

/-- A core whose task declares one writable extent of 64 bytes at physical address 0x10000 of its die. -/
def extBase (regs : List (GReg × Word)) : State :=
  (base regs).onCore 0 (fun k => k.setTask 0 { k.task 0 with exts := [⟨0x10000, 64, true, 0x10000, 0⟩] })

theorem test_extents : gives (.stx ⟨false, 3⟩ 0 1 2 1) (extBase [(1, 1), (2, 77)]) (fun t => t.mem.read 0x10010 8 == 77 &&
    gives (.ldx 9 ⟨false, 3⟩ 0 1 1) t (fun u => u.g 9 == 77)) = true := by decide +kernel
theorem test_extent_bound : traps (.ldx 9 ⟨false, 3⟩ 0 1 7) (extBase [(1, 1)]) .extentBounds = true := by decide +kernel
theorem test_fence : gives (.fence 0xFF .sys) (base []) (fun t => t.me.ip == 0x400041) = true := by decide +kernel

/-- R226 and its example: CSRCLR of FCSR with g9 = 0x1F clears the sticky flags; FRM keeps its value at 5 to 7. -/
theorem test_csrs : gives (.csrwr .fcsr 1) (base [(1, 0x3F), (9, 0x1F)]) (fun t => t.me.fcsr == 0x3F &&
    gives (.csrclr 0 .fcsr 9) t (fun u => u.me.fcsr == 0x20) && gives (.csrwr .fcsr 2) (t.onMe (·.putG 2 0xE1)) (fun u => u.me.fcsr == 0x21) &&
    gives (.csrswp 9 .fcsr 0) t (fun u => u.g 9 == 0x3F && u.me.fcsr == 0) && gives (.csrset 9 .colour 1) t (fun u => u.me.colour == 7) &&
    gives (.csrrd 9 .qlim3) t (fun u => u.g 9 == 12)) = true := by decide +kernel
theorem test_budget_only_falls : gives (.csrwr .budget 1) (base [(1, 0xFFFFFFFFFFFFFFFF)]) (fun t => t.me.budget == 0x100000000) = true := by
  decide +kernel
theorem test_privileged_csr : traps (.csrwr .quant 0) (base []) .priv = true := by decide +kernel

theorem test_trap : gives (.trapI16 0x55) (base []) (fun t => t.me.st == .free && t.me.trap.tval == 0x55 && t.me.trap.tip == 0x400001 &&
    t.me.trap.cause == Cause.swtrap.word false) && traps (.trap 1) (base [(1, 7)]) .swtrap = true := by decide +kernel
theorem test_system : putsAll (base [(1, 0x105)]) [(.time 9, 0), (.featq 9 1, 0x105), (.msgid 9, 0), (.msgpay 9 0, 0)] &&
    gives (.migok true) (base []) (fun t => t.me.migok) = true := by decide +kernel
/-! ### Messages, channels and the tag table -/

/-- R229, R230: the words from D, the payload, QSEL, TAG, PLEN and SEQ. -/
theorem test_send_holds : gives (.send 1 .q2 6 7 2 (some 5)) (withPad [(0, 0x11), (8, 0x22)] (base [(1, 10), (5, 50), (6, 0x5001), (7, pad 0)]))
    (fun t => t.me.sendBuf == [⟨1, ⟨⟨0, 0, 2, 5, 0, 16, 0, 0⟩, [10, 0, 0, 0, 50], [0x11, 0x22], .plain⟩⟩] && t.me.seq == 1) = true := by decide +kernel
/-- R231: SENDL's KIND is 1; SENDP goes to the pointer's core; REPLY to the source of the triggering message. -/
theorem test_send_forms : gives (.sendl 1 .q0 6 0 0 none) (base [(6, 3)]) (fun t => t.me.sendBuf.map (fun m => (m.dest, m.msg.env.kind)) == [(3, 1)]) &&
    gives (.sendp 1 .qg 6 0 0 none) (base [(6, 0x0FFF1002_00000000)]) (fun t => t.me.sendBuf.map (fun m => (m.dest, m.msg.env.qsel)) == [(2, 4)]) &&
    gives (.reply 1 .q1 0 0 none) (base []) (fun t => t.me.sendBuf.map (fun m => (m.dest, m.msg.env.qsel)) == [(0, 1)]) = true := by decide +kernel
theorem test_send_misaligned : traps (.send 1 .q0 6 7 1 none) (base [(7, pad 4)]) .misalign = true := by decide +kernel
theorem test_senda_leaves : gives (.senda 1 .q0 6 0 0 none) (base [(6, 3)]) (fun t => t.me.sendBuf.isEmpty && (t.ep 0).out.map (·.dest) == [3]) = true := by
  decide +kernel
theorem test_requeue : gives .requeue (base []) (fun t => t.me.st == .free && ((t.core 0).queue 0).length == 1) = true := by decide +kernel

/-- A channel of four slots of 8 bytes with base 0x1000, HEAD 5 and TAIL `tail`, bound to c1 as both. -/
def chBase (tail : Nat) : State :=
  (withPad [(0, 0x1000), (8, 0x02), (16, 5), (24, tail)] (base [(1, pad 0), (2, 6)])).onMe (fun x => x.putC 1 ⟨true, 3, pad 0, 0x1000, 0, 2⟩)

theorem test_channel_binds : gives (.chbind 3 1 2) (chBase 7) (fun t => t.c 3 == ⟨true, 2, pad 0, 0x1000, 0, 2⟩) = true := by decide +kernel
/-- R238: the head, the tail, the fill, and slot 6 mod 4 plus one. -/
theorem test_channel_reads : putsAll (chBase 7) [(.chwaitf 9 1, 5), (.chwaite 9 1, 7), (.chstat 9 1, 2), (.chptr 9 1 2 1, 0x1018)] = true := by
  decide +kernel
theorem test_channel_waits : (parks (.chwaitf 9 1) (chBase 5) && parks (.chwaite 9 1) (chBase 9)) = true := by decide +kernel
theorem test_channel_advances : gives (.chadvh 1 2) (chBase 7) (fun t => gives (.chadvt 1 0xFFFF) t (fun u =>
    u.mem.read (localKey 0 0 1 16) 8 == 7 && u.mem.read (localKey 0 0 1 24) 8 == 0x10006)) = true := by decide +kernel
theorem test_channel_unbound : traps (.chstat 9 2) (chBase 5) .illegalReg = true := by decide +kernel

/-- R240: TSET of an absent granule gives 0xFFFF and its slot holds it; TLOOK and TSET then give the slot; TINV counts. -/
theorem test_tags : gives (.tset 9 1 2) (base [(1, 0x12345), (2, 383), (3, 1)]) (fun t => t.g 9 == 0xFFFF && putsAll t [(.tlook 9 1, 383),
    (.tset 9 1 3, 383), (.tinv 9 1 3, 1), (.tlook 9 2, 0xFFFF)] && gives (.tclr 9 2) t (fun u => gives (.tlook 9 1) u (fun w => w.g 9 == 0xFFFF))) = true := by
  decide +kernel
theorem test_tag_slot_bad : traps (.tset 9 1 2) (base [(1, 0x12345), (2, 384)]) .tagSlotBad = true := by decide +kernel

/-! ### The vector unit -/

/-- Registers v1 and v2 with the same pattern in each lane, and v0 as the destination's old value. -/
def vBase (x y : VWord) (k : BitVec 32) : State :=
  (base []).onMe (fun c => (((c.putV 1 x).putV 2 y).putV 3 0x77).putK 1 k)

/-- Lane 0 of v3 after an instruction. -/
def lane0 (w : Nat) (l : List (Instr × Nat)) (s : State) : Bool := l.all fun e => gives e.1 s (fun t => lane (t.v 3) w 0 == e.2)

/-- R63, R277 on S8 lanes 0x7F and 0x81: wrapping and saturation, and the signed minimum. -/
theorem test_vector_s8 : lane0 8 [(.vadd 3 0 1 2 .s8 .rne false, 0), (.vsub 3 0 1 2 .s8 .rne false, 0xFE), (.vsub 3 0 1 2 .s8 .rne true, 0x7F),
    (.vmul 3 0 1 2 .s8 .rne true, 0x80), (.vdiv 3 0 1 2 .s8 .rne false, 0xFF), (.vmin 3 0 1 2 .s8, 0x81), (.vmax 3 0 1 2 .s8, 0x7F),
    (.vabs 3 0 2 .s8 false, 0x7F), (.vneg 3 0 1 .s8 false, 0x81), (.vand 3 0 1 2 .s8, 1), (.vor 3 0 1 2 .s8, 0xFF), (.vxor 3 0 1 2 .s8, 0xFE),
    (.vshl 3 0 1 2 .s8, 0xFE), (.vshr 3 0 2 1 .s8, 1), (.vsha 3 0 2 1 .s8, 0xFF)] (vBase 0x7F 0x81 0) = true := by decide +kernel

/-- R66, R277, R279 on F32: 1.5 and 2.0 and the old 0 of v4. -/
theorem test_vector_f32 : lane0 32 [(.vadd 3 0 1 2 .f32 .rne false, 0x40600000), (.vsub 3 0 1 2 .f32 .rne false, 0xBF000000),
    (.vmul 3 0 1 2 .f32 .rne false, 0x40400000), (.vdiv 3 0 1 2 .f32 .rne false, 0x3F400000), (.vmin 3 0 1 2 .f32, 0x3FC00000),
    (.vmax 3 0 1 2 .f32, 0x40000000), (.vneg 3 0 1 .f32 false, 0xBFC00000), (.vabs 3 0 1 .f32 false, 0x3FC00000)] (vBase 0x3FC00000 0x40000000 0) &&
    lane0 32 [(.vsqrt 3 0 1 .f32 .rne, 0x40000000), (.vfma 3 0 1 2 .f32 .rne, 0x40800000), (.vfms 3 0 1 2 .f32 .rne, 0x40800000),
      (.vfnma 3 0 1 2 .f32 .rne, 0xC0800000)] ((vBase 0x40800000 0x3F800000 0).onMe (fun x => x.putV 3 0)) = true := by decide +kernel

/-- R70: 1 divided by 0 is infinity with DZ, and an inactive lane keeps its value and sets nothing (R271). -/
theorem test_vector_flags_and_mask : gives (.vdiv 3 0 1 2 .f32 .rne false) (vBase 0x3F800000 0 0) (fun t => lane (t.v 3) 32 0 == 0x7F800000 &&
      t.me.fcsr &&& 8 == 8) && gives (.vdiv 3 1 1 2 .f32 .rne false) (vBase 0x3F800000 0 2) (fun t => lane (t.v 3) 32 0 == 0x77) = true := by decide +kernel

theorem test_nan_first : traps (.vadd 3 0 1 2 .f32 .rne false) ((vBase 0x7FC00000 0 0).onMe (fun x => { x with fcsr := 0x100 })) .nanFirst = true := by
  decide +kernel
theorem test_vstart_bad : traps (.vmov 3 0 1 .s8) ((vBase 0 0 0).onMe (fun x => { x with vstart := 1 })) .vstartBad = true := by decide +kernel

/-- R280 and R72: 1.5 to F8A (0x3C) and to S32 with RTZ; -1 in S8 widened to S16. -/
theorem test_vector_converts : lane0 8 [(.vcvt 3 0 1 .f32 .f8a .rne false, 0x3C)] (vBase 0x3FC00000 0 0) &&
    lane0 32 [(.vcvt 3 0 1 .f32 .s32 .rtz false, 1)] (vBase 0x3FC00000 0 0) && lane0 16 [(.vcvt 3 0 1 .s8 .s16 .rne false, 0xFFFF)] (vBase 0xFF 0 0) = true := by
  decide +kernel

/-- R281: lanes of 1.0 below 2.0 in lane 0, and +0 equal to +0 in the 31 others. -/
theorem test_vector_compares : ([(.vcmpEq 3 0 1 2 .f32, 0xFFFFFFFE), (.vcmpNe 3 0 1 2 .f32, 1), (.vcmpLt 3 0 1 2 .f32, 1), (.vcmpLe 3 0 1 2 .f32, 0xFFFFFFFF),
    (.vcmpUnord 3 0 1 2 .f32, 0)] : List (Instr × BitVec 32)).all (fun e => gives e.1 (vBase 0x3F800000 0x40000000 0) (fun t => t.k 3 == e.2)) = true := by
  decide +kernel

/-- R282, R284: moves and permutes of 16-bit and 32-bit lanes. -/
theorem test_vector_moves : lane0 16 [(.vsel 3 1 1 2 .n16, 0x2222), (.vmov 3 0 1 .n16, 0x1111), (.vbcast 3 0 9 .n16, 2), (.viota 3 0 9 .n16, 2),
      (.vshuf 3 0 1 2 .n16, 0x1110), (.vrot 3 0 1 9 .n16, 0x1113)]
      ((vBase (BitVec.ofNat 1024 (0x1111 + 0x1113 * 2 ^ 32 + 0x1110 * 2 ^ (16 * 34))) 0x2222 0).onMe (fun x => x.putG 9 2)) &&
    lane0 8 [(.vpack 3 0 1 2 .s8 true, 0x7F), (.vpack 3 0 1 2 .s8 false, 0x11)] (vBase 0x1111 0 0) &&
    lane0 32 [(.vunpack 3 0 1 9 .s32, 0xFFFF8001)] (vBase 0x8001 0 0) &&
    putsAll (vBase 0x8001 0 0) [(.vext 9 1 9 .s16, 0xFFFFFFFFFFFF8001)] = true := by decide +kernel

/-- R283, R84: sums, extrema and dot product of S32 lanes 5 and -7 with a = 5 in lane 0 and -7 in lane 1, the rest 0. -/
theorem test_vector_reductions : putsAll (vBase (BitVec.ofNat 1024 (5 + 0xFFFFFFF9 * 2 ^ 32)) (BitVec.ofNat 1024 (3 + 2 * 2 ^ 32)) 0) [
    (.vredSum 9 0 1 .s32 .rne false, 0xFFFFFFFFFFFFFFFE), (.vredMin 9 0 1 .s32 .rne false, 0xFFFFFFFFFFFFFFF9), (.vredMax 9 0 1 .s32 .rne false, 5),
    (.vdot 9 0 1 2 .s32 .rne false, 1), (.vredMin 9 1 1 .s32 .rne false, 0x7FFFFFFF)] = true := by decide +kernel

/-- R289. -/
theorem test_masks : putsAll ((vBase 0 0 0xF0).onMe (fun x => x.putK 2 0x3C)) [(.kpop 9 1, 4), (.kget 9 2, 0x3C), (.kget 9 0, 0xFFFFFFFF)] &&
    ([(.kand 3 1 2, 0x30), (.kor 3 1 2, 0xFC), (.kxor 3 1 2, 0xCC), (.knot 3 1, 0xFFFFFF0F), (.kset 3 9, 0)] : List (Instr × BitVec 32)).all (fun e =>
      gives e.1 ((vBase 0 0 0xF0).onMe (fun x => x.putK 2 0x3C)) (fun t => t.k 3 == e.2)) = true := by decide +kernel

/-- R285: one element of each form through view 0, with a stride of -8 and an index of 1. -/
theorem test_vector_memory : lane0 32 [(.vld 3 1 1 .f32 .rne false, 0xAABBCCDD), (.vlds 3 1 1 2 .n32 .rne false, 0xAABBCCDD),
      (.vgather 3 1 1 2 .n32 .rne false, 0x55667788)] ((withPad [(64, 0x55667788AABBCCDD)] (vBase 0 1 1)).onMe (fun x => (x.putG 1 (pad 64)).putG 2 0xFFFFFFFFFFFFFFF8)) &&
    ([(.vst 3 1 1 .n32 .rne false, 64), (.vsts 3 1 1 2 .n32 .rne false, 64), (.vscatter 3 1 1 2 .n32 .rne false, 68)] : List (Instr × Nat)).all (fun e =>
      gives e.1 ((vBase 0 1 1).onMe (fun x => x.putG 1 (pad 64))) (fun t => t.mem.read (localKey 0 0 1 e.2) 4 == 0x77)) = true := by decide +kernel

/-- R291: the least scale of lanes 1.0 for S8 is 127 - 6 (127 * 2^-6 holds 1.0 and 127 * 2^-7 does not); R292: 1.0 at scale 121 is 64. -/
theorem test_quantisation : putsAll (vBase 0x3F800000 0 0) [(.vscale 9 0 1 .f32 .s8 0, 121)] &&
    lane0 8 [(.vquant 3 0 1 9 .f32 .rne .s8, 64)] ((vBase 0x3F800000 0 0).onMe (fun x => x.putG 9 121)) = true := by decide +kernel

/-! ### The units -/

theorem test_matrix_parameters : gives (.mput 3 1) (base [(1, 0x80008)]) (fun t => gives (.mget 9 3) t (fun u => u.g 9 == 0x80008)) &&
    traps (.mput 0 1) (base [(1, 0x1000)]) .mparamBad = true := by decide +kernel
theorem test_gang_barrier_outside_cluster : traps (.mgang 9 1 0) (base [(1, pad 0)]) .spaceBad = true := by decide +kernel
/-- R312, R313: serial 3 is reached by 3 and not by 4. -/
theorem test_barrier : let s := (base [(1, clus 0), (2, 3), (3, 4)]).onMem (fun m => m.write (localKey 0 0 2 0) 8 (3 * 2 ^ 32 + 1))
    (gives (.mwait 1 2) s (fun t => t.me.ip == 0x400041) && parks (.mwait 1 3) s && putsAll s [(.mstat 9 1, 0)]) = true := by decide +kernel
theorem test_copy_of_no_transfer : (traps (.cptest 9 1) (base [(1, 5)]) .xferIdBad && traps (.cpwait 9 1) (base [(1, 5)]) .xferIdBad) = true := by
  decide +kernel
/-- R356's four examples. -/
theorem test_level_comparison : putsAll (base [(2, 2), (10, 0xFFFFFFFE)]) [(.lvcmp 9 2 10 0, 1), (.lvcmp 9 10 2 0, 0), (.lvcmp 9 2 10 4, 1),
    (.lvcmp 9 2 10 5, 0)] = true := by decide +kernel
/-- R351, R354, R357 of an unbound block. -/
theorem test_unbound_block : putsAll (base []) [(.lvread 9 1, 0), (.lvstat 9 1, 3), (.lvfreeze 9 1, 3), (.lvthaw 9 1, 3), (.lvunbind 9 1, 0x10)] = true := by
  decide +kernel
theorem test_commit_of_no_block : gives (.lvcommit 1 2) (base []) (fun t => t.me.st == .free) = true := by decide +kernel
theorem test_bind_misaligned : traps (.lvbind 9 1 2 0) (base [(1, pad 4)]) .misalign = true := by decide +kernel
theorem test_rfence : gives (.rfence 0xFF) (base []) (fun t => t.me.ip == 0x400041) = true := by decide +kernel
/-- R401 to R403 on a core with no command. -/
theorem test_refinement : putsAll (base [(1, pad 0)]) [(.rlcstat 9 1, 0), (.rlcstop 9 1, 0), (.rlcnorm 9 1, 0)] &&
    traps (.rlcrun 9 1) (base [(1, pad 4)]) .misalign = true := by decide +kernel
theorem test_copy_request_misaligned : traps (.cpreq 1) (base [(1, pad 4)]) .misalign = true := by decide +kernel

/-! ### Placing and stepping -/

theorem test_place_register_form : decodeTableWord 32 0x050B10C0 = some (.add 1 ⟨false, 3⟩ 2 3) := by decide +kernel
theorem test_place_none : decodeTableWord 16 0x0004 = none := by decide +kernel
theorem test_step_runs_placed : (match step (State.reset.withFetchWord 32 0x11480005) with
    | .next t => t.g 9 == 5
    | .fault _ => false
    | .refused _ => false) = true := by decide +kernel
/-! ### Witnesses of the hypotheses of the instructions' statements -/

/-- A checked answer, as a Bool that evaluates. -/
def okIs {ε α : Type} [DecidableEq α] (r : Except ε α) (x : α) : Bool :=
  match r with
  | .ok v => decide (v = x)
  | .error _ => false

theorem okIs_eq {ε α : Type} [DecidableEq α] {r : Except ε α} {x : α} (h : okIs r x = true) : r = .ok x := by
  cases r <;> simp_all [okIs]

/-- A computation that answers, as a Bool that evaluates. -/
def resIs {α : Type} [DecidableEq α] (r : Res α) (x : α) (s : State) : Bool :=
  match r with
  | .ok v t => decide (v = x) && decide (t = s)
  | .stop _ _ => false

theorem resIs_eq {α : Type} [DecidableEq α] {r : Res α} {x : α} {s : State} (h : resIs r x s = true) : r = .ok x s := by
  cases r <;> simp_all [resIs]

/-- Every statement whose only premise is that no single step and no migration follows. -/
theorem witness_steady : Steady (base []) ∧ (base []).Inv := by decide +kernel
theorem witness_bit_field : Steady (base []) ∧ (32 : BitVec 6).toNat + (31 : BitVec 6).toNat + 1 ≤ 64 := by decide +kernel
theorem witness_divide : let s := base [(1, 0x80), (2, 0x100), (3, 0xFF), (4, 2)]
    opnd ⟨true, 0⟩ (s.g 2) = 0 ∧ Steady s ∧ opnd ⟨true, 0⟩ (s.g 1) = -2 ^ (szOf ⟨true, 0⟩ - 1) ∧ opnd ⟨true, 0⟩ (s.g 3) = -1 ∧ opnd ⟨true, 0⟩ (s.g 4) ≠ 0 := by
  decide +kernel
theorem witness_castspc : let s := base [(1, pad 8), (2, 5)]
    Steady s ∧ s.cur.1 < 4096 ∧ isLocal (s.g 2) = false ∧ spaceOf (s.g 1) ≠ Space.priv.code.toNat := by decide +kernel
/-- R210: a value that a view holds and one that none holds. -/
theorem witness_viewset : let bad := fun (v : Word) => decide (v.extractLsb' 0 4 = 0xF) || decide (v.extractLsb' 4 2 = 3) || decide (v.extractLsb' 9 7 ≠ 0)
    bad 0x1FF0 = true ∧ bad 0x2 = false ∧ (0x2 : Word).extractLsb' 4 2 = 0 := by decide +kernel
theorem witness_sequence : (5 : Nat) < 2 ^ 54 - 1 ∧ (1 : Nat) < 2 ∧ (2 : Nat) ≤ 2 := by decide +kernel
theorem witness_local_load : let s := base [(1, pad 0x2FFF8)]
    Steady s ∧ s.myCore.advs = [] ∧ s.decodeAddr (ptrOff (s.g 1) ((0 : BitVec 16).signExtend 64)) 8 .load = .ok (.loc (localKey 0 0 1 0x2FFF8)) ∧
      s.mem.poisoned (localKey 0 0 1 0x2FFF8) 8 = false ∧ s.hidden s.cur.1 (localKey 0 0 1 0x2FFF8) 8 = false :=
  ⟨by decide +kernel, by decide +kernel, okIs_eq (by decide +kernel), by decide +kernel, by decide +kernel⟩

/-- A word that is full and one that is empty. -/
def feState (full : Bool) : State := (base [(1, pad 64)]).onMem (fun m => if full then m.setFull (localKey 0 0 1 64) else m)
theorem witness_local_sync : ∀ full : Bool, let s := feState full
    Steady s ∧ s.me.rbuf = [] ∧ s.myCore.advs = [] ∧ s.decodeAddr (ptrOff (s.g 1) ((0 : BitVec 16).signExtend 64)) 8 .sync = .ok (.loc (localKey 0 0 1 64)) ∧
      s.mem.poisoned (localKey 0 0 1 64) 8 = false ∧ s.mem.isFull (localKey 0 0 1 64) = full ∧ s.fullFor s.cur.1 (localKey 0 0 1 64) = full := by
  intro full
  cases full <;> exact ⟨by decide +kernel, by decide +kernel, by decide +kernel, okIs_eq (by decide +kernel), by decide +kernel, by decide +kernel,
    by decide +kernel⟩
theorem witness_local_store : let s := base [(1, pad 0x2FFF8)]
    Steady s ∧ s.Inv ∧ s.decodeAddr (ptrOff (s.g 1) ((0 : BitVec 16).signExtend 64)) 8 .store = .ok (.loc (localKey 0 0 1 0x2FFF8)) ∧
      s.decodeAddr (ptrOff (s.g 1) ((0 : BitVec 16).signExtend 64)) 8 .stfe = .ok (.loc (localKey 0 0 1 0x2FFF8)) ∧
      s.laneBusy 0 = false ∧ s.lanesMine = false ∧ s.me.failed = [] ∧ s.takenNow (localKey 0 0 1 0x2FFF8) = false ∧
      s.inTurn (unitOf (localKey 0 0 1 0x2FFF8)) s.cur.1 s.cur.2.val = true :=
  ⟨by decide +kernel, by decide +kernel, okIs_eq (by decide +kernel), okIs_eq (by decide +kernel), by decide +kernel, by decide +kernel,
    by decide +kernel, by decide +kernel, by decide +kernel⟩
/-- R224, R159: a word that a SYNCE has emptied in this cycle, and a memory that has served context 1 in it. -/
theorem witness_waits_turn : let s : State := { base [(1, clus 0x3FFFF8)] with takenAt := [(localKey 0 0 2 0x3FFFF8, 0)], lastAt := [(0x1000, (0, 0, 1))] }
    s.takenNow (localKey 0 0 2 0x3FFFF8) = true ∧ s.inTurn (unitOf (localKey 0 0 2 0x3FFFF8)) s.cur.1 s.cur.2.val = false ∧
      s.decodeAddr (ptrOff (s.g 1) ((0 : BitVec 16).signExtend 64)) 8 .stfe = .ok (.loc (localKey 0 0 2 0x3FFFF8)) ∧
      s.decodeAddr (s.g 1) 8 .atomic = .ok (.loc (localKey 0 0 2 0x3FFFF8)) :=
  ⟨by decide +kernel, by decide +kernel, okIs_eq (by decide +kernel), okIs_eq (by decide +kernel)⟩
theorem witness_local_atomic : let s := base [(1, clus 0x3FFFFC)]
    Steady s ∧ s.Inv ∧ s.decodeAddr (s.g 1) 4 .atomic = .ok (.loc (localKey 0 0 2 0x3FFFFC)) ∧ s.laneBusy 7 = false ∧
      s.lanesMine = false ∧ s.me.failed = [] ∧ s.mem.poisoned (localKey 0 0 2 0x3FFFFC) 4 = false ∧ s.me.rbuf = [] ∧
      s.inTurn (unitOf (localKey 0 0 2 0x3FFFFC)) s.cur.1 s.cur.2.val = true :=
  ⟨by decide +kernel, by decide +kernel, okIs_eq (by decide +kernel), by decide +kernel, by decide +kernel, by decide +kernel, by decide +kernel,
    by decide +kernel, by decide +kernel⟩
/-- The last element of an extent (R220). -/
theorem witness_extent : let s := extBase [(1, 7)]
    let e : Ext := ⟨0x10000, 64, true, 0x10000, 0⟩
    Steady s ∧ s.Inv ∧ s.myTask.exts[(0 : Fin 16).val]? = some e ∧ e.repl = 0 ∧ s.extRepl e ((vaOf e.base + 56) % 2 ^ 60) = 0 ∧
      s.atomicOut (e.pa + 56) 8 = false ∧ s.myCore.advs = [] ∧ s.myCore.lanes = [] ∧
      (0 : Int) ≤ ((s.g 1).toInt + (0 : BitVec 16).toInt) * 8 ∧ ((s.g 1).toInt + (0 : BitVec 16).toInt) * 8 + 8 ≤ e.len ∧ (e.pa + 56) % 8 = 0 ∧
      firstTier (e.pa + 56) = true ∧ (e.pa + 56) / 2 ^ 36 = dieOf s.cur.1 ∧ s.mem.poisoned (e.pa + 56) 8 = false ∧
      s.hidden s.cur.1 (e.pa + 56) 8 = false ∧ s.hasMoved s.cur.1 (BitVec.ofNat 64 ((vaOf e.base + 56) % 2 ^ 60)) = false := by decide +kernel
/-- The last element of an extent on a replicated page, at a die whose replica has no line marked (R142, R143). -/
theorem witness_extent_replica : let e : Ext := ⟨0x10000, 64, false, 0x10000, 1⟩
    let s := ((base [(1, 7)]).onCore 0 (fun k => k.setTask 0 { k.task 0 with exts := [e] })).onMem (fun m => m.write placeTable 8 0x17F)
    s.myTask.exts[(0 : Fin 16).val]? = some e ∧ s.extRepl e ((vaOf e.base + 56) % 2 ^ 60) ≠ 0 ∧
      s.mem.poisoned (replicaAt (e.pa + 56) (dieOf s.cur.1)) 8 = false ∧ s.hidden s.cur.1 (replicaAt (e.pa + 56) (dieOf s.cur.1)) 8 = false ∧
      s.atomicOut (e.pa + 56) 8 = false ∧ blockOf (replicaAt (e.pa + 56) (dieOf s.cur.1)) ∉ (s.home (dieOf s.cur.1)).marks := by decide +kernel
/-- One element beyond the end of the extent, an extent that is not declared, and an address that no ring of records takes. -/
theorem witness_extent_bound : let s := extBase [(1, 8)]
    ((s.myTask.exts[(0 : Fin 16).val]?).map (fun e => decide ((e.len : Int) < ((s.g 1).toInt + (0 : BitVec 16).toInt) * 8 + 8))) = some true ∧
      s.myTask.exts[(1 : Fin 16).val]? = none ∧ s.Inv ∧
      ∀ e ∈ s.parts, ¬ (e.2.trRing.base ≤ 0x10000 ∧ 0x10000 < e.2.trRing.base + 64 * 2 ^ e.2.trRing.sizelog) ∧
        ¬ (e.2.events.base ≤ 0x10000 ∧ 0x10000 < e.2.events.base + 16 * 2 ^ e.2.events.sizelog) := by decide +kernel
theorem witness_fence : let s := base []
    Steady s ∧ s.maskBusy 0xFF = false ∧ s.me.failed = [] ∧ s.windowBusy 0xFF = false := by decide +kernel
/-- A store of colour 3 that is pending on the core. -/
def lanesBase : State := (base []).onCore 0 (fun k => { k with lanes := [⟨0, 0, 0, 0, 3, .plain, 0x1000000000, 0, 8, 1, 0, true, false, [], false, 0, 0⟩] })
theorem witness_fence_waits : lanesBase.me.failed = [] ∧ lanesBase.maskBusy 8 = true := by decide +kernel
theorem witness_csr : let s := base []
    Steady s ∧ csrPriv .budget = false ∧ s.detAt s.cur.1 = false ∧ csrPriv .migok = false ∧ (0 : Word).getLsbD 0 = false ∧ csrPriv .quant = true := by
  decide +kernel
/-- The triggering message of an activation whose task goes on (R46). -/
theorem witness_trap : let s := base []
    s.me.act = some placeAct ∧ placeAct.m.msg.info = .plain ∧ s.holds placeAct = true := by decide +kernel
theorem witness_send : let s := base [(1, 5)]
    Steady s ∧ s.lanesMine = false ∧ s.me.failed = [] ∧ s.readWords (s.g 2) [] 0 = .ok [] s ∧ s.me.sendBuf.length < 8 ∧ s.canLeave s.cur.1 [] = true ∧
      s.placeOf (s.g 1) = some 0 ∧ (s.g 1).toNat % 4096 = 5 :=
  ⟨by decide +kernel, by decide +kernel, by decide +kernel, rfl, by decide +kernel, by decide +kernel, by decide +kernel, by decide +kernel⟩
/-- A payload of one word, with seven messages held. -/
theorem witness_send_payload : let s := (withPad [(0, 0x11)] (base [(2, pad 0)])).onMe (fun x => { x with sendBuf := List.replicate 7 ⟨0, ⟨⟨0, 0, 0, 0, 0, 0, 0, 0⟩, [], [], .plain⟩⟩ })
    (s.g 2).toNat % 8 = 0 ∧ s.readWords (s.g 2) [] 1 = .ok [0x11] s ∧ s.me.sendBuf.length < 8 :=
  ⟨by decide +kernel, resIs_eq (by decide +kernel), by decide +kernel⟩
/-- The last core of the range. -/
theorem witness_senda : let s := base [(1, 4095)]
    Steady s ∧ s.lanesMine = false ∧ s.me.failed = [] ∧ s.me.sendBuf = [] ∧ s.detAt s.cur.1 = false ∧ (s.ep s.cur.1).backlog = [] ∧
      (s.ep s.cur.1).canSend 4095 = true ∧ (s.ep s.cur.1).out.length < 64 ∧ (s.coreRange s.cur.1).1 ≤ 4095 ∧
      4095 < (s.coreRange s.cur.1).1 + (s.coreRange s.cur.1).2 := by decide +kernel
/-- An activation that holds one message for the last core of the range, and whose task goes on (R414). -/
theorem witness_end : ∀ buf ∈ [[], [(⟨4095, ⟨⟨0, 0, 0, 0, 0, 0, 0, 0⟩, [], [], .plain⟩⟩ : OutMsg)]],
    let s := (base []).onMe (fun x => { x with sendBuf := buf })
    s.me.act = some placeAct ∧ s.canLeave s.cur.1 s.me.sendBuf = true ∧ placeAct.m.msg.env.kind ≠ 4 ∧ placeAct.m.msg.env.kind ≠ 5 ∧
      placeAct.m.msg.info = .plain ∧ s.taskLive placeAct.core placeAct.m.msg = true ∧
      s.detAt s.cur.1 = false ∧ s.detAt placeAct.core = false ∧
      (∀ o ∈ s.me.sendBuf, (s.coreRange s.cur.1).1 ≤ o.dest ∧ o.dest < (s.coreRange s.cur.1).1 + (s.coreRange s.cur.1).2) := by decide +kernel
/-- A channel that is neither empty nor full, an empty one and a full one (R235, R238). -/
theorem witness_channel : ∀ tail ∈ [5, 7, 9], let s := chBase tail
    Steady s ∧ (s.g 1).toNat % 32 = 0 ∧ (s.c 1).valid = true ∧ s.descWord (s.g 1) 0 = .ok 0x1000 s ∧ s.descWord (s.g 1) 8 = .ok 2 s ∧
      s.descWord (s.c 1).desc 16 = .ok 5 s ∧ s.descWord (s.c 1).desc 24 = .ok (BitVec.ofNat 64 tail) s := by
  intro tail h
  simp only [List.mem_cons, List.not_mem_nil, or_false] at h
  obtain rfl | rfl | rfl := h <;>
    exact ⟨by decide +kernel, by decide +kernel, by decide +kernel, resIs_eq (by decide +kernel), resIs_eq (by decide +kernel),
      resIs_eq (by decide +kernel), resIs_eq (by decide +kernel)⟩
/-- The partition of a state made deterministic with a shape of 16 cores. -/
def det (s : State) : State := s.onPart 0 (fun P => { P with det := true, shape := 16 })
theorem witness_channel_advance : ∀ d : Bool, let s := if d then det (chBase 7) else chBase 7
    Steady s ∧ s.Inv ∧ s.detAt s.cur.1 = d ∧ (s.c 1).role &&& 2 = 2 ∧ (s.c 1).role &&& 1 = 1 ∧ (s.c 1).valid = true ∧
      s.decodeAddr (ptrOff (s.c 1).desc 16) 8 .atomic = .ok (.loc (localKey 0 0 1 16)) ∧ s.lanesMine = false ∧ s.me.failed = [] ∧
      s.mem.poisoned (localKey 0 0 1 16) 8 = false ∧ s.me.rbuf = [] ∧ s.inTurn (unitOf (localKey 0 0 1 16)) s.cur.1 s.cur.2.val = true := by
  intro d
  cases d <;> exact ⟨by decide +kernel, by decide +kernel, by decide +kernel, by decide +kernel, by decide +kernel, by decide +kernel,
    okIs_eq (by decide +kernel), by decide +kernel, by decide +kernel, by decide +kernel, by decide +kernel, by decide +kernel⟩
/-- A granule with an entry in slot 383, one with none, and a slot beyond the table (R240, R241). -/
theorem witness_tags : let s := (base [(1, 0x400), (2, 0x600), (3, 384)]).onCore 0 (fun k => { k with tags := [(383, 0x8000000000000400)] })
    Steady s ∧ s.myCore.tagOf (granuleOf (s.g 1)) = some 383 ∧ s.myCore.tagOf (granuleOf (s.g 2)) = none ∧ 384 ≤ (s.g 3).toNat := by decide +kernel
theorem witness_vector : let s := vBase 0x3FC00000 0x40000000 0
    Steady s ∧ s.me.vstart = 0 ∧ Fmt.s8.isInt = true ∧ Fmt.f32.isArithFloat = true ∧ fcsrNanTrap s.me.fcsr = false ∧ (127 : Nat) < lanesOf .s8 ∧
      (∀ j < 32, s.act 0 32 j = true) := by decide +kernel
/-- A NaN in lanes 2 and 3 alone, under NANTRAP (R71), for VADD and for VMUL. -/
theorem witness_nan_first : let s := (vBase (BitVec.ofNat 1024 (0x7FC00000 * 2 ^ 64 + 0x7FC00000 * 2 ^ 96)) 0 0).onMe (fun x => { x with fcsr := 0x100 })
    let x := fun j => decodeF .f32 (lane (s.v 1) 32 j)
    let y := fun j => decodeF .f32 (lane (s.v 2) 32 j)
    s.me.vstart = 0 ∧ Fmt.f32.isArithFloat = true ∧ fcsrNanTrap s.me.fcsr = true ∧ s.act 0 32 2 = true ∧
      ∀ r ∈ [fun j => fAdd .f32 (effRm s.me.fcsr .rne) (x j) (y j), fun j => fMul .f32 (effRm s.me.fcsr .rne) (x j) (y j)],
        isNaNPat .f32 (r 2).1 = true ∧ (∀ k < 2, isNaNPat .f32 (r k).1 = false) := by
  decide +kernel
/-- Rounding: the greatest finite F32, the least subnormal F8B, and minus zero. -/
theorem witness_rounding : (decodeF .f32 0x7F7FFFFF).isNaN = false ∧ (decodeF .f8b 1).isNaN = false ∧ (decodeF .f16 0x8000).isNaN = false := by
  decide +kernel
/-- Quantisation: finite lanes that a scale fits, lanes that are all zero, lanes that no scale fits, and one that is not finite (R291). -/
theorem witness_vscale : let x := fun (v : Nat) => decodeF .f64 v
    let fits := fun (e : Nat) (v : Nat) => cmpLt (.fin false 127 ((e : Int) - 127)) (x v).abs = false
    (x 0x3FF0000000000000).isFin = true ∧ fits 121 0x3FF0000000000000 ∧ ¬ fits 120 0x3FF0000000000000 ∧ (x 0).isZero = true ∧
      ¬ fits 254 0x7FE0000000000000 ∧ (x 0x7FF0000000000000).isFin = false := by decide +kernel
theorem witness_vquant : let s := (vBase 0x3F800000 0 0).onMe (fun x => x.putG 9 121)
    Steady s ∧ s.me.vstart = 0 ∧ fcsrNanTrap s.me.fcsr = false ∧ (s.g 9).extractLsb' 0 8 ≠ 0xFF := by decide +kernel
/-- The first and the last element of a load and a store of 32 bytes at the end of the scratchpad. -/
theorem witness_vector_memory : let s := (vBase 0 0 0x80000001).onMe (fun x => x.putG 1 (pad 0x2FF80))
    Steady s ∧ s.Inv ∧ s.me.vstart = 0 ∧ (s.g 1).extractLsb' 60 4 = 0 ∧ s.myCore.advs = [] ∧ s.laneBusy s.me.colour = false ∧
      (∀ j < 32, s.act 1 32 j = true ↔ (j = 0 ∨ j = 31)) ∧
      s.decodeAddr (ptrOff (s.g 1) (BitVec.ofNat 64 (31 * 32 / 8))) 4 .load = .ok (.loc (localKey 0 0 1 0x2FFFC)) ∧
      s.decodeAddr (ptrOff (s.g 1) (BitVec.ofNat 64 0)) 4 .store = .ok (.loc (localKey 0 0 1 0x2FF80)) ∧
      s.mem.poisoned (localKey 0 0 1 0x2FFFC) 4 = false ∧ s.hidden s.cur.1 (localKey 0 0 1 0x2FFFC) 4 = false :=
  ⟨by decide +kernel, by decide +kernel, by decide +kernel, by decide +kernel, by decide +kernel, by decide +kernel, by decide +kernel,
    okIs_eq (by decide +kernel), okIs_eq (by decide +kernel), by decide +kernel, by decide +kernel⟩
theorem witness_vstart : let s := (vBase 0 0 0).onMe (fun x => { x with vstart := 32 })
    s.me.vstart ≠ 0 ∧ lanesOf .f32 ≤ s.me.vstart.toNat ∧ (s.g 1).extractLsb' 60 4 = 0 := by decide +kernel

/-- R309: a pointer and a shape that pass, and ones that do not. -/
theorem witness_matrix_parameters : let s := base [(1, pad 0), (2, 0x80008), (3, 0x80007), (4, 0x1000)]
    Steady s ∧ s.me.activation.wayfarer = false ∧ s.ownLocal (s.g 1) = true ∧ s.ownLocal (s.g 4) = false ∧
      (8 ≤ (s.g 2).toNat % 65536 ∧ (s.g 2).toNat % 65536 ≤ 16384 ∧ (s.g 2).extractLsb' 27 37 = 0) ∧ (s.g 3).toNat % 65536 = 7 := by decide +kernel
/-- R310: a member whose clasp has closed, with its serial and with a mismatch, and one that may join. -/
def gangBase : State := (det (base [(1, clus 0)])).onCore 0 (fun k => { k with shadow := #v[pad 0, pad 0x4000, pad 0x8000, 0x80010, 0x0, 0x0, 0x0] })
theorem witness_gang_closed : ∀ bad : Bool, let s := { base [] with rings := [(0, { Ring.reset with results := [(0, 0, bad, 5)] })] }
    Steady s ∧ s.me.activation.wayfarer = false ∧ (s.ring (clusOf s.cur.1)).result s.cur.1 s.cur.2.val = some (bad, 5) := by decide +kernel
theorem witness_gang_joins : let s := gangBase
    s.me.activation.wayfarer = false ∧ (s.ring (clusOf s.cur.1)).result s.cur.1 s.cur.2.val = none ∧ (s.ring (clusOf s.cur.1)).forming = [] ∧
      (s.ring (clusOf s.cur.1)).running = none ∧ isLocal (s.g 1) = true ∧ spaceOf (s.g 1) = 2 ∧
      s.decodeAddr (s.g 1) 8 .load = .ok (.loc (localKey 0 0 2 0)) ∧ (s.g 1).toNat % 16 = 0 ∧
      s.checkOp ⟨s.cur.1, s.cur.2.val, s.myCore.shadow.toList, 0x15, s.g 1⟩ = none ∧ s.lanesMine = false ∧ s.me.failed = [] ∧ s.detAt s.cur.1 = true ∧
      (s.ring (clusOf s.cur.1)).queue = [] :=
  ⟨by decide +kernel, by decide +kernel, by decide +kernel, by decide +kernel, by decide +kernel, by decide +kernel, okIs_eq (by decide +kernel),
    by decide +kernel, by decide +kernel, by decide +kernel, by decide +kernel, by decide +kernel, by decide +kernel⟩
/-- R295, R298: the first waiting member of core 0, with the snapshot of its issue. -/
theorem witness_gang_waits : let w : Member := ⟨0, 0, [pad 0, pad 0x4000, pad 0x8000, 0x80010, 0, 0, 0], 0x15, clus 0⟩
    let s := { gangBase with rings := [(0, { Ring.reset with queue := [w] })] }
    (s.ring (clusOf s.cur.1)).result s.cur.1 s.cur.2.val = none ∧ (s.ring (clusOf s.cur.1)).forming = [] ∧ (s.ring (clusOf s.cur.1)).running = none ∧
      (s.ring (clusOf s.cur.1)).queue.find? (fun x => x.core == s.cur.1) = some w ∧ w.ctx = s.cur.2.val ∧ s.detAt s.cur.1 = true := by decide +kernel
/-- R312, R313: a barrier at serial 3 whose status is clean, awaited at 3 and at 4, and one whose data error is set. -/
theorem witness_barrier : ∀ bad : Bool, let s := (base [(1, clus 0), (2, 3), (3, 4)]).onMem (fun m =>
      (m.write (localKey 0 0 2 0) 8 (3 * 2 ^ 32 + 1)).write (localKey 0 0 2 8) 8 (if bad then 2 ^ 63 else 0))
    let serial : BitVec 32 := BitVec.ofNat 32 (s.mem.read (localKey 0 0 2 0) 8 / 2 ^ 32)
    Steady s ∧ s.me.activation.wayfarer = false ∧ s.myCore.advs = [] ∧ isLocal (s.g 1) = true ∧ spaceOf (s.g 1) = 2 ∧ (s.g 1).toNat % 16 = 0 ∧
      s.decodeAddr (s.g 1) 8 .load = .ok (.loc (localKey 0 0 2 0)) ∧ s.decodeAddr (ptrOff (s.g 1) 8) 8 .load = .ok (.loc (localKey 0 0 2 8)) ∧
      s.mem.poisoned (localKey 0 0 2 0) 8 = false ∧ s.mem.poisoned (localKey 0 0 2 8) 8 = false ∧
      s.hidden s.cur.1 (localKey 0 0 2 0) 8 = false ∧ s.hidden s.cur.1 (localKey 0 0 2 8) 8 = false ∧ (s.mem.read (localKey 0 0 2 8) 8).testBit 63 = bad ∧
      (serial - (s.g 2).setWidth 32).toNat < 2 ^ 31 ∧ ¬ (serial - (s.g 3).setWidth 32).toNat < 2 ^ 31 := by
  intro bad
  cases bad <;> exact ⟨by decide +kernel, by decide +kernel, by decide +kernel, by decide +kernel, by decide +kernel, by decide +kernel,
    okIs_eq (by decide +kernel), okIs_eq (by decide +kernel), by decide +kernel, by decide +kernel, by decide +kernel, by decide +kernel, by decide +kernel,
    by decide +kernel, by decide +kernel⟩
/-- A list of words at an offset of core 0's scratchpad (`sp` 1) or of cluster 0's memory (`sp` 2). -/
def withWords (sp off : Nat) (l : List Nat) (s : State) : State :=
  s.onMem (fun m => (List.range l.length).foldl (fun m i => m.write (localKey 0 0 sp (off + 8 * i)) 8 (l.getD i 0)) m)

/-- An entry of the transfer board. -/
def boardE (id : Nat) (st : XferSt) (w : List (Nat × Nat)) : BoardE := ⟨0, id, false, st, 64, 1, w, 0⟩
/-- R319, R322: a record of XFERID 5 that copies 16 bytes within a scratchpad, and its core with 63 entries in its board. -/
def copyBase : State := (withWords 1 0 [0x0FFF1000_00001000, 0x0FFF1000_00002000, 5 * 2 ^ 48, 0x1_00000010, 0x1_00000001, 0, 0, 0, 0, 0, 0, 0, 0, 0]
  (base [(1, pad 0)])).onCore 0 (fun k => { k with board := (List.range 63).map (fun i => boardE (i + 100) .issued []) })
theorem witness_copy_request : let s := copyBase
    let r := [0x0FFF1000_00001000, 0x0FFF1000_00002000, 5 * 2 ^ 48, 0x1_00000010, 0x1_00000001, 0, 0, 0, 0, 0, 0, 0, 0, (0 : Word)]
    Steady s ∧ s.myCore.board.length < 64 ∧ (s.g 1).toNat % 8 = 0 ∧ s.readWords (s.g 1) [] 14 = .ok r s ∧
      s.checkLayout (s.g 1) r (s.viewOf (r.getD 0 0)) (s.viewOf (r.getD 1 0)) = .ok () s ∧ s.strChoose (r.getD 0 0) (r.getD 1 0) = .ok 0 s ∧
      s.lanesMine = false ∧ s.me.failed = [] ∧ (s.ep s.cur.1).backlog = [] ∧ (s.ep s.cur.1).canSend (4096 + strEng 0) = true :=
  ⟨by decide +kernel, by decide +kernel, by decide +kernel, resIs_eq (by decide +kernel), resIs_eq (by decide +kernel), resIs_eq (by decide +kernel),
    by decide +kernel, by decide +kernel, by decide +kernel, by decide +kernel⟩
/-- R325: an entry that is not final, a final one, and a final one that this context's CPWAIT has yet to return; ids of no entry. -/
theorem witness_copy_tests : ∀ e ∈ [boardE 7 .lodged [], boardE 7 .complete [], boardE 7 .faulted [(0, 0)]],
    let s := (base [(1, 7), (2, 0x10000)]).onCore 0 (fun k => { k with board := [e] })
    Steady s ∧ s.g 1 ≠ 0 ∧ (s.g 1).toNat < 65536 ∧ s.myCore.entry s.me.tag (s.g 1).toNat = some e ∧ s.me.msgId = 0 ∧
      65536 ≤ (s.g 2).toNat ∧ s.myCore.entry s.me.tag 8 = none := by decide +kernel
/-- R321: a final entry with DONEIP set that another context's CPWAIT has yet to return. -/
theorem witness_copy_kept : let e := { boardE 7 .complete [(1, 5)] with doneip := true }
    let s := (base [(1, 7)]).onCore 0 (fun k => { k with board := [e] })
    s.myCore.entry s.me.tag (s.g 1).toNat = some e ∧ e.st.final = true ∧ e.doneip = true ∧ e.waiters ≠ [] := by decide +kernel

/-- A block of the front 3, with its state, level and a neighbour. -/
def blkAt1 (st : BlkSt) (lv : BitVec 32) (n : List Nbr) : Blk := ⟨st, 0, 0, 0, 3, 2, 1, lv, true, 16, 1, 0x400001, 0, 0, 0, 8, 8, n, 0, 6⟩
/-- The board of die 0 with block 1, and the front's state. -/
def frontBase (st : BlkSt) (f : FrontSt) (regs : List (GReg × Word)) : State :=
  { base regs with fus := [(0, { FrontUnit.reset with board := [(1, blkAt1 st 4 [])] })], fronts := [⟨0, 0, 3, f⟩] }
theorem witness_front_reads : ∀ f ∈ [FrontSt.running, .freezing, .frozen], let s := frontBase .dispatched f [(1, 1), (2, 2)]
    Steady s ∧ s.myPart.fevs = [] ∧ s.detAt s.cur.1 = false ∧ s.blkAt (s.g 1) = some (blkAt1 .dispatched 4 []) ∧ s.blkAt (s.g 2) = none ∧
      s.frontSt (s.pOf s.cur.1) 0 3 = f := by decide +kernel
/-- R335, R351: a record without neighbours that passes CheckRecord, bound as block 4095 of die 0. -/
def bindRec : List Nat := [2 * 2 ^ 24 + 1 * 2 ^ 16 + 4095, 4, 0x400001, 0, 0x0FFF1000_00001000, 0x0FFF2000_00001000, 8 * 2 ^ 32 + 8, 0, 0, 0, 0, 0, 0, 0, 0]
theorem witness_front_bind : let s := withWords 1 0 bindRec (base [(1, pad 0), (2, 4095)])
    let r := bindRec.map (BitVec.ofNat 64)
    let p := s.pOf s.cur.1
    Steady s ∧ s.detAt s.cur.1 = false ∧ (s.g 1).toNat % 8 = 0 ∧ s.readWords (s.g 1) [] 15 = .ok r s ∧ (s.g 2).toNat < 32768 ∧
      (s.g 2).toNat / 4096 = s.lnum s.cur.1 / 512 ∧ s.checkRecord r 4095 = none ∧ s.blk p 4095 = none ∧ s.blks p = [] ∧
      p ≤ s.fuOf p 4095 ∧ s.fuOf p 4095 < p + (s.part p).dies ∧ s.inTurn (some (0x2000 + p)) s.cur.1 s.cur.2.val = true ∧
      ({ s with lastAt := [(0x2000, (0, 1, 0))] } : State).inTurn (some (0x2000 + p)) s.cur.1 s.cur.2.val = false :=
  ⟨by decide +kernel, by decide +kernel, by decide +kernel, resIs_eq (by decide +kernel), by decide +kernel, by decide +kernel, by decide +kernel,
    by decide +kernel, by decide +kernel, by decide +kernel, by decide +kernel, by decide +kernel, by decide +kernel⟩
/-- R353: a block that may be freed, one of a frozen front, one that may not. -/
theorem witness_front_unbind : (frontBase .pending .running [(1, 1)]).blkAt 1 = some (blkAt1 .pending 4 []) ∧
    (frontBase .faulted .frozen [(1, 1)]).frontSt 0 0 3 = .frozen ∧ (frontBase .waiting .running [(1, 1)]).frontSt 0 0 3 ≠ .frozen := by decide +kernel
/-- R355: an update activation of block 1 that commits level 8. -/
theorem witness_front_commit : let s := (frontBase .dispatched .running [(1, 1), (2, 8)]).onMe (fun x => { x with act := some { placeAct with m := { placeAct.m with msg := { placeAct.m.msg with info := .dispatch 1 } } } })
    s.me.activation.m.msg.info = .dispatch 1 ∧ (s.g 1).toNat = 1 ∧ s.blkAt (s.g 1) = some (blkAt1 .dispatched 4 []) ∧ s.me.activation.committed = false ∧
      s.me.act.isSome = true ∧ (s.g 2).setWidth 32 = (blkAt1 .dispatched 4 []).level + (blkAt1 .dispatched 4 []).step ∧ s.lanesMine = false ∧
      s.me.failed = [] ∧ s.copiesDone s.me.activation = true := by decide +kernel

/-- R384: a store outstanding in colour 7, and a dropped store in colour 0. -/
theorem witness_rfence : let s := (base []).onMe (fun x => { x with wout := x.wout.set 7 1, drops := x.drops.set 0 (some 0x1234) })
    Steady s ∧ get8 s.me.wout 7 ≠ 0 ∧ (0x80 : BitVec 8).getLsbD 7 = true ∧ s.me.drop 0 = some 0x1234 ∧ (∀ c < 7, get8 s.me.wout c = 0) ∧
      (∀ c < 8, 1 ≤ c → s.me.drop c = none) := by decide +kernel
/-- A context that holds the translation of one page. -/
def tlbBase (pte : Word) : State := (base [(1, 0x400FF8)]).onMe (fun c => { c with tlb := [⟨0x400000, 4096, 0, pte, true, 1⟩] })
/-- R385: pages that the context holds: a transmit page of an entry without a key, another page of the partition, a receive page, and a page of host
memory. -/
theorem witness_window_words : ∀ e ∈ [((0x203 : Word), true), (0x7F, true), (0x407, false), (0x800000000000F, false)], let s := tlbBase e.1
    Steady s ∧ isLocal (s.g 1) = false ∧ s.me.tlbHit (vaOf (s.g 1)) = some ⟨0x400000, 4096, 0, e.1, true, 1⟩ ∧
      (s.checkAttr (s.pOf s.cur.1) 4 (e.1 ||| 8) .store).isNone = e.2 := by
  intro e h
  simp only [List.mem_cons, List.not_mem_nil, or_false] at h
  obtain rfl | rfl | rfl | rfl := h <;> exact ⟨by decide +kernel, by decide +kernel, by decide +kernel, by decide +kernel⟩
/-- A command block (R392): one rung of S8, M 1, tolerances 0, 1.0 and 1.0, and every mask and handler set. -/
def rlcBlk : List Nat := [0, 0, 2 ^ 32 + 10, 0, 0x3FF0000000000000, 0x3FF0000000000000, 0, 0x0001000100010001, 0x400001, 0x400001, 0x400001, 0x400001, 0x400001, 7]
/-- The issuing core, with a running command of core `k` where there is one. -/
def rlcCmd (core : Nat) : RCmd := ⟨rlcBlk.map (BitVec.ofNat 64), clus 0, [localKey 0 0 2 112], [localKey 0 0 2 120], 0, 0, core, 0⟩
/-- A running command. -/
def rlcRun (core serial : Nat) : RRun := ⟨rlcCmd core, .factor, 0, 0, 0, 0, none, 0, false, serial, [], [], none⟩
/-- The controller of cluster 0 with a running command of a core. -/
def rlcBase (run : Option RRun) : State := { withWords 2 0 rlcBlk (base [(1, clus 0)]) with rlcs := [(0, { Rlc.reset with run := run })] }
theorem witness_rlcrun : ∀ run ∈ [none, some (rlcRun 3 0), some (rlcRun 0 0)], let s := rlcBase run
    Steady s ∧ (s.g 1).toNat % 8 = 0 ∧ s.rlcPtrOk (s.g 1) = true ∧ s.readWords (s.g 1) [] 14 = .ok (rlcBlk.map (BitVec.ofNat 64)) s ∧
      s.storeKeys (ptrOff (s.g 1) 112) = .ok [localKey 0 0 2 112] s ∧ s.storeKeys (ptrOff (s.g 1) 120) = .ok [localKey 0 0 2 120] s ∧
      s.readWords (ptrOff (s.g 1) 128) [] 16 = .ok (List.replicate 16 0) s ∧ blockBadRlc s.myTask (rlcBlk.map (BitVec.ofNat 64)) (List.replicate 16 0) = false ∧
      s.rlcBusy = (run == some (rlcRun 0 0)) ∧ s.lanesMine = false ∧ s.me.failed = [] ∧ s.detAt 0 = false ∧ (det s).detAt 0 = true := by
  intro run h
  simp only [List.mem_cons, List.not_mem_nil, or_false] at h
  obtain rfl | rfl | rfl := h <;>
    exact ⟨by decide +kernel, by decide +kernel, by decide +kernel, resIs_eq (by decide +kernel), resIs_eq (by decide +kernel),
      resIs_eq (by decide +kernel), resIs_eq (by decide +kernel), by decide +kernel, by decide +kernel, by decide +kernel, by decide +kernel,
      by decide +kernel, by decide +kernel⟩
/-- R401: an idle controller of a partition that is not saved. -/
theorem witness_rlc_idle : let s := rlcBase none
    s.detAt (16 * clusOf s.cur.1) = false ∧ (s.rlc 0).run = none ∧ (s.rlc 0).queue = [] ∧ (s.part (s.pOf 0)).pre = .running ∧ s.rlcBusy = false := by
  decide +kernel
/-- R402: an activation that may report outside deterministic mode, while core 1 of the phase's mask has yet to. -/
theorem witness_rlc_report : let r : RRun := { rlcRun 0 5 with cmd := { rlcCmd 0 with blk := (rlcBlk.set 7 0x0003000300030003).map (BitVec.ofNat 64) } }
    let s := (rlcBase (some r)).onMe (fun x => { x with act := some { placeAct with m := { placeAct.m with msg := { placeAct.m.msg with info := .phase 0 5 } } } })
    s.lanesMine = false ∧ s.me.failed = [] ∧ s.rlcReportable = some (0, 5) ∧ s.me.act.isSome = true ∧ s.detAt 0 = false ∧ (s.rlc 0).run = some r ∧
      r.stop = none ∧ (r.cmd.mask r.phase).testBit 1 = true ∧ 1 ≠ s.me.activation.core % 16 ∧ AMap.find r.reports 1 = none := by decide +kernel
/-- R402: an activation that may report, and one that may not. -/
theorem witness_rlcnorm : let s := (det (rlcBase (some (rlcRun 0 5)))).onMe (fun x => { x with act := some { placeAct with m := { placeAct.m with msg := { placeAct.m.msg with info := .phase 0 5 } } } })
    s.lanesMine = false ∧ s.me.failed = [] ∧ s.rlcReportable = some (0, 5) ∧ s.me.act.isSome = true ∧ s.detAt 0 = true ∧ (base []).rlcReportable = none := by
  decide +kernel
/-- R403: a command of this core that is queued first, one that has ended, and none. -/
theorem witness_rlcstat : ∀ st ∈ [RSt.queued, .ended], let s := { rlcBase none with rlcs := [(0, { Rlc.reset with queue := [rlcCmd 0], latest := [(0, ⟨clus 0, st, 0, 0, 0⟩)] })] }
    AMap.find (s.rlc 0).latest s.cur.1 = some ⟨s.g 1, st, 0, 0, 0⟩ ∧ s.detAt 0 = false ∧ (s.rlc 0).run = none ∧ (s.rlc 0).queue = [rlcCmd 0] ∧
      (rlcCmd 0).core = s.cur.1 ∧ AMap.find ((base []).rlc 0).latest 0 = none := by decide +kernel
/-! ### Witnesses of the hypotheses of the events' statements -/

/-- A partition of all dies whose core 0 runs, with that partition changed. -/
def partBase (f : Part → Part) : State := (base []).onPart 0 f
/-- The partition's firmware leads under a lease to cycle 1,000. -/
def ledBase : State := { base [] with fws := [(0, { FwCore.reset with leader := true, expiry := 1000, group := 0x3FF })] }
/-- No task launched. -/
def idleBase : State := { ledBase with cores := [] }

/-- R418, R427: firmware cores that have all met each other, and two halves of five that have not; the three states that a module may be in. -/
theorem witness_boot : let known := fun (s : State) (m : Nat) => if (s.fw m).group = 0 then (0x3FF : BitVec 10) else (s.fw m).group
    let meets := fun (s : State) (n : Nat) => (List.range 10).filter (fun m => m == n || ((known s n).getLsbD m && (known s m).getLsbD n))
    let split : State := { base [] with fws := (List.range 10).map (fun n => (n, { FwCore.reset with group := if n < 5 then 0x01F else 0x3E0 })) }
    6 ≤ (meets (base []) 0).length ∧ (∀ n < 10, (meets split n).length < 6) ∧ (base []).pkg.flash = none ∧ ({ base [] with parts := [] } : State).parts = [] ∧
      ∀ b ∈ [Boot.recovery, .sram, .running], ({ base [] with pkg := { Pkg.reset with boot := b } } : State).pkg.boot = b := by decide +kernel
/-- R22: two partitions of four dies, with grants that do not meet. -/
theorem witness_configuration : let s := idleBase
    s.hasLeader = true ∧ s.legalConfig [(0, 4), (4, 4)] = true ∧ legalGrants [(0, 4), (4, 4)] [(0, 2 ^ 32, 16), (4, 2 ^ 32 + 16, 16)] [(2 ^ 32 + 32, 16)] = true ∧
      s.parts.map (·.1) = [0] ∧ (∀ e ∈ s.parts, s.launched e.1 = false) ∧ s.launched 0 = false ∧ s.idleAll = true ∧ (AMap.find s.parts 0).isSome = true := by
  decide +kernel
/-- R418: a leader that renews, in the lease's last cycle among all and under the host's lease alone, and one that reaches five. -/
theorem witness_leader_leases : let led := fun (f : FwCore) => ({ base [] with
      time := 999
      fws := (0, f) :: (List.range 9).map (fun i => (i + 1, { FwCore.reset with group := 0x3FF })) } : State)
    let size := fun (s : State) => ((List.range 10).filter (fun m => decide (m = 0 ∨ ((s.fw 0).group.getLsbD m = true ∧ (s.fw m).group.getLsbD 0 = true)))).length
    let l : FwCore := { FwCore.reset with leader := true, expiry := 1000, group := 0x3FF }
    (∀ s ∈ [led l, led { l with host := true, expiry := 5 }, led { l with group := 0x01F }], (s.fw 0).leader = true ∧ (s.fw 0).expiry ≤ s.time + 1500000) ∧
      6 ≤ size (led l) ∧ (base []).pkg.boot ≠ .recovery ∧ (led l).time < 1000 ∧ size (led { l with group := 0x01F }) = 5 ∧ ((led { l with group := 0x01F }).fw 0).host = false := by decide +kernel
/-- R418: a core whose lease has lapsed for its rank delay, with a group of six and one of five, and one whose delay goes on. -/
theorem witness_leader_lapse : let s := { base [] with time := 180000, fws := [(9, FwCore.reset)] }
    s.pkg.leaderHost = false ∧ (s.fw 9).host = false ∧ (s.fw 9).expiry + 20000 * 9 ≤ s.time ∧ (s.fw 9).retryAt ≤ s.time ∧
      ((List.range 10).filter (fun m => (0x3F0 : BitVec 10).getLsbD m)).length = 6 ∧ ((List.range 10).filter (fun m => (0x3E0 : BitVec 10).getLsbD m)).length = 5 ∧
      (0x3F0 : BitVec 10).getLsbD 9 = true ∧ (0x3E0 : BitVec 10).getLsbD 9 = true ∧ ({ s with time := 179999 } : State).time < (s.fw 9).expiry + 20000 * 9 := by
  decide +kernel
/-- R418: a request of an epoch already voted in, one that gets a vote, and the vote that is the sixth. -/
theorem witness_leader_vote : ∀ e ∈ [1, 2], let s := { base [] with fws := [(9, { FwCore.reset with voted := 1, asks := [(3, e)] }),
      (3, { FwCore.reset with epoch := 2, votes := [3, 0, 1, 2, 4] })] }
    (s.fw 9).asks = [(3, e)] ∧ (e ≤ (s.fw 9).voted ∨ ((s.fw 9).voted < e ∧ (s.fw 9).host = false ∧ (s.fw 9).expiry ≤ s.time ∧ (s.fw 3).epoch = e ∧
      (s.fw 3).leader = false ∧ 5 ≤ (s.fw 3).votes.length ∧ 9 ∉ (s.fw 3).votes)) := by decide +kernel
/-- R419: two groups of five without a lease, and X0 and X1 designated at sockets 16 and 17; the host's mode; a package in recovery. -/
theorem witness_leader_designate : let s := { base [] with
      pkg := { Pkg.reset with boot := .running }
      fws := (List.range 10).map (fun n => (n, { FwCore.reset with lost := true, group := if n < 5 then 0x01F else 0x3E0 })) }
    s.pkg.boot ≠ .recovery ∧ socketFw 17 = some 9 ∧ (s.fw 8).group.getLsbD 9 = true ∧ (s.fw 9).group.getLsbD 8 = true ∧ socketFw 16 = some 8 ∧
      (∀ m < 10, (s.fw m).lost = true ∧ ((List.range 10).filter (fun j => (s.fw m).group.getLsbD j)).length = 5) ∧
      ({ Pkg.reset with leaderHost := true } : Pkg).leaderHost = true ∧ ({ Pkg.reset with boot := .recovery } : Pkg).boot = .recovery := by decide +kernel
/-- How a launch's checks end: 0 they pass, 100 a page is asked of the host, otherwise the failure's code. -/
def launchEnds (s : State) (w : List Word) : Nat := match s.launchCheck 0 ⟨0, w, []⟩ [0] with | .ok _ _ => 0 | .ask _ _ => 100 | .later _ => 200 | .fail e => e.code
/-- A channel of a copy of core 0 that has an XFER write on its way. -/
def midChan : StrChan := ⟨0, 0, 0, 0, [], 0, 0, 7, 0, [], 0, false, 0, 1, false, none, []⟩
/-- A key slot. -/
def slotK : KeySlot := ⟨1, 2, 3⟩
/-- R425, R426: an answer; a trained link without keys; exchanges under way; the host's keys. -/
theorem witness_keys : let s := { ledBase with links := [(15, { Link.reset with up := true }), (0, { Link.reset with exchTx := true, exchRx := true, rx := { LinkDir.reset with slot0 := some slotK } })] }
    s.hasLeader = true ∧ (3 : BitVec 8).toNat ≤ 3 ∧ s.pkg.keysHost = false ∧ (s.link 15).up = true ∧ (s.link 15).tx.now = none ∧ (s.link 15).rx.now = none ∧
      (s.link 0).exchTx = true ∧ (s.link 0).sendq = [] ∧ (s.link 0).tx.slot0 = none ∧ (s.link 0).tx.slot1 = none ∧ (s.link 0).tx.bit = false ∧
      (s.link 0).exchRx = true ∧ (s.link 0).rx.slot0.isSome = true ∧ (s.link 0).rx.slot1 = none ∧ (s.link 0).rx.bit = false ∧
      ({ s with pkg := { s.pkg with keysHost := true } } : State).pkg.keysHost = true ∧
      ((partBase (fun P => { P with manifest := [1] })).part 0).manifest ≠ [] := by decide +kernel

/-- The words of a packet of one kind. -/
def pkWords (w0 w1 w2 : Nat) : List Word := [BitVec.ofNat 64 w0, BitVec.ofNat 64 w1, BitVec.ofNat 64 w2, 0, 0, 0, 0, 0]
/-- Queue 63 enabled, with one packet at physical address 0x200000. -/
def queueBase (kind sizelog : Nat) (tail : BitVec 32) : State :=
  (partBase (fun P => { P with queues := [(63, ⟨0x200000, true, 0, sizelog, 0, 0, tail⟩)], rr := 62 })).onMem (fun m => m.write 0x200000 8 (kind * 2 ^ 60))
/-- What a queue offers is a packet, or a failure with a code. -/
def offers (s : State) (q : Nat) : Option (Nat ⊕ List Word) :=
  match s.lookQueue 0 q with
  | .none => none
  | .fail e => some (.inl e.code)
  | .packet w _ => some (.inr w)
/-- R408: a NOP, an unknown kind, and a TAIL too far ahead, in the queue after the one last served. -/
theorem witness_queue_choice : (∀ e ∈ [(queueBase 0 4 1, (Sum.inr (pkWords 0 0 0) : Nat ⊕ List Word)), (queueBase 6 4 1, .inl 1), (queueBase 0 4 17, .inl 2)],
    (e.1.part 0).packet = none ∧ e.1.leased 0 = true ∧ (queueOrder (e.1.part 0).rr).head? = some 63 ∧ offers e.1 63 = some e.2) := by decide +kernel
/-- The same queue at a base that no memory has (R408 HOST-FAULT), and with 16 packets, the first of which can be read, or can not. -/
theorem witness_queue_fails : ∀ e ∈ [(queueBase 0 4 17, 17, true), (queueBase 0 4 16, 16, true), (queueBase 2 4 16, 16, true), (queueBase 15 4 1, 1, true),
      ((queueBase 0 4 16).onPart 0 (fun P => P.setQ 63 (fun c => { c with base := 2 ^ 40 })), 16, false)],
    let c := (e.1.part 0).q 63
    c.en = true ∧ c.err = 0 ∧ (e.1.part 0).serves 0 63 = true ∧ (c.tail - c.head).toNat = e.2.1 ∧ 2 ^ c.sizelog = 16 ∧ (e.1.packetAt 0 c 0).isSome = e.2.2 ∧
      (e.1.part 0).packet = none ∧ e.1.leased 0 = true ∧ (queueOrder (e.1.part 0).rr).head? = some 63 := by decide +kernel
/-- A partition whose front end has chosen a packet from queue 0. -/
def packetBase (w : List Word) : State := partBase (fun P => { P with packet := some ⟨0, w, []⟩ })
/-- R409, R412, R414, R415, R421: a LAUNCH with a granule below 64 bytes, and one whose image the host has to bring in; an END; an INVAL of a misaligned and of
an aligned range, without and with a channel in the middle of a block. -/
theorem witness_packets : pkKind (pkWords 0 0 0) = 0 ∧ pkKind (pkWords (2 ^ 60) 0 0) = 1 ∧ launchEnds (packetBase (pkWords (2 ^ 60) 0 0)) (pkWords (2 ^ 60) 0 0) = 1 ∧
    (let w := pkWords (2 ^ 60 + 12 * 2 ^ 40) 0 (2 ^ 40)
     pkKind w = 1 ∧ launchEnds (partBase (fun P => { P with packet := some ⟨0, w, []⟩, pfHost := true })) w = 100) ∧
    pkKind (pkWords (3 * 2 ^ 60) 0 0) = 3 ∧ pkKind (pkWords (4 * 2 ^ 60) 1 0) = 4 ∧ ((pkWords (4 * 2 ^ 60) 1 0).getD 1 0).toNat % 4096 ≠ 0 ∧
    ((pkWords (4 * 2 ^ 60) 0x1000 0x1000).getD 1 0).toNat % 4096 = 0 ∧ (base []).chansOf 0 = [] ∧
    ({ base [] with strs := [(7, ⟨[(15, midChan)]⟩)] } : State).chansOf 0 = [midChan] ∧ midChan.midBlock = true := by decide +kernel
/-- A partition without a free frame, whose only resident page a copy uses in the middle of a block, in a state of its front end and its faults; the page of
the object at 2^40 is absent. -/
def fullBase (f : Part → Part) : State :=
  { (partBase (fun P => f { P with free := [], resident := [⟨2 ^ 39, 1, some 5, false⟩] })).onMem (fun m => (m.write (placeTable + 8) 8 0x7F).write (placeTable + 16) 8 0x7E) with
    strs := [(7, ⟨[(15, { midChan with held := [⟨false, 2 ^ 27, 0, none, 0⟩] })]⟩)] }
/-- R328, R412, R421: a LAUNCH that has to wait for the end of that block. -/
theorem witness_launch_later : let w := pkWords (2 ^ 60 + 12 * 2 ^ 40) 0 (2 ^ 40)
    pkKind w = 1 ∧ launchEnds (fullBase (fun P => { P with packet := some ⟨0, w, []⟩ })) w = 200 := by decide +kernel
/-- Cells of a run of bytes. -/
def cellsFrom : Nat → List Byte → List Host.Cell
  | _, [] => []
  | k, b :: l => (k, b) :: cellsFrom (k + 1) l
theorem readCell_skip (k j : Nat) (b : Byte) (t : List Host.Cell) (h : k < j) : readCell ((k, b) :: t) j = readCell t j := by
  simp only [readCell]
  rw [if_neg (by omega), if_neg (by omega)]
theorem bytes_cellsFrom (m : Memory) (l : List Byte) (t : List Host.Cell) : ∀ k, { m with cells := cellsFrom k l ++ t }.bytes k l.length = l := by
  induction l with
  | nil => intro k; rfl
  | cons b l ih =>
    intro k
    have h : ∀ n j, k < j → ({ m with cells := cellsFrom k (b :: l) ++ t } : Memory).bytes j n = ({ m with cells := cellsFrom (k + 1) l ++ t } : Memory).bytes j n := by
      intro n
      induction n with
      | zero => intro j _; rfl
      | succ n ihn =>
        intro j hj
        simp only [Memory.bytes]
        rw [ihn (j + 1) (by omega)]
        simp only [Memory.byte, cellsFrom, List.cons_append]
        rw [readCell_skip _ _ _ _ hj]
    simp only [List.length_cons, Memory.bytes]
    rw [h _ _ (by omega), ih]
    simp [Memory.byte, cellsFrom, readCell]
theorem bytes_append (m : Memory) (k a b : Nat) : m.bytes k (a + b) = m.bytes k a ++ m.bytes (k + a) b := by
  induction a generalizing k with
  | zero => simp [Memory.bytes]
  | succ a ih =>
    rw [show a + 1 + b = (a + b) + 1 by omega]
    simp only [Memory.bytes, List.cons_append]
    rw [ih, show k + 1 + a = k + (a + 1) by omega]
/-- A run of bytes in one mapped page, as the front end reads it. -/
theorem readVirt_page (s : State) (p va n k lvl slot : Nat) (e : Word) (hw : s.walk p va = .leaf lvl slot e) (hc : s.checkAttr p lvl e .load = none)
    (hp : s.mem.poisoned (pteAddr e + va % pageSize lvl) k = false) (hk : k ≤ 4096 - va % 4096) :
    s.readVirt p (n + 2) va k = .ok (s.mem.bytes (pteAddr e + va % pageSize lvl) k) s := by
  by_cases h0 : k = 0
  · subst h0; rfl
  · simp [State.readVirt, h0, State.launchPage, State.bringIn, hw, Walked.bind, hc, Nat.min_eq_left hk, hp]
/-- The first 48 bytes of an image of one line of code and no data: magic number, version, CODELEN 64 and BUDGET 0x1000 (R122). -/
def imgHead : List Byte := leBytes 4 0x4E584D49 ++ leBytes 2 1 ++ leBytes 10 0 ++ leBytes 8 64 ++ leBytes 8 0 ++ leBytes 8 0x1000 ++ leBytes 8 0
/-- Its digest (R123). -/
def imgDigest : BitVec 512 := Config.sha512 (imgHead ++ List.replicate 64 0 ++ List.replicate 16 0 ++ List.replicate 64 0)
/-- A partition whose front end holds a LAUNCH, not deterministic, of task entry 1 from the image at 0x1000, with its handler in the line at 0x1080. -/
def launchWords : List Word := [BitVec.ofNat 64 (2 ^ 60 + 2 ^ 46 + 12 * 2 ^ 40), 0x1081, 0x1000, 0, 0, 0, 0, 0]
def launchBase : State :=
  let s := packetBase launchWords
  { s with mem := { s.mem with cells := cellsFrom 0x1000 (imgHead ++ leBytes 64 imgDigest.toNat) ++ s.mem.cells } }
theorem launch_image : launchBase.readImage 0 0x1000 0x1081 = .ok ⟨0x1080, 0x10C0, false, 0, 0x1000, Vector.replicate 16 0, 0, 0, imgDigest⟩ launchBase := by
  have hw : launchBase.walk 0 0x1000 = .leaf 1 placeTable 0x7F := by decide +kernel
  have hw2 : launchBase.walk 0 0x1080 = .leaf 1 placeTable 0x7F := by decide +kernel
  have hw3 : launchBase.walk 0 0x2000 = .leaf 1 placeTable 0x7F := by decide +kernel
  have hc : launchBase.checkAttr 0 1 0x7F .load = none := by decide +kernel
  have e1 : launchBase.readVirt 0 2 0x1000 128 = .ok (imgHead ++ leBytes 64 imgDigest.toNat ++ List.replicate 16 0) launchBase := by
    rw [readVirt_page _ _ _ 0 _ _ _ _ hw hc (by decide +kernel) (by decide)]
    have hb : launchBase.mem.bytes 0x1000 112 = imgHead ++ leBytes 64 imgDigest.toNat := by
      have h := bytes_cellsFrom (packetBase launchWords).mem (imgHead ++ leBytes 64 imgDigest.toNat) (packetBase launchWords).mem.cells 0x1000
      rwa [show (imgHead ++ leBytes 64 imgDigest.toNat).length = 112 by rw [List.length_append, leBytes_length]; rfl] at h
    have hz : launchBase.mem.bytes 0x1070 16 = List.replicate 16 0 := by decide +kernel
    rw [show pteAddr 0x7F + 0x1000 % pageSize 1 = 0x1000 by decide, bytes_append _ _ 112 16, hb, hz]
  have e2 : launchBase.readVirt 0 2 0x1080 64 = .ok (List.replicate 64 0) launchBase := by
    rw [readVirt_page _ _ _ 0 _ _ _ _ hw2 hc (by decide +kernel) (by decide)]
    have hz : launchBase.mem.bytes 0x1080 64 = List.replicate 64 0 := by decide +kernel
    rw [show pteAddr 0x7F + 0x1080 % pageSize 1 = 0x1080 by decide, hz]
  have e3 : launchBase.readVirt 0 2 0x2000 0 = .ok [] launchBase := rfl
  have hd : digestOf (leBytes 64 imgDigest.toNat) = imgDigest := by
    rw [digestOf, leNat_leBytes, Nat.mod_eq_of_lt (by have := imgDigest.isLt; omega)]
    simp
  generalize hh : imgHead ++ leBytes 64 imgDigest.toNat ++ List.replicate 16 0 = h at e1
  have f : leNat ((h.drop 0).take 4) = 0x4E584D49 ∧ leNat ((h.drop 4).take 2) = 1 ∧ leNat ((h.drop 6).take 2) = 0 ∧ leNat ((h.drop 8).take 8) = 0 ∧
      leNat ((h.drop 16).take 8) = 64 ∧ leNat ((h.drop 24).take 8) = 0 ∧ leNat ((h.drop 32).take 8) = 0x1000 ∧ leNat ((h.drop 40).take 2) = 0 ∧
      leNat ((h.drop 42).take 2) = 0 ∧ leNat ((h.drop 44).take 4) = 0 ∧ leNat ((h.drop 112).take 4) = 0 := by
    subst hh; exact ⟨rfl, rfl, rfl, rfl, rfl, rfl, rfl, rfl, rfl, rfl, rfl⟩
  have g : (h.drop 48).take 64 = leBytes 64 imgDigest.toNat ∧ h.take 48 = imgHead ∧ h.drop 112 = List.replicate 16 0 := by
    subst hh; exact ⟨rfl, rfl, rfl⟩
  obtain ⟨f0, f4, f6, f8, f16, f24, f32, f40, f42, f44, f112⟩ := f
  obtain ⟨g1, g2, g3⟩ := g
  simp only [State.readImage, e1, Walked.bind, f0, f4, f6, f8, f16, f24, f32, f40, f42, f44, g1, g2, g3, hd]
  simp only [show (0x1000 + 128 + 8 * 0 + 16 * 0 + 63) / 64 * 64 = 0x1080 by decide, show (0x1080 + 64 - 0x1000) / 4096 + 2 = 2 by decide, show 0x1000 + 128 = 0x1080 by decide,
    show 0x1080 + 64 - 0x1080 = 64 by decide, e2, show (0x1080 + 64 + 4095) / 4096 * 4096 = 0x2000 by decide, e3]
  rw [if_neg (by decide), List.append_nil, show Config.sha512 (imgHead ++ List.replicate 64 0 ++ List.replicate 16 0 ++ List.replicate 64 0) = imgDigest from rfl,
    bne_self_eq_false, if_neg (by decide)]
  rfl
theorem witness_launch : ∃ im s1 P1, launchBase.launchCheck 0 ⟨0, launchWords, []⟩ (launchBase.launchCores 0 0 launchWords) = .ok (im, []) s1 ∧
    AMap.find s1.parts 0 = some P1 := by
  have h : ∀ im, im = ⟨0x1080, 0x10C0, false, 0, 0x1000, Vector.replicate 16 0, 0, 0, imgDigest⟩ →
    launchBase.detBusy 0 launchWords = false ∧ (launchBase.launchCores 0 0 launchWords).findSome? (fun c => launchBase.entryErr c 1 im [] 0) = none ∧
    (launchBase.launchCores 0 0 launchWords).all (fun c => ((launchBase.core c).task 1).st != .invalid) = false := by
      rintro _ rfl; exact ⟨by decide +kernel, by decide +kernel, by decide +kernel⟩
  obtain ⟨h1, h2, h3⟩ := h _ rfl
  refine ⟨⟨0x1080, 0x10C0, false, 0, 0x1000, Vector.replicate 16 0, 0, 0, imgDigest⟩, launchBase, launchBase.part 0, ?_, by decide +kernel⟩
  have hb : launchBad launchWords [] = false := by decide +kernel
  have hs : shapeBad (launchBase.part 0).dies launchWords = false := by decide +kernel
  have hi := launch_image
  simp only [State.launchCheck, hb, hs, show (launchWords.getD 2 0).toNat % 2 ^ 60 = 0x1000 by decide, show launchWords.getD 1 0 = 0x1081 by decide, hi,
    Walked.bind, h1, show pf launchWords 46 3 = 1 by decide, show pkNext launchWords = 0 by decide, h2, h3, State.extents, Bool.false_eq_true, if_false]
/-- A held message of core 0 with identifier 7 in queue 0, and in slot 63. -/
def heldMsgOf (held : Bool) : QMsg := ⟨⟨⟨0, 0, 0, 0, 0, 0, 0, 7⟩, [0, 0, 0, 0, 0], [], .plain⟩, 63, 0, 0, held, none⟩
/-- A trap record of die 0 that holds that message. -/
def recOf (kindA held : Bool) : TrapRec := ⟨[1, 2, 3], 0, kindA, held, 0, 0, 7, 0⟩
/-- The partition that waits for its disposition. -/
def heldBase (w : List Word) : State := (partBase (fun P => { P with packet := some ⟨0, w, []⟩, recs := [recOf true true] })).onCore 0 (fun k =>
  k.setQueue 0 [heldMsgOf true])
/-- R416: RELEASE, DISCARD and END of it; R423: its record under firmware, and a record that holds nothing. -/
theorem witness_disposition : ∀ a ∈ [0, 1, 2], let w := pkWords (5 * 2 ^ 60 + a) 0 7
    let s := heldBase w
    pkKind w = 5 ∧ s.mayDispose 0 = true ∧ s.knum (512 * 0) (bitsNat (w.getD 1 0) 0 12) = 0 ∧ s.heldMsg 0 0 7 = some (heldMsgOf true) ∧ s.pOf 0 = 0 ∧
      pf w 0 2 = a ∧ s.taskLive 0 (heldMsgOf true).msg = true ∧ s.partKey 0 = 0 ∧ (s.part 0).trapHost = false ∧
      (s.part 0).recs.find? (fun x => x.die == 0) = some (recOf true true) ∧ AMap.get 0 (s.part 0).aborts 7 + 1 < (s.part 0).retry ∧
      ((base []).part 0).recs = [] := by decide +kernel
/-- R423: a held message whose abort reaches RETRY, of a task that goes on. -/
theorem witness_record : let s := (heldBase []).onPart 0 (fun P => { P with retry := 1 })
    (s.part 0).recs.find? (fun x => x.die == 0) = some (recOf true true) ∧ s.mayDispose 0 = true ∧ s.heldMsg 0 0 7 = some (heldMsgOf true) ∧
      (s.part 0).retry ≤ AMap.get 0 (s.part 0).aborts 7 + 1 ∧ s.taskLive 0 (heldMsgOf true).msg = true ∧ s.pOf 0 = 0 ∧ (s.part 0).trapHost = false ∧
      ((partBase (fun P => { P with recs := [recOf false false] })).part 0).recs.find? (fun x => x.die == 0) = some (recOf false false) := by decide +kernel
/-- A context of core 0 parked at a page fault. -/
def faultOf (va : Nat) (asked : Bool) : PFault := ⟨0, 0, va, false, asked⟩
/-- The partition with that fault under service. -/
def faultBase (va : Nat) (asked host : Bool) : State :=
  (partBase (fun P => { P with faults := [faultOf va asked], pfHost := host })).onMe (fun x => { x with st := .parked, await := .pageFault va false })
/-- What the service of a page finds: 0 its page, 1 no object, 2 no frame. -/
def found (r : PageIn) : Nat := match r with | .done _ => 0 | .unmapped => 1 | .noFrame => 2 | .later => 3
/-- R420: a fault whose page has come, one at an address of no object, and one that the host is asked about. -/
theorem witness_page_fault : (∀ e ∈ [(0x400000, 0), (2 ^ 40, 1)], let s := faultBase e.1 false false
      s.partKey 0 = 0 ∧ (s.pruneFaults 0).dueFault 0 0 = some (faultOf e.1 false) ∧ (s.part 0).pfHost = false ∧
        found ((s.pruneFaults 0).pageIn 0 e.1 [0x400000] false) = e.2 ∧ s.detAt 0 = false ∧ s.rests 0 = false) ∧
    ((faultBase 5 false true).pruneFaults 0).dueFault 0 0 = some (faultOf 5 false) ∧ ((faultBase 5 false true).part 0).pfHost = true ∧
    (faultBase 5 false true).pkg.pri.length < (faultBase 5 false true).pkg.priAlloc ∧
    (List.range 512).find? (fun t => (AMap.find (faultBase 5 false true).pkg.pri t).isNone) = some 0 := by decide +kernel
/-- R152, R328: a fault whose page waits for the end of a copy's block. -/
theorem witness_page_later : let s := (fullBase (fun P => { P with faults := [faultOf (2 ^ 40) false] })).onMe (fun x => { x with st := .parked, await := .pageFault (2 ^ 40) false })
    s.partKey 0 = 0 ∧ (s.pruneFaults 0).dueFault 0 0 = some (faultOf (2 ^ 40) false) ∧ (s.part 0).pfHost = false ∧
      found ((s.pruneFaults 0).pageIn 0 (2 ^ 40) (vaOf ((s.pruneFaults 0).ctx 0 0).ip / 64 * 64 :: ((s.pruneFaults 0).ctx 0 0).elem) false) = 3 := by decide +kernel
/-- R421: a tag in use whose fault stands, one whose fault has gone, and a free tag; and the last cycle of a time-out. -/
theorem witness_pri : let q : Pri := ⟨0, 0, 0, 0x400000, false, 5⟩
    let s : State := { faultBase 0x400000 true true with pkg := { Pkg.reset with pri := [(511, q)] }, time := 5 + 2 ^ 31 }
    AMap.find s.pkg.pri (511 : BitVec 9).toNat = some q ∧ q.core ≠ 4096 ∧ q.part = 0 ∧ s.askedFault q = some (faultOf 0x400000 true) ∧ s.staleFault (faultOf 0x400000 true) = false ∧
      AMap.find s.pkg.pri (510 : BitVec 9).toNat = none ∧ q.since + 2 ^ 31 ≤ s.time ∧ (base []).askedFault q = none := by decide +kernel
/-- The page that a front end's packet waits for, where one does. -/
def asked (s : State) (k : Packet) : Option Nat := match s.launchTry 0 k with | .ask a _ => some a | .ok _ _ | .later _ | .fail _ => none
/-- R421: a page that the front end needs for the LAUNCH in hand, and one asked for by a packet that has completed, with a NOP in hand. -/
theorem witness_pri_own : let q : Pri := ⟨0, 4096, 0, 2 ^ 40, false, 5⟩
    let k : Packet := ⟨0, pkWords (2 ^ 60 + 12 * 2 ^ 40) 0 (2 ^ 40), []⟩
    let s : State := { partBase (fun P => { P with packet := some k, pfHost := true }) with pkg := { Pkg.reset with pri := [(511, q)] } }
    AMap.find s.pkg.pri (511 : BitVec 9).toNat = some q ∧ q.core = 4096 ∧ q.ctx = 0 ∧ q.part = 0 ∧ (s.part 0).packet = some k ∧ pkKind k.words = 1 ∧
      asked (s.freeTag 511) k = some (2 ^ 40) ∧ pkKind (pkWords 0 0 0) ≠ 1 ∧ PrgCode.failure ≠ .success := by decide +kernel

/-- R49: a running, an asked and a saved partition whose contexts are free. -/
theorem witness_preempt : ∀ p ∈ [PreSt.running, .asked, .saved], let s := { partBase (fun P => { P with pre := p }) with cores := [] }
    (s.part 0).pre = p ∧ (AMap.find s.parts 0).isSome = true ∧ s.allFree 0 = true ∧ s.engineWork 0 = false ∧ s.requestsOut 0 = false ∧
      s.windowWork 0 = false ∧ s.rlcs = [] ∧ (s.part 0).trapHost = false := by decide +kernel
/-- A window store. -/
def wst (seq : BitVec 32) (off : Nat) : WStore := ⟨0, 0, 0, 0, 0x400000, seq, off, [1, 2, 3, 4, 5, 6, 7, 8]⟩
/-- A transmit entry of partition 0 on link 0 to window 5 of package 9. -/
def went (loop broken : Bool) (q o : List WStore) : WEnt := ⟨true, loop, broken, 0, 0, 9, 5, 16, 0, 2, q, o, false⟩
/-- The state with entry 511 of X0. -/
def winBase (e : WEnt) : State := { base [] with wins := [(0, { WinEng.reset with ents := [(511, e)] })], links := [(0, { Link.reset with up := true })] }
/-- R49: an asked partition that only its window stores keep, at the last cycle of PREEMPTWAIT. -/
theorem witness_preemptwait : let s := { winBase (went false false [wst 0 0] []) with cores := [], time := 2 ^ 24, parts := [(0, { Part.reset with dies := 8, pre := .asked })] }
    s.waitsWindow 0 = true ∧ (s.part 0).preSince + (s.part 0).preemptwait ≤ s.time := by decide +kernel
/-- R56, R424: a partition whose only context waits for a full word that no one can fill, for DEADTIME cycles. -/
theorem witness_deadlock : let s := { (partBase id).onMe (fun x => { x with st := .parked, await := .syncEmpty (pad 64) }) with time := 2 ^ 20 }
    (s.part 0).frozen = false ∧ s.deadNow 0 = true ∧ (s.part 0).idleSince + (s.part 0).deadtime ≤ s.time := by decide +kernel

/-- A message in slot 5 of queue 1 of core 0, not held. -/
def waitMsg : QMsg := ⟨⟨⟨3, 0, 1, 0, 0, 0, 0, 9⟩, [0x400001, 1, 2, 3, 4], [], .plain⟩, 5, 0, 0, false, none⟩
/-- Core 0 with context 1 free and that message waiting. -/
def startBase (m : QMsg) : State :=
  let s := (base []).onCore 0 (fun k => k.setQueue 1 [m])
  { s with time := 65537 }
theorem witness_start : (startBase waitMsg).startable 0 1 = some (1, waitMsg) ∧ waitMsg.msg.info = .plain ∧ waitMsg.msg.env.kind ≠ 4 ∧
    (⟨waitMsg, 1, 0, 1, false, false, false⟩ : Act).codeLine = false ∧ (startBase waitMsg).detAt 0 = false ∧ (det (startBase waitMsg)).firstStart 0 = some 1 ∧
    (startBase { waitMsg with msg := { waitMsg.msg with info := .rlcExit 2 true } }).startable 0 1 = some (1, { waitMsg with msg := { waitMsg.msg with info := .rlcExit 2 true } }) ∧
    waitMsg ∈ ((startBase waitMsg).core 0).queue 1 ∧ ((startBase waitMsg).part ((startBase waitMsg).pOf 0)).pre = .running ∧
    waitMsg.since + 65536 < (startBase waitMsg).timeAt 0 ∧ ¬ (waitMsg.since + 65536 < (base []).timeAt 0) := by decide +kernel
/-- A complete request of core 3 with number 31, at the number expected or one behind it. -/
def asmBase (n : Nat) : State :=
  (base []).onEp 0 (fun e => { e with
    expect := [(3, n)]
    asm := [⟨3, 31, 0, [0], .msg waitMsg.msg, 1⟩]
    kept := [⟨3, 31, .ok⟩] })
theorem witness_reassembly : let a : Asm := ⟨3, 31, 0, [0], .msg waitMsg.msg, 1⟩
    takeFirst (fun (x : Asm) => x.got.length == x.mlen + 1) ((asmBase 31).ep 0).asm = some (a, []) ∧
      (31 + 32 - AMap.get 0 ((asmBase 31).ep 0).expect 3) % 32 < 16 ∧ ((asmBase 31).ep 0).ready = [] ∧
      16 ≤ (31 + 32 - AMap.get 0 ((asmBase 0).ep 0).expect 3) % 32 ∧
      ((asmBase 0).ep 0).kept.find? (fun k => k.src == 3 && k.num == 31) = some ⟨3, 31, .ok⟩ ∧
      ((asmBase 30).ep 0).ready.any (fun y => y.src == a.src && y.num == a.num) = false ∧ (31 + 32 - AMap.get 0 ((asmBase 30).ep 0).expect 3) % 32 < 16 ∧
      Endp.due { (asmBase 30).ep 0 with ready := [⟨a.src, a.num, a.kind, a.body, 0⟩] } InReq.atOnce = none := by decide +kernel
/-- An interface with one waiting message that has a slot (R36). -/
theorem witness_admit : let s := (base []).onCore 0 (fun k => { k with waiting := [⟨waitMsg.msg, none, false, 0⟩] })
    (s.core 0).waiting = [⟨waitMsg.msg, none, false, 0⟩] ∧ (match (s.enters 0 waitMsg.msg none 0).2 with | .queued => true | _ => false) = true := by decide +kernel

/-- R47: a parked context whose word is full. -/
theorem witness_resume : let s := ((base []).onMe (fun x => { x with st := .parked, await := .syncEmpty (pad 64) })).onMem (fun m => m.setFull (localKey 0 0 1 64))
    (s.ctx 0 0).st = .parked ∧ s.parkDue 0 0 = true ∧ s.detAt 0 = false ∧ s.frozenAt 0 = false ∧ s.rests 0 = false := by decide +kernel
/-- A context that migrates to die 7, where core 3,584 runs its task or does not. -/
def migBase (there : Bool) : State :=
  let s := (base []).onMe (fun x => { x with st := .parked, await := .migrate 7 })
  if there then s.onCore 3584 (fun k => k.setTask 0 placeTask) else s
theorem witness_migration : ∀ b : Bool, let s := migBase b
    let x := s.ctx 0 0
    x.st = .parked ∧ x.await = .migrate 7 ∧ s.shipReady 0 0 = true ∧ x.hold = false ∧ s.migTarget 0 0 7 = (if b then some (3584, 0) else none) ∧
      s.rests 0 = false ∧ s.canLeave 0 x.sendBuf = true := by decide +kernel
/-- R53: a wayfarer of core 3,584 for the free context 2. -/
theorem witness_wayfarer : let w := (base []).me.wayfarer 3584 0 2
    let s := (base []).onCore 0 (fun k => { k with arrivals := [w] })
    takeFirst (fun (w : Wayfarer) => w.ctx == 2 % 4) (s.core 0).arrivals = some (w, []) ∧ (s.ctx 0 2).st = .free ∧ ¬ (w.hopCore = 0 ∧ w.hopCtx % 4 = 2 % 4) := by
  decide +kernel
/-- R449: core 1 fused away and hosted by core 0, in the last cycle of a turn of core 0 and in a quantum that core 0 has ended. -/
theorem witness_turn : let s := (({ base [] with pkg := { Pkg.reset with fused := [1] }, time := 4096 } : State).onCore 1 (fun k => k.setCtx 0 (base []).me))
    s.pairOf 1 = some (1, 0) ∧ s.turnOf 0 = (0, 0) ∧ s.detAt 1 = false ∧ (s.core 1).hasWork = true ∧ (s.turnOf 0).2 + 4096 ≤ s.time ∧
      (let u := (det s).onCore 0 (fun k => { k with qdone := true })
       u.pairOf 1 = some (1, 0) ∧ u.turnOf 0 = (0, 0) ∧ u.detAt 1 = true ∧ (u.core 0).qdone = true ∧ (u.core 1).qdone = false) := by decide +kernel
theorem witness_budget : let s := (base []).onMe (fun x => { x with budget := 0 })
    (s.ctx 0 0).charged = true ∧ (s.ctx 0 0).budget = 0 ∧ s.frozenAt 0 = false := by decide +kernel
/-- R57: a core that has retired its quantum. -/
theorem witness_quantum : let s := (det (base [])).onCore 0 (fun k => { k with retired := 8192 })
    s.detAt 0 = true ∧ (s.core 0).qdone = false ∧ s.rests 0 = false ∧ (s.core 0).quant.toNat ≤ (s.core 0).retired := by decide +kernel
/-- A core of the shape that has ended its quantum, with what it has raised in it. -/
def quantumBase (l : List Adv) (q : List Deliv) : State :=
  ((det (base [])).onCore 0 (fun k => { k with qdone := true, advs := l })).onPart 0 (fun P => { P with taskq := q })
/-- What nothing else in the quantum may be. -/
def quietEnd (s : State) : Bool :=
  s.quantumDue 0 && (s.advsDo 0).2 && (s.part 0).fevs.isEmpty && s.rlcs.isEmpty && s.rings.isEmpty && s.fus.isEmpty && s.boardUpd.isEmpty && (s.part 0).events.en == false &&
    (s.part 0).trapHost == false
/-- R453: one channel advance of 2 that waits for the end of the quantum. -/
theorem witness_advance : let a : Adv := ⟨0, 0, 0, 0, 0, localKey 0 0 1 16, pad 16, 2⟩
    let s := quantumBase [a] []
    quietEnd s = true ∧ s.Inv ∧ (s.part 0).taskq = [] ∧ 0 ∈ s.shapeCores 0 ∧ (s.core 0).advs = [a] ∧ (∀ n ∈ s.shapeCores 0, n ≠ 0 → (s.core n).advs = []) ∧
      isLocal a.va = true ∧ s.mem.poisoned a.pa 8 = false := by decide +kernel
/-- R58: two messages that contexts 0 and 1 have returned, the later first. -/
theorem witness_reentries : let d := fun (ctx : Nat) => (⟨0, ctx, 0, placeAct.m.msg, Sender.none, some (2, ctx), 0⟩ : Deliv)
    let s := quantumBase [] [d 1, d 0]
    quietEnd s = true ∧ (s.part 0).taskq = [d 1, d 0] ∧ (∀ n ∈ s.shapeCores 0, (s.core n).advs = []) ∧ (d 0).core = (d 1).core ∧ (d 0).ctx < (d 1).ctx ∧
      s.pOf 0 = 0 ∧ s.taskLive 0 (d 0).msg = true ∧ s.taskLive 0 (d 1).msg = true := by decide +kernel
/-- R196, R197: a debugged context held, parked at a BKPT, and about to match its breakpoint 4; and one that cannot decode. -/
theorem witness_debug : let s := (partBase (fun P => { P with debugOn := true })).onMe (fun x => { x with hold := true })
    s.debugAt 0 = true ∧ (s.ctx 0 0).await ≠ .shipped ∧ (s.ctx 0 0).rpend = false ∧ (s.ctx 0 0).rbuf = [] ∧ (s.ctx 0 0).stall = 0 ∧ (s.ctx 0 0).hold = true ∧
      (s.ctx 0 1).st ≠ .running := by decide +kernel
theorem witness_breakpoint : let s := (base []).onCore 0 (fun k => { k with bps := k.bps.set 3 ⟨true, 0x400001, 0⟩ })
    (s.at 0 0).matchBp 0 (c4 0).val = some 4 ∧ (s.ctx 0 0).exitTrap = none ∧ (s.ctx 0 0).st = .running ∧ (s.ctx 0 0).hold = false ∧ (s.ctx 0 0).budget ≠ 0 ∧ s.idle 0 = false ∧
      (let u := (base []).onMe (fun x => { x with st := .parked, await := .bkpt true })
       (u.ctx 0 0).st = .parked ∧ (u.ctx 0 0).await = .bkpt true ∧ u.rests 0 = false) := by decide +kernel
theorem witness_decoding_fault : let s := State.reset.withFetchWord 16 4
    (s.ctx 0 0).st = .running ∧ (s.ctx 0 0).hold = false ∧ (s.ctx 0 0).budget ≠ 0 ∧ s.idle 0 = false ∧ (s.ctx 0 0).exitTrap = none ∧
      (s.at 0 0).matchBp 0 (c4 0).val = none ∧ (match (s.at 0 0).fetch with
      | .ok f _ => (match decode f.head f.tail with | .ok _ => false | .error _ => true)
      | .stop _ _ => false) = true := by decide +kernel
/-- An exit message that its command traps, about to issue its first instruction, in a step and as an event. -/
theorem witness_exit_trap : let s := (State.reset.withFetchWord 16 1).onMe (fun x => { x with
      act := some { placeAct with m := { placeAct.m with msg := { placeAct.m.msg with info := .rlcExit 2 true } } } })
    (s.ctx 0 0).st = .running ∧ (s.ctx 0 0).hold = false ∧ (s.ctx 0 0).budget ≠ 0 ∧ s.idle 0 = false ∧ (s.ctx 0 0).exitTrap = some 2 ∧
      s.agenda = [] ∧ (s.core 0).issued = false ∧ (s.core 0).expired = none ∧ s.barred 0 = false ∧ (s.core 0).next (s.detAt 0) = some 0 := by decide +kernel
/-- A router's torus inputs on one plane. -/
def flitBase (r : Nat) (rsp : Bool) (f : Flit) : State := { base [] with routers := [(r, if rsp then { Router.reset with in1 := [f] } else { Router.reset with in0 := [f] })] }
/-- A response of core 4,095 to core 0, with number 31. -/
def rspFlit (hdr : Word) : Flit := mkFlit hdr [] (.rsp .ok)
/-- R246, R250: at router 0 a flit for router 255, one for core 0, and one whose header fails its CRC. -/
theorem witness_router_send : let f : Flit := mkFlit (mkHdr 4095 0 0 31 7 0) [] (.req (.msg waitMsg.msg))
    let s := flitBase 0 false f
    (s.router 0).moved false = false ∧ s.injector 0 false true = none ∧ s.injector 0 false false = none ∧ (s.router 0).ins false = [f] ∧ hdrBad f.hdr = false ∧
      s.dstRouter (hSrc f.hdr) (hDst f.hdr) = 255 ∧ s.pick 0 [] 255 = some .mx := by decide +kernel
theorem witness_router_eject : let f := rspFlit (mkHdr 0 4095 (rspKind 0 4095) 31 0 0)
    let s := flitBase 0 true f
    (s.router 0).moved true = false ∧ s.injector 0 true true = none ∧ s.injector 0 true false = none ∧ (s.router 0).ins true = [f] ∧ hdrBad f.hdr = false ∧
      s.dstRouter (hSrc f.hdr) (hDst f.hdr) = 0 ∧ hKind f.hdr ≠ 15 ∧
      (s.ep (hDst f.hdr)).rsps = [] ∧ f.crcOk = true ∧ ({ f with crc := f.crc + 1 } : Flit).crcOk = false := by decide +kernel
theorem witness_router_poison : let f := rspFlit (mkHdr 0 4095 (rspKind 0 4095) 31 0 0 ^^^ 1)
    let s := flitBase 255 true f
    (s.router 255).moved true = false ∧ (s.router 255).done0 = false ∧ s.injector 255 true true = none ∧ s.injector 255 true false = none ∧ (s.router 255).ins true = [f] ∧ hdrBad f.hdr = true := by decide +kernel
/-- R258, R248: a POISON header at die 7's controller, and a flit that core 0 has held for 128 cycles. -/
theorem witness_poison_throttle : let s := ((base []).onEp (4096 + 0x47) (fun e => { e with poison := [5] })).onEp 0 (fun e => { e with wait0 := 128 })
    (s.ep (4096 + 0x40 + 7)).poison = [5] ∧ 0 ∈ portEps 0 true ∧ 128 ≤ (s.ep 0).waited false := by decide +kernel

/-- A read that context 0 of core 0 has sent to home 5 with number 7. -/
def outRead (backoff : Option Nat) (resends : Nat) : OutReq := ⟨4096 + 5, 7, 3, .rld .plain false 0 0x4000 8 0x400000, Sender.none, .reply, 0, 0, backoff, resends⟩
/-- The core that waits for its answer, and what has come in. -/
def outBase (o : OutReq) (l : List InRsp) : State :=
  let s := ((base []).onMe (fun x => { x with rpend := true })).onEp 0 (fun e => { e with out := [o], rsps := l })
  { s with time := 8192 }
/-- R256, R257: the last of a response's states each, a NACK, a stay notice, and a time-out of the last resend and of the one before. -/
theorem witness_responses : ∀ b ∈ [FlitBody.rsp (.block []), .rsp (.plain .fault 1), .rsp (.plain .held 0), .rsp (.plain .busy 0), .rsp { Rsp.plain .busy 0 with k0 := true }, .nack, .stay 0, .stay 1],
    let s := outBase (outRead none 0) [⟨4096 + 5, 7, 0, [0], b⟩]
    (s.ep 0).out.find? (fun x => x.dest == 4096 + 5 && x.num == 7) = some (outRead none 0) ∧ (s.ctx 0 0).rpend = true ∧ (s.ep 0).backlog = [] ∧
      (s.ep 0).rsps = [⟨4096 + 5, 7, 0, [0], b⟩] ∧ (s.ep 0).out.filter (fun x => x.num == 7) = [outRead none 0] ∧ (s.ctx 0 0).st = .running := by decide +kernel
theorem witness_timeouts : ∀ n ∈ [15, 16], let s := outBase (outRead none n) []
    (s.ep 0).out.find? (fun x => x.dest == 4096 + 5 && x.num == 7) = some (outRead none n) ∧ (outRead none n).timer + Config.retx ≤ s.time ∧ (outRead none n).isRemote = true ∧
      (s.ep 0).backlog = [] ∧ (outRead (some 8192) n).backoff = some 8192 ∧ 8192 ≤ s.time := by decide +kernel

/-- A request at the interface of home 5, whose turn it is, in a state. -/
def homeBase (b : ReqBody) (s : State) : State := s.onEp (4096 + 5) (fun e => { e with ready := [⟨0, 31, 0, b, 0⟩], expect := [(0, 31)] })
/-- The block of the requests below, and whether its word is full. -/
def homeMem (full : Bool) : State := (base []).onMem (fun m => if full then m.setFull 0x4000 else m)
/-- R159, R260, R261: requests that a home performs, which came in an earlier cycle. -/
theorem witness_home_performs : ∀ e ∈ ([(InReq.asks, .rld .plain false 0 0x4000 8 0x4000), (InReq.asks, .rld .synce false 0 0x4000 8 0x4000),
      (fun r => r.body.sort == .write, .rst false 0 0 0x4000 8 7 0 0x4000 0 false), (fun r => r.body.sort == .write, .rst true 0 0 0x4000 8 7 0 0x4000 0 false),
      (fun r => r.body.sort == .atomic, .rat 0 false 0 0 0x4000 8 1 0 0x4000),
      (InReq.isMode .confirm, .rld .confirm false 0 0x4000 8 0x4000), (InReq.isMode .ret, .rld .ret false 0 0x4000 8 0x4000),
      (InReq.isMode .cancel, .rld .cancel false 3 0x4000 8 0x4000)] : List ((InReq → Bool) × ReqBody)),
    let s := { homeBase e.2 (homeMem (e.2.sort != .write)) with time := 1 }
    (s.home 5).wait = [] ∧ (s.ep (4096 + 5)).due e.1 = some (⟨0, 31, 0, e.2, 0⟩, []) ∧ s.homePlan 5 0 e.2 = .perform e.2 ∧ (0 : Nat) ≠ s.time ∧
      s.mem.poisoned 0x4000 8 = false ∧ s.tooEarly 0 e.2 = false ∧ s.hasMoved 0 0x4000 = false ∧ (s.onMem (fun m => m.setPoison 0x4000 true)).mem.poisoned 0x4000 8 = true := by decide +kernel
/-- A read of core 0 with number 3, last told of its stay at a cycle. -/
def lodged (told : Nat) : Lodged := ⟨0, 3, .rld .plain false 0 0x4000 8 0x4000, 0, told⟩
/-- R261: a SYNC of an empty word waits, with 63 entries in the list. -/
theorem witness_home_waits : let b := ReqBody.rld .sync false 0 0x8000 8 0x8000
    let s := { homeBase b (homeMem false) with homes := [(5, { Home.reset with wait := List.replicate 63 (lodged 0) })] }
    (s.ep (4096 + 5)).due InReq.asks = some (⟨0, 31, 0, b, 0⟩, []) ∧ s.homePlan 5 0 b = .wait b ∧ (s.home 5).wait.length < 64 := by decide +kernel
/-- R261: a CANCEL of the only waiting entry. -/
theorem witness_home_cancels : let b := ReqBody.rld .cancel false 0 0x8000 8 0x8000
    let s := { homeBase b (homeMem false) with homes := [(5, { Home.reset with wait := [⟨0, 3, .rld .sync false 0 0x8000 8 0x8000, 0, 0⟩] })] }
    (s.ep (4096 + 5)).due (InReq.isMode .cancel) = some (⟨0, 31, 0, b, 0⟩, []) ∧ (s.home 5).wait.filter (fun l => !l.cancelled 0 b) = [] := by decide +kernel
/-- R262, R263: the oldest lodged read, whose page stands, 4,096 cycles after it was last told. -/
theorem witness_lodge : let s : State := { base [] with homes := [(15, { Home.reset with lodge := [lodged 10] })], time := 4106 }
    (s.home 15).lodge = [lodged 10] ∧ (s.home 15).wait = [] ∧ s.retranslate 0 0x4000 0x4000 = some 0x4000 ∧ secondTier 0x4000 = false ∧ s.mem.poisoned 0x4000 8 = false ∧
      (lodged 10).told + 4096 ≤ s.time := by decide +kernel

/-- R142, R251: a write of two bytes at core 0, one between engines, and the writing phase of a replica write, without and with a poisoned source. -/
theorem witness_engine_writes : ∀ e ∈ [(0, ReqBody.ewr 0x4000 [1, 2] ⟨false, false, 0⟩ 0 0), (4096 + 8, .xfer 0x4000 [1, 2] ⟨false, false, 0⟩ 0 0),
      (4096 + 8, .repl 0 1 0x4000 8 7 false false), (4096 + 8, .repl 0 1 0x4000 8 7 false true)],
    let s := (base []).onEp e.1 (fun x => { x with ready := [⟨4096, 31, 0, e.2, 0⟩], expect := [(4096, 31)] })
    (s.ep e.1).due (fun r => r.body.sort == e.2.sort) = some (⟨4096, 31, 0, e.2, 0⟩, []) ∧ s.Inv ∧
      (e.2.sort = .ewr ∨ (e.2.sort == .repl || e.2.sort == .xfer) = true) ∧ (s.home 0).jobs = [] ∧ (s.home 8).wait = [] := by decide +kernel
/-- R142, R318: a streamer's read of a line, marked and not, at an engine. -/
theorem witness_streamer_read : ∀ mark ∈ [[], [blockOf 0x4000]], let r : InReq := ⟨4096 + 9, 31, 7, .rld .plain false 15 0x4000 8 0x400000, 0⟩
    let s := { (base []).onEp (4096 + 8) (fun x => { x with ready := [r], expect := [(4096 + 9, 31)] }) with homes := [(8, { Home.reset with marks := mark })] }
    (s.ep (4096 + 8)).due (fun r => r.body.sort == .repl || r.body.sort == .xfer || (r.body.sort == .read && r.kind == 7)) = some (r, []) ∧
      sMem (blockOf 0x4000) (s.home 8).marks = !mark.isEmpty := by decide +kernel
/-- R305: a running operation of an earlier cycle behind which another has closed. -/
theorem witness_matrix_flip : let g : GOp := ⟨[⟨0, 0, [pad 0, pad 0x4000, pad 0x8000, 0x80010, 0, 0, 0], 0x15, clus 0⟩], 0, 0, 0⟩
    let s := { base [] with rings := [(0, { Ring.reset with running := some g, closed := some g })], time := 1 }
    (s.ring 0).running = some g ∧ g.since ≠ s.time ∧ s.detAt 0 = false ∧ (s.part (s.pOf 0)).events.en = false ∧ s.Inv := by decide +kernel
/-- R305, R314: a chained operation of one element of C, which lies outside its barrier. -/
theorem witness_matrix_output : let g : GOp := ⟨(List.range 16).map (fun n => ⟨n, 0, [pad 0, pad 0x4000, pad 0x8000, 0x2000001, 0, 0, 0], 0x15, clus 0⟩), 0, 0, 0⟩
    let key := memberKey (g.member 0).core (g.member 0).barrier
    (opOuts (base []).mem g).length = 1 ∧ (opOuts (base []).mem g).Pairwise (fun a b => a.key + 4 ≤ b.key ∨ b.key + 4 ≤ a.key) ∧
      ∀ o ∈ opOuts (base []).mem g, o.key + 4 ≤ key ∨ key + 16 ≤ o.key := by decide +kernel

/-- A record of XFERID 5 that copies 16 bytes from a pointer. -/
def copyRcd (a : Word) : List Word := [a, pad 0x2000, 0x0005000000000000, 0x100000010, 0x100000001, 0, 0, 0, 0, 0, 0, 0, 0, 0]
/-- A channel with that record before its element `next`. -/
def chanOf (a : Word) (next : Nat) : StrChan := ⟨0, 0, 0, 0, copyRcd a, 0, 0, 7, next, [], 0, false, 0, 0, false, none, []⟩
/-- R317: a request at streamer 7, 15 of whose channels are in use. -/
theorem witness_copy_accept : let b := ReqBody.copy 0 0 0 0 (copyRcd (pad 0)) 0 0
    let s := ({ base [] with strs := [(7, ⟨(List.range 15).map (fun n => (n, chanOf (pad 0) 0))⟩)] } : State).onEp (4096 + 15) (fun e =>
      { e with ready := [⟨0, 31, 2, b, 0⟩], expect := [(0, 31)] })
    strEng 7 = 15 ∧ (s.ep (4096 + 15)).due (fun r => r.body.sort == .copy) = some (⟨0, 31, 2, b, 0⟩, []) ∧
      (upTo 16).find? (fun n => (AMap.find (s.str 7).chans n).isNone) = some 15 := by decide +kernel
/-- What a channel does next: 0 it ends, 1 it finds a page absent, 2 it fails, 3 it reads a local memory, 4 another. -/
def nextIs (r : CopyNext) : Nat := match r with | .ended => 0 | .absent _ => 1 | .fault _ => 2 | .read _ (.here _ _ _ (some _)) _ _ => 3 | .waits | .read _ _ _ _ | .write _ _ _ => 4
/-- R326, R327: a copy that is over, one whose page is absent, one whose page can not be read, and the last element of one from a scratchpad. -/
theorem witness_copy_ends : ∀ e ∈ [(pad 0, 16, 0), (0x0000010000000000, 0, 1), (0x8000000000, 0, 2), (pad 0, 15, 3)],
    let c := chanOf e.1 e.2.1
    let s := { (base []).onMem (fun m => m.write (placeTable + 8) 8 0x27F) with strs := [(7, ⟨[(15, c)]⟩)] }
    AMap.find (s.str 7).chans 15 = some c ∧ c.lodged = false ∧ s.copyTurn c = true ∧ c.rcd.getD 11 0 = 0 ∧ c.rcd.getD 12 0 = 0 ∧ s.lodgeCount (strHome 7) < 64 ∧
      nextIs (s.copyNext 7 c) = e.2.2 := by decide +kernel
/-- R321: a change of state that has reached core 0's board. -/
theorem witness_board : ∀ st ∈ [XferSt.accepted, .complete], let s := { ((base []).onCore 0 (fun k => { k with board := [boardE 7 .issued []] })) with boardUpd := [⟨0, 0, 7, st, 5⟩] }
    s.detAt 0 = false ∧ takeFirst (fun (u : BoardUpd) => u.core == 0) s.boardUpd = some (⟨0, 0, 7, st, 5⟩, []) ∧ (s.core 0).board = [boardE 7 .issued []] ∧
      (boardE 7 .issued []).tag = 0 ∧ (boardE 7 .issued []).xferid = 7 ∧ (boardE 7 .issued []).st.final = false ∧ (boardE 7 .issued []).waiters = [] := by
  decide +kernel

/-- R340, R347: block 1 waits with its neighbour's copy reached, and a notice for it has come. -/
theorem witness_front_events : let b := blkAt1 .waiting 4 [⟨2, .sync, 4⟩]
    let s := { base [] with fus := [(0, ⟨[(1, b), (2, blkAt1 .done 8 [])], 2, [⟨1, 2, 6, 8⟩], none, []⟩)], fronts := [⟨0, 0, 3, .running⟩] }
    s.partKey 0 = 0 ∧ (s.part 0).det = false ∧ (s.part 0).pre = .running ∧ (s.part 0).frozen = false ∧ (s.fu 0).doneAt ≠ some s.time ∧
      s.scanNext 0 = some (1, b) ∧ s.fuOf 0 1 = 0 ∧
      (s.part 0).dies = 8 ∧ (s.fu 0).notices = [⟨1, 2, 6, 8⟩] ∧ s.blk 0 1 = some b ∧ (s.blk 0 2).map (·.bind) = some 6 := by decide +kernel
/-- R355: the commit of w3's witness, waiting. -/
def commitBase : State := (frontBase .dispatched .running [(10, 1), (11, 8)]).onMe (fun x => { x with
  stall := Stall.fence.code
  latch := ⟨0xC900, 0x52C3, 1, 0⟩
  act := some { placeAct with m := { placeAct.m with msg := { placeAct.m.msg with info := .dispatch 1 } } } })
theorem witness_front_commit_waits : let s := commitBase
    (s.ctx 0 0).st = .running ∧ (s.ctx 0 0).hold = false ∧ (s.ctx 0 0).stall = Stall.fence.code ∧ s.rests 0 = false ∧
      (match decode (s.ctx 0 0).latch.head (s.ctx 0 0).latch.tail with
        | .ok (.lvcommit x y) => (match (s.at 0 0).lvcommitDo ((s.at 0 0).g x) ((s.at 0 0).g y) with | .ok () _ => true | .stop _ _ => false)
        | _ => false) = true := by decide +kernel
/-- A packet of one store of 8 bytes from entry 511 of X0 of package 9 to window 1,023. -/
def pktOf1 (k : PktKind) (seq : BitVec 32) : Pkt := ⟨some 0, k, 0, 9, 1023, 511, 0, 0xFF8, seq, if k = .store then 1 else 0, if k = .store then [1, 2, 3, 4, 5, 6, 7, 8] else []⟩
/-- R374, R375: the first of two stores of an entry sends, over a link that has a key. -/
theorem witness_window_send : let w := went false false [wst 0 0xFF8, wst 1 0x1000] []
    let s := { winBase w with links := [(0, { Link.reset with up := true, tx := { LinkDir.reset with slot0 := some slotK } })] }
    s.went 0 511 = w ∧ w.v = true ∧ w.headDue = true ∧ (s.link w.link).up = true ∧ (s.link w.link).tx.keyHold = false ∧ packMore (wst 0 0xFF8) [wst 1 0x1000] 0x1000 8 1 = 1 := by decide +kernel
theorem witness_window_acks : ∀ p ∈ [pktOf1 .ack 1, pktOf1 .ack 0, pktOf1 .miss 0], let w := went false false [] [wst 0 0]
    let s := (winBase w).onWin 0 (fun e => { e with rxq := [p] })
    takeFirst (fun (q : Pkt) => q.kind == p.kind) (s.win 0).rxq = some (p, []) ∧ p.sxd = 0 ∧ p.sentry = 511 ∧ s.went 0 511 = w ∧
      (p.seq - w.acked).toNat ≤ w.outst.length ∧ w.v = true ∧ w.broken = false := by decide +kernel
/-- The target of a packet: window 1,023 over the placed line's page, which is a receive page or is not, and the path closed or not. -/
def targetBase (page closed : Bool) (p : Pkt) : State :=
  let s := (base []).onMem (fun m => if page then m.write (placeTable + 8) 8 0x47F else m)
  { s with
    wins := [(0, { WinEng.reset with rxq := [p] })]
    rxwin := [(1023, ⟨true, false, 0, 9, 1, 2 ^ 27⟩)]
    paths := [(p.path, ⟨5, closed⟩)] }
/-- What a packet comes to: 0 applied, 1 a MISS, 2 it waits. -/
def reflects (r : Refl) : Nat := match r with | .ack _ => 0 | .miss => 1 | .absent | .waits => 2
/-- R375: a packet in sequence that is applied, and one on a closed path. -/
theorem witness_window_target : ∀ e ∈ [(true, false, 0), (true, true, 0)], let p := pktOf1 .store 5
    let s := targetBase e.1 e.2.1 p
    takeFirst (fun p => s.pktDue 0 p) (s.win 0).rxq = some (p, []) ∧ (s.pathAt p.path).closed = e.2.1 ∧ p.seq = (s.pathAt p.path).exp ∧
      reflects ((s.onWin 0 (fun e => { e with rxq := [] })).reflect p) = e.2.2 := by decide +kernel
/-- R375: a packet past its window's end. -/
theorem witness_window_miss : let p := { pktOf1 .store 5 with off := 0x1000 }
    let s := targetBase true false p
    takeFirst (fun p => s.pktDue 0 p) (s.win 0).rxq = some (p, []) ∧ (s.pathAt p.path).closed = false ∧ p.seq = (s.pathAt p.path).exp ∧
      reflects ((s.onWin 0 (fun e => { e with rxq := [] })).reflect p) = 1 := by decide +kernel
/-- R375, R383: a packet that has been applied already, on an open path. -/
theorem witness_window_again : let p := { pktOf1 .store 3 with via := none }
    let s := targetBase true false p
    takeFirst (fun p => s.pktDue 0 p) (s.win 0).rxq = some (p, []) ∧ (s.pathAt p.path).closed = false ∧ p.seq ≠ (s.pathAt p.path).exp := by decide +kernel
/-- R376: a store of a loop-back entry into window 5 of the same module. -/
theorem witness_loopback : let w : WEnt := ⟨true, true, false, 0, 0, 0, 1023, 1, 5, 0, [wst 5 0xFF8], [], false⟩
    let s1 := targetBase true false { pktOf1 .store 5 with spkg := 0 }
    let s := { s1 with wins := [(0, { WinEng.reset with ents := [(511, w)] })], rxwin := [(1023, ⟨true, false, 0, 0, 1, 2 ^ 27⟩)] }
    let k := s.pktOf 0 511 w 1 none
    s.went 0 511 = w ∧ w.headDue = true ∧ (s.pathAt k.path).closed = false ∧ (s.pathAt k.path).exp = 5 ∧ (s.win 0).lodges k.path = false ∧ reflects (s.reflect k) = 0 ∧
      reflects ((s.sentStores 0 511 w 1).reflect k) = 0 := by decide +kernel
/-- R371, R375: an idle broken entry that has been reopened, written with the greatest size, and a path of another package. -/
theorem witness_window_writes : let w := { went false true [] [] with reopened := true }
    (winBase w).went 0 511 = w ∧ w.q = [] ∧ w.outst = [] ∧ (winBase w).wstFlying 0 511 = false ∧ bitsNat (0x87000000003FFFFF : Word) 0 22 ≠ 0 ∧ (0x87000000003FFFFF : Word).getLsbD 63 = true ∧
      (0x87000000003FFFFF : Word).getLsbD 62 = false ∧ bitsNat (0x87000000003FFFFF : Word) 56 4 / 8 = 0 ∧ (0x7FFFFFFFFFFFFFFF : Word).getLsbD 63 = false ∧
      1024 / 1024 ≠ (winBase w).pkg.number.toNat ∧ (winBase w).pkg.boot ≠ .recovery ∧ ({ Pkg.reset with boot := .recovery } : Pkg).boot = .recovery := by decide +kernel

/-- A flit of a link with a whole ACK for this package, and one of the link's direction with a key. -/
def flitOf1 (seq : Nat) : LinkFlit := ⟨seq, false, 0, false, true, true, true, true, (pktOf1 .ack 1).bytes⟩
def linkBase (up : Bool) : State := { base [] with links := [(7, { Link.reset with up := up, rxseq := 4095, rx := { LinkDir.reset with slot0 := some slotK }, replay := [flitOf1 3], txseq := 4 })] }
/-- R379-R383: the last sequence before the numbers start again, one out of sequence, the replay buffer's flit, and a link that is down. -/
theorem witness_link : let s := linkBase true
    let l := s.link 7
    let f := flitOf1 4095
    l.up = true ∧ f.crcOk = true ∧ f.seq = l.rxseq ∧ f.tagOk = true ∧ f.slot = l.rx.bit ∧ l.rx.now.isSome = true ∧ f.first = true ∧ f.last = true ∧
      f.stomp = false ∧ l.cut ≠ some 7 ∧ Pkt.parse (some 7) (List.replicate 64 1) = none ∧ Pkt.parse (some 7) f.bytes = some { pktOf1 .ack 1 with via := some 7 } ∧ (pktOf1 .ack 1).dpkg = s.pkg.number.toNat ∧ (flitOf1 0).seq ≠ l.rxseq ∧
      l.replay.any (fun g => g.seq == 3) = true ∧ l.sendq = [] ∧ (linkBase false).elected = true ∧ ({ linkBase false with parts := [], fws := [] } : State).elected = false ∧ ((linkBase false).link 7).up = false ∧ ((linkBase false).link 7).tx.slot0 = none ∧
      ((linkBase false).link 7).tx.slot1 = none ∧ ((winBase (went false false [] [])).went (0 / 8) 511).v = true := by decide +kernel
/-- R383, R450: a link that has been reported down, one that has never trained, and one that is up. -/
theorem witness_link_down : let s := linkBase false
    let never := s.link 7
    let told := { never with downAt := 5 }
    never.up = false ∧ never.downAt = 0 ∧ never.cut ≠ some 7 ∧ told.up = false ∧ told.downAt ≠ 0 ∧ ((linkBase true).link 7).up = true := by decide +kernel

/-- R442-R445: the last cycle of an interval, and the host's allotments with no task launched. -/
theorem witness_power : let s := { idleBase with pkg := { Pkg.reset with powerHost := true, tokenAt := 5 }, time := 20005 }
    s.pkg.tokenAt + 20000 ≤ s.time ∧ s.pkg.powerHost = true ∧ s.idleAll = true ∧ (∀ a ∈ List.replicate 8 2000, 1000 ≤ a) ∧
      (List.replicate 8 2000).sum ≤ 16000 ∧ Pkg.reset.powerHost = false := by decide +kernel
/-- R432, R433: a sample that core 0 has taken, with room for one record and with the ring full. -/
theorem witness_sample : ∀ tail ∈ [63, 64], let r : RingReg := ⟨0x200000, true, 6, 0, 0, BitVec.ofNat 32 tail, 0xFFFFFFFE, 0⟩
    let s := (partBase (fun P => { P with samples := r })).onCore 0 (fun k => { k with samples := [[1, 2, 3, 4]] })
    s.pOf 0 = 0 ∧ (s.core 0).samples = [[1, 2, 3, 4]] ∧ (s.part 0).samples = r ∧ s.ringOwn 0 (r.slotAt 32) = true ∧
      (AMap.find s.parts 0).isSome = true ∧ ((r.tail - r.head).toNat = 2 ^ r.sizelog ↔ tail = 64) ∧ r.drop ≠ 0xFFFFFFFF := by decide +kernel
/-- R437: the first wrap of TIME is due. -/
theorem witness_time_wrap : Part.reset.wraps + 1 ≤ ({ base [] with time := 2 ^ 48 } : State).engTime 0 / 2 ^ 48 ∧
    Part.reset.wraps + 1 ≤ ((det (base [])).onPart 0 (fun P => { P with quanta := 2 ^ 35 })).engTime 0 / 2 ^ 48 := by decide +kernel
/-- R4, R407, R423, R427: a module that runs and one in recovery, a queue that is off and empty, the greatest RETRY, the last word of host memory, which is
in no table, and the other words that may be written there. -/
theorem witness_registers : let s := { base [] with pkg := { Pkg.reset with boot := .running } }
    s.pkg.boot ≠ .recovery ∧ Pkg.reset.boot ≠ .running ∧ ({ Pkg.reset with boot := .recovery } : Pkg).boot = .recovery ∧
    (AMap.find s.parts 0).isSome = true ∧ ((s.part 0).q 63).en = false ∧ ((s.part 0).q 63).head = ((s.part 0).q 63).tail ∧ (15 : Word).toNat ≤ 15 ∧ s.Inv ∧
      (2 ^ 52 - 8) % 8 = 0 ∧ hostMem (2 ^ 52 - 8) = true ∧
      tableLvl s.mem 0 (s.part 0).dies (2 ^ 52 - 8) 4 0 0 (s.part 0).root = none ∧ pteV 0 = false ∧ pteRxw 0 = false ∧ idleBase.idleAll = true := by decide +kernel
/-- R357: a front that runs and one that is frozen, of a bound block. -/
theorem witness_host_front : ∀ f ∈ [FrontSt.running, .frozen], let s := frontBase .waiting f []
    s.blk 0 1 = some (blkAt1 .waiting 4 []) ∧ (s.part 0).det = false ∧ s.frontSt 0 0 3 = f := by decide +kernel

/-- A placed instruction is the next of the next step, and an event on the agenda is well-formed. -/
theorem witness_step : let s := State.reset.withFetchWord 16 1
    s.agenda = [] ∧ (s.core 0).issued = false ∧ (s.core 0).expired = none ∧ s.barred 0 = false ∧ (s.core 0).next (s.detAt 0) = some 0 ∧
      (let s1 : State := { (s.onCore 0 (fun k => { k with issued := true, rot := 0 })) with cur := (0, c4 0) }
       s1.me.exitTrap = none ∧ s1.matchBp 0 (c4 0).val = none ∧ (match s1.fetch with | .ok f _ => (match decode f.head f.tail with | .ok i => i == .done | .error _ => false) | .stop _ _ => false) = true) ∧
      (Instr.tokenReallot).wf = true ∧ (Instr.tokenReallot).isCore = false := by decide +kernel
theorem witness_encode : (Instr.addI48 7 ⟨true, 3⟩ 31 0x800000000000).isCore = true ∧ (Instr.addI48 7 ⟨true, 3⟩ 31 0x800000000000).wf = true := by decide +kernel
/-- The invariant holds of a state that lists bytes of memory, and the step from it answers a next state. -/
theorem witness_invariant : (State.reset.withFetchWord 16 1).Inv ∧ (match step (State.reset.withFetchWord 16 1) with | .next _ => true | .fault _ | .refused _ => false) = true := by
  decide +kernel

end Sys2Proof.Tests
end

section
/-!
SUPPORT. The invariant of memory under every operation of the model, and O57 from it. `Sound` says of a state, and of whatever a part of the machine
answers, that memory stands in its canonical form; each operation has one lemma, `State.Sound.<operation>`, which takes the soundness of the state that
it starts from. An operation that writes memory cites the law of that write (`Memory.wf_…`); one that is a chain of operations is sound by the chain
of their lemmas (`h.setTrap.parkAt`), and one that chooses is sound by a case split on its branches.
-/

namespace Sys2Proof.Machine

/-! ### Soundness of a state, and of what a computation answers -/

/-- Memory stands in its canonical form. -/
structure State.Sound (s : State) : Prop where
  inv : s.Inv

/-- The state of a computation is sound, whether it completes or stops. -/
inductive Res.Sound {α : Type} : Res α → Prop
  | ok {a : α} {s : State} : s.Sound → Res.Sound (.ok a s)
  | stop {k : Stop} {s : State} : s.Sound → Res.Sound (.stop k s)

/-- The state that a part of a launch answers is sound, where it answers one. -/
inductive Walked.Sound {α : Type} : Walked α → Prop
  | ok {a : α} {s : State} : s.Sound → Walked.Sound (.ok a s)
  | ask {va : Nat} {s : State} : s.Sound → Walked.Sound (.ask va s)
  | later {s : State} : s.Sound → Walked.Sound (.later s)
  | fail {e : QErr} : Walked.Sound (.fail e)

/-- Likewise for a page that firmware needs. -/
inductive Brought.Sound : Brought → Prop
  | here {s : State} : s.Sound → Brought.Sound (.here s)
  | ask {s : State} : s.Sound → Brought.Sound (.ask s)
  | later {s : State} : s.Sound → Brought.Sound (.later s)
  | unmapped : Brought.Sound .unmapped

/-- Likewise for the service of one level. -/
inductive PageIn.Sound : PageIn → Prop
  | done {s : State} : s.Sound → PageIn.Sound (.done s)
  | unmapped : PageIn.Sound .unmapped
  | noFrame : PageIn.Sound .noFrame
  | later : PageIn.Sound .later

/-- Likewise for a packet at its target. -/
inductive Refl.Sound : Refl → Prop
  | ack {s : State} : s.Sound → Refl.Sound (.ack s)
  | miss : Refl.Sound .miss
  | absent : Refl.Sound .absent
  | waits : Refl.Sound .waits

/-- What a search for a frame has found is sound; `st` takes the state out of it. -/
inductive Sought.Sound {α : Type} (st : α → State) : Sought α → Prop
  | got {a : α} : (st a).Sound → Sought.Sound st (.got a)
  | later : Sought.Sound st .later
  | none : Sought.Sound st .none

/-- The state beside a frame that has been taken is sound. -/
def FrameSound (o : Option (Nat × State)) : Prop := ∀ r, o = some r → r.2.Sound

/-- The next state that a meaning answers is sound. -/
inductive OutSound : Host.Outcome State Fault Refusal → Prop
  | next {s : State} : s.Sound → OutSound (.next s)
  | fault {e : Fault} : OutSound (.fault e)
  | refused {e : Refusal} : OutSound (.refused e)

/-! ### Combinators -/

theorem State.Sound.ite {c : Prop} {_ : Decidable c} {a b : State} (ha : a.Sound) (hb : b.Sound) : (if c then a else b).Sound :=
  iteInduction (fun _ => ha) (fun _ => hb)

theorem Res.Sound.ite {α : Type} {c : Prop} {_ : Decidable c} {a b : Res α} (ha : a.Sound) (hb : b.Sound) : (if c then a else b).Sound :=
  iteInduction (fun _ => ha) (fun _ => hb)

theorem Walked.Sound.ite {α : Type} {c : Prop} {_ : Decidable c} {a b : Walked α} (ha : a.Sound) (hb : b.Sound) : (if c then a else b).Sound :=
  iteInduction (fun _ => ha) (fun _ => hb)

theorem OutSound.ite {c : Prop} {_ : Decidable c} {a b : Host.Outcome State Fault Refusal} (ha : OutSound a) (hb : OutSound b) :
    OutSound (if c then a else b) :=
  iteInduction (fun _ => ha) (fun _ => hb)

theorem Brought.Sound.ite {c : Prop} {_ : Decidable c} {a b : Brought} (ha : a.Sound) (hb : b.Sound) : (if c then a else b).Sound :=
  iteInduction (fun _ => ha) (fun _ => hb)

theorem PageIn.Sound.ite {c : Prop} {_ : Decidable c} {a b : PageIn} (ha : a.Sound) (hb : b.Sound) : (if c then a else b).Sound :=
  iteInduction (fun _ => ha) (fun _ => hb)

theorem Refl.Sound.ite {c : Prop} {_ : Decidable c} {a b : Refl} (ha : a.Sound) (hb : b.Sound) : (if c then a else b).Sound :=
  iteInduction (fun _ => ha) (fun _ => hb)

theorem Sought.Sound.ite {α : Type} {st : α → State} {c : Prop} {_ : Decidable c} {a b : Sought α} (ha : a.Sound st) (hb : b.Sound st) :
    (if c then a else b).Sound st :=
  iteInduction (fun _ => ha) (fun _ => hb)

theorem State.Sound.ite_fst {α : Type} {c : Prop} {_ : Decidable c} {a b : State × α} (ha : a.1.Sound) (hb : b.1.Sound) :
    (if c then a else b).1.Sound :=
  iteInduction (motive := fun x : State × α => x.1.Sound) (fun _ => ha) (fun _ => hb)

theorem State.Sound.of_fst {α : Type} {x : State × α} {s : State} {a : α} (h : x.1.Sound) (e : x = (s, a)) : s.Sound := by
  subst e; exact h

theorem Res.Sound.of_ok {α : Type} {r : Res α} {a : α} {s : State} (h : r.Sound) (e : r = .ok a s) : s.Sound := by
  subst e; cases h; assumption

theorem Res.Sound.of_stop {α : Type} {r : Res α} {k : Stop} {s : State} (h : r.Sound) (e : r = .stop k s) : s.Sound := by
  subst e; cases h; assumption

theorem Walked.Sound.of_ok {α : Type} {r : Walked α} {a : α} {s : State} (h : r.Sound) (e : r = .ok a s) : s.Sound := by
  subst e; cases h; assumption

theorem Walked.Sound.of_ask {α : Type} {r : Walked α} {va : Nat} {s : State} (h : r.Sound) (e : r = .ask va s) : s.Sound := by
  subst e; cases h; assumption

theorem Walked.Sound.of_later {α : Type} {r : Walked α} {s : State} (h : r.Sound) (e : r = .later s) : s.Sound := by
  subst e; cases h; assumption

theorem Brought.Sound.of_here {r : Brought} {s : State} (h : r.Sound) (e : r = .here s) : s.Sound := by
  subst e; cases h; assumption

theorem Brought.Sound.of_ask {r : Brought} {s : State} (h : r.Sound) (e : r = .ask s) : s.Sound := by
  subst e; cases h; assumption

theorem Brought.Sound.of_later {r : Brought} {s : State} (h : r.Sound) (e : r = .later s) : s.Sound := by
  subst e; cases h; assumption

theorem PageIn.Sound.of_done {r : PageIn} {s : State} (h : r.Sound) (e : r = .done s) : s.Sound := by
  subst e; cases h; assumption

theorem Refl.Sound.of_ack {r : Refl} {s : State} (h : r.Sound) (e : r = .ack s) : s.Sound := by
  subst e; cases h; assumption

theorem Sought.Sound.of_got {α : Type} {st : α → State} {r : Sought α} {a : α} (h : r.Sound st) (e : r = .got a) : (st a).Sound := by
  subst e; cases h; assumption

theorem State.Sound.foldl {α : Type} {f : State → α → State} {l : List α} {s : State} (h : s.Sound)
    (hf : ∀ s a, s.Sound → (f s a).Sound) : (l.foldl f s).Sound := by
  induction l generalizing s with
  | nil => exact h
  | cons a t ih => exact ih (hf s a h)

theorem State.Sound.foldl_fst {α β : Type} {f : State × β → α → State × β} {l : List α} {x : State × β} (h : x.1.Sound)
    (hf : ∀ x a, x.1.Sound → (f x a).1.Sound) : (l.foldl f x).1.Sound := by
  induction l generalizing x with
  | nil => exact h
  | cons a t ih => exact ih (hf x a h)

theorem Res.Sound.bind {α β : Type} {r : Res α} {f : α → State → Res β} (h : r.Sound) (hf : ∀ a s, s.Sound → (f a s).Sound) :
    (r.bind f).Sound := by
  cases h with
  | ok h => exact hf _ _ h
  | stop h => exact .stop h

theorem Walked.Sound.bind {α β : Type} {r : Walked α} {f : α → State → Walked β} (h : r.Sound) (hf : ∀ a s, s.Sound → (f a s).Sound) :
    (r.bind f).Sound := by
  cases h with
  | ok h => exact hf _ _ h
  | ask h => exact .ask h
  | later h => exact .later h
  | fail => exact .fail

/-- Every field but memory may change. -/
theorem State.Sound.update {s : State} {cores : AMap CoreSt} {eps : AMap Endp} {routers : AMap Router}
    {fences homes rings rlcs strs boardUpd fus fronts wins rxwin paths routes links parts fws pkg time agenda cur fresh lastAt takenAt wr}
    (h : s.Sound) :
    State.Sound
      ⟨s.mem, cores, eps, routers, fences, homes, rings, rlcs, strs, boardUpd, fus, fronts, wins, rxwin, paths, routes, links, parts, fws,
      pkg, time, agenda, cur, fresh, lastAt, takenAt, wr⟩ := ⟨h.inv⟩

theorem State.Sound.onMem {s : State} {f : Memory → Memory} (h : s.Sound) (hf : ∀ m, m.wf = true → (f m).wf = true) :
    (s.onMem f).Sound := ⟨hf _ h.inv⟩

theorem Recorded.sound {s t : State} (r : Recorded s t) (h : s.Sound) : t.Sound := ⟨r.inv h.inv⟩

/-! ### Counts, rings and records (R192, R432-R438) -/

theorem State.Sound.count {s : State} {die ev n : Nat} (h : s.Sound) : (s.count die ev n).Sound := (Recorded.count s die ev n).sound h
theorem State.Sound.ringCount {s : State} {a : Nat} (h : s.Sound) : (s.ringCount a).Sound := (Recorded.ringCount s a).sound h
theorem State.Sound.putRing {s : State} {p : Nat} {r : RingReg} {size : Nat} {ws : List Word} (h : s.Sound) : (s.putRing p r size ws).2.1.Sound :=
  (Recorded.putRing s p r size ws).sound h
theorem State.Sound.event {s : State} {p time src ev unit data : Nat} (h : s.Sound) : (s.event p time src ev unit data).Sound :=
  (Recorded.event s p time src ev unit data).sound h
theorem State.Sound.coreEvent {s : State} {n ev data : Nat} (h : s.Sound) : (s.coreEvent n ev data).Sound := (Recorded.coreEvent s n ev data).sound h
theorem State.Sound.msi {s : State} {p k : Nat} (h : s.Sound) : (s.msi p k).Sound := (Recorded.msi s p k).sound h
theorem State.Sound.trFlush {s : State} {p n : Nat} (h : s.Sound) : (s.trFlush p n).Sound := (Recorded.trFlush s p n).sound h
theorem State.Sound.pushRec {s : State} {p : Nat} {r : TrapRec} (h : s.Sound) : (s.pushRec p r).Sound := (Recorded.pushRec s p r).sound h
theorem State.Sound.recordE {s : State} {p die : Nat} {c : Cause} {tval : Word} {telem : Nat} (h : s.Sound) : (s.recordE p die c tval telem).Sound :=
  (Recorded.recordE s p die c tval telem).sound h
theorem State.Sound.recordX {s : State} {p xd : Nat} {c : Cause} {tval : Word} {telem : Nat} (h : s.Sound) : (s.recordX p xd c tval telem).Sound :=
  (Recorded.recordX s p xd c tval telem).sound h
theorem State.Sound.log {s : State} {p : Nat} {w : List Word} (h : s.Sound) : (s.log p w).Sound := (Recorded.log s p w).sound h
theorem State.Sound.onPart {s : State} {p : Nat} {f : Part → Part} (h : s.Sound) : (s.onPart p f).Sound := by
  unfold State.onPart
  split
  · exact h.update
  · exact h

theorem State.Sound.setCore {s : State} {n : Nat} {c : CoreSt} (h : s.Sound) : (s.setCore n c).Sound := h.update

theorem State.Sound.onCore {s : State} {n : Nat} {f : CoreSt → CoreSt} (h : s.Sound) : (s.onCore n f).Sound := h.setCore

theorem State.Sound.onCtx {s : State} {n c : Nat} {f : Ctx → Ctx} (h : s.Sound) : (s.onCtx n c f).Sound := h.onCore

theorem State.Sound.onMe {s : State} {f : Ctx → Ctx} (h : s.Sound) : (s.onMe f).Sound := h.onCtx

theorem State.Sound.onMyCore {s : State} {f : CoreSt → CoreSt} (h : s.Sound) : (s.onMyCore f).Sound := h.onCore

theorem State.Sound.setG {s : State} {r : GReg} {v : Word} (h : s.Sound) : (s.setG r v).Sound := h.onMe

theorem State.Sound.setK {s : State} {r : KReg} {v : BitVec 32} (h : s.Sound) : (s.setK r v).Sound := h.onMe

theorem State.Sound.setV {s : State} {r : VReg} {v : VWord} (h : s.Sound) : (s.setV r v).Sound := h.onMe

theorem State.Sound.setC {s : State} {r : CReg} {v : Chan} (h : s.Sound) : (s.setC r v).Sound := h.onMe

theorem State.Sound.flags {s : State} {fl : Fl} (h : s.Sound) : (s.flags fl).Sound := h.onMe

theorem State.Sound.onEp {s : State} {n : Nat} {f : Endp → Endp} (h : s.Sound) : (s.onEp n f).Sound := h.update

theorem State.Sound.onHome {s : State} {n : Nat} {f : Home → Home} (h : s.Sound) : (s.onHome n f).Sound := h.update

theorem State.Sound.onRing {s : State} {n : Nat} {f : Ring → Ring} (h : s.Sound) : (s.onRing n f).Sound := h.update

theorem State.Sound.onRlc {s : State} {n : Nat} {f : Rlc → Rlc} (h : s.Sound) : (s.onRlc n f).Sound := h.update

theorem State.Sound.onStr {s : State} {n : Nat} {f : Streamer → Streamer} (h : s.Sound) : (s.onStr n f).Sound := h.update

theorem State.Sound.onFu {s : State} {n : Nat} {f : FrontUnit → FrontUnit} (h : s.Sound) : (s.onFu n f).Sound := h.update

theorem State.Sound.onWin {s : State} {n : Nat} {f : WinEng → WinEng} (h : s.Sound) : (s.onWin n f).Sound := h.update

theorem State.Sound.onLink {s : State} {n : Nat} {f : Link → Link} (h : s.Sound) : (s.onLink n f).Sound := h.update

theorem State.Sound.onFw {s : State} {n : Nat} {f : FwCore → FwCore} (h : s.Sound) : (s.onFw n f).Sound := h.update

theorem State.Sound.onRouter {s : State} {n : Nat} {f : Router → Router} (h : s.Sound) : (s.onRouter n f).Sound := h.update

theorem State.Sound.onPkg {s : State} {f : Pkg → Pkg} (h : s.Sound) : (s.onPkg f).Sound := h.update

theorem State.Sound.tick {s : State} (h : s.Sound) : (s.tick).Sound := h.update

/-! ### Requests, responses and messages on the network -/

theorem State.Sound.sendUse {s : State} {ep dest kind : Nat} {body : ReqBody} {snd : Sender} {use : OutUse} (h : s.Sound) :
    (s.sendUse ep dest kind body snd use).Sound := h.onEp

theorem State.Sound.sendReq {s : State} {ep dest kind : Nat} {body : ReqBody} {snd : Sender} (h : s.Sound) :
    (s.sendReq ep dest kind body snd).Sound := h.sendUse

theorem State.Sound.sendRsp {s : State} {ep dst num : Nat} {r : Rsp} (h : s.Sound) : (s.sendRsp ep dst num r).Sound := h.onEp

theorem State.Sound.respond {s : State} {ep dst num : Nat} {r : Rsp} (h : s.Sound) : (s.respond ep dst num r).Sound := h.sendRsp.onEp

theorem State.Sound.respondTo {s : State} {ep : Nat} {o : Option (Nat × Nat)} {r : Rsp} (h : s.Sound) : (s.respondTo ep o r).Sound := by
  unfold State.respondTo
  split
  · exact h
  · exact h.respond

theorem State.Sound.took {s : State} {ep : Nat} {r : InReq} {left : List InReq} (h : s.Sound) : (s.took ep r left).Sound := h.onEp

theorem State.Sound.busy {s : State} {ep : Nat} {r : InReq} {left : List InReq} (h : s.Sound) : (s.busy ep r left).Sound := h.onEp.respond

theorem State.Sound.admFail {s : State} {core kind : Nat} {c : Cause} (h : s.Sound) : (s.admFail core kind c).1.Sound := .ite_fst h.count h

theorem State.Sound.enqueue {s : State} {core slot : Nat} {m : Msg} {arrival : Nat} (h : s.Sound) : (s.enqueue core slot m arrival).Sound :=
  h.onCore.onMem (fun _ h1 => Memory.wf_setBytes _ _ h1)

theorem State.Sound.admitFrom3 {s : State} {core : Nat} {m : Msg} {slot : Option Nat} {arrival : Nat} (h : s.Sound) :
    (s.admitFrom3 core m slot arrival).1.Sound := by
  refine .ite_fst h.admFail (.ite_fst h.admFail (.ite_fst h.admFail (.ite_fst h.admFail (.ite_fst ?_ ?_))))
  · split
    · exact .ite_fst h.enqueue h
    · exact h
  · split
    · exact h.enqueue
    · exact h

theorem State.Sound.enters {s : State} {core : Nat} {m : Msg} {o : Option (Nat × Nat)} {arrival : Nat} (h : s.Sound) :
    (s.enters core m o arrival).1.Sound := by
  simp only [State.enters]
  split
  · exact h.admFail
  · split
    · exact .ite_fst (h.onCore.onMem (fun _ h1 => Memory.wf_setBytes _ _ h1)) (.ite_fst h h)
    · exact .ite_fst h h
  · exact h.admitFrom3

theorem State.Sound.deliverHere {s : State} {core : Nat} {m : Msg} {o : Option (Nat × Nat)} (h : s.Sound) : (s.deliverHere core m o).Sound := by
  refine .ite h.onCore ?_
  split
  · next he => exact (h.enters.of_fst he).respondTo
  · next he => exact (h.enters.of_fst he).respondTo
  · next he => exact (h.enters.of_fst he).respondTo
  · next he => exact (h.enters.of_fst he).respondTo
  · next he => exact (h.enters.of_fst he).onCore

theorem State.Sound.admitLaunch {s : State} {core : Nat} {m : Msg} {arrival : Nat} (h : s.Sound) : (s.admitLaunch core m arrival).1.Sound := by
  refine .ite_fst h.count ?_
  split
  · exact h.enqueue
  · exact h

theorem State.Sound.launchHere {s : State} {core : Nat} {m : Msg} (h : s.Sound) : (s.launchHere core m).Sound := by
  refine .ite h.onCore ?_
  split
  · next he => exact (h.admitLaunch.of_fst he).onCore
  · next he => exact h.admitLaunch.of_fst he
  · next he => exact h.admitLaunch.of_fst he
  · next he => exact h.admitLaunch.of_fst he
  · next he => exact h.admitLaunch.of_fst he

theorem State.Sound.refuse {s : State} {core : Nat} {m : Msg} {snd : Sender} {target : Nat} {c : Cause} (h : s.Sound) :
    (s.refuse core m snd target c).Sound := .ite h.count (.ite h.count.coreEvent.onPart h.count.coreEvent.deliverHere)

theorem State.Sound.leave {s : State} {core : Nat} {snd : Sender} {o : OutMsg} (h : s.Sound) : (s.leave core snd o).Sound :=
  .ite h.count.refuse (.ite h.count.onPart h.count.sendReq)

theorem State.Sound.leaveAll {s : State} {core : Nat} {snd : Sender} {l : List OutMsg} (h : s.Sound) : (s.leaveAll core snd l).Sound :=
  h.foldl (fun _ _ h1 => h1.leave)

theorem State.Sound.engineMsg {s : State} {eng core ctx dest : Nat} {m : Msg} {born : Nat} (h : s.Sound) :
    (s.engineMsg eng core ctx dest m born).Sound := .ite h.onPart h.sendReq

/-! ### Level boards and fronts (R332-R357) -/

theorem State.Sound.setBlk {s : State} {p id : Nat} {b : Blk} (h : s.Sound) : (s.setBlk p id b).Sound := h.onFu

theorem State.Sound.delBlk {s : State} {p id : Nat} (h : s.Sound) : (s.delBlk p id).Sound := h.onFu

theorem State.Sound.setFront {s : State} {p tag num : Nat} {st : FrontSt} (h : s.Sound) : (s.setFront p tag num st).Sound := h.update

theorem State.Sound.checkFrozen {s : State} {p tag num : Nat} (h : s.Sound) : (s.checkFrozen p tag num).Sound := .ite h.setFront.recordE.event h

theorem State.Sound.freezeFront {s : State} {p tag num : Nat} (h : s.Sound) : (s.freezeFront p tag num).Sound :=
  (State.Sound.ite h.setFront h).checkFrozen

theorem State.Sound.updateEnd {s : State} {p id : Nat} {faulty committed : Bool} (h : s.Sound) : (s.updateEnd p id faulty committed).Sound := by
  unfold State.updateEnd
  split
  · exact h
  · exact .ite h (.ite h.setBlk.recordE.freezeFront h.setBlk.checkFrozen)

theorem State.Sound.hearNotice {s : State} {die : Nat} {n : Notice} (h : s.Sound) : (s.hearNotice die n).Sound := h.onFu

theorem State.Sound.sendNotices {s : State} {p id : Nat} {b : Blk} (h : s.Sound) : (s.sendNotices p id b).Sound := by
  refine h.foldl (fun _ _ h1 => ?_)
  split
  · exact h1
  · exact .ite h1 (.ite h1.hearNotice h1.sendReq)

theorem State.Sound.setLevel {s : State} {p id : Nat} {lv : BitVec 32} (h : s.Sound) : (s.setLevel p id lv).Sound := by
  unfold State.setLevel
  split
  · exact h
  · exact h.setBlk.onFu.event.count

theorem State.Sound.applyNotice {s : State} {p : Nat} {n : Notice} (h : s.Sound) : (s.applyNotice p n).Sound := by
  unfold State.applyNotice
  split
  · exact h
  · exact .ite h h.setBlk

theorem State.Sound.tellNbrs {s : State} {p id : Nat} {lv : BitVec 32} (h : s.Sound) : (s.tellNbrs p id lv).Sound := by
  unfold State.tellNbrs
  split
  · exact h
  · refine h.foldl (fun _ _ h1 => ?_)
    split
    · exact h1
    · exact .ite h1 h1.applyNotice

theorem State.Sound.dispatch {s : State} {p id : Nat} {b : Blk} (h : s.Sound) : (s.dispatch p id b).Sound := h.setBlk.onFu.engineMsg.event.count.tick

/-! ### Commands of a controller -/

theorem State.Sound.rlcDispatch {s : State} {cl : Nat} {r : RRun} {ph : RPhase} (h : s.Sound) : (s.rlcDispatch cl r ph).Sound :=
  h.onRlc.foldl (fun _ _ h1 => h1.engineMsg.tick)

theorem State.Sound.rlcStart {s : State} {cl : Nat} {c : RCmd} (h : s.Sound) : (s.rlcStart cl c).Sound := h.onRlc.rlcDispatch

theorem State.Sound.rlcFinish {s : State} {cl : Nat} {c : RCmd} {code rung i total : Nat} {norm : Word} (h : s.Sound) :
    (s.rlcFinish cl c code rung i total norm).Sound :=
  (h.onMem (fun _ h1 =>
     Memory.wf_foldl _ _ (Memory.wf_foldl _ _ h1 (fun _ _ h2 => Memory.wf_store _ _ _ h2))
       (fun _ _ h2 => Memory.wf_store _ _ _ h2))).onRlc.engineMsg.tick

theorem State.Sound.rlcNext {s : State} {cl : Nat} (h : s.Sound) : (s.rlcNext cl).Sound := by
  unfold State.rlcNext
  split
  · exact .ite h.onRlc.rlcStart h
  · exact h

theorem State.Sound.rlcExit {s : State} {cl : Nat} {r : RRun} {code : Nat} (h : s.Sound) : (s.rlcExit cl r code).Sound := h.onRlc.rlcFinish.rlcNext

theorem State.Sound.rlcComplete {s : State} {cl : Nat} {r : RRun} (h : s.Sound) : (s.rlcComplete cl r).Sound := by
  simp only [State.rlcComplete]
  split
  · exact .ite h.rlcDispatch h.rlcDispatch
  · exact h.rlcDispatch
  · exact h.rlcDispatch
  · exact h.rlcDispatch
  · split
    · exact h.rlcDispatch
    · exact .ite h.rlcDispatch h.rlcExit

theorem State.Sound.rlcLatest {s : State} {cl : Nat} (h : s.Sound) : (s.rlcLatest cl).Sound := by
  unfold State.rlcLatest
  split
  · exact h
  · exact h.onRlc

theorem State.Sound.rlcStopCheck {s : State} {cl : Nat} (h : s.Sound) : (s.rlcStopCheck cl).Sound := by
  unfold State.rlcStopCheck
  split
  · exact h
  · split
    · exact h
    · exact .ite h h.rlcExit

theorem State.Sound.rlcStop {s : State} {cl : Nat} {r : RRun} {code : Nat} (h : s.Sound) : (s.rlcStop cl r code).Sound := h.onRlc.rlcStopCheck

theorem State.Sound.rlcApply {s : State} {cl : Nat} {e : REv} (h : s.Sound) : (s.rlcApply cl e).Sound := by
  refine State.Sound.rlcLatest ?_
  split
  · exact h.onRlc.rlcNext
  · split
    · exact h
    · exact .ite h (.ite h.onRlc.rlcComplete h.onRlc)
  · split
    · exact h
    · exact .ite h (.ite h.onRlc.rlcStop h.onRlc.rlcStopCheck)
  · split
    · exact h.onRlc.rlcFinish
    · split
      · exact h
      · exact .ite h.rlcStop h

theorem State.Sound.rlcPost {s : State} {cl : Nat} {e : REv} (h : s.Sound) : (s.rlcPost cl e).Sound := .ite h.onRlc h.rlcApply

theorem Res.Sound.atElem {α : Type} {i : Nat} {r : Res α} (h : r.Sound) : (r.atElem i).Sound := by
  cases h with
  | ok h => exact .ok h
  | stop h => rename_i k _; cases k <;> exact .stop h

theorem Res.Sound.needs {α : Type} {l : List Nat} {r : Res α} (h : r.Sound) : (r.needs l).Sound := by
  cases h with
  | ok h => exact .ok h
  | stop h => exact .stop h.onMe

/-! ### Traps, parks and the end of an instruction -/

protected theorem State.Sound.trapAt {α : Type} {c : Cause} {tval : Word} {s : State} (h : s.Sound) : (trapAt (α := α) c tval s).Sound := .stop h

theorem State.Sound.cancelSync {s : State} {core ctx : Nat} (h : s.Sound) : (s.cancelSync core ctx).Sound := by
  refine (State.Sound.ite h.onEp h).foldl (fun _ _ h1 => ?_)
  split
  · exact h1.sendReq
  all_goals exact h1

theorem State.Sound.cancelOwn {s : State} {core ctx : Nat} (h : s.Sound) : (s.cancelOwn core ctx).Sound := .ite h.onHome h

theorem State.Sound.giveBack {s : State} {core ctx : Nat} {o : Option Taken} (h : s.Sound) : (s.giveBack core ctx o).Sound := by
  unfold State.giveBack
  split
  · exact h
  · exact h.sendReq

theorem State.Sound.giveBackAll {s : State} {core ctx : Nat} (h : s.Sound) : (s.giveBackAll core ctx).Sound := h.foldl (fun _ _ h1 => h1.giveBack)

theorem State.Sound.endEvent {s : State} {core ctx how : Nat} (h : s.Sound) : (s.endEvent core ctx how).Sound := h.coreEvent

theorem State.Sound.failedRecords {s : State} {core ctx : Nat} (h : s.Sound) : (s.failedRecords core ctx).Sound := h.foldl (fun _ _ h1 => h1.pushRec)

theorem State.Sound.storeFault {s : State} {core ctx serial msgid tag colour va : Nat} (h : s.Sound) :
    (s.storeFault core ctx serial msgid tag colour va).Sound := .ite h.onCtx h.pushRec

theorem State.Sound.unwait {s : State} {core ctx : Nat} (h : s.Sound) : (s.unwait core ctx).Sound := .ite h.onCore h

theorem State.Sound.withdraw {s : State} {core ctx : Nat} (h : s.Sound) : (s.withdraw core ctx).Sound := h.onRing

theorem State.Sound.unask {s : State} {core ctx : Nat} (h : s.Sound) : (s.unask core ctx).Sound := h.onPart

theorem State.Sound.giveUp {s : State} {core ctx : Nat} (h : s.Sound) : (s.giveUp core ctx).Sound :=
  h.cancelSync.cancelOwn.giveBackAll.withdraw.unwait.unask

theorem State.Sound.ungrant {s : State} {core ctx : Nat} (h : s.Sound) : (s.ungrant core ctx).Sound := h.update

theorem State.Sound.freeCtx {s : State} {core ctx : Nat} (h : s.Sound) : (s.freeCtx core ctx).Sound := h.giveUp.ungrant.onCtx

theorem State.Sound.freeSlotOf {s : State} {a : Act} (h : s.Sound) : (s.freeSlotOf a).Sound := h.onCore

theorem State.Sound.tellDispatcher {s : State} {core ctx : Nat} {a : Act} {faulty : Bool} (h : s.Sound) :
    (s.tellDispatcher core ctx a faulty).Sound := by
  unfold State.tellDispatcher
  split
  · exact .ite h.onPart h.updateEnd
  · exact h.rlcPost
  all_goals exact h

theorem State.Sound.returnMsg {s : State} {a : Act} (h : s.Sound) : (s.returnMsg a).Sound :=
  .ite h.freeSlotOf (.ite h.freeSlotOf.count h.freeSlotOf.onCore)

theorem State.Sound.setTrap {s : State} {core ctx : Nat} {t : TrapInfo} {tip : Word} (h : s.Sound) : (s.setTrap core ctx t tip).Sound := h.onCtx

theorem State.Sound.abort {s : State} {core ctx : Nat} {t : TrapInfo} {tip : Word} (h : s.Sound) : (s.abort core ctx t tip).Sound :=
  h.setTrap.pushRec.endEvent.count.count.failedRecords.returnMsg.onCtx.freeCtx.tellDispatcher

theorem State.Sound.parkAt {s : State} {core ctx : Nat} {a : Await} (h : s.Sound) : (s.parkAt core ctx a).Sound := h.onCtx

theorem State.Sound.takeTrap {s : State} {core ctx : Nat} {t : TrapInfo} {tip : Word} (h : s.Sound) : (s.takeTrap core ctx t tip).Sound := by
  unfold State.takeTrap
  split
  · exact h.setTrap.parkAt
  · exact h.abort
  · exact h.recordE
  · exact h

theorem State.Sound.takePageFault {s : State} {core ctx va : Nat} {write fetch : Bool} {telem : Nat} (h : s.Sound) :
    (s.takePageFault core ctx va write fetch telem).Sound := h.setTrap.parkAt.onPart

theorem State.Sound.resume {s : State} {core ctx : Nat} (h : s.Sound) : (s.resume core ctx).Sound := h.onCtx

theorem State.Sound.bkptReturn {s : State} {core ctx : Nat} {skip : Bool} (h : s.Sound) : (s.bkptReturn core ctx skip).Sound := h.resume.onCtx

theorem State.Sound.migTest {s : State} {core ctx : Nat} (h : s.Sound) : (s.migTest core ctx).Sound := by
  refine .ite ?_ h
  split
  · exact h.parkAt
  · exact h.onCtx

theorem State.Sound.advance {s : State} {ip' : Word} (h : s.Sound) : (s.advance ip').Sound := (State.Sound.ite h.onMe.onMyCore h.onMe).ungrant.count

theorem State.Sound.retireTo {s : State} {ip' : Word} (h : s.Sound) : (s.retireTo ip').Sound := .ite h.advance.takeTrap h.advance.migTest

theorem State.Sound.retire {s : State} (h : s.Sound) : (s.retire).Sound := h.retireTo

theorem State.Sound.waitAt {s : State} {r : Stall} (h : s.Sound) : (s.waitAt r).Sound := h.onMe

theorem State.Sound.noteIssue {s : State} (h : s.Sound) : (s.noteIssue).Sound := h.onMe

theorem State.Sound.takeStop {s : State} {k : Stop} (h : s.Sound) : (s.takeStop k).Sound := by
  unfold State.takeStop
  split
  · exact h.noteIssue.takeTrap
  · exact h.noteIssue.takePageFault
  · exact h.noteIssue.parkAt
  · exact h.waitAt

protected theorem Res.Sound.runWith {fin : State → State} {r : Res Unit} (h : r.Sound) (hf : ∀ s, s.Sound → (fin s).Sound) :
    OutSound (runWith fin r) := by
  cases h with
  | ok h => exact .next (hf _ h)
  | stop h => exact .next h.takeStop

protected theorem Res.Sound.run {r : Res Unit} (h : r.Sound) : OutSound (run r) := h.runWith fun _ h => h.retire

protected theorem State.Sound.retired {s : State} (h : s.Sound) : OutSound (retired s) := .next h.retire

/-! ### Translation and its faults -/

theorem State.Sound.countWalk {s : State} {p va : Nat} (h : s.Sound) : (s.countWalk p va).Sound := .ite h (h.foldl (fun _ _ h1 => .ite h1.count h1))

theorem State.Sound.setDirty {s : State} {va : Nat} {t : TlbE} (h : s.Sound) : (s.setDirty va t).Sound :=
  .ite (h.onMem (fun _ h1 => Memory.wf_orWord _ _ h1)) (.ite h (h.onMem (fun _ h1 => Memory.wf_orWord _ _ h1)).onMe)

theorem State.Sound.viaTlb {s : State} {p : Word} {va : Nat} {t : TlbE} {lvl : Nat} {acc : Acc} (h : s.Sound) : (s.viaTlb p va t lvl acc).Sound := by
  unfold State.viaTlb
  split
  · exact .stop h
  · exact .ok (State.Sound.ite h.setDirty h)

theorem State.Sound.translate {s : State} {p : Word} {va : Nat} {acc : Acc} (h : s.Sound) : (s.translate p va acc).Sound := by
  simp only [State.translate]
  split
  · exact h.viaTlb
  · split
    · exact .stop h.countWalk
    · exact .stop h.countWalk
    · split
      · exact .stop h.countWalk
      · exact (h.countWalk.onMem (fun _ h1 => Memory.wf_orWord _ _ h1)).onMe.viaTlb

/-! ### Home banks and replicas -/

theorem State.Sound.answerCtx {s : State} {core ctx : Nat} {a : RAns} (h : s.Sound) : (s.answerCtx core ctx a).Sound := h.onCtx

theorem State.Sound.reply {s : State} {home src num : Nat} {b : ReqBody} {r : Rsp} (h : s.Sound) : (s.reply home src num b r).Sound :=
  .ite h.answerCtx h.respond

theorem State.Sound.landed {s : State} {core lane : Nat} (h : s.Sound) : (s.landed core lane).Sound := .ite h.onCore h

theorem State.Sound.noteWrite {s : State} {core born k size new : Nat} {fe : Bool} (h : s.Sound) : (s.noteWrite core born k size new fe).Sound :=
  .ite h.update h

theorem State.Sound.noteSync {s : State} {core : Nat} (h : s.Sound) : (s.noteSync core).Sound := .ite h.onCore h

theorem State.Sound.scrub {s : State} {die k n : Nat} (h : s.Sound) : (s.scrub die k n).Sound := by
  unfold State.scrub
  split
  · exact h
  · exact (h.onMem (fun _ h1 => Memory.wf_scrub _ _ h1)).count

theorem State.Sound.noteTurn {s : State} {u : Option Nat} {core ctx : Nat} (h : s.Sound) : (s.noteTurn u core ctx).Sound := by
  unfold State.noteTurn
  split
  · exact h
  · exact h.update

theorem State.Sound.noteTaken {s : State} {k : Nat} (h : s.Sound) : (s.noteTaken k).Sound := h.update

theorem State.Sound.replPhase {s : State} {home p : Nat} {j : ReplJob} (h : s.Sound) : (s.replPhase home p j).Sound :=
  h.foldl (fun _ _ h1 => h1.sendReq)

theorem State.Sound.writeRepl {s : State} {die src lane pa size val : Nat} {fe bad : Bool} (h : s.Sound) :
    (s.writeRepl die src lane pa size val fe bad).Sound :=
  .ite
    (h.noteWrite.onMem (fun _ h1 => Memory.wf_storeRepl _ _ _ _ _ h1)).count.landed
    (h.noteWrite.onMem (fun _ h1 => Memory.wf_storeRepl _ _ _ _ _ h1)).count

theorem State.Sound.replStart {s : State} {home src num rp pa size val old : Nat} {fe bad : Bool} {lane : Nat} (h : s.Sound) :
    (s.replStart home src num rp pa size val old fe bad lane).Sound :=
  .ite h.writeRepl.landed.respond (State.Sound.ite h h.writeRepl).onHome.replPhase.tick

theorem State.Sound.homeCount {s : State} {home : Nat} {b : ReqBody} (h : s.Sound) : (s.homeCount home b).Sound := by
  unfold State.homeCount
  split
  · exact .ite h.count h
  · exact .ite h.count h
  · exact .ite (.ite h.count.count h.count) h
  all_goals exact h

theorem State.Sound.see {s : State} {core ctx pa size : Nat} (h : s.Sound) : (s.see core ctx pa size).Sound := .ite h.onCore h

theorem State.Sound.emptied {s : State} {src pa : Nat} {va : Word} (h : s.Sound) : (s.emptied src pa va).Sound :=
  h.onMem (fun _ h1 => Memory.wf_foldl _ _ h1 (fun _ _ h2 => Memory.wf_setEmpty _ (Memory.wf_setPending _ _ h2)))

theorem State.Sound.refilled {s : State} {src pa : Nat} {va : Word} (h : s.Sound) : (s.refilled src pa va).Sound :=
  h.onMem (fun _ h1 => Memory.wf_foldl _ _ h1 (fun _ _ h2 => Memory.wf_setFull _ (Memory.wf_setPending _ _ h2)))

theorem State.Sound.pend {s : State} {src pa : Nat} {va : Word} (h : s.Sound) : (s.pend src pa va).Sound :=
  (h.onMem (fun _ h1 => Memory.wf_foldl _ _ h1 (fun _ _ h2 => Memory.wf_setPending _ _ h2))).noteTaken

theorem State.Sound.redirty {s : State} {src : Nat} {va : Word} (h : s.Sound) : (s.redirty src va).Sound := by
  refine .ite ?_ h
  split
  · exact h.onMem (fun _ h1 => Memory.wf_orWord _ _ h1)
  · exact h
  · exact h

theorem State.Sound.readAtHome {s : State} {home src num : Nat} {b : ReqBody} {m : RMode} {ctx pa size : Nat} {va : Word} (h : s.Sound) :
    (s.readAtHome home src num b m ctx pa size va).Sound :=
  .ite h.reply (.ite (State.Sound.ite h.scrub.pend h.scrub).reply (State.Sound.ite h.scrub.pend h.scrub).see.reply)

theorem State.Sound.homeDo {s : State} {home src num : Nat} {b : ReqBody} (h : s.Sound) : (s.homeDo home src num b).Sound := by
  simp only [State.homeDo]
  split
  · exact h.emptied.respond
  · exact h.refilled.respond
  · exact h.readAtHome
  · exact h.readAtHome
  · exact h.readAtHome
  · exact h.readAtHome
  · exact h.readAtHome
  · exact .ite
      ((State.Sound.ite h.noteTurn h).redirty.noteWrite.onMem (fun _ h1 => Memory.wf_storeFe _ _ _ _ h1)).landed.respond
      (State.Sound.ite h.noteTurn h).redirty.replStart
  · refine .ite h.respond ?_
    split
    · exact h.scrub.noteTurn.noteSync.respond
    · exact .ite
        (h.scrub.noteTurn.noteSync.redirty.noteWrite.onMem (fun _ h1 => Memory.wf_store _ _ _ h1)).respond
        h.scrub.noteTurn.noteSync.redirty.replStart
  all_goals exact h

theorem State.Sound.serveWait {s : State} {hm n : Nat} (h : s.Sound) : (s.serveWait hm n).Sound := by
  induction n generalizing s with
  | zero => exact h
  | succ n ih =>
    simp only [State.serveWait]
    split
    · exact h
    · exact ih h.onHome.homeCount.homeDo

theorem State.Sound.serveAll {s : State} {home : Nat} (h : s.Sound) : (s.serveAll home).Sound := h.serveWait

theorem State.Sound.stayPark {s : State} {core : Nat} {b : ReqBody} {reason : Nat} (h : s.Sound) : (s.stayPark core b reason).Sound := by
  simp only [State.stayPark]
  split
  · exact .ite h.onCtx h
  · exact .ite h.onCtx h
  · exact .ite h.onCtx h
  · exact .ite h.onCtx h
  · exact .ite h.onCtx h
  all_goals exact h

theorem State.Sound.stayAt {s : State} {home : Nat} {l : Lodged} {reason : Nat} (h : s.Sound) : (s.stayAt home l reason).Sound := by
  refine .ite h (.ite h.stayPark ?_)
  split
  · exact h.stayPark
  · exact h

theorem State.Sound.joinWait {s : State} {home src num : Nat} {b : ReqBody} (h : s.Sound) : (s.joinWait home src num b).Sound := h.onHome.stayAt

theorem State.Sound.joinLodge {s : State} {home src num : Nat} {b : ReqBody} (h : s.Sound) : (s.joinLodge home src num b).Sound := h.onHome.stayAt

theorem State.Sound.homeServe {s : State} {home : Nat} {r : InReq} {left : List InReq} (h : s.Sound) : (s.homeServe home r left).Sound := by
  simp only [State.homeServe]
  split
  · exact .ite h (State.Sound.ite h.tick h).took.homeCount.homeDo.serveAll
  · exact .ite (State.Sound.ite h.tick h).busy (State.Sound.ite h.tick h).took.joinWait
  · exact .ite (State.Sound.ite h.tick h).busy (State.Sound.ite h.tick h).took.joinLodge

theorem State.Sound.homeCancel {s : State} {home src num : Nat} {b : ReqBody} (h : s.Sound) : (s.homeCancel home src num b).Sound :=
  h.onHome.respond.serveAll

theorem State.Sound.replicaApply {s : State} {home primary job phase pa size val : Nat} {fe bad : Bool} (h : s.Sound) :
    (s.replicaApply home primary job phase pa size val fe bad).Sound := by
  unfold State.replicaApply
  split
  · exact h.onHome
  · refine State.Sound.serveAll ?_
    split
    · exact h.writeRepl
    · exact (h.onMem (fun _ h1 => Memory.wf_storeRepl _ _ _ _ _ h1)).count
  · exact h.onHome.serveAll

theorem State.Sound.replNext {s : State} {home : Nat} {j : ReplJob} (h : s.Sound) : (s.replNext home j).Sound :=
  .ite (State.Sound.ite (State.Sound.ite h.writeRepl h).onHome (.ite h.writeRepl h)).onHome.replPhase.serveAll h.onHome.respond.serveAll

theorem State.Sound.replAck {s : State} {home job : Nat} (h : s.Sound) : (s.replAck home job).Sound := by
  unfold State.replAck
  split
  · exact h
  · exact .ite h.replNext h.onHome

/-! ### Loads, stores and atomics -/

theorem State.Sound.countBlk {s : State} {pa ev : Nat} (h : s.Sound) : (s.countBlk pa ev).Sound := .ite h.count h

theorem State.Sound.countHome {s : State} {pa : Nat} (h : s.Sound) : (s.countHome pa).Sound := .ite h.onMe h

theorem State.Sound.remote {s : State} {dest kind pa : Nat} {b : ReqBody} (h : s.Sound) : (s.remote dest kind pa b).Sound := by
  unfold State.remote
  split
  · exact .ok h.onMe
  · exact .ite (.stop h) (.ite (.stop h.countHome.sendReq.onMe) (.stop h))

protected theorem State.Sound.value {a : RAns} {p : Word} {s : State} (h : s.Sound) : (RAns.value a p s).Sound := by
  unfold RAns.value
  split
  · exact .ok h
  · exact .ite h.trapAt h.trapAt

theorem State.Sound.performDirect {s : State} {core : Nat} {e : LaneE} (h : s.Sound) : (s.performDirect core e).Sound :=
  .ite
    (h.redirty.noteWrite.onMem (fun _ h1 => Memory.wf_storeFe _ _ _ _ h1)).countBlk.noteTurn.serveAll
    (h.redirty.noteWrite.onMem (fun _ h1 => Memory.wf_storeFe _ _ _ _ h1)).countBlk

theorem State.Sound.drainFrom {s : State} {core : Nat} {kept l : List LaneE} (h : s.Sound) : (s.drainFrom core kept l).Sound := by
  induction l generalizing s kept with
  | nil => exact h.onCore
  | cons e t ih => exact .ite (ih h) (.ite (ih h.performDirect) (.ite (ih h) (.ite (ih h.sendReq) (ih h))))

theorem State.Sound.drain {s : State} {core : Nat} (h : s.Sound) : (s.drain core).Sound := h.drainFrom

theorem State.Sound.pushLane {s : State} {pa : Nat} {va : Word} {size val : Nat} {colour : BitVec 3} {kind : StKind} {repl : Nat}
    {sgn : Bool} (h : s.Sound) :
    (s.pushLane pa va size val colour kind repl sgn).Sound := h.countHome.onMyCore.drain

theorem State.Sound.failCheck {s : State} (h : s.Sound) : (s.failCheck).Sound := by
  unfold State.failCheck
  split
  · exact .ok h
  · exact h.onMe.trapAt

theorem State.Sound.release {s : State} {r : Stall} (h : s.Sound) : (s.release r).Sound := h.failCheck.bind (fun _ _ h1 => .ite (.stop h1) (.ok h1))

theorem State.Sound.readDirect {s : State} {p : Word} {k size : Nat} {fe : Fe} {o : List LaneE} {pa : Nat} (h : s.Sound) :
    (s.readDirect p k size fe o pa).Sound :=
  .ite
    (.stop h)
    (.ite h.trapAt
       (.ok
          (State.Sound.ite
             (h.scrub.see.onMem (fun _ h1 => Memory.wf_foldl _ _ h1 (fun _ _ h2 => Memory.wf_setEmpty _ h2))).noteTaken
             h.scrub.see)))

theorem State.Sound.syncOwn {s : State} {p : Word} {sgn : Bool} {va pa k size : Nat} {fe : Fe} (h : s.Sound) :
    (s.syncOwn p sgn va pa k size fe).Sound :=
  .ite (.stop h) (.ite (h.readDirect.bind (fun _ _ h1 => .ok h1.countBlk)) (.ite (.stop h) (.stop h.onMe.joinWait)))

theorem State.Sound.readGlobal {s : State} {p : Word} {sgn : Bool} {va pa size rp : Nat} {fe : Fe} (h : s.Sound) :
    (s.readGlobal p sgn va pa size rp fe).Sound :=
  .ite
    (.stop h)
    (.ite
       (.ite (.stop h) (h.readDirect.bind (fun _ _ h1 => .ok h1.countBlk)))
       (.ite h.syncOwn
          (.ite
             (.ite h.syncOwn (h.readDirect.bind (fun _ _ h1 => .ok h1.countBlk)))
             (.ite (.stop h) (.ite (.stop h) (h.remote.bind (fun _ _ h1 => h1.value.bind (fun _ _ h2 => .ok h2))))))))

theorem State.Sound.confirm {s : State} {t : Taken} (h : s.Sound) : (s.confirm t).Sound := .ite h.emptied.serveAll h.sendReq

theorem State.Sound.takeSync {s : State} {p : Word} {a : RAns} (h : s.Sound) : (s.takeSync p a).Sound := by
  refine h.onMe.value.bind (fun _ _ h1 => ?_)
  split
  · exact .ok h1
  · exact .ok (State.Sound.ite h1.confirm h1)

theorem State.Sound.readMemQ {s : State} {p : Word} {sgn : Bool} {size : Nat} {fe : Fe} (h : s.Sound) : (s.readMemQ p sgn size fe).Sound := by
  unfold State.readMemQ
  split
  · exact h.takeSync
  · exact h.takeSync
  · split
    · exact h.trapAt
    · exact h.readDirect
    · exact h.translate.bind (fun _ _ h1 => h1.readGlobal)
  · split
    · exact h.trapAt
    · exact h.readDirect
    · exact h.translate.bind (fun _ _ h1 => h1.readGlobal)
  · split
    · exact h.trapAt
    · exact h.readDirect
    · exact h.translate.bind (fun _ _ h1 => h1.readGlobal)

theorem State.Sound.readMem {s : State} {p : Word} {size : Nat} {fe : Fe} (h : s.Sound) : (s.readMem p size fe).Sound := h.readMemQ

theorem State.Sound.readWords {s : State} {p : Word} {acc : List Word} {n : Nat} (h : s.Sound) : (s.readWords p acc n).Sound := by
  induction n generalizing s acc with
  | zero => exact .ok h
  | succ n ih => exact h.readMem.needs.bind fun _ _ h => ih h

theorem State.Sound.windowStore {s : State} {p : Word} {x : Xl} {size val : Nat} {colour : BitVec 3} (h : s.Sound) :
    (s.windowStore p x size val colour).Sound := .ite h.trapAt (.ite h.trapAt (.ite (.stop h) (.ok h.onWin.sendReq.onMe)))

theorem State.Sound.localStore {s : State} {k size val : Nat} {fe : Bool} (h : s.Sound) : (s.localStore k size val fe).Sound :=
  h.noteWrite.onMem (fun _ h1 => Memory.wf_storeFe _ _ _ _ h1)

theorem State.Sound.writeLocal {s : State} {k size val : Nat} {colour : BitVec 3} {kind : StKind} (h : s.Sound) :
    (s.writeLocal k size val colour kind).Sound := .ite (.stop h) (.ite (.ite (.stop h) (.ok h.localStore.noteTurn)) (.ok h.localStore))

theorem State.Sound.writeMem {s : State} {p : Word} {sgn : Bool} {size val : Nat} {colour : BitVec 3} {kind : StKind} (h : s.Sound) :
    (s.writeMem p sgn size val colour kind).Sound := by
  simp only [State.writeMem]
  split
  · exact h.trapAt
  · exact h.writeLocal
  · exact h.translate.bind (fun _ _ h1 => .ite (.ite (.stop h1) h1.windowStore) (.ok h1.pushLane))

/-- The words in error of one memory, as far as they are in error in another, beside the rest of the first. -/
theorem Memory.wf_withCorr {m m' : Memory} (p : Nat → Bool) (h : m.wf = true) (h' : m'.wf = true) :
    ({ m with corr := m'.corr.filter p } : Memory).wf = true := by
  rw [Memory.wf_iff] at *
  obtain ⟨hcells, hfull, hpoison, hpending, -⟩ := h
  obtain ⟨-, -, -, -, hcorr⟩ := h'
  exact ⟨hcells, hfull, hpoison, hpending, rising_filter p hcorr⟩

theorem State.Sound.atomicDirect {s : State} {p : Word} {k : Nat} {o : AOp} (h : s.Sound) : (s.atomicDirect p k o).Sound := by
  have hm := Memory.wf_atomic k o.size o.op o.sgn o.opnd o.cmp h.inv
  exact .ite (.stop h) (.ite h.trapAt (.ok (h.noteWrite.noteSync.scrub.onMem fun _ h' => Memory.wf_withCorr _ hm h').noteTurn))

theorem State.Sound.atomicMem {s : State} {p : Word} {o : AOp} {colour : BitVec 3} {rel : Bool} (h : s.Sound) :
    (s.atomicMem p o colour rel).Sound := by
  unfold State.atomicMem
  split
  · exact h.onMe.value
  · refine (Res.Sound.ite h.release (.ok h)).bind (fun _ _ h1 => ?_)
    split
    · exact h1.trapAt
    · exact .ite (.stop h1) h1.atomicDirect
    · exact h1.translate.bind (fun _ _ h2 =>
        .ite
          (.stop h2)
          (.ite
             (h2.atomicDirect.bind (fun _ _ h3 => .ok (State.Sound.ite h3.countBlk.countBlk h3.countBlk)))
             (h2.remote.bind (fun _ _ h3 => h3.value))))

theorem State.Sound.cacheLine {s : State} {core la : Nat} {l : List Byte} (h : s.Sound) : (s.cacheLine core la l).Sound := .ite h.onCore h.onCore.tick

protected theorem State.Sound.fetchPoison {α : Type} {p : Word} {s : State} (h : s.Sound) : (fetchPoison (α := α) p s).Sound := .stop h

theorem State.Sound.cached {s : State} {p : Word} {e : ILine} (h : s.Sound) : (s.cached p e).Sound :=
  .ite h.fetchPoison (.ite (.ok h.onMyCore.count) (.ok h))

theorem State.Sound.fillFrom {s : State} {p : Word} {la k dest : Nat} (h : s.Sound) : (s.fillFrom p la k dest).Sound := by
  unfold State.fillFrom
  split
  · exact .stop h
  · exact .stop h.onMe
  · exact .ite (.stop h) (.ite (.ite h.fetchPoison (.ok h.scrub.countBlk.cacheLine)) (.ite (.stop h.sendUse.onMe) (.stop h)))

theorem State.Sound.fillLine {s : State} {p : Word} {la pa : Nat} {repl : Bool} (h : s.Sound) : (s.fillLine p la pa repl).Sound := h.fillFrom

theorem State.Sound.inboxFetch {s : State} {p : Word} {la : Nat} {a : Act} (h : s.Sound) : (s.inboxFetch p la a).Sound := by
  refine .ite (.ite h.fetchPoison (.ok h.scrub)) ?_
  split
  · exact h.cached
  · exact h.fillFrom

theorem State.Sound.fetchLine {s : State} {la : Nat} (h : s.Sound) : (s.fetchLine la).Sound := by
  refine .ite h.inboxFetch (.ite (.stop h) (h.translate.bind (fun _ _ h1 => ?_)))
  split
  · exact h1.cached
  · exact h1.fillLine

theorem State.Sound.fetch {s : State} (h : s.Sound) : (s.fetch).Sound :=
  .ite h.trapAt (.ite h.trapAt (h.fetchLine.bind (fun _ _ h1 => .ite h1.trapAt (.ite h1.trapAt (.ok h1)))))

/-! ### Pointer instructions -/

protected theorem State.Sound.execPadd {d a b : GReg} {s : State} (h : s.Sound) : OutSound (execPadd d a b s) := h.setG.retired

protected theorem State.Sound.execPaddI16 {d a : GReg} {i : BitVec 16} {s : State} (h : s.Sound) : OutSound (execPaddI16 d a i s) := h.setG.retired

protected theorem State.Sound.execPsub {d a b : GReg} {s : State} (h : s.Sound) : OutSound (execPsub d a b s) := h.setG.retired

protected theorem State.Sound.execViewset {n : Fin 16} {a : GReg} {s : State} (h : s.Sound) : OutSound (execViewset n a s) :=
  .ite (.next h.takeStop) h.onMe.retired

protected theorem State.Sound.execViewof {d a : GReg} {s : State} (h : s.Sound) : OutSound (execViewof d a s) := h.setG.retired

protected theorem State.Sound.execIsspc {d a : GReg} {s : State} (h : s.Sound) : OutSound (execIsspc d a s) := h.setG.retired

protected theorem State.Sound.execCastspc {d : GReg} {toGeneric : Bool} {sp : Space} {a : GReg} {s : State} (h : s.Sound) :
    OutSound (execCastspc d toGeneric sp a s) := h.setG.retired

protected theorem State.Sound.execHown {d a : GReg} {s : State} (h : s.Sound) : OutSound (execHown d a s) := h.setG.retired

/-! ### Vector instructions -/

protected theorem State.Sound.vecRun {s : State} {k : Host.Outcome State Fault Refusal} (h : s.Sound) (hk : OutSound k) : OutSound (vecRun s k) :=
  OutSound.ite (.next h.takeStop) hk

theorem State.Sound.deliverLanes {d : VReg} {t : Fmt} {base : VWord} {tfmt : Nat} {l : List LaneR} {s : State} (h : s.Sound) :
    OutSound (Machine.deliver d t base tfmt l s) := by
  unfold Machine.deliver
  split
  · exact .ite (.next h.flags.takeStop) h.flags.setV.retired
  · exact h.flags.setV.retired

protected theorem State.Sound.laneOp {d : VReg} {q : KReg} {a b : VReg} {f : Fmt} {bf : Nat} {op : LaneOp} {s : State} (h : s.Sound) :
    OutSound (laneOp d q a b f bf op s) := h.vecRun h.deliverLanes

protected theorem State.Sound.execVadd {d : VReg} {k : KReg} {a b : VReg} {f : Fmt} {rm : Rm} {sat : Bool} {s : State} (h : s.Sound) :
    OutSound (execVadd d k a b f rm sat s) := h.laneOp

protected theorem State.Sound.execVsub {d : VReg} {k : KReg} {a b : VReg} {f : Fmt} {rm : Rm} {sat : Bool} {s : State} (h : s.Sound) :
    OutSound (execVsub d k a b f rm sat s) := h.laneOp

protected theorem State.Sound.execVmul {d : VReg} {k : KReg} {a b : VReg} {f : Fmt} {rm : Rm} {sat : Bool} {s : State} (h : s.Sound) :
    OutSound (execVmul d k a b f rm sat s) := h.laneOp

protected theorem State.Sound.execVdiv {d : VReg} {k : KReg} {a b : VReg} {f : Fmt} {rm : Rm} {sat : Bool} {s : State} (h : s.Sound) :
    OutSound (execVdiv d k a b f rm sat s) := h.laneOp

protected theorem State.Sound.execVmin {d : VReg} {k : KReg} {a b : VReg} {f : Fmt} {s : State} (h : s.Sound) : OutSound (execVmin d k a b f s) :=
  h.laneOp

protected theorem State.Sound.execVmax {d : VReg} {k : KReg} {a b : VReg} {f : Fmt} {s : State} (h : s.Sound) : OutSound (execVmax d k a b f s) :=
  h.laneOp

protected theorem State.Sound.execVabs {d : VReg} {k : KReg} {a : VReg} {f : Fmt} {sat : Bool} {s : State} (h : s.Sound) :
    OutSound (execVabs d k a f sat s) := h.laneOp

protected theorem State.Sound.execVneg {d : VReg} {k : KReg} {a : VReg} {f : Fmt} {sat : Bool} {s : State} (h : s.Sound) :
    OutSound (execVneg d k a f sat s) := h.laneOp

protected theorem State.Sound.execVsqrt {d : VReg} {k : KReg} {a : VReg} {f : Fmt} {rm : Rm} {s : State} (h : s.Sound) :
    OutSound (execVsqrt d k a f rm s) := h.laneOp

protected theorem State.Sound.execVand {d : VReg} {k : KReg} {a b : VReg} {f : Fmt} {s : State} (h : s.Sound) : OutSound (execVand d k a b f s) :=
  h.laneOp

protected theorem State.Sound.execVor {d : VReg} {k : KReg} {a b : VReg} {f : Fmt} {s : State} (h : s.Sound) : OutSound (execVor d k a b f s) :=
  h.laneOp

protected theorem State.Sound.execVxor {d : VReg} {k : KReg} {a b : VReg} {f : Fmt} {s : State} (h : s.Sound) : OutSound (execVxor d k a b f s) :=
  h.laneOp

protected theorem State.Sound.execVshl {d : VReg} {k : KReg} {a b : VReg} {f : Fmt} {s : State} (h : s.Sound) : OutSound (execVshl d k a b f s) :=
  h.laneOp

protected theorem State.Sound.execVshr {d : VReg} {k : KReg} {a b : VReg} {f : Fmt} {s : State} (h : s.Sound) : OutSound (execVshr d k a b f s) :=
  h.laneOp

protected theorem State.Sound.execVsha {d : VReg} {k : KReg} {a b : VReg} {f : Fmt} {s : State} (h : s.Sound) : OutSound (execVsha d k a b f s) :=
  h.laneOp

protected theorem State.Sound.fmaOp {d : VReg} {q : KReg} {a b : VReg} {f : Fmt} {op : FV → FV → FV → Nat × Fl} {s : State} (h : s.Sound) :
    OutSound (fmaOp d q a b f op s) := h.vecRun h.count.deliverLanes

protected theorem State.Sound.execVfma {d : VReg} {k : KReg} {a b : VReg} {f : Fmt} {rm : Rm} {s : State} (h : s.Sound) :
    OutSound (execVfma d k a b f rm s) := h.fmaOp

protected theorem State.Sound.execVfms {d : VReg} {k : KReg} {a b : VReg} {f : Fmt} {rm : Rm} {s : State} (h : s.Sound) :
    OutSound (execVfms d k a b f rm s) := h.fmaOp

protected theorem State.Sound.execVfnma {d : VReg} {k : KReg} {a b : VReg} {f : Fmt} {rm : Rm} {s : State} (h : s.Sound) :
    OutSound (execVfnma d k a b f rm s) := h.fmaOp

protected theorem State.Sound.execVcvt {d : VReg} {k : KReg} {a : VReg} {f t : Fmt} {rm : Rm} {sat : Bool} {s : State} (h : s.Sound) :
    OutSound (execVcvt d k a f t rm sat s) := h.vecRun h.deliverLanes

protected theorem State.Sound.vcmp {d q : KReg} {a b : VReg} {f : Fmt} {anyNaN : Bool} {op : CmpOp} {s : State} (h : s.Sound) :
    OutSound (vcmp d q a b f anyNaN op s) := h.vecRun h.flags.setK.retired

protected theorem State.Sound.execVcmpEq {d k : KReg} {a b : VReg} {f : Fmt} {s : State} (h : s.Sound) : OutSound (execVcmpEq d k a b f s) := h.vcmp

protected theorem State.Sound.execVcmpNe {d k : KReg} {a b : VReg} {f : Fmt} {s : State} (h : s.Sound) : OutSound (execVcmpNe d k a b f s) := h.vcmp

protected theorem State.Sound.execVcmpLt {d k : KReg} {a b : VReg} {f : Fmt} {s : State} (h : s.Sound) : OutSound (execVcmpLt d k a b f s) := h.vcmp

protected theorem State.Sound.execVcmpLe {d k : KReg} {a b : VReg} {f : Fmt} {s : State} (h : s.Sound) : OutSound (execVcmpLe d k a b f s) := h.vcmp

protected theorem State.Sound.execVcmpUnord {d k : KReg} {a b : VReg} {f : Fmt} {s : State} (h : s.Sound) : OutSound (execVcmpUnord d k a b f s) :=
  h.vcmp

protected theorem State.Sound.moveOp {d : VReg} {q : KReg} {f : Fmt} {src : Nat → Nat} {s : State} (h : s.Sound) : OutSound (moveOp d q f src s) :=
  h.vecRun h.setV.retired

protected theorem State.Sound.execVsel {d : VReg} {k : KReg} {a b : VReg} {f : Fmt} {s : State} (h : s.Sound) : OutSound (execVsel d k a b f s) :=
  h.moveOp

protected theorem State.Sound.execVmov {d : VReg} {k : KReg} {a : VReg} {f : Fmt} {s : State} (h : s.Sound) : OutSound (execVmov d k a f s) :=
  h.moveOp

protected theorem State.Sound.execVbcast {d : VReg} {k : KReg} {a : GReg} {f : Fmt} {s : State} (h : s.Sound) : OutSound (execVbcast d k a f s) :=
  h.moveOp

protected theorem State.Sound.execVext {d : GReg} {a : VReg} {b : GReg} {f : Fmt} {s : State} (h : s.Sound) : OutSound (execVext d a b f s) :=
  h.vecRun h.setG.retired

protected theorem State.Sound.execViota {d : VReg} {k : KReg} {a : GReg} {f : Fmt} {s : State} (h : s.Sound) : OutSound (execViota d k a f s) :=
  h.moveOp

protected theorem State.Sound.execVshuf {d : VReg} {k : KReg} {a b : VReg} {f : Fmt} {s : State} (h : s.Sound) : OutSound (execVshuf d k a b f s) :=
  h.moveOp

protected theorem State.Sound.execVrot {d : VReg} {k : KReg} {a : VReg} {b : GReg} {f : Fmt} {s : State} (h : s.Sound) :
    OutSound (execVrot d k a b f s) := h.moveOp

protected theorem State.Sound.execVpack {d : VReg} {k : KReg} {a b : VReg} {f : Fmt} {sat : Bool} {s : State} (h : s.Sound) :
    OutSound (execVpack d k a b f sat s) := h.moveOp

protected theorem State.Sound.execVunpack {d : VReg} {k : KReg} {a : VReg} {b : GReg} {f : Fmt} {s : State} (h : s.Sound) :
    OutSound (execVunpack d k a b f s) := h.moveOp

protected theorem State.Sound.reduce {d : GReg} {q : KReg} {f : Fmt} {tfmt empty : Nat} {first : Nat → Nat × Fl}
    {next : Nat → Nat → Nat × Fl} {s : State} (h : s.Sound) :
    OutSound (reduce d q f tfmt empty first next s) := by
  refine h.vecRun ?_
  split
  · exact .ite (.next h.flags.takeStop) h.flags.setG.retired
  · exact h.flags.setG.retired

protected theorem State.Sound.execVredSum {d : GReg} {k : KReg} {a : VReg} {f : Fmt} {rm : Rm} {sat : Bool} {s : State} (h : s.Sound) :
    OutSound (execVredSum d k a f rm sat s) := h.reduce

protected theorem State.Sound.execVredMin {d : GReg} {k : KReg} {a : VReg} {f : Fmt} {rm : Rm} {sat : Bool} {s : State} (h : s.Sound) :
    OutSound (execVredMin d k a f rm sat s) := h.reduce

protected theorem State.Sound.execVredMax {d : GReg} {k : KReg} {a : VReg} {f : Fmt} {rm : Rm} {sat : Bool} {s : State} (h : s.Sound) :
    OutSound (execVredMax d k a f rm sat s) := h.reduce

protected theorem State.Sound.execVdot {d : GReg} {k : KReg} {a b : VReg} {f : Fmt} {rm : Rm} {sat : Bool} {s : State} (h : s.Sound) :
    OutSound (execVdot d k a b f rm sat s) := h.reduce

protected theorem State.Sound.maskOp {d : KReg} {v : BitVec 32} {s : State} (h : s.Sound) : OutSound (maskOp d v s) := h.vecRun h.setK.retired

protected theorem State.Sound.execKand {d a b : KReg} {s : State} (h : s.Sound) : OutSound (execKand d a b s) := h.maskOp

protected theorem State.Sound.execKor {d a b : KReg} {s : State} (h : s.Sound) : OutSound (execKor d a b s) := h.maskOp

protected theorem State.Sound.execKxor {d a b : KReg} {s : State} (h : s.Sound) : OutSound (execKxor d a b s) := h.maskOp

protected theorem State.Sound.execKnot {d a : KReg} {s : State} (h : s.Sound) : OutSound (execKnot d a s) := h.maskOp

protected theorem State.Sound.execKpop {d : GReg} {a : KReg} {s : State} (h : s.Sound) : OutSound (execKpop d a s) := h.vecRun h.setG.retired

protected theorem State.Sound.execKset {d : KReg} {a : GReg} {s : State} (h : s.Sound) : OutSound (execKset d a s) := h.maskOp

protected theorem State.Sound.execKget {d : GReg} {a : KReg} {s : State} (h : s.Sound) : OutSound (execKget d a s) := h.vecRun h.setG.retired

/-! ### Vector loads and stores -/

protected theorem State.Sound.elemTrap {α : Type} {c : Cause} {tval : Word} {i tfmt : Nat} {s : State} (h : s.Sound) :
    (elemTrap (α := α) c tval i tfmt s).Sound := .stop h

protected theorem State.Sound.putLane {m : VMem} {i : Nat} {r : Nat × Fl} {s : State} (h : s.Sound) : (putLane m i r s).Sound :=
  .ite h.flags.elemTrap (.ok h.flags.setV)

protected theorem State.Sound.scaleCheck {m : VMem} {i : Nat} {el : Elem} {sb : Option Nat} {s : State} (h : s.Sound) :
    (scaleCheck m i el sb s).Sound := .ite (.ite h.flags.elemTrap (.ok h.flags)) (.ok h)

protected theorem State.Sound.readScale {el : Elem} {s : State} (h : s.Sound) : (readScale el s).Sound := by
  unfold readScale
  split
  · exact .ok h
  · exact h.readMem.bind (fun _ _ h1 => .ok h1)

theorem State.Sound.readQuad {s : State} {p : Word} (h : s.Sound) : (s.readQuad p).Sound := by
  refine .ite (h.readMem.bind (fun _ _ h1 => h1.readMem.bind (fun _ _ h2 => .ok h2))) ?_
  split
  · exact h.trapAt
  · exact h.readDirect
  · exact h.translate.bind (fun _ _ h1 => h1.readGlobal)

protected theorem State.Sound.quadOf {m : VMem} {i : Nat} {c : Option Quad} {s : State} (h : s.Sound) : (quadOf m i c s).Sound := by
  unfold quadOf
  split
  · exact .ite (.ok h) (h.readScale.bind (fun _ _ h1 => h1.readQuad.bind (fun _ _ h2 => .ok h2)))
  · exact h.readScale.bind (fun _ _ h1 => h1.readQuad.bind (fun _ _ h2 => .ok h2))

protected theorem State.Sound.quadCheck {m : VMem} {i : Nat} {new : Bool} {q : Quad} {s : State} (h : s.Sound) : (quadCheck m i new q s).Sound :=
  .ite (.ite h.flags.elemTrap (.ok h.flags)) (.ok h)

protected theorem State.Sound.loadElem {m : VMem} {i : Nat} {c : Option Quad} {s : State} (h : s.Sound) : (loadElem m i c s).Sound :=
  .ite
    (h.quadOf.bind (fun _ _ h1 =>
       h1.scaleCheck.bind (fun _ _ h2 => h2.quadCheck.bind (fun _ _ h3 => h3.putLane.bind (fun _ _ h4 => .ok h4)))))
    (h.readScale.bind (fun _ _ h1 =>
       h1.readMemQ.bind (fun _ _ h2 => h2.scaleCheck.bind (fun _ _ h3 => h3.putLane.bind (fun _ _ h4 => .ok h4)))))

protected theorem State.Sound.storeElem {m : VMem} {i : Nat} {c : Option Quad} {s : State} (h : s.Sound) : (storeElem m i c s).Sound :=
  .ite h.flags.elemTrap (h.writeMem.bind (fun _ _ h1 => .ok h1.flags))

protected theorem State.Sound.elemLoop {m : VMem} {one : VMem → Nat → Option Quad → State → Res (Option Quad)} {l : List Nat}
    {c : Option Quad} {s : State}
    (h : s.Sound) (hf : ∀ m i c s, s.Sound → (one m i c s).Sound) : (elemLoop m one l c s).Sound := by
  induction l generalizing c s with
  | nil => exact .ok h.onMe
  | cons i t ih => exact .ite ((hf _ _ _ _ h.onMe).atElem.needs.bind fun _ _ h => ih h.onMe) (ih h)

protected theorem State.Sound.elemRun {m : VMem} {one : VMem → Nat → Option Quad → State → Res (Option Quad)} {s : State}
    (h : s.Sound) (hf : ∀ m i c s, s.Sound → (one m i c s).Sound) : (elemRun m one s).Sound := h.elemLoop hf

protected theorem State.Sound.viewTrap {s : State} (h : s.Sound) : OutSound (viewTrap s) := .next h.takeStop

protected theorem State.Sound.vecMem {plain : Bool} {one : VMem → Nat → Option Quad → State → Res (Option Quad)} {d : VReg} {q : KReg}
    {p : Word} {f : Fmt} {rm : Rm} {sat : Bool} {elem : Fmt → Nat → Elem} {s : State} (h : s.Sound)
    (hfone : ∀ a0 a1 a2 s, s.Sound → (one a0 a1 a2 s).Sound) :
    OutSound (vecMem plain one d q p f rm sat elem s) :=
  .ite h.viewTrap (.ite (.next h.takeStop) (.ite (.next h.takeStop) (h.elemRun (fun _ _ _ _ h1 => hfone _ _ _ _ h1)).run))

protected theorem State.Sound.execVld {d : VReg} {k : KReg} {a : GReg} {f : Fmt} {rm : Rm} {sat : Bool} {s : State} (h : s.Sound) :
    OutSound (execVld d k a f rm sat s) := h.vecMem (fun _ _ _ _ h1 => h1.loadElem)

protected theorem State.Sound.execVst {d : VReg} {k : KReg} {a : GReg} {f : Fmt} {rm : Rm} {sat : Bool} {s : State} (h : s.Sound) :
    OutSound (execVst d k a f rm sat s) := h.vecMem (fun _ _ _ _ h1 => h1.storeElem)

protected theorem State.Sound.execVlds {d : VReg} {k : KReg} {a b : GReg} {f : Fmt} {rm : Rm} {sat : Bool} {s : State} (h : s.Sound) :
    OutSound (execVlds d k a b f rm sat s) := h.vecMem (fun _ _ _ _ h1 => h1.loadElem)

protected theorem State.Sound.execVsts {d : VReg} {k : KReg} {a b : GReg} {f : Fmt} {rm : Rm} {sat : Bool} {s : State} (h : s.Sound) :
    OutSound (execVsts d k a b f rm sat s) := h.vecMem (fun _ _ _ _ h1 => h1.storeElem)

protected theorem State.Sound.execVgather {d : VReg} {k : KReg} {a : GReg} {b : VReg} {f : Fmt} {rm : Rm} {sat : Bool} {s : State} (h : s.Sound) :
    OutSound (execVgather d k a b f rm sat s) := h.vecMem (fun _ _ _ _ h1 => h1.loadElem)

protected theorem State.Sound.execVscatter {d : VReg} {k : KReg} {a : GReg} {b : VReg} {f : Fmt} {rm : Rm} {sat : Bool} {s : State} (h : s.Sound) :
    OutSound (execVscatter d k a b f rm sat s) := h.vecMem (fun _ _ _ _ h1 => h1.storeElem)

protected theorem State.Sound.execVscale {d : GReg} {k : KReg} {a : VReg} {f : Fmt} {t : QTgt} {home : BitVec 4} {s : State} (h : s.Sound) :
    OutSound (execVscale d k a f t home s) := by
  simp only [execVscale]
  refine h.vecRun ?_
  split
  · exact .ite (.next h.flags.takeStop) h.flags.setG.retired
  · split
    · exact h.setG.retired
    · exact h.flags.setG.retired

protected theorem State.Sound.execVquant {d : VReg} {k : KReg} {a : VReg} {b : GReg} {f : Fmt} {rm : Rm} {t : QTgt} {s : State} (h : s.Sound) :
    OutSound (execVquant d k a b f rm t s) := by
  simp only [execVquant]
  refine h.vecRun (.ite (.next (State.Sound.ite h.flags h).takeStop) ?_)
  split
  · exact .ite (.next (State.Sound.ite h.flags h).flags.takeStop) (State.Sound.ite h.flags h).flags.setV.retired
  · exact (State.Sound.ite h.flags h).flags.setV.retired

/-! ### Streamers -/

theorem State.Sound.touch {s : State} {write : Bool} {pg : SPage} (h : s.Sound) : (s.touch write pg).Sound := by
  unfold State.touch
  split
  · exact h.onMem (fun _ h1 => Memory.wf_orWord _ _ h1)
  all_goals exact h

theorem State.Sound.engineWrite {s : State} {k : Nat} {bytes : List Byte} {how : WrHow} (h : s.Sound) : (s.engineWrite k bytes how).Sound :=
  .ite (h.onMem (fun _ h1 => Memory.wf_engineWrite _ _ _ h1)).serveAll (h.onMem (fun _ h1 => Memory.wf_engineWrite _ _ _ h1))

theorem State.Sound.onChan {s : State} {str ch : Nat} {f : StrChan → StrChan} (h : s.Sound) : (s.onChan str ch f).Sound := h.onStr

theorem State.Sound.boardShow {s : State} {c : StrChan} (h : s.Sound) : (s.boardShow c).Sound := h.onCore

theorem State.Sound.boardBytes {s : State} {c : StrChan} (h : s.Sound) : (s.boardBytes c).Sound := .ite h h.boardShow

theorem State.Sound.wrote {s : State} {str ch n : Nat} (h : s.Sound) : (s.wrote str ch n).Sound := by
  simp only [State.wrote]
  split
  · exact h.onChan.boardBytes
  · exact h.onChan

theorem State.Sound.strAck {s : State} {str ch n : Nat} (h : s.Sound) : (s.strAck str ch n).Sound := h.onChan.wrote

theorem State.Sound.noteCopy {s : State} {core k : Nat} {bytes : List Byte} {fe : Bool} (h : s.Sound) : (s.noteCopy core k bytes fe).Sound :=
  .ite h h.noteWrite

theorem State.Sound.readPart {s : State} {str ch n : Nat} {c : StrChan} {p : Word} {pg : SPage} (h : s.Sound) :
    (s.readPart str ch n c p pg).Sound := by
  unfold State.readPart
  split
  · exact .ite (State.Sound.ite h.touch.countBlk h.touch).scrub.onChan (State.Sound.ite h.touch.countBlk h.touch).sendReq.onChan
  · exact h
  · exact h

theorem State.Sound.writePart {s : State} {str ch : Nat} {c : StrChan} {n unit : Nat} {p : Word} {pg : SPage} (h : s.Sound) :
    (s.writePart str ch c n unit p pg).Sound := by
  unfold State.writePart
  split
  · exact .ite
      (State.Sound.ite h.countBlk h).touch.onChan.noteCopy.engineWrite.wrote
      (State.Sound.ite h.countBlk h).touch.onChan.sendReq.onChan
  · exact h.touch.onChan.sendReq.onChan
  · exact h
  · exact h

theorem State.Sound.copyEvent {s : State} {str ev : Nat} {c : StrChan} (h : s.Sound) : (s.copyEvent str ev c).Sound := h.event

theorem State.Sound.boardPush {s : State} {c : StrChan} {st : XferSt} (h : s.Sound) : (s.boardPush c st).Sound := h.update

theorem State.Sound.boardApply {s : State} {u : BoardUpd} (h : s.Sound) : (s.boardApply u).Sound := h.onCore

theorem State.Sound.strChoose {s : State} {src dst : Word} (h : s.Sound) : (s.strChoose src dst).Sound :=
  .ite (.ok h) (h.translate.bind (fun _ _ h1 => .ok h1))

/-! ### Bindings and their pages -/

theorem State.Sound.hearBind {s : State} {p b : Nat} {lv : BitVec 32} {mid : Nat} (h : s.Sound) : (s.hearBind p b lv mid).Sound := by
  unfold State.hearBind
  split
  · exact h
  · exact h.setBlk

theorem State.Sound.lvbindDo {s : State} {d : GReg} {bw : Word} {front : BitVec 16} {r : List Word} (h : s.Sound) :
    (s.lvbindDo d bw front r).Sound := by
  refine .ite h.trapAt ?_
  split
  · exact h.trapAt
  · exact .ite h.trapAt (.ite h.trapAt (.ok (h.setBlk.tick.foldl (fun _ _ h1 => h1.hearBind)).setG))

theorem State.Sound.unbind {s : State} {p id : Nat} {b : Blk} (h : s.Sound) : (s.unbind p id b).Sound :=
  h.delBlk.foldl (fun _ _ h1 => .ite h1.setBlk h1)

theorem State.Sound.lvunbindDo {s : State} {d : GReg} {a : Word} (h : s.Sound) : (s.lvunbindDo d a).Sound := by
  unfold State.lvunbindDo
  split
  · exact h.setG
  · exact .ite h.unbind.setG h.setG

theorem State.Sound.lvfreezeDo {s : State} {d : GReg} {a : Word} (h : s.Sound) : (s.lvfreezeDo d a).Sound := by
  unfold State.lvfreezeDo
  split
  · exact h.setG
  · exact h.freezeFront.setG

theorem State.Sound.thawFront {s : State} {p tag num : Nat} (h : s.Sound) : (s.thawFront p tag num).Sound :=
  .ite (h.setFront.event.foldl (fun _ _ h1 => .ite h1.setBlk h1)) h

theorem State.Sound.freezeDie {s : State} {die : Nat} (h : s.Sound) : (s.freezeDie die).Sound := h.foldl (fun _ _ h1 => h1.freezeFront)

theorem State.Sound.leaseFreeze {s : State} {die : Nat} (h : s.Sound) : (s.leaseFreeze die).Sound := .ite h.onPart h.freezeDie

theorem State.Sound.hostFront {s : State} {p id : Nat} {thaw : Bool} (h : s.Sound) : (s.hostFront p id thaw).Sound := by
  unfold State.hostFront
  split
  · exact h
  · exact .ite h.thawFront h.freezeFront

theorem State.Sound.hostFrontAt {s : State} {p id : Nat} {thaw : Bool} (h : s.Sound) : (s.hostFrontAt p id thaw).Sound := .ite h.onPart h.hostFront

theorem State.Sound.lvthawDo {s : State} {d : GReg} {a : Word} (h : s.Sound) : (s.lvthawDo d a).Sound := by
  unfold State.lvthawDo
  split
  · exact h.setG
  · exact h.thawFront.setG

theorem State.Sound.publish {s : State} {id : Nat} {lv : BitVec 32} (h : s.Sound) : (s.publish id lv).Sound := by
  refine .ite h.onMe.onPart ?_
  split
  · exact h.onMe.setLevel.sendNotices
  · exact h.onMe.setLevel

theorem State.Sound.lvcommitDo {s : State} {a b : Word} (h : s.Sound) : (s.lvcommitDo a b).Sound := by
  unfold State.lvcommitDo
  split
  · exact h.trapAt
  · exact h.release.bind (fun _ _ h1 => .ite (.ok h1.publish) (.stop h1))

/-! ### Matrix and ring operations -/

theorem State.Sound.ringFlip {s : State} {cl : Nat} {g : GOp} (h : s.Sound) : (s.ringFlip cl g).Sound :=
  ((State.Sound.ite (h.foldl (fun _ _ h1 => h1.scrub)) h).onMem (fun _ h1 =>
     Memory.wf_store _ _ _ (Memory.wf_store _ _ _ (Memory.wf_writeOuts _ _ h1)))).onRing.event.count

theorem State.Sound.clasp {s : State} {cl : Nat} (h : s.Sound) : (s.clasp cl).Sound := .ite h (.ite h.onRing.event h.onRing.event)

/-! ### The torus -/

theorem State.Sound.collect {s : State} {ep : Nat} {home : Word} {b : ReqBody} {crcOk : Bool} (h : s.Sound) : (s.collect ep home b crcOk).Sound := by
  refine .ite h.respond ?_
  split
  · exact h.onEp
  · exact .ite h.respond h.onEp

theorem State.Sound.gather {s : State} {ep : Nat} {home : Word} {b : FlitBody} (h : s.Sound) : (s.gather ep home b).Sound :=
  .ite h.onEp (.ite h h.onEp)

theorem State.Sound.eject {s : State} {f : Flit} (h : s.Sound) : (s.eject f).Sound := by
  refine .ite h.onEp ?_
  split
  · exact h.collect
  all_goals exact .ite h.gather h

theorem State.Sound.hop {s : State} {r : Nat} {rsp : Bool} {d : Dir} {f : Flit} (h : s.Sound) : (s.hop r rsp d f).Sound := h.onRouter

theorem State.Sound.placeFlit {s : State} {r : Nat} {rsp : Bool} {p : Ports} {f : Flit} (h : s.Sound) : (s.placeFlit r rsp p f).1.Sound := by
  refine .ite_fst h.eject ?_
  split
  · exact h.hop
  · exact h

theorem State.Sound.inject {s : State} {r : Nat} {rsp loc : Bool} {p : Ports} (h : s.Sound) : (s.inject r rsp loc p).1.Sound := by
  unfold State.inject
  split
  · exact h
  · split
    · exact h.onEp.onRouter.eject
    · refine .ite_fst h ?_
      split
      · exact h.onEp.onRouter.hop
      · exact h

theorem State.Sound.routeCycle {s : State} {r : Nat} {rsp : Bool} (h : s.Sound) : (s.routeCycle r rsp).Sound := by
  have h2 : ∀ {c : Prop} {_ : Decidable c} {f g}, (if c then (s.onRouter r f).onRouter r g else s.onRouter r f).Sound :=
    .ite h.onRouter.onRouter h.onRouter
  exact (State.Sound.foldl_fst h2 fun _ _ h => h.placeFlit).inject.inject.foldl fun _ _ h => h.onRouter

theorem State.Sound.routeOnce {s : State} {r : Nat} {rsp : Bool} (h : s.Sound) : (s.routeOnce r rsp).Sound := .ite h (.ite h h.routeCycle)

theorem State.Sound.fabricCycle {s : State} (h : s.Sound) : (s.fabricCycle).Sound := .ite h (h.foldl (fun _ _ h1 => h1.routeOnce.routeOnce)).update

/-! ### Windows and links -/

theorem State.Sound.linkReport {s : State} {n : Nat} {c : Cause} (h : s.Sound) : (s.linkReport n c).Sound := by
  unfold State.linkReport
  split
  · exact h.onPkg
  · exact h.foldl (fun _ _ h1 => h1.recordX)

theorem State.Sound.pump {s : State} {n : Nat} (h : s.Sound) : (s.pump n).Sound := .ite h.onLink.linkReport h.onLink

theorem State.Sound.sendPkt {s : State} {n : Nat} {p : Pkt} (h : s.Sound) : (s.sendPkt n p).Sound := h.onLink.pump

theorem State.Sound.feed {s : State} {link out : Nat} {fs : List LinkFlit} {ends : Bool} (h : s.Sound) : (s.feed link out fs ends).Sound :=
  h.onLink.onLink.pump

theorem State.Sound.stompCut {s : State} {link : Nat} (h : s.Sound) : (s.stompCut link).Sound := by
  unfold State.stompCut
  split
  · exact h.feed
  · exact h

theorem State.Sound.dropTlb {s : State} {p : Nat} {f : TlbE → Bool} (h : s.Sound) : (s.dropTlb p f).Sound := h.update

theorem State.Sound.setWent {s : State} {xd n : Nat} {w : WEnt} (h : s.Sound) : (s.setWent xd n w).Sound := h.onWin

theorem State.Sound.unWout {s : State} {st : WStore} (h : s.Sound) : (s.unWout st).Sound := h.onCtx

theorem State.Sound.dropStore {s : State} {st : WStore} (h : s.Sound) : (s.dropStore st).Sound := h.unWout.onCtx.count

theorem State.Sound.breakEntry {s : State} {xd n : Nat} (h : s.Sound) : (s.breakEntry xd n).Sound :=
  (h.setWent.foldl (fun _ _ h1 => h1.dropStore)).dropTlb

theorem State.Sound.ackApply {s : State} {xd n : Nat} {upto : BitVec 32} (h : s.Sound) : (s.ackApply xd n upto).Sound :=
  .ite (h.setWent.foldl (fun _ _ h1 => h1.unWout)) h

theorem State.Sound.missApply {s : State} {xd n : Nat} (h : s.Sound) : (s.missApply xd n).Sound := .ite h h.breakEntry.recordX

theorem State.Sound.reflect {s : State} {p : Pkt} (h : s.Sound) : (s.reflect p).Sound := by
  simp only [State.reflect]
  refine .ite .miss ?_
  split
  · exact .miss
  · exact .absent
  · exact .ite .miss (.ite .waits (.ack ((State.Sound.ite h.count h).onMem fun _ => Memory.wf_orWord _ _).engineWrite))

theorem State.Sound.answer {s : State} {p : Pkt} {k : PktKind} (h : s.Sound) : (s.answer p k).Sound := by
  unfold State.answer
  split
  · exact h.sendPkt
  · split
    · exact h.ackApply
    · exact h.missApply
    · exact h

theorem State.Sound.setPath {s : State} {k : Nat} {x : PathSt} (h : s.Sound) : (s.setPath k x).Sound := h.update

theorem State.Sound.target {s : State} {xd : Nat} {p : Pkt} (h : s.Sound) : (s.target xd p).Sound := by
  unfold State.target
  split
  · next he => exact (h.reflect.of_ack he).setPath.answer
  · exact h.setPath.answer
  · exact .ite h.onWin h.onWin
  · exact h.onWin

theorem State.Sound.sentStores {s : State} {xd n : Nat} {w : WEnt} {k : Nat} (h : s.Sound) : (s.sentStores xd n w k).Sound :=
  h.setWent.foldl (fun _ _ h1 => h1.count)

theorem State.Sound.linkFall {s : State} {n : Nat} (h : s.Sound) : (s.linkFall n).Sound := h.stompCut.onLink.linkReport

theorem State.Sound.dropUnheard {s : State} (h : s.Sound) : (s.dropUnheard).Sound := h.foldl (fun _ _ h1 => h1.linkFall)

theorem State.Sound.pktIn {s : State} {n : Nat} {p : Pkt} (h : s.Sound) : (s.pktIn n p).Sound := by
  refine .ite h.onWin ?_
  split
  · exact h.sendPkt
  · split
    · exact h.sendPkt
    · exact h
    · exact h

theorem State.Sound.wstHere {s : State} {xd n : Nat} {st : WStore} (h : s.Sound) : (s.wstHere xd n st).Sound := .ite h.dropStore h.setWent

/-! ### The cycle -/

theorem State.Sound.drainAll {s : State} (h : s.Sound) : (s.drainAll).Sound := h.foldl (fun _ _ h1 => h1.drain)

theorem State.Sound.serveHomes {s : State} (h : s.Sound) : (s.serveHomes).Sound := h.foldl (fun _ _ h1 => h1.serveAll)

theorem State.Sound.rlcFaults {s : State} (h : s.Sound) : (s.rlcFaults).Sound := h.foldl (fun _ _ h1 => h1.onRlc.foldl (fun _ _ h2 => h2.rlcApply))

theorem State.Sound.cycle {s0 : State} (h : s0.Sound) : (s0.cycle).Sound := h.fabricCycle.drainAll.serveHomes.rlcFaults.dropUnheard.update

/-! ### Issue and turns -/

protected theorem State.Sound.atCtx {s : State} {core ctx : Nat} (h : s.Sound) : (s.at core ctx).Sound := h.update

protected theorem State.Sound.execDecodingFault {core ctx : Nat} {s : State} (h : s.Sound) : OutSound (execDecodingFault core ctx s) := by
  refine .ite (.next h) ?_
  split
  · exact .next h.atCtx.takeTrap
  · refine .ite (.next h) ?_
    split
    · next he => exact .next (h.atCtx.fetch.of_stop he).takeStop
    · next he =>
        split
        · exact .next h
        · exact .next (h.atCtx.fetch.of_ok he).takeStop

protected theorem State.Sound.execBreakpointMatch {core ctx : Nat} {s : State} (h : s.Sound) : OutSound (execBreakpointMatch core ctx s) := by
  simp only [execBreakpointMatch]
  split
  · exact .next h
  · exact .ite (.next h.atCtx.takeTrap) (.next h)

protected theorem State.Sound.execBudgetExpiry {core ctx : Nat} {s : State} (h : s.Sound) : OutSound (execBudgetExpiry core ctx s) :=
  .ite (.next h.takeTrap) (.next h)

/-! ### Sends -/

theorem State.Sound.place {s : State} {now : Bool} {o : OutMsg} (h : s.Sound) : (s.place now o).Sound := .ite (.ok h.onMe.leaveAll) (.stop h)

protected theorem State.Sound.sendMsg {tgt : State → Option Nat} {kind : Nat} {now : Bool} {d : GReg} {q : QSel} {ptr : Word} {b : GReg}
    {n : BitVec 6} {t : Option (BitVec 3)} {s : State} (h : s.Sound) :
    OutSound (sendMsg tgt kind now d q ptr b n t s) := by
  refine (h.release.bind (fun _ _ h1 => ?_)).run
  split
  · exact h1.trapAt
  · exact .ite h1.trapAt (h1.readWords.bind (fun _ _ h2 => h2.place))

protected theorem State.Sound.execSend {d : GReg} {q : QSel} {a b : GReg} {n : BitVec 6} {t : Option (BitVec 3)} {s : State} (h : s.Sound) :
    OutSound (execSend d q a b n t s) := h.sendMsg

protected theorem State.Sound.execSenda {d : GReg} {q : QSel} {a b : GReg} {n : BitVec 6} {t : Option (BitVec 3)} {s : State} (h : s.Sound) :
    OutSound (execSenda d q a b n t s) := h.sendMsg

protected theorem State.Sound.execSendp {d : GReg} {q : QSel} {a b : GReg} {n : BitVec 6} {t : Option (BitVec 3)} {s : State} (h : s.Sound) :
    OutSound (execSendp d q a b n t s) := h.sendMsg

protected theorem State.Sound.execSendl {d : GReg} {q : QSel} {a b : GReg} {n : BitVec 6} {t : Option (BitVec 3)} {s : State} (h : s.Sound) :
    OutSound (execSendl d q a b n t s) := h.sendMsg

protected theorem State.Sound.execReply {d : GReg} {q : QSel} {b : GReg} {n : BitVec 6} {t : Option (BitVec 3)} {s : State} (h : s.Sound) :
    OutSound (execReply d q b n t s) := h.sendMsg

protected theorem State.Sound.execMsgid {d : GReg} {s : State} (h : s.Sound) : OutSound (execMsgid d s) := h.setG.retired

protected theorem State.Sound.execMsgpay {d a : GReg} {s : State} (h : s.Sound) : OutSound (execMsgpay d a s) := h.setG.retired

theorem State.Sound.reenter {s : State} {core ctx : Nat} {a : Act} (h : s.Sound) : (s.reenter core ctx a).Sound :=
  .ite h.freeSlotOf (.ite h.freeSlotOf.count (.ite h.onPart h.freeSlotOf.onCore))

theorem State.Sound.finish {s : State} {requeue : Bool} (h : s.Sound) : (s.finish requeue).Sound :=
  (State.Sound.ite h.advance.leaveAll.endEvent.failedRecords.reenter h.advance.leaveAll.endEvent.failedRecords.freeSlotOf).freeCtx.tellDispatcher

protected theorem State.Sound.execDone {s : State} (h : s.Sound) : OutSound (execDone s) := .ite (.next h.finish) (.next h.waitAt)

protected theorem State.Sound.execRequeue {s : State} (h : s.Sound) : OutSound (execRequeue s) := .ite (.next h.finish) (.next h.waitAt)

/-! ### Activations -/

protected theorem State.Sound.execSlotFreedAdmit {core : Nat} {s : State} (h : s.Sound) : OutSound (execSlotFreedAdmit core s) := by
  simp only [execSlotFreedAdmit]
  split
  · exact .next h
  · split
    · exact .next h
    all_goals exact .next (State.Sound.ite_fst h.admitLaunch h.enters).onCore.respondTo

theorem State.Sound.startOn {s : State} {core ctx q : Nat} {m : QMsg} (h : s.Sound) : (s.startOn core ctx q m).Sound := h.onCore.onCtx.coreEvent.count

protected theorem State.Sound.execQueueAging {core : Nat} {s : State} (h : s.Sound) : OutSound (execQueueAging core s) :=
  .ite (.next h) (.next h.onCore)

protected theorem State.Sound.execActivationStart {core ctx : Nat} {s : State} (h : s.Sound) : OutSound (execActivationStart core ctx s) := by
  unfold execActivationStart
  split
  · exact .next h
  · exact .next h.startOn

protected theorem State.Sound.execParkResume {core ctx : Nat} {s : State} (h : s.Sound) : OutSound (execParkResume core ctx s) :=
  .ite (.next h.resume) (.next h)

protected theorem State.Sound.execMigrationShip {core ctx : Nat} {s : State} (h : s.Sound) : OutSound (execMigrationShip core ctx s) := by
  simp only [execMigrationShip]
  split
  · refine .ite (.next h) ?_
    split
    · exact .ite (.next h) (.next h.resume.onCtx)
    · exact .ite (.next h) (.next h.leaveAll.endEvent.failedRecords.onCore.onCtx)
  all_goals exact .next h

theorem State.Sound.newLine {s : State} {core : Nat} {w : Wayfarer} (h : s.Sound) : (s.newLine core w).Sound := by
  unfold State.newLine
  split
  · exact .ite h.onCore h
  · exact h

protected theorem State.Sound.execWayfarerArrive {core ctx : Nat} {s : State} (h : s.Sound) : OutSound (execWayfarerArrive core ctx s) := by
  unfold execWayfarerArrive
  split
  · exact .next h
  · exact .ite (.next h) (.next h.onCore.onCtx.newLine.freeCtx)

theorem State.Sound.wakeCore {s : State} {core : Nat} (h : s.Sound) : (s.wakeCore core).Sound := h.foldl (fun _ _ h1 => .ite h1.resume h1)

protected theorem State.Sound.execTurnSwitch {core : Nat} {s : State} (h : s.Sound) : OutSound (execTurnSwitch core s) := by
  unfold execTurnSwitch
  split
  · exact .next h
  · exact .ite (.next h.onPkg.wakeCore) (.next h)

/-! ### Frames, eviction and firmware paging -/

theorem State.Sound.zeroFrames {s : State} {frames : List Nat} {n : Nat} (h : s.Sound) : (s.zeroFrames frames n).Sound :=
  h.onMem (fun _ h1 => Memory.wf_foldl _ _ h1 (fun _ _ h2 => Memory.wf_zero _ _ h2))

theorem State.Sound.fromPool {s : State} {p n : Nat} {repl : Bool} (h : s.Sound) : FrameSound (s.fromPool p n repl) := by
  intro r hr
  simp only [State.fromPool] at hr
  split at hr
  · cases hr; exact h.onPart.tick
  · cases hr

theorem State.Sound.fromReserve {s : State} {p n : Nat} {table repl : Bool} (h : s.Sound) : FrameSound (s.fromReserve p n table repl) := by
  intro r hr
  unfold State.fromReserve at hr
  split at hr
  · cases hr
  · split at hr <;> split at hr
    · cases hr; exact h.onPart
    · cases hr
    · cases hr; exact h.onPart
    · cases hr

theorem State.Sound.rekey {s : State} {p : Nat} {f : Nat → Nat} (h : s.Sound) : (s.rekey p f).Sound := h.update

theorem State.Sound.moveCmds {s : State} {n : Nat} {src dst : List Nat} (h : s.Sound) : (s.moveCmds n src dst).Sound := h.update

theorem State.Sound.evict {s : State} {p : Nat} {r : Resident} (h : s.Sound) : (s.evict p r).Sound := by
  unfold State.evict
  split
  · refine (State.Sound.rekey ?_).onPart
    split
    · exact .ite
        ((h.onMem (fun _ h1 => Memory.wf_write _ _ _ h1)).dropTlb.tick.onMem (fun _ h1 => Memory.wf_copyRun _ _ _ h1)).moveCmds
        (h.onMem (fun _ h1 => Memory.wf_write _ _ _ h1)).dropTlb.tick
    · exact (h.onMem (fun _ h1 => Memory.wf_write _ _ _ h1)).dropTlb.tick
  · exact h
  · exact h

theorem State.Sound.evictOne {s : State} {p : Nat} {need : List Nat} (h : s.Sound) : (s.evictOne p need).Sound id := by
  simp only [State.evictOne]
  split
  · exact .got h.evict
  · exact .ite .none .later

theorem State.Sound.evictFor {s : State} {p n : Nat} {need : List Nat} {repl : Bool} {k : Nat} (h : s.Sound) :
    (s.evictFor p n need repl k).Sound Prod.snd := by
  induction k generalizing s with
  | zero => exact .none
  | succ k ih =>
    simp only [State.evictFor]
    split
    · exact .none
    · exact .later
    · next s1 he =>
      have h1 : s1.Sound := h.evictOne.of_got he
      split
      · next r hr => exact .got (h1.fromPool r hr)
      · exact ih h1

theorem State.Sound.takeFrame {s : State} {p n : Nat} {need : List Nat} {table repl grant : Bool} (h : s.Sound) :
    (s.takeFrame p n need table repl grant).Sound Prod.snd := by
  have reserve : FrameSound (if grant then s.fromReserve p n table repl else none) := by
    split
    · exact h.fromReserve
    · exact fun _ hr => nomatch hr
  unfold State.takeFrame
  split
  · next r hr => exact .got (h.fromPool r hr).onPart
  · split
    · next r hr => exact .got (h.evictFor.of_got hr).onPart
    · exact .later
    · split
      · next r hr => exact .got (reserve r hr).onPart
      · exact .none

theorem State.Sound.fillFrames {s : State} {p f n : Nat} {repl : Bool} {src : Option Nat} (h : s.Sound) : (s.fillFrames p f n repl src).Sound := by
  refine h.foldl (fun _ _ h1 => h1.onMem (fun _ h2 => ?_))
  split
  · exact Memory.wf_copyRun _ _ _ h2
  · exact Memory.wf_zero _ _ h2

theorem State.Sound.placed {s : State} {p slot : Nat} {e : Word} {f lvl : Nat} {src : Option Nat} {base : Nat} (h : s.Sound) :
    (s.placed p slot e f lvl src base).Sound := by
  refine (State.Sound.onMem ?_ (fun _ h1 => Memory.wf_write _ _ _ h1)).rekey
  split
  · exact h.moveCmds
  · exact h

theorem State.Sound.pageIn {s : State} {p va : Nat} {need : List Nat} {grant : Bool} (h : s.Sound) : (s.pageIn p va need grant).Sound := by
  simp only [State.pageIn]
  split
  · exact .done h
  · exact .done h
  · refine .ite (.ite .unmapped ?_) (.ite .unmapped ?_)
    · split
      · next he => exact .done ((h.takeFrame.of_got he).onMem fun _ hm => Memory.wf_write _ _ _ (Memory.wf_fillTable _ _ hm))
      · exact .later
      · exact .noFrame
    · split
      · next he =>
        have h1 := h.takeFrame.of_got he
        exact .done h1.fillFrames.placed.onPart
      · exact .later
      · exact .noFrame

theorem State.Sound.bringIn {s : State} {p va : Nat} {need : List Nat} {n : Nat} (h : s.Sound) : (s.bringIn p va need n).Sound := by
  induction n generalizing s with
  | zero => exact .here h
  | succ n ih =>
    simp only [State.bringIn]
    split
    · exact .here h
    · exact .unmapped
    · refine .ite (.ask h) ?_
      split
      · next he => exact ih (h.pageIn.of_done he)
      · exact .unmapped
      · exact .ask h
      · exact .later h

theorem State.Sound.askFor {s : State} {p who va : Nat} (h : s.Sound) : (s.askFor p who va).Sound := by
  refine .ite h ?_
  split
  · exact h
  · exact h.onPkg

/-! ### Front instructions -/

theorem State.Sound.bindTurn {s : State} {f : State → Res Unit} (h : s.Sound) (hff : ∀ s, s.Sound → (f s).Sound) : (s.bindTurn f).Sound :=
  .ite (hff _ h) (.ite (hff _ h.noteTurn) (.stop h))

protected theorem State.Sound.frontChange {r : List Word} {now : State → Res Unit} {s : State} (h : s.Sound) (hfnow : ∀ s, s.Sound → (now s).Sound) :
    (frontChange r now s).Sound := .ite (.stop h.onPart) (hfnow _ h)

protected theorem State.Sound.execLvbind {d a b : GReg} {front : BitVec 16} {s : State} (h : s.Sound) : OutSound (execLvbind d a b front s) :=
  (Res.Sound.ite h.trapAt (h.readWords.bind (fun _ _ h1 => h1.frontChange (fun _ h2 => h2.bindTurn (fun _ h3 => h3.lvbindDo))))).run

protected theorem State.Sound.execLvunbind {d a : GReg} {s : State} (h : s.Sound) : OutSound (execLvunbind d a s) :=
  (h.frontChange (fun _ h1 => h1.bindTurn (fun _ h2 => .ok h2.lvunbindDo))).run

protected theorem State.Sound.execLvread {d a : GReg} {s : State} (h : s.Sound) : OutSound (execLvread d a s) := h.setG.retired

protected theorem State.Sound.execLvcommit {a b : GReg} {s : State} (h : s.Sound) : OutSound (execLvcommit a b s) := h.lvcommitDo.run

protected theorem State.Sound.execLvcmp {d a b : GReg} {off : BitVec 16} {s : State} (h : s.Sound) : OutSound (execLvcmp d a b off s) :=
  h.setG.retired

protected theorem State.Sound.execLvfreeze {d a : GReg} {s : State} (h : s.Sound) : OutSound (execLvfreeze d a s) :=
  (h.frontChange (fun _ h1 => .ok h1.lvfreezeDo)).run

protected theorem State.Sound.execLvthaw {d a : GReg} {s : State} (h : s.Sound) : OutSound (execLvthaw d a s) :=
  (h.frontChange (fun _ h1 => .ok h1.lvthawDo)).run

protected theorem State.Sound.execLvstat {d a : GReg} {s : State} (h : s.Sound) : OutSound (execLvstat d a s) := h.setG.retired

protected theorem State.Sound.execBlockDispatch {die : Nat} {s : State} (h : s.Sound) : OutSound (execBlockDispatch die s) := by
  refine .ite (.next h) ?_
  split
  · exact .next h
  · exact .next h.dispatch

protected theorem State.Sound.execLevelNotice {die : Nat} {s : State} (h : s.Sound) : OutSound (execLevelNotice die s) := by
  refine .ite (.next h) ?_
  split
  · exact .next h
  · exact .next h.onFu.applyNotice

protected theorem State.Sound.execLevelPublish {core ctx : Nat} {s : State} (h : s.Sound) : OutSound (execLevelPublish core ctx s) := by
  refine .ite ?_ (.next h)
  split
  · split
    · next he => exact .next (h.atCtx.lvcommitDo.of_ok he).retire
    · exact .next h
  · exact .next h
  · exact .next h

protected theorem Res.Sound.ringRun {r : Res Unit} {s : State} (h : r.Sound) (h1 : s.Sound) : OutSound (ringRun r s) := .ite (.next h1.takeStop) h.run

/-! ### Matrix instructions -/

protected theorem State.Sound.execMput {i : Fin 4} {a : GReg} {s : State} (h : s.Sound) : OutSound (execMput i a s) :=
  (Res.Sound.ite (.ite h.trapAt (.ok h.onMyCore)) (.ite h.trapAt (.ok h.onMyCore))).ringRun h

protected theorem State.Sound.execMget {d : GReg} {i : Fin 7} {s : State} (h : s.Sound) : OutSound (execMget d i s) := (Res.Sound.ok h.setG).ringRun h

theorem State.Sound.barrier {s : State} {p : Word} (h : s.Sound) : (s.barrier p).Sound := by
  refine .ite h.trapAt ?_
  split
  · exact h.trapAt
  · exact .ite h.trapAt (.ok h)

theorem State.Sound.takeResult {s : State} {d : GReg} {bad : Bool} {v : Nat} (h : s.Sound) : (s.takeResult d bad v).Sound :=
  .ite h.onRing.trapAt (.ok h.onRing.setG)

theorem State.Sound.join {s : State} {d : GReg} {m : Member} (h : s.Sound) : (s.join d m).Sound := by
  refine .ite (.stop h) ?_
  split
  · exact (State.Sound.ite h.onRing h.onRing.clasp).takeResult
  · exact .stop (State.Sound.ite h.onRing h.onRing.clasp)

theorem State.Sound.gang {s : State} {d : GReg} {m : Member} (h : s.Sound) : (s.gang d m).Sound := h.release.bind (fun _ _ h1 => h1.join)

protected theorem State.Sound.execMgang {d a : GReg} {tag : BitVec 16} {s : State} (h : s.Sound) : OutSound (execMgang d a tag s) := by
  refine Res.Sound.ringRun ?_ h
  split
  · exact h.takeResult
  · refine .ite (.stop h) ?_
    split
    · exact h.gang
    · refine h.barrier.bind (fun _ _ h1 => ?_)
      split
      · exact h1.trapAt
      · exact h1.onRing.gang

protected theorem State.Sound.execMwait {a b : GReg} {s : State} (h : s.Sound) : OutSound (execMwait a b s) :=
  (h.barrier.bind (fun _ _ h1 =>
    h1.readMem.bind (fun _ _ h2 =>
      .ite (.stop h2) (h2.readMem.bind (fun _ _ h3 => .ite h3.trapAt (.ite (.stop h3) (.ok h3))))))).ringRun
    h

protected theorem State.Sound.execMstat {d a : GReg} {s : State} (h : s.Sound) : OutSound (execMstat d a s) :=
  (h.barrier.bind (fun _ _ h1 => h1.readMem.bind (fun _ _ h2 => .ite h2.trapAt (.ok h2.setG)))).ringRun h

protected theorem State.Sound.execMatrixFlip {cluster : Nat} {s : State} (h : s.Sound) : OutSound (execMatrixFlip cluster s) := by
  unfold execMatrixFlip
  split
  · exact .next h
  · exact .ite (.next h) (.next h.ringFlip)

/-! ### Streamer instructions and copies -/

theorem State.Sound.checkLayout {s : State} {p : Word} {r : List Word} {sv dv : Word} (h : s.Sound) : (s.checkLayout p r sv dv).Sound := by
  refine .ite h.trapAt ?_
  split
  · exact h.trapAt
  · split
    · exact h.trapAt
    · exact .ok h

theorem State.Sound.copySend {s : State} {str : Nat} {r : List Word} {sv dv : Word} (h : s.Sound) : (s.copySend str r sv dv).Sound :=
  h.onMyCore.sendReq

protected theorem Res.Sound.keepRemote {α : Type} {v : Vector Nat 8} {r : Res α} (h : r.Sound) : (keepRemote v r).Sound := by
  cases h with
  | ok h => exact .ok h.onMe
  | stop h => exact .stop h.onMe

protected theorem State.Sound.execCpreq {a : GReg} {s : State} (h : s.Sound) : OutSound (execCpreq a s) :=
  (Res.Sound.ite h.trapAt
     (.ite
        (.stop h)
        (h.readWords.keepRemote.bind (fun _ _ h1 =>
           h1.checkLayout.bind (fun _ _ h2 =>
             h2.strChoose.bind (fun _ _ h3 => h3.release.bind (fun _ _ h4 => .ite (.ok h4.copySend) (.stop h4)))))))).run

theorem State.Sound.xferEntry {s : State} {id : Word} (h : s.Sound) : (s.xferEntry id).Sound := by
  unfold State.xferEntry
  split
  · exact .ok h
  · exact h.trapAt

theorem State.Sound.freeEntry {s : State} {e : BoardE} (h : s.Sound) : (s.freeEntry e).Sound := h.onMyCore

theorem State.Sound.setEntry {s : State} {e : BoardE} (h : s.Sound) : (s.setEntry e).Sound := h.onMyCore

protected theorem State.Sound.execCptest {d a : GReg} {s : State} (h : s.Sound) : OutSound (execCptest d a s) :=
  (h.xferEntry.bind (fun _ _ h1 => .ok (State.Sound.ite h1.freeEntry h1).setG)).run

protected theorem State.Sound.execCpwait {d a : GReg} {s : State} (h : s.Sound) : OutSound (execCpwait d a s) :=
  (h.xferEntry.bind (fun _ _ h1 => .ite (.stop h1.setEntry) (.ok (State.Sound.ite h1.freeEntry h1.setEntry).setG))).run

protected theorem State.Sound.execCopyAccept {str : Nat} {s : State} (h : s.Sound) : OutSound (execCopyAccept str s) := by
  simp only [execCopyAccept]
  split
  · exact .next h
  · split
    · split
      · exact .next h.busy
      · exact .next h.took.respond.onStr.boardPush.copyEvent
    all_goals exact .next h

theorem State.Sound.copyMsg {s : State} {str dest q : Nat} {c : StrChan} {ip g2 : Word} {info : MsgInfo} (h : s.Sound) :
    (s.copyMsg str dest q c ip g2 info).Sound := h.engineMsg.tick

theorem State.Sound.copyEnd {s : State} {str ch : Nat} {c : StrChan} {st : XferSt} (h : s.Sound) : (s.copyEnd str ch c st).Sound :=
  .ite h.onStr.boardPush h.onStr.boardPush.copyMsg

protected theorem State.Sound.execCopyComplete {str ch : Nat} {s : State} (h : s.Sound) : OutSound (execCopyComplete str ch s) := by
  unfold execCopyComplete
  split
  · exact .next h
  · refine .ite (.next h) ?_
    split
    · exact .next h
    · exact .next h
    · exact .next h.onChan.readPart
    · exact .next h.writePart
    · exact .ite (.next h) (.next h.onChan.onHome.boardPush.copyEvent)
    · exact .next (State.Sound.ite h h.copyMsg).copyEnd.copyEvent

protected theorem State.Sound.execCopyFault {str ch : Nat} {s : State} (h : s.Sound) : OutSound (execCopyFault str ch s) := by
  unfold execCopyFault
  split
  · exact .next h
  · refine .ite (.next h) ?_
    split
    · exact .next (State.Sound.ite h.recordE h.recordX).copyEnd.copyEvent
    all_goals exact .next h

protected theorem State.Sound.execTransferBoardUpdate {core : Nat} {s : State} (h : s.Sound) : OutSound (execTransferBoardUpdate core s) := by
  refine .ite (.next h) ?_
  split
  · exact .next h
  · exact .next h.update.boardApply

protected theorem State.Sound.execEngineWrite {core : Nat} {s : State} (h : s.Sound) : OutSound (execEngineWrite core s) := by
  unfold execEngineWrite
  split
  · exact .next h
  · split
    · exact .next h.took.noteCopy.engineWrite.respond
    all_goals exact .next h

theorem State.Sound.xferRead {s : State} {eng src num ch pa n : Nat} (h : s.Sound) : (s.xferRead eng src num ch pa n).Sound := h.scrub.respond

protected theorem State.Sound.execXferReceive {eng : Nat} {s : State} (h : s.Sound) : OutSound (execXferReceive eng s) := by
  simp only [execXferReceive]
  split
  · exact .next h
  · split
    · exact .next h.took.replicaApply.respond
    · exact .ite (.next h) (.ite (.next h.took.noteCopy.engineWrite.respond) (.ite (.next h) (.next h.took.replStart.serveAll)))
    · exact .ite (.next h) (.next h.took.xferRead)
    all_goals exact .next h

/-! ### Quanta and deterministic mode -/

theorem State.Sound.endQuiet {s : State} {p : Nat} (h : s.Sound) : (s.endQuiet p).Sound := h.foldl (fun _ _ h1 => .ite h1.onCore h1)

protected theorem State.Sound.execLogicalQuantumEnd {core : Nat} {s : State} (h : s.Sound) : OutSound (execLogicalQuantumEnd core s) :=
  .ite (.next h.onCore) (.next h)

theorem State.Sound.reenterAt {s : State} {core q slot : Nat} {m : Msg} (h : s.Sound) : (s.reenterAt core q slot m).Sound :=
  .ite h.onCore.onCore h.onCore.count

theorem State.Sound.deliver {s : State} {d : Deliv} (h : s.Sound) : (s.deliver d).Sound := by
  unfold State.deliver
  split
  · exact h.reenterAt
  · refine .ite h.deliverHere ?_
    split
    · next he => exact (h.enters.of_fst he).refuse
    · next he => exact h.enters.of_fst he
    · next he => exact h.enters.of_fst he
    · next he => exact h.enters.of_fst he
    · next he => exact h.enters.of_fst he

theorem State.Sound.deliverAll {s : State} {p : Nat} (h : s.Sound) : (s.deliverAll p).Sound := h.onPart.foldl (fun _ _ h1 => h1.deliver)

theorem State.Sound.advDo {s : State} {p core : Nat} {a : Adv} (h : s.Sound) : (s.advDo p core a).Sound := by
  unfold State.advDo
  split
  · exact h.storeFault
  · exact .ite h.storeFault (h.redirty.onMem (fun _ h1 => Memory.wf_foldl _ _ h1 (fun _ _ h2 => Memory.wf_store _ _ _ h2)))

theorem State.Sound.advTry {s : State} {p core : Nat} {a : Adv} (h : s.Sound) : (s.advTry p core a).1.Sound := by
  refine .ite_fst h.advDo ?_
  split
  · next he => exact (h.bringIn.of_here he).advDo
  · exact h.advDo
  · next he => exact (h.bringIn.of_ask he).askFor
  · next he => exact h.bringIn.of_later he

theorem State.Sound.dropAdv {s : State} {core ctx : Nat} (h : s.Sound) : (s.dropAdv core ctx).Sound := h.onCore

theorem State.Sound.advsRun {s : State} {p : Nat} {l : List (Nat × Adv)} (h : s.Sound) : (s.advsRun p l).1.Sound := by
  induction l generalizing s with
  | nil => exact h
  | cons x t ih =>
    simp only [State.advsRun]
    split
    · next he => exact ih (h.advTry.of_fst he).dropAdv
    · next he => exact h.advTry.of_fst he

theorem State.Sound.advsDo {s : State} {p : Nat} (h : s.Sound) : (s.advsDo p).1.Sound := h.advsRun

theorem State.Sound.advRefused {s : State} {p va : Nat} (h : s.Sound) : (s.advRefused p va).Sound := by
  unfold State.advRefused
  split
  · exact h.storeFault.onCore
  · exact h

theorem State.Sound.commitNotices {s : State} {p : Nat} {l : List FEv} (h : s.Sound) : (s.commitNotices p l).Sound := by
  refine h.foldl (fun _ _ h1 => ?_)
  split
  · exact h1.tellNbrs
  all_goals exact h1

theorem State.Sound.giveTurn {s : State} {core : Nat} (h : s.Sound) : (s.giveTurn core).Sound := by
  unfold State.giveTurn
  split
  · exact h.onPkg.wakeCore
  · exact h

theorem State.Sound.opDo {s : State} {core ctx : Nat} {r : List Word} (h : s.Sound) : (s.opDo core ctx r).Sound := by
  simp only [State.opDo]
  refine .ite h ?_
  split
  · split
    · next he => exact ((State.Sound.ite h.giveTurn h).atCtx.resume.lvbindDo.of_ok he).retire
    · next he => exact ((State.Sound.ite h.giveTurn h).atCtx.resume.lvbindDo.of_stop he).takeStop
  · exact (State.Sound.ite h.giveTurn h).atCtx.resume.lvunbindDo.retire
  · exact (State.Sound.ite h.giveTurn h).atCtx.resume.lvfreezeDo.retire
  · exact (State.Sound.ite h.giveTurn h).atCtx.resume.lvthawDo.retire
  · exact h
  · exact h

theorem State.Sound.fevDo {s : State} {p : Nat} {e : FEv} (h : s.Sound) : (s.fevDo p e).Sound := by
  unfold State.fevDo
  split
  · exact h.opDo
  · exact h.setLevel.tellNbrs
  · exact h.updateEnd
  · exact h.freezeDie
  · exact h.hostFront

theorem State.Sound.fevsDo {s : State} {p : Nat} {l : List FEv} (h : s.Sound) : (s.fevsDo p l).Sound := h.foldl (fun _ _ h1 => h1.fevDo)

theorem State.Sound.dispatchAll {s : State} {p : Nat} (h : s.Sound) : (s.dispatchAll p).Sound := by
  refine .ite h (h.foldl (fun _ _ h1 => ?_))
  split
  · exact h1.dispatch
  · exact h1

theorem State.Sound.rlcAll {s : State} {p : Nat} (h : s.Sound) : (s.rlcAll p).Sound :=
  h.foldl (fun _ _ h1 => h1.onRlc.foldl (fun _ _ h2 => h2.rlcApply))

theorem State.Sound.ringsAll {s : State} {p : Nat} (h : s.Sound) : (s.ringsAll p).Sound := by
  refine h.foldl (fun _ _ h1 => State.Sound.clasp ?_)
  split
  · exact .ite h1.ringFlip h1
  · exact h1

theorem State.Sound.boardsAll {s : State} {p : Nat} (h : s.Sound) : (s.boardsAll p).Sound :=
  (h.update.foldl (fun _ _ h1 => h1.boardApply)).foldl (fun _ _ h1 => .ite h1.boardShow h1)

theorem State.Sound.wake {s : State} {core ctx : Nat} (h : s.Sound) : (s.wake core ctx).Sound := .ite h.onCtx h.resume

theorem State.Sound.wakeAll {s : State} {p : Nat} (h : s.Sound) : (s.wakeAll p).Sound :=
  h.foldl (fun _ _ h1 => h1.foldl (fun _ _ h2 => .ite h2 (.ite (State.Sound.ite h2.onCtx h2).wake (.ite h2.onCtx h2))))

theorem State.Sound.firstTurns {s : State} {p : Nat} (h : s.Sound) : (s.firstTurns p).Sound := by
  refine .ite h (h.foldl (fun _ _ h1 => ?_))
  split
  · exact .ite h1.onPkg h1
  · exact h1

theorem State.Sound.nextQuantum {s : State} {p : Nat} (h : s.Sound) : (s.nextQuantum p).Sound := h.update.firstTurns

theorem State.Sound.startBoards {s : State} {p : Nat} (h : s.Sound) : (s.startBoards p).Sound := (h.foldl (fun _ _ h1 => h1.onFu)).onPart

theorem State.Sound.quantumEnd {s : State} {p : Nat} (h : s.Sound) : (s.quantumEnd p).Sound :=
  h.onPart.nextQuantum.rlcAll.boardsAll.deliverAll.commitNotices.onPart.fevsDo.dispatchAll.deliverAll.onPart.ringsAll.wakeAll.startBoards

theorem State.Sound.fevEarly {s : State} {p : Nat} {e : FEv} (h : s.Sound) : (s.fevEarly p e).Sound := by
  unfold State.fevEarly
  split
  · exact h.fevDo.onPart
  · exact h.fevDo.onPart
  all_goals exact h.fevDo

theorem State.Sound.frontPass {s : State} {p core : Nat} (h : s.Sound) : (s.frontPass p core).Sound := by
  unfold State.frontPass
  exact (h.onPart.foldl (fun _ _ h1 => h1.fevEarly)).onPart.onCore

theorem State.Sound.exitDet {s : State} {p : Nat} (h : s.Sound) : (s.exitDet p).Sound := h.onPart.update.deliverAll

theorem State.Sound.leaveDet {s : State} {p : Nat} (h : s.Sound) : (s.leaveDet p).Sound := by
  refine .ite ?_ h
  split
  · next he => exact (h.advsDo.of_fst he).exitDet
  · next he => exact h.advsDo.of_fst he

protected theorem State.Sound.execQuantumEnd {part : Nat} {s : State} (h : s.Sound) : OutSound (execQuantumEnd part s) := by
  refine .ite (.next h) ?_
  split
  · exact .next h.frontPass
  · split
    · next he => exact .next (h.advsDo.of_fst he).quantumEnd.leaveDet
    · next he => exact .next (h.advsDo.of_fst he)

/-! ### Tasks and their placement -/

theorem State.Sound.setPin {s : State} {p va : Nat} {on : Bool} (h : s.Sound) : (s.setPin p va on).Sound := by
  unfold State.setPin
  split
  · exact h.onMem (fun _ h1 => Memory.wf_write _ _ _ h1)
  · exact h
  · exact h

theorem State.Sound.unpinAll {s : State} {p : Nat} {l : List Ext} (h : s.Sound) : (s.unpinAll p l).Sound :=
  h.foldl (fun _ _ h1 => h1.foldl (fun _ _ h2 => .ite h2 h2.setPin))

theorem State.Sound.dropMsgs {s : State} {core tag : Nat} (h : s.Sound) : (s.dropMsgs core tag).Sound :=
  .ite
    (h.onCore.foldl (fun _ _ h1 => .ite h1.respondTo h1.count.respondTo))
    (h.onCore.foldl (fun _ _ h1 => .ite h1.respondTo h1.count.respondTo)).count

theorem State.Sound.endOnCore {s : State} {core tag : Nat} (h : s.Sound) : (s.endOnCore core tag).Sound :=
  .ite h (.ite h.onCore.dropMsgs.onCore h.onCore.dropMsgs)

theorem State.Sound.orphanActs {s : State} {p tag : Nat} (h : s.Sound) : (s.orphanActs p tag).Sound := h.update

theorem State.Sound.endBlocks {s0 : State} {p tag : Nat} (h : s0.Sound) : (s0.endBlocks p tag).Sound := by
  refine (h.orphanActs.onPart.foldl (fun _ _ h1 => ?_)).update
  split
  · exact h1.unbind
  · exact h1

theorem State.Sound.endRlc {s : State} {p tag : Nat} (h : s.Sound) : (s.endRlc p tag).Sound := h.foldl (fun _ _ h1 => h1.onRlc.rlcNext)

theorem State.Sound.endTask {s : State} {p tag : Nat} (h : s.Sound) : (s.endTask p tag).Sound := by
  unfold State.endTask
  exact (h.foldl (fun _ _ h1 => h1.endOnCore)).unpinAll.endBlocks.endRlc.onPart.leaveDet

theorem State.Sound.releaseMsg {s : State} {core q id : Nat} (h : s.Sound) : (s.releaseMsg core q id).Sound := by
  unfold State.releaseMsg
  split
  · exact h
  · exact h.onCore

theorem State.Sound.discardMsg {s : State} {core q id : Nat} (h : s.Sound) : (s.discardMsg core q id).Sound := by
  unfold State.discardMsg
  split
  · exact h
  · exact h.onCore

theorem State.Sound.endMsg {s : State} {p core q id : Nat} (h : s.Sound) : (s.endMsg p core q id).Sound := by
  unfold State.endMsg
  split
  · exact h
  · exact .ite h.endTask h.discardMsg

theorem State.Sound.disposing {s : State} {p : Nat} (h : s.Sound) : (s.disposing p).Sound := .ite h.endQuiet h

theorem State.Sound.invalidate {s : State} {p va n : Nat} (h : s.Sound) : (s.invalidate p va n).Sound := h.dropTlb

/-! ### Dispositions, page faults and preemption -/

theorem State.Sound.dropRec {s : State} {p die : Nat} (h : s.Sound) : (s.dropRec p die).Sound := h.onPart

theorem State.Sound.countAbort {s : State} {p id : Nat} (h : s.Sound) : (s.countAbort p id).Sound := h.onPart

theorem State.Sound.disposeHeld {s : State} {p : Nat} {r : TrapRec} (h : s.Sound) : (s.disposeHeld p r).Sound :=
  .ite h.countAbort.endMsg h.countAbort.releaseMsg

protected theorem State.Sound.execTrapDisposition {die : Nat} {s : State} (h : s.Sound) : OutSound (execTrapDisposition die s) := by
  refine .ite (.next h) ?_
  split
  · exact .next h
  · exact .ite (.ite (.next h.disposing.dropRec.disposeHeld) (.next h)) (.next h.dropRec.log)

protected theorem State.Sound.execTrheadWrite {part : Nat} {head : BitVec 32} {s : State} (h : s.Sound) : OutSound (execTrheadWrite part head s) :=
  .next h.onPart.trFlush

theorem State.Sound.pruneFaults {s : State} {p : Nat} (h : s.Sound) : (s.pruneFaults p).Sound := h.onPart

theorem State.Sound.wakeFault {s : State} {f : PFault} (h : s.Sound) : (s.wakeFault f).Sound := .ite h h.resume

theorem State.Sound.served {s : State} {p : Nat} {l : List PFault} (h : s.Sound) : (s.served p l).Sound := h.onPart.foldl (fun _ _ h1 => h1.wakeFault)

theorem State.Sound.abortFault {s : State} {p : Nat} {f : PFault} {c : Cause} (h : s.Sound) : (s.abortFault p f c).Sound := h.onPart.abort

theorem State.Sound.frameOut {s : State} {p : Nat} {f : PFault} (h : s.Sound) : (s.frameOut p f).Sound := by
  unfold State.frameOut
  exact h.abortFault.endTask

theorem State.Sound.askHost {s : State} {p : Nat} {f : PFault} (h : s.Sound) : (s.askHost p f).Sound := by
  unfold State.askHost
  split
  · exact h
  · exact h.onPkg.onPart

theorem State.Sound.serveFault {s : State} {p : Nat} {f : PFault} (h : s.Sound) : (s.serveFault p f).Sound := by
  simp only [State.serveFault]
  split
  · next he => exact (h.pageIn.of_done he).served
  · exact h.abortFault
  · refine .ite ?_ (.ite h h.askHost)
    split
    · next he => exact (h.onPart.pageIn.of_done he).served
    · exact h.onPart.abortFault
    · exact h.onPart.askHost
    · exact h
  · exact h

protected theorem State.Sound.execPageFaultService {die : Nat} {s : State} (h : s.Sound) : OutSound (execPageFaultService die s) := by
  simp only [execPageFaultService]
  split
  · exact .next h.pruneFaults
  · exact .ite (.next h.pruneFaults.askHost) (.next h.pruneFaults.serveFault)

protected theorem State.Sound.execPreemptRequest {part : Nat} {s : State} (h : s.Sound) : OutSound (execPreemptRequest part s) :=
  .ite (.next h) (.next h.onPart)

protected theorem State.Sound.execPreemptComplete {part : Nat} {s : State} (h : s.Sound) : OutSound (execPreemptComplete part s) :=
  .ite (.next h.recordE.onPart) (.next h)

protected theorem State.Sound.execPreemptwaitExpiry {part : Nat} {s : State} (h : s.Sound) : OutSound (execPreemptwaitExpiry part s) :=
  .ite (.next (h.foldl (fun _ _ h1 => h1.foldl (fun _ _ h2 => h2.breakEntry.log)))) (.next h)

theorem State.Sound.restartClocks {s : State} {p core : Nat} (h : s.Sound) : (s.restartClocks p core).Sound := by
  unfold State.restartClocks
  exact h.onCore

theorem State.Sound.restartRlc {s : State} {cl : Nat} (h : s.Sound) : (s.restartRlc cl).Sound := by
  unfold State.restartRlc
  split
  · exact h.rlcNext
  · exact .ite h.rlcComplete.rlcLatest h

protected theorem State.Sound.execPreemptResume {part : Nat} {s : State} (h : s.Sound) : OutSound (execPreemptResume part s) :=
  .ite (.next h) (.next ((h.foldl (fun _ _ h1 => h1.restartClocks)).onPart.foldl (fun _ _ h1 => h1.restartRlc)))

theorem State.Sound.reportDeadlock {s : State} {p : Nat} (h : s.Sound) : (s.reportDeadlock p).Sound :=
  (h.recordE.foldl (fun _ _ h1 => h1.pushRec)).msi

protected theorem State.Sound.execDeadlockDetect {part : Nat} {s : State} (h : s.Sound) : OutSound (execDeadlockDetect part s) :=
  .ite (.next h.onPart.reportDeadlock) (.next h)

/-! ### Partitions, leases and leaders -/

theorem State.Sound.flushTlbs {s : State} {p : Nat} (h : s.Sound) : (s.flushTlbs p).Sound := h.dropTlb

theorem State.Sound.create {s : State} {q : Nat × Nat} {back : List (Nat × Nat)} (h : s.Sound) : (s.create q back).Sound :=
  (h.update.onMem (fun _ h1 => Memory.wf_zero _ _ h1)).tick.flushTlbs

theorem State.Sound.configure {s : State} {l : List (Nat × Nat)} {g : List (Nat × Nat × Nat)} (h : s.Sound) : (s.configure l g).Sound :=
  (h.update.foldl (fun _ _ h1 => h1.create)).update

theorem State.Sound.renew {s : State} {n : Nat} (h : s.Sound) : (s.renew n).Sound := h.foldl (fun _ _ h1 => h1.onFw)

protected theorem State.Sound.execLeaseRenew {fw : Nat} {s : State} (h : s.Sound) : OutSound (execLeaseRenew fw s) := .ite (.next h.renew) (.next h)

theorem State.Sound.dropExchanges {s : State} (h : s.Sound) : (s.dropExchanges).Sound := h.update

theorem State.Sound.settle {s : State} (h : s.Sound) : (s.settle).Sound := .ite h.configure h

theorem State.Sound.lead {s : State} {n : Nat} {host : Bool} (h : s.Sound) : (s.lead n host).Sound :=
  (h.dropExchanges.foldl (fun _ _ h1 => h1.onFw)).renew.settle

theorem State.Sound.reportLost {s : State} {n : Nat} {g : BitVec 10} (h : s.Sound) : (s.reportLost n g).Sound :=
  .ite h.onPkg (.ite h.recordE.msi (h.foldl (fun _ _ h1 => h1.recordX.msi)))

theorem State.Sound.loseLease {s : State} {n : Nat} {g : BitVec 10} (h : s.Sound) : (s.loseLease n g).Sound :=
  .ite h.onFw (State.Sound.ite h.onFw.leaseFreeze h.onFw).reportLost

theorem State.Sound.candidate {s : State} {n : Nat} (h : s.Sound) : (s.candidate n).Sound := h.onFw.foldl (fun _ _ h1 => h1.onFw)

protected theorem State.Sound.execLeaseLapse {fw : Nat} {group : BitVec 10} {s : State} (h : s.Sound) : OutSound (execLeaseLapse fw group s) :=
  .ite (.next h) (.ite (.next h.onFw) (.ite (.next h.onFw.candidate) (.next h.onFw.loseLease)))

theorem State.Sound.vote {s : State} {n cand e : Nat} (h : s.Sound) : (s.vote n cand e).Sound := .ite h (.ite h.onFw.lead h.onFw)

protected theorem State.Sound.execVoteRequest {fw : Nat} {s : State} (h : s.Sound) : OutSound (execVoteRequest fw s) := by
  unfold execVoteRequest
  split
  · exact .next h
  · exact .ite (.next h.onFw) (.next h.onFw.onFw.vote)

protected theorem State.Sound.execLeaderDesignate {socket : Nat} {s : State} (h : s.Sound) : OutSound (execLeaderDesignate socket s) := by
  refine .ite (.next h) ?_
  split
  · exact .next h.onPkg
  · exact .ite (.next h.onPkg.lead) (.next h.onPkg)

protected theorem State.Sound.execModeSelect {part : Nat} {fn : ModeFn} {assisted : Bool} {s : State} (h : s.Sound) :
    OutSound (execModeSelect part fn assisted s) := by
  refine .ite (.next h) ?_
  split
  · exact .next (State.Sound.ite h h.onPart)
  · exact .next (State.Sound.ite h h.onPart)
  · exact .next (State.Sound.ite h h.onPart)
  all_goals exact .next (State.Sound.ite h.onPkg h)

protected theorem State.Sound.execPartitionConfigure {parts : List (Nat × Nat)} {grants : List (Nat × Nat × Nat)} {s : State} (h : s.Sound) :
    OutSound (execPartitionConfigure parts grants s) := .ite (.next h) (.next h.configure)

/-! ### Boot and election -/

theorem State.Sound.elect {s : State} (h : s.Sound) : (s.elect).Sound := by
  simp only [State.elect]
  split
  · exact (h.foldl (fun _ _ h1 => h1.onFw)).lead.foldl (fun _ _ h1 => h1.loseLease)
  · exact (h.foldl (fun _ _ h1 => h1.onFw)).foldl (fun _ _ h1 => h1.loseLease)

theorem State.Sound.bringUp {s : State} {i : FwImage} {b : Boot} (h : s.Sound) : (s.bringUp i b).Sound := h.onPkg.onPkg.elect

theorem State.Sound.inReset {s : State} {bad : BitVec 8} (h : s.Sound) : (s.inReset bad).Sound := ⟨Memory.wf_initial h.inv⟩

protected theorem State.Sound.execModuleReset {badStacks : BitVec 8} {s : State} (h : s.Sound) : OutSound (execModuleReset badStacks s) := by
  simp only [execModuleReset]
  split
  · exact .next h.inReset.onPkg
  · exact .ite (.next h.inReset.bringUp) (.next h.inReset.onPkg)

protected theorem State.Sound.execRecoveryImageWrite {img : FwImage} {s : State} (h : s.Sound) : OutSound (execRecoveryImageWrite img s) :=
  .ite (.next h.bringUp) (.next h)

protected theorem State.Sound.execFlashRewrite {img : FwImage} {ok : Bool} {s : State} (h : s.Sound) : OutSound (execFlashRewrite img ok s) :=
  .ite (.next h.onPkg) (.next h)

/-! ### Branches -/

protected theorem State.Sound.execNop {s : State} (h : s.Sound) : OutSound (execNop s) := h.retired

protected theorem State.Sound.execRet {s : State} (h : s.Sound) : OutSound (execRet s) := .next h.retireTo

protected theorem State.Sound.execBkpt {s : State} (h : s.Sound) : OutSound (execBkpt s) := .next h.takeStop

protected theorem State.Sound.branchIf {taken : Bool} {j : BitVec 27} {s : State} (h : s.Sound) : OutSound (branchIf taken j s) :=
  .ite (.next h.retireTo) h.retired

protected theorem State.Sound.execBr {j : BitVec 27} {s : State} (h : s.Sound) : OutSound (execBr j s) := h.branchIf

protected theorem State.Sound.execBz {a : GReg} {j : BitVec 27} {s : State} (h : s.Sound) : OutSound (execBz a j s) := h.branchIf

protected theorem State.Sound.execBnz {a : GReg} {j : BitVec 27} {s : State} (h : s.Sound) : OutSound (execBnz a j s) := h.branchIf

protected theorem State.Sound.execBltz {a : GReg} {j : BitVec 27} {s : State} (h : s.Sound) : OutSound (execBltz a j s) := h.branchIf

protected theorem State.Sound.execBgez {a : GReg} {j : BitVec 27} {s : State} (h : s.Sound) : OutSound (execBgez a j s) := h.branchIf

protected theorem State.Sound.execCall {d : GReg} {j : BitVec 27} {s : State} (h : s.Sound) : OutSound (execCall d j s) := .next h.setG.retireTo

protected theorem State.Sound.execLoop {a : GReg} {j : BitVec 27} {s : State} (h : s.Sound) : OutSound (execLoop a j s) := h.setG.branchIf

protected theorem State.Sound.execJmp {a : GReg} {s : State} (h : s.Sound) : OutSound (execJmp a s) := .next h.retireTo

protected theorem State.Sound.execCallr {d a : GReg} {s : State} (h : s.Sound) : OutSound (execCallr d a s) := .next h.setG.retireTo

/-! ### Channels -/

theorem State.Sound.handle {s : State} {c : CReg} {role : BitVec 2} (h : s.Sound) : (s.handle c role).Sound := .ite h.trapAt (.ok h)

theorem State.Sound.descWord {s : State} {p : Word} {off : Nat} (h : s.Sound) : (s.descWord p off).Sound := h.readMem.bind (fun _ _ h1 => .ok h1)

protected theorem State.Sound.execChbind {c : CReg} {a : GReg} {role : BitVec 2} {s : State} (h : s.Sound) : OutSound (execChbind c a role s) :=
  (Res.Sound.ite h.trapAt (h.descWord.bind (fun _ _ h1 => h1.descWord.bind (fun _ _ h2 => .ok h2.setC)))).run

protected theorem State.Sound.execChwaitf {d : GReg} {c : CReg} {s : State} (h : s.Sound) : OutSound (execChwaitf d c s) :=
  (h.handle.bind (fun _ _ h1 => h1.descWord.bind (fun _ _ h2 => h2.descWord.bind (fun _ _ h3 => .ite (.stop h3) (.ok h3.setG))))).run

protected theorem State.Sound.execChwaite {d : GReg} {c : CReg} {s : State} (h : s.Sound) : OutSound (execChwaite d c s) :=
  (h.handle.bind (fun _ _ h1 => h1.descWord.bind (fun _ _ h2 => h2.descWord.bind (fun _ _ h3 => .ite (.stop h3) (.ok h3.setG))))).run

theorem State.Sound.chAdvance {s : State} {p : Word} {n : Nat} (h : s.Sound) : (s.chAdvance p n).Sound := by
  refine .ite (h.release.bind (fun _ _ h1 => ?_)) (h.atomicMem.bind (fun _ _ h1 => .ok h1))
  split
  · exact h1.trapAt
  · exact .ok h1.onMyCore
  · exact h1.translate.bind (fun _ _ h2 => .ok h2.onMyCore)

protected theorem State.Sound.execChadvh {c : CReg} {n : BitVec 16} {s : State} (h : s.Sound) : OutSound (execChadvh c n s) :=
  (h.handle.bind (fun _ _ h1 => h1.chAdvance)).run

protected theorem State.Sound.execChadvt {c : CReg} {n : BitVec 16} {s : State} (h : s.Sound) : OutSound (execChadvt c n s) :=
  (h.handle.bind (fun _ _ h1 => h1.chAdvance)).run

protected theorem State.Sound.execChstat {d : GReg} {c : CReg} {s : State} (h : s.Sound) : OutSound (execChstat d c s) :=
  (h.handle.bind (fun _ _ h1 => h1.descWord.bind (fun _ _ h2 => h2.descWord.bind (fun _ _ h3 => .ok h3.setG)))).run

protected theorem State.Sound.execChptr {d : GReg} {c : CReg} {b : GReg} {off : BitVec 16} {s : State} (h : s.Sound) :
    OutSound (execChptr d c b off s) := (h.handle.bind (fun _ _ h1 => .ok h1.setG)).run

/-! ### CSRs -/

theorem State.Sound.csrPut {s : State} {core ctx : Nat} {c : Csr} {v : Word} (h : s.Sound) : (s.csrPut core ctx c v).Sound := by
  unfold State.csrPut
  split
  · exact h.onCtx
  · exact h.onCtx
  · exact h.onCtx
  · exact h.onCtx
  · exact h.onCtx
  · exact h.onCtx
  · exact h.onCore
  · exact h.onCore
  · exact h.onCore
  · exact h.onCore
  · exact h.onCore
  · exact h.onCtx
  · exact h.onCtx
  · exact h.onCtx
  all_goals exact h

theorem State.Sound.setCsr {s : State} {c : Csr} {v : Word} (h : s.Sound) : (s.setCsr c v).Sound := h.csrPut

protected theorem State.Sound.csrModify {d : GReg} {c : Csr} {v : Word} {s : State} (h : s.Sound) : OutSound (csrModify d c v s) :=
  .ite (.next h.takeStop) h.setCsr.setG.retired

protected theorem State.Sound.execCsrrd {d : GReg} {c : Csr} {s : State} (h : s.Sound) : OutSound (execCsrrd d c s) := h.setG.retired

protected theorem State.Sound.execCsrwr {c : Csr} {a : GReg} {s : State} (h : s.Sound) : OutSound (execCsrwr c a s) := h.csrModify

protected theorem State.Sound.execCsrswp {d : GReg} {c : Csr} {a : GReg} {s : State} (h : s.Sound) : OutSound (execCsrswp d c a s) := h.csrModify

protected theorem State.Sound.execCsrset {d : GReg} {c : Csr} {a : GReg} {s : State} (h : s.Sound) : OutSound (execCsrset d c a s) := h.csrModify

protected theorem State.Sound.execCsrclr {d : GReg} {c : Csr} {a : GReg} {s : State} (h : s.Sound) : OutSound (execCsrclr d c a s) := h.csrModify

protected theorem State.Sound.swtrap {v : Word} {s : State} (h : s.Sound) : OutSound (swtrap v s) := .next h.takeStop

protected theorem State.Sound.execTrap {a : GReg} {s : State} (h : s.Sound) : OutSound (execTrap a s) := h.swtrap

protected theorem State.Sound.execTrapI16 {i : BitVec 16} {s : State} (h : s.Sound) : OutSound (execTrapI16 i s) := h.swtrap

protected theorem State.Sound.execTime {d : GReg} {s : State} (h : s.Sound) : OutSound (execTime d s) := h.setG.retired

protected theorem State.Sound.execFeatq {d a : GReg} {s : State} (h : s.Sound) : OutSound (execFeatq d a s) := h.setG.retired

protected theorem State.Sound.execMigok {v : Bool} {s : State} (h : s.Sound) : OutSound (execMigok v s) := h.onMe.retired

/-! ### Debugging -/

protected theorem State.Sound.execDebugHold {core ctx : Nat} {s : State} (h : s.Sound) : OutSound (execDebugHold core ctx s) :=
  .ite (.next h.onCtx) (.next h)

theorem State.Sound.setTip {s : State} {core ctx : Nat} {v : Word} (h : s.Sound) : (s.setTip core ctx v).Sound := by
  unfold State.setTip
  exact (State.Sound.ite h h.giveUp.onCtx).onCtx

protected theorem State.Sound.execDebugWrite {core ctx : Nat} {r : DbgReg} {v : VWord} {s : State} (h : s.Sound) :
    OutSound (execDebugWrite core ctx r v s) := by
  refine .ite (.next h) ?_
  split
  · exact .next h.onCtx
  · exact .next h.onCtx
  · exact .next h.onCtx
  · exact .next (State.Sound.ite h h.onCtx)
  · exact .next h.setTip
  · exact .next h.csrPut

protected theorem State.Sound.execDebugRelease {core ctx : Nat} {s : State} (h : s.Sound) : OutSound (execDebugRelease core ctx s) := .next h.onCtx

protected theorem State.Sound.execBreakpointSet {core : Nat} {b : BpSet} {s : State} (h : s.Sound) : OutSound (execBreakpointSet core b s) := by
  unfold execBreakpointSet
  split
  · exact .next h.onCore
  · exact .next h.onCtx

protected theorem State.Sound.execBkptRelease {core ctx : Nat} {s : State} (h : s.Sound) : OutSound (execBkptRelease core ctx s) := by
  simp only [execBkptRelease]
  split
  · exact .ite (.next h) (.next h.bkptReturn)
  all_goals exact .next h

/-! ### Routers and endpoints -/

protected theorem State.Sound.execFlitRoute {router : Nat} {response : Bool} {s : State} (h : s.Sound) :
    OutSound (execFlitRoute router response s) := .next h.routeOnce

theorem State.Sound.nack {s : State} {die dst kind num idx : Nat} (h : s.Sound) : (s.nack die dst kind num idx).Sound := h.onEp

protected theorem State.Sound.execPoisonSink {die : Nat} {s : State} (h : s.Sound) : OutSound (execPoisonSink die s) := by
  unfold execPoisonSink
  split
  · exact .next h
  · exact .next (State.Sound.ite h.onEp.recordE.nack h.onEp.recordE.nack.nack)

protected theorem State.Sound.execThrottle {router : Nat} {response : Bool} {s : State} (h : s.Sound) :
    OutSound (execThrottle router response s) := by
  unfold execThrottle
  split
  · exact .next h.onRouter
  · exact .next h

theorem State.Sound.admitMsg {s : State} {core : Nat} {m : Msg} {src num : Nat} (h : s.Sound) : (s.admitMsg core m src num).Sound := by
  refine .ite h.deliverHere ?_
  split
  · next he => exact (h.enters.of_fst he).respond
  · next he => exact (h.enters.of_fst he).respond
  · next he => exact (h.enters.of_fst he).respond
  · next he => exact (h.enters.of_fst he).respond
  · next he => exact h.enters.of_fst he

theorem State.Sound.takeIn {s : State} {ep : Nat} {r : InReq} (h : s.Sound) : (s.takeIn ep r).Sound := by
  unfold State.takeIn
  split
  · exact h.admitMsg
  · exact h.wstHere.respond
  · exact h.hearNotice.respond
  all_goals exact h

theorem State.Sound.admitDue {s : State} {ep n : Nat} (h : s.Sound) : (s.admitDue ep n).Sound := by
  induction n generalizing s with
  | zero => exact h
  | succ n ih =>
    simp only [State.admitDue]
    split
    · exact h
    · exact ih h.took.takeIn

theorem State.Sound.assembled {s : State} {ep : Nat} {a : Asm} {left : List Asm} (h : s.Sound) : (s.assembled ep a left).Sound := by
  refine .ite (.ite h.onEp h.onEp.onEp) ?_
  split
  · exact h.onEp.sendRsp
  · exact h.onEp

protected theorem State.Sound.execRequestReassembled {ep : Nat} {s : State} (h : s.Sound) : OutSound (execRequestReassembled ep s) := by
  refine .next (State.Sound.admitDue ?_)
  split
  · exact h.assembled
  · exact h

theorem State.Sound.storeDone {s : State} {core ctx lane colour : Nat} {va : Word} {bad : Bool} (h : s.Sound) :
    (s.storeDone core ctx lane colour va bad).Sound := by
  unfold State.storeDone
  split
  · exact h
  · exact (State.Sound.ite h.onCore.storeFault h.onCore).drain

theorem State.Sound.orphanRead {s : State} {core dest ctx : Nat} {m : RMode} {sgn : Bool} {pa size : Nat} {va : Word} {bad : Bool} (h : s.Sound) :
    (s.orphanRead core dest ctx m sgn pa size va bad).Sound := .ite h.sendReq h

theorem State.Sound.fillDone {s : State} {core ctx : Nat} {va : Word} {r : Rsp} (h : s.Sound) : (s.fillDone core ctx va r).Sound :=
  .ite (.ite h.onCtx h) h.cacheLine.onCtx

theorem State.Sound.readDone {s : State} {ep : Nat} {o : OutReq} {m : RMode} {sgn : Bool} {ctx pa size : Nat} {va : Word} {r : Rsp} (h : s.Sound) :
    (s.readDone ep o m sgn ctx pa size va r).Sound := by
  unfold State.readDone
  split
  · exact h.answerCtx
  · exact h.fillDone
  · exact h.orphanRead

theorem State.Sound.finalRsp {s : State} {ep : Nat} {o : OutReq} {r : Rsp} (h : s.Sound) : (s.finalRsp ep o r).Sound := by
  unfold State.finalRsp
  split
  · exact .ite h.onEp.refuse h.onEp
  · exact h.onEp
  · split
    · exact .ite h.onEp.onEp h.onEp
    · exact h.onEp
    · exact h.onEp
    all_goals exact .ite h.onEp.readDone h.onEp.onChan
  · exact h.onEp.storeDone
  · exact .ite h.onEp.answerCtx h.onEp
  · exact h.onEp.replAck
  · exact h.onEp.strAck
  · exact h.onEp.strAck
  · exact h.onEp
  · exact h.onEp

theorem State.Sound.onOut {s : State} {ep dest num : Nat} {f : OutReq → OutReq} (h : s.Sound) : (s.onOut ep dest num f).Sound := h.onEp

theorem State.Sound.gotRsp {s : State} {ep : Nat} {o : OutReq} {r : Rsp} (h : s.Sound) : (s.gotRsp ep o r).Sound := by
  unfold State.gotRsp
  split
  · exact h.onOut
  · exact h.onOut
  all_goals exact h.finalRsp

protected theorem State.Sound.execResponseReceive {ep : Nat} {s : State} (h : s.Sound) : OutSound (execResponseReceive ep s) := by
  unfold execResponseReceive
  split
  · exact .next h
  · split
    · exact .next h.onEp.gotRsp
    all_goals exact .next h.onEp

theorem State.Sound.resend {s : State} {ep : Nat} {o : OutReq} (h : s.Sound) : (s.resend ep o).Sound := h.onEp.count

protected theorem State.Sound.execNackReceive {ep : Nat} {s : State} (h : s.Sound) : OutSound (execNackReceive ep s) := by
  unfold execNackReceive
  split
  · exact .next h
  · exact .next (h.onEp.foldl (fun _ _ h1 => h1.resend))

theorem State.Sound.stayHere {s : State} {ep : Nat} {o : OutReq} {reason : Nat} (h : s.Sound) : (s.stayHere ep o reason).Sound := .ite h.stayPark h

protected theorem State.Sound.execStayNoticeReceive {ep : Nat} {s : State} (h : s.Sound) : OutSound (execStayNoticeReceive ep s) := by
  unfold execStayNoticeReceive
  split
  · exact .next h
  · split
    · exact .next h.onEp.onOut.stayHere
    all_goals exact .next h.onEp

protected theorem State.Sound.execRetxTimeout {ep dest num : Nat} {s : State} (h : s.Sound) : OutSound (execRetxTimeout ep dest num s) := by
  unfold execRetxTimeout
  split
  · exact .next h
  · exact .ite (.next h) (.ite (.next h.finalRsp) (.next h.resend))

protected theorem State.Sound.execBusyBackoff {ep dest num : Nat} {s : State} (h : s.Sound) : OutSound (execBusyBackoff ep dest num s) := by
  unfold execBusyBackoff
  split
  · exact .next h
  · split
    · exact .ite (.next h) (.next h.resend)
    · exact .next h

/-! ### Command queues -/

theorem State.Sound.packetFail {s : State} {p q : Nat} {e : QErr} (h : s.Sound) : (s.packetFail p q e).Sound := h.onPart.msi

theorem State.Sound.packetDone {s : State} {p : Nat} {k : Packet} (h : s.Sound) : (s.packetDone p k).Sound := .ite h.onPart.msi h.onPart

protected theorem State.Sound.execPacketChoose {part : Nat} {s : State} (h : s.Sound) : OutSound (execPacketChoose part s) := by
  refine .ite (.next h) ?_
  split
  · exact .next h
  · exact .next h
  · exact .next h.packetFail
  · exact .next h.onPart

protected theorem State.Sound.execQueueResume {part q : Nat} {s : State} (h : s.Sound) : OutSound (execQueueResume part q s) := .next h.onPart

protected theorem State.Sound.execNopPacket {part : Nat} {s : State} (h : s.Sound) : OutSound (execNopPacket part s) := by
  unfold execNopPacket
  split
  · exact .next h
  · exact .next h.packetDone

theorem State.Sound.launchPage {s : State} {p va : Nat} {need : List Nat} {e : QErr} (h : s.Sound) : (s.launchPage p va need e).Sound := by
  unfold State.launchPage
  split
  · next he => exact .ok (h.bringIn.of_here he)
  · next he => exact .ask (h.bringIn.of_ask he)
  · next he => exact .later (h.bringIn.of_later he)
  · exact .fail

theorem State.Sound.readVirt {s : State} {p n va left : Nat} (h : s.Sound) : (s.readVirt p n va left).Sound := by
  induction n generalizing s va left with
  | zero => exact .ite (.ok h) .fail
  | succ n ih =>
    refine .ite (.ok h) (h.launchPage.bind fun _ s h => ?_)
    split
    · exact .ite .fail ((ih h).bind fun _ _ h => .ok h)
    all_goals exact .fail

theorem State.Sound.readImage {s : State} {p va : Nat} {hip : Word} (h : s.Sound) : (s.readImage p va hip).Sound := by
  unfold State.readImage
  refine h.readVirt.bind fun _ s h => .ite .fail (h.readVirt.bind fun _ s h => h.readVirt.bind fun _ s h => ?_)
  exact .ite .fail (.ok h)

theorem State.Sound.extPages {s : State} {p : Nat} {need : List Nat} {wr : Bool} {base first : Nat} {l : List Nat} (h : s.Sound) :
    (s.extPages p need wr base first l).Sound := by
  induction l generalizing s with
  | nil => exact .ok h
  | cons va t ih =>
    refine h.launchPage.bind fun _ s h => ?_
    split
    · exact .ite .fail ((ih h).bind fun _ _ h => .ok h)
    all_goals exact .fail

theorem State.Sound.extent {s : State} {p : Nat} {need : List Nat} {e : Word × Word} (h : s.Sound) : (s.extent p need e).Sound := by
  refine .ite (.ok h) (h.launchPage.bind (fun _ _ h1 => ?_))
  split
  · exact h1.extPages.bind (fun _ _ h2 => .ok h2)
  · exact .fail
  · exact .fail

theorem State.Sound.extents {s : State} {p : Nat} {need : List Nat} {x : List (List Word)} {n i : Nat} (h : s.Sound) :
    (s.extents p need x n i).Sound := by
  induction n generalizing s i with
  | zero => exact .ok h
  | succ n ih => exact h.extent.bind fun _ _ h => (ih h).bind fun _ _ h => .ok h

theorem State.Sound.dropLines {s : State} {core : Nat} {im : Image} (h : s.Sound) : (s.dropLines core im).Sound := by
  unfold State.dropLines
  exact (State.Sound.ite h.onEp h).onCore

theorem State.Sound.install {s : State} {p core tag : Nat} {im : Image} {exts : List Ext} (h : s.Sound) : (s.install p core tag im exts).Sound := by
  refine .ite h.recordE (h.dropLines.onCore.onCore.foldl (fun _ _ h1 => ?_))
  split
  · next he1 => exact (h1.admitFrom3.of_fst he1).respondTo
  · next he1 => exact (h1.admitFrom3.of_fst he1).respondTo
  · next he1 => exact (h1.admitFrom3.of_fst he1).respondTo
  · next he1 => exact h1.admitFrom3.of_fst he1
  · next he1 => exact h1.admitFrom3.of_fst he1

theorem State.Sound.useCore {s : State} {p core tag stage : Nat} {im : Image} {exts : List Ext} (h : s.Sound) :
    (s.useCore p core tag stage im exts).Sound := by
  unfold State.useCore
  exact (State.Sound.ite h.install h).onCore

theorem State.Sound.enterDet {s : State} {p : Nat} {w : List Word} (h : s.Sound) : (s.enterDet p w).Sound :=
  ((h.onPart.foldl (fun _ _ h1 => h1.onCore)).foldl (fun _ _ h1 => h1.onCore)).update.firstTurns.startBoards

theorem State.Sound.injectLaunch {s : State} {p : Nat} {cores : List Nat} {w : List Word} {i : Nat} (h : s.Sound) :
    (s.injectLaunch p cores w i).Sound := .ite h h.launchHere

theorem State.Sound.spread {s : State} {p : Nat} {cores : List Nat} {w : List Word} (h : s.Sound) : (s.spread p cores w).Sound :=
  h.foldl (fun _ _ h1 => h1.injectLaunch)

theorem State.Sound.launchCheck {s : State} {p : Nat} {k : Packet} {cores : List Nat} (h : s.Sound) : (s.launchCheck p k cores).Sound := by
  simp only [State.launchCheck]
  refine .ite .fail (.ite .fail (h.readImage.bind (fun _ _ h1 => .ite .fail ?_)))
  split
  · exact .fail
  · exact .ite (.ok h1) (h1.extents.bind (fun _ _ h2 => .ok h2))

theorem State.Sound.launch {s : State} {p : Nat} {k : Packet} {cores : List Nat} {im : Image} {exts : List Ext} (h : s.Sound) :
    (s.launch p k cores im exts).Sound :=
  (State.Sound.ite
     (((State.Sound.ite h.enterDet h).foldl (fun _ _ h1 => h1.foldl (fun _ _ h2 => h2.setPin))).foldl (fun _ _ h1 => h1.useCore)).unpinAll.onPart
     (((State.Sound.ite h.enterDet h).foldl (fun _ _ h1 => h1.foldl (fun _ _ h2 => h2.setPin))).foldl (fun _ _ h1 => h1.useCore)).unpinAll).spread

theorem State.Sound.launchTry {s : State} {part : Nat} {k : Packet} (h : s.Sound) : (s.launchTry part k).Sound := h.launchCheck

protected theorem State.Sound.execLaunch {part : Nat} {s : State} (h : s.Sound) : OutSound (execLaunch part s) := by
  unfold execLaunch
  split
  · exact .next h
  · split
    · exact .next h.packetFail
    · next he => exact .next (h.launchTry.of_ask he).askFor
    · next he => exact .next (h.launchTry.of_later he)
    · next he => exact .next (h.launchTry.of_ok he).launch.packetDone

protected theorem State.Sound.execEndPacket {part : Nat} {s : State} (h : s.Sound) : OutSound (execEndPacket part s) := by
  unfold execEndPacket
  split
  · exact .next h
  · exact .ite (.next h.endTask) (.next h.endTask.packetDone)

protected theorem State.Sound.execInval {part : Nat} {s : State} (h : s.Sound) : OutSound (execInval part s) := by
  unfold execInval
  split
  · exact .next h
  · exact .ite (.next h.packetFail) (.ite (.next h) (.next h.invalidate.packetDone))

theorem State.Sound.dispose {s : State} {p action : Nat} {f : Nat → Nat → Nat → State → State} (h : s.Sound)
    (hff : ∀ a0 a1 a2 s, s.Sound → (f a0 a1 a2 s).Sound) :
    (s.dispose p action f).Sound := by
  unfold State.dispose
  split
  · exact h
  · exact .ite h (State.Sound.ite (hff _ _ _ _ h.disposing) h.disposing).packetDone

protected theorem State.Sound.execDisposeRelease {part : Nat} {s : State} (h : s.Sound) : OutSound (execDisposeRelease part s) :=
  .next (h.dispose (fun _ _ _ _ h1 => h1.releaseMsg))

protected theorem State.Sound.execDisposeDiscard {part : Nat} {s : State} (h : s.Sound) : OutSound (execDisposeDiscard part s) :=
  .next (h.dispose (fun _ _ _ _ h1 => h1.discardMsg))

protected theorem State.Sound.execDisposeEnd {part : Nat} {s : State} (h : s.Sound) : OutSound (execDisposeEnd part s) :=
  .next (h.dispose (fun _ _ _ _ h1 => h1.endMsg))

/-! ### Home events -/

protected theorem State.Sound.execRemoteRead {home : Nat} {s : State} (h : s.Sound) : OutSound (execRemoteRead home s) := by
  unfold execRemoteRead
  split
  · exact .next h
  · exact .next h.homeServe

protected theorem State.Sound.execRemoteWrite {home : Nat} {s : State} (h : s.Sound) : OutSound (execRemoteWrite home s) := by
  unfold execRemoteWrite
  split
  · exact .next h
  · exact .next h.homeServe

protected theorem State.Sound.execRemoteAtomic {home : Nat} {s : State} (h : s.Sound) : OutSound (execRemoteAtomic home s) := by
  unfold execRemoteAtomic
  split
  · exact .next h
  · exact .next h.homeServe

protected theorem State.Sound.execSynceConfirm {home : Nat} {s : State} (h : s.Sound) : OutSound (execSynceConfirm home s) := by
  unfold execSynceConfirm
  split
  · exact .next h
  · exact .next h.homeServe

protected theorem State.Sound.execSynceReturn {home : Nat} {s : State} (h : s.Sound) : OutSound (execSynceReturn home s) := by
  unfold execSynceReturn
  split
  · exact .next h
  · exact .next h.homeServe

protected theorem State.Sound.execWaitCancel {home : Nat} {s : State} (h : s.Sound) : OutSound (execWaitCancel home s) := by
  unfold execWaitCancel
  split
  · exact .next h
  · exact .next h.took.homeCancel

theorem State.Sound.lodgePage {s : State} {home p va : Nat} {need : List Nat} {keep k : State → State} {bad : State} (h : s.Sound)
    (h1 : bad.Sound) (hfkeep : ∀ s, s.Sound → (keep s).Sound) (hfk : ∀ s, s.Sound → (k s).Sound) :
    (s.lodgePage home p va need keep k bad).Sound := by
  unfold State.lodgePage
  split
  · next he => exact hfk _ (h.bringIn.of_here he)
  · next he => exact (hfkeep _ (h.bringIn.of_ask he)).askFor
  · next he => exact hfkeep _ (h.bringIn.of_later he)
  · exact h1

theorem State.Sound.relodge {s : State} {home : Nat} {l : Lodged} (h : s.Sound) : (s.relodge home l).Sound := h.onHome

theorem State.Sound.copyBad {s : State} {home n : Nat} {p : Word} (h : s.Sound) : (s.copyBad home n p).Sound := h.onChan

theorem State.Sound.serveCopy {s : State} {home : Nat} {l : Lodged} {core : Nat} {rcd : List Word} (h : s.Sound) :
    (s.serveCopy home l core rcd).Sound := by
  unfold State.serveCopy
  split
  · exact h
  · split
    · exact h.lodgePage h.copyBad (fun _ h1 => h1.relodge) (fun _ h1 => h1.onChan.boardPush)
    all_goals exact h.onChan.boardPush

theorem State.Sound.lodgeBad {s : State} {home : Nat} {l : Lodged} (h : s.Sound) : (s.lodgeBad home l).Sound := h.reply

theorem State.Sound.servePage {s : State} {home : Nat} {l : Lodged} (h : s.Sound) : (s.servePage home l).Sound := by
  refine .ite ?_ (h.lodgePage h.lodgeBad (fun _ h1 => h1.relodge) (fun _ h1 => ?_))
  · split
    · exact h.lodgeBad
    · exact .ite h.tick.lodgeBad (.ite (.ite h.relodge h.joinWait) h.homeCount.homeDo.serveAll)
  · split
    · exact h1.lodgeBad
    · exact .ite h1.tick.lodgeBad (.ite (.ite h1.relodge h1.joinWait) h1.homeCount.homeDo.serveAll)

theorem State.Sound.serveLodged {s : State} {home : Nat} {l : Lodged} {t : List Lodged} (h : s.Sound) : (s.serveLodged home l t).Sound := by
  unfold State.serveLodged
  split
  · exact h.onHome.serveCopy
  · exact h.onHome.servePage
  · exact h.onHome.servePage
  · exact h.onHome.servePage
  all_goals exact h.onHome

theorem State.Sound.pktBad {s : State} {p : Pkt} (h : s.Sound) : (s.pktBad p).Sound := h.setPath.answer

theorem State.Sound.servePkt {s : State} {xd : Nat} {x : Nat × Pkt} {t : List (Nat × Pkt)} (h : s.Sound) : (s.servePkt xd x t).Sound :=
  h.onWin.lodgePage h.onWin.pktBad (fun _ h1 => h1.onWin) (fun _ h1 => h1.target)

theorem State.Sound.lodgeDo {s : State} {home : Nat} {f : Lodged → List Lodged → State} {g : Nat × Pkt → List (Nat × Pkt) → State} (h : s.Sound)
    (hf : ∀ l t, (f l t).Sound) (hg : ∀ p u, (g p u).Sound) : (s.lodgeDo home f g).Sound := by
  unfold State.lodgeDo
  dsimp only
  split
  · exact h
  · exact hf _ _
  · exact hg _ _
  · exact .ite (hf _ _) (hg _ _)

protected theorem State.Sound.execLodgeService {home : Nat} {s : State} (h : s.Sound) : OutSound (execLodgeService home s) :=
  .next (h.lodgeDo (fun _ _ => h.serveLodged) (fun _ _ => h.servePkt))

theorem State.Sound.failLodged {s : State} {home va : Nat} (h : s.Sound) : (s.failLodged home va).Sound := by
  simp only [State.failLodged]
  refine h.lodgeDo (fun _ _ => ?_) (fun _ _ => ?_)
  · split
    · split
      · split
        · exact .ite h.onHome.copyBad h
        all_goals exact h
      · exact h
    · exact .ite h.onHome.lodgeBad h
    · exact .ite h.onHome.lodgeBad h
    · exact .ite h.onHome.lodgeBad h
    all_goals exact h
  · split
    · exact .ite h.onWin.pktBad h
    · exact h
    · exact h

theorem State.Sound.stay {s : State} {home : Nat} {l : Lodged} {reason : Nat} (h : s.Sound) : (s.stay home l reason).Sound := .ite h h.onEp

protected theorem State.Sound.execStayNoticeSend {home : Nat} {s : State} (h : s.Sound) : OutSound (execStayNoticeSend home s) :=
  .next ((h.foldl (fun _ _ h1 => h1.stay)).foldl (fun _ _ h1 => h1.stay)).onHome

/-! ### Integer instructions -/

protected theorem State.Sound.setInt {d : GReg} {q : IQ} {y : ℤ} {s : State} (h : s.Sound) : OutSound (setInt d q y s) := h.setG.retired

protected theorem State.Sound.divLike {f : IQ → Word → Word → ℤ} {d : GReg} {q : IQ} {x y : Word} {s : State} (h : s.Sound) :
    OutSound (divLike f d q x y s) := .ite (.next h.takeStop) h.setInt

protected theorem State.Sound.execAdd {d : GReg} {q : IQ} {a b : GReg} {s : State} (h : s.Sound) : OutSound (execAdd d q a b s) := h.setInt

protected theorem State.Sound.execSub {d : GReg} {q : IQ} {a b : GReg} {s : State} (h : s.Sound) : OutSound (execSub d q a b s) := h.setInt

protected theorem State.Sound.execMul {d : GReg} {q : IQ} {a b : GReg} {s : State} (h : s.Sound) : OutSound (execMul d q a b s) := h.setInt

protected theorem State.Sound.execMulh {d : GReg} {q : IQ} {a b : GReg} {s : State} (h : s.Sound) : OutSound (execMulh d q a b s) := h.setInt

protected theorem State.Sound.execDiv {d : GReg} {q : IQ} {a b : GReg} {s : State} (h : s.Sound) : OutSound (execDiv d q a b s) := h.divLike

protected theorem State.Sound.execRem {d : GReg} {q : IQ} {a b : GReg} {s : State} (h : s.Sound) : OutSound (execRem d q a b s) := h.divLike

protected theorem State.Sound.execAnd {d : GReg} {q : IQ} {a b : GReg} {s : State} (h : s.Sound) : OutSound (execAnd d q a b s) := h.setInt

protected theorem State.Sound.execOr {d : GReg} {q : IQ} {a b : GReg} {s : State} (h : s.Sound) : OutSound (execOr d q a b s) := h.setInt

protected theorem State.Sound.execXor {d : GReg} {q : IQ} {a b : GReg} {s : State} (h : s.Sound) : OutSound (execXor d q a b s) := h.setInt

protected theorem State.Sound.execAndn {d : GReg} {q : IQ} {a b : GReg} {s : State} (h : s.Sound) : OutSound (execAndn d q a b s) := h.setInt

protected theorem State.Sound.execShl {d : GReg} {q : IQ} {a b : GReg} {s : State} (h : s.Sound) : OutSound (execShl d q a b s) := h.setInt

protected theorem State.Sound.execShr {d : GReg} {q : IQ} {a b : GReg} {s : State} (h : s.Sound) : OutSound (execShr d q a b s) := h.setInt

protected theorem State.Sound.execSha {d : GReg} {q : IQ} {a b : GReg} {s : State} (h : s.Sound) : OutSound (execSha d q a b s) := h.setInt

protected theorem State.Sound.execRot {d : GReg} {q : IQ} {a b : GReg} {s : State} (h : s.Sound) : OutSound (execRot d q a b s) := h.setInt

protected theorem State.Sound.execMin {d : GReg} {q : IQ} {a b : GReg} {s : State} (h : s.Sound) : OutSound (execMin d q a b s) := h.setInt

protected theorem State.Sound.execMax {d : GReg} {q : IQ} {a b : GReg} {s : State} (h : s.Sound) : OutSound (execMax d q a b s) := h.setInt

protected theorem State.Sound.execCmpeq {d : GReg} {q : IQ} {a b : GReg} {s : State} (h : s.Sound) : OutSound (execCmpeq d q a b s) := h.setInt

protected theorem State.Sound.execCmpne {d : GReg} {q : IQ} {a b : GReg} {s : State} (h : s.Sound) : OutSound (execCmpne d q a b s) := h.setInt

protected theorem State.Sound.execCmplt {d : GReg} {q : IQ} {a b : GReg} {s : State} (h : s.Sound) : OutSound (execCmplt d q a b s) := h.setInt

protected theorem State.Sound.execCmple {d : GReg} {q : IQ} {a b : GReg} {s : State} (h : s.Sound) : OutSound (execCmple d q a b s) := h.setInt

protected theorem State.Sound.execClz {d : GReg} {q : IQ} {a : GReg} {s : State} (h : s.Sound) : OutSound (execClz d q a s) := h.setInt

protected theorem State.Sound.execCtz {d : GReg} {q : IQ} {a : GReg} {s : State} (h : s.Sound) : OutSound (execCtz d q a s) := h.setInt

protected theorem State.Sound.execPopc {d : GReg} {q : IQ} {a : GReg} {s : State} (h : s.Sound) : OutSound (execPopc d q a s) := h.setInt

protected theorem State.Sound.execBrev {d : GReg} {q : IQ} {a : GReg} {s : State} (h : s.Sound) : OutSound (execBrev d q a s) := h.setInt

protected theorem State.Sound.execAddI16 {d : GReg} {q : IQ} {a : GReg} {i : BitVec 16} {s : State} (h : s.Sound) :
    OutSound (execAddI16 d q a i s) := h.setInt

protected theorem State.Sound.execSubI16 {d : GReg} {q : IQ} {a : GReg} {i : BitVec 16} {s : State} (h : s.Sound) :
    OutSound (execSubI16 d q a i s) := h.setInt

protected theorem State.Sound.execMulI16 {d : GReg} {q : IQ} {a : GReg} {i : BitVec 16} {s : State} (h : s.Sound) :
    OutSound (execMulI16 d q a i s) := h.setInt

protected theorem State.Sound.execMulhI16 {d : GReg} {q : IQ} {a : GReg} {i : BitVec 16} {s : State} (h : s.Sound) :
    OutSound (execMulhI16 d q a i s) := h.setInt

protected theorem State.Sound.execDivI16 {d : GReg} {q : IQ} {a : GReg} {i : BitVec 16} {s : State} (h : s.Sound) :
    OutSound (execDivI16 d q a i s) := h.divLike

protected theorem State.Sound.execRemI16 {d : GReg} {q : IQ} {a : GReg} {i : BitVec 16} {s : State} (h : s.Sound) :
    OutSound (execRemI16 d q a i s) := h.divLike

protected theorem State.Sound.execAndI16 {d : GReg} {q : IQ} {a : GReg} {i : BitVec 16} {s : State} (h : s.Sound) :
    OutSound (execAndI16 d q a i s) := h.setInt

protected theorem State.Sound.execOrI16 {d : GReg} {q : IQ} {a : GReg} {i : BitVec 16} {s : State} (h : s.Sound) : OutSound (execOrI16 d q a i s) :=
  h.setInt

protected theorem State.Sound.execXorI16 {d : GReg} {q : IQ} {a : GReg} {i : BitVec 16} {s : State} (h : s.Sound) :
    OutSound (execXorI16 d q a i s) := h.setInt

protected theorem State.Sound.execAndnI16 {d : GReg} {q : IQ} {a : GReg} {i : BitVec 16} {s : State} (h : s.Sound) :
    OutSound (execAndnI16 d q a i s) := h.setInt

protected theorem State.Sound.execShlI16 {d : GReg} {q : IQ} {a : GReg} {i : BitVec 16} {s : State} (h : s.Sound) :
    OutSound (execShlI16 d q a i s) := h.setInt

protected theorem State.Sound.execShrI16 {d : GReg} {q : IQ} {a : GReg} {i : BitVec 16} {s : State} (h : s.Sound) :
    OutSound (execShrI16 d q a i s) := h.setInt

protected theorem State.Sound.execShaI16 {d : GReg} {q : IQ} {a : GReg} {i : BitVec 16} {s : State} (h : s.Sound) :
    OutSound (execShaI16 d q a i s) := h.setInt

protected theorem State.Sound.execRotI16 {d : GReg} {q : IQ} {a : GReg} {i : BitVec 16} {s : State} (h : s.Sound) :
    OutSound (execRotI16 d q a i s) := h.setInt

protected theorem State.Sound.execMinI16 {d : GReg} {q : IQ} {a : GReg} {i : BitVec 16} {s : State} (h : s.Sound) :
    OutSound (execMinI16 d q a i s) := h.setInt

protected theorem State.Sound.execMaxI16 {d : GReg} {q : IQ} {a : GReg} {i : BitVec 16} {s : State} (h : s.Sound) :
    OutSound (execMaxI16 d q a i s) := h.setInt

protected theorem State.Sound.execCmpeqI16 {d : GReg} {q : IQ} {a : GReg} {i : BitVec 16} {s : State} (h : s.Sound) :
    OutSound (execCmpeqI16 d q a i s) := h.setInt

protected theorem State.Sound.execCmpneI16 {d : GReg} {q : IQ} {a : GReg} {i : BitVec 16} {s : State} (h : s.Sound) :
    OutSound (execCmpneI16 d q a i s) := h.setInt

protected theorem State.Sound.execCmpltI16 {d : GReg} {q : IQ} {a : GReg} {i : BitVec 16} {s : State} (h : s.Sound) :
    OutSound (execCmpltI16 d q a i s) := h.setInt

protected theorem State.Sound.execCmpleI16 {d : GReg} {q : IQ} {a : GReg} {i : BitVec 16} {s : State} (h : s.Sound) :
    OutSound (execCmpleI16 d q a i s) := h.setInt

protected theorem State.Sound.execAddI48 {d : GReg} {q : IQ} {a : GReg} {i : BitVec 48} {s : State} (h : s.Sound) :
    OutSound (execAddI48 d q a i s) := h.setInt

protected theorem State.Sound.execAndI48 {d : GReg} {q : IQ} {a : GReg} {i : BitVec 48} {s : State} (h : s.Sound) :
    OutSound (execAndI48 d q a i s) := h.setInt

protected theorem State.Sound.execOrI48 {d : GReg} {q : IQ} {a : GReg} {i : BitVec 48} {s : State} (h : s.Sound) : OutSound (execOrI48 d q a i s) :=
  h.setInt

protected theorem State.Sound.execXorI48 {d : GReg} {q : IQ} {a : GReg} {i : BitVec 48} {s : State} (h : s.Sound) :
    OutSound (execXorI48 d q a i s) := h.setInt

protected theorem State.Sound.execMovi16 {d : GReg} {i : BitVec 16} {s : State} (h : s.Sound) : OutSound (execMovi16 d i s) := h.setG.retired

protected theorem State.Sound.execMovi32 {d : GReg} {i : BitVec 32} {s : State} (h : s.Sound) : OutSound (execMovi32 d i s) := h.setG.retired

protected theorem State.Sound.execMovi64 {d : GReg} {i : BitVec 64} {s : State} (h : s.Sound) : OutSound (execMovi64 d i s) := h.setG.retired

protected theorem State.Sound.execExt {d a : GReg} {pos w : BitVec 6} {s : State} (h : s.Sound) : OutSound (execExt d a pos w s) := h.setG.retired

protected theorem State.Sound.execIns {d a : GReg} {pos w : BitVec 6} {s : State} (h : s.Sound) : OutSound (execIns d a pos w s) := h.setG.retired

protected theorem State.Sound.execSel {d a b : GReg} {s : State} (h : s.Sound) : OutSound (execSel d a b s) := h.setG.retired

/-! ### Keys and sessions -/

theorem State.Sound.onDir {s : State} {n : Nat} {tx : Bool} {f : LinkDir → LinkDir} (h : s.Sound) : (s.onDir n tx f).Sound := h.onLink.pump

protected theorem State.Sound.execKeyExchangeStart {link : Nat} {tx : Bool} {s : State} (h : s.Sound) : OutSound (execKeyExchangeStart link tx s) :=
  .ite (.next h.onLink) (.next h)

protected theorem State.Sound.execKeyExchangeComplete {link : Nat} {tx : Bool} {secret : BitVec 256} {s : State} (h : s.Sound) :
    OutSound (execKeyExchangeComplete link tx secret s) := .ite (.next h.onLink.onDir) (.next h)

protected theorem State.Sound.execHostKeyWrite {link : Nat} {tx slot : Bool} {key : BitVec 256} {salt : BitVec 48} {s : State} (h : s.Sound) :
    OutSound (execHostKeyWrite link tx slot key salt s) := .ite (.next h.onDir) (.next h)

protected theorem State.Sound.execSpdmRequest {index : BitVec 8} {s : State} (h : s.Sound) : OutSound (execSpdmRequest index s) := by
  unfold execSpdmRequest
  split
  · exact .ite (.next h.onPkg) (.next h)
  · exact .next h

/-! ### Load and store instructions -/

protected theorem State.Sound.loadInto {d : GReg} {q : IQ} {a : GReg} {off : Word} {fe : Fe} {s : State} (h : s.Sound) :
    OutSound (loadInto d q a off fe s) := (h.readMemQ.bind (fun _ _ h1 => .ok h1.setG)).run

protected theorem State.Sound.execLd {d : GReg} {q : IQ} {a : GReg} {off : BitVec 16} {s : State} (h : s.Sound) : OutSound (execLd d q a off s) :=
  h.loadInto

protected theorem State.Sound.execLdW {d : GReg} {q : IQ} {a : GReg} {off : BitVec 48} {s : State} (h : s.Sound) : OutSound (execLdW d q a off s) :=
  h.loadInto

protected theorem State.Sound.execLdAcq {d : GReg} {q : IQ} {a : GReg} {off : BitVec 16} {s : State} (h : s.Sound) :
    OutSound (execLdAcq d q a off s) := h.loadInto

protected theorem State.Sound.execLdAcqW {d : GReg} {q : IQ} {a : GReg} {off : BitVec 48} {s : State} (h : s.Sound) :
    OutSound (execLdAcqW d q a off s) := h.loadInto

protected theorem State.Sound.execLdSync {d : GReg} {sgn : Bool} {a : GReg} {off : BitVec 16} {s : State} (h : s.Sound) :
    OutSound (execLdSync d sgn a off s) := h.loadInto

protected theorem State.Sound.execLdSyncW {d : GReg} {sgn : Bool} {a : GReg} {off : BitVec 48} {s : State} (h : s.Sound) :
    OutSound (execLdSyncW d sgn a off s) := h.loadInto

protected theorem State.Sound.execLdSynce {d : GReg} {sgn : Bool} {a : GReg} {off : BitVec 16} {s : State} (h : s.Sound) :
    OutSound (execLdSynce d sgn a off s) := h.loadInto

protected theorem State.Sound.execLdSynceW {d : GReg} {sgn : Bool} {a : GReg} {off : BitVec 48} {s : State} (h : s.Sound) :
    OutSound (execLdSynceW d sgn a off s) := h.loadInto

protected theorem State.Sound.storeFrom {q : IQ} {a b : GReg} {col : BitVec 3} {off : Word} {kind : StKind} {s : State} (h : s.Sound) :
    OutSound (storeFrom q a b col off kind s) := ((Res.Sound.ite (.ok h) h.failCheck).bind (fun _ _ h1 => h1.writeMem)).run

protected theorem State.Sound.execSt {q : IQ} {a b : GReg} {col : BitVec 3} {off : BitVec 16} {s : State} (h : s.Sound) :
    OutSound (execSt q a b col off s) := h.storeFrom

protected theorem State.Sound.execStW {q : IQ} {a b : GReg} {col : BitVec 3} {off : BitVec 48} {s : State} (h : s.Sound) :
    OutSound (execStW q a b col off s) := h.storeFrom

protected theorem State.Sound.execStRel {q : IQ} {a b : GReg} {col : BitVec 3} {off : BitVec 16} {s : State} (h : s.Sound) :
    OutSound (execStRel q a b col off s) := h.storeFrom

protected theorem State.Sound.execStRelW {q : IQ} {a b : GReg} {col : BitVec 3} {off : BitVec 48} {s : State} (h : s.Sound) :
    OutSound (execStRelW q a b col off s) := h.storeFrom

protected theorem State.Sound.execStFe {sgn : Bool} {a b : GReg} {col : BitVec 3} {off : BitVec 16} {s : State} (h : s.Sound) :
    OutSound (execStFe sgn a b col off s) := h.storeFrom

protected theorem State.Sound.execStFeW {sgn : Bool} {a b : GReg} {col : BitVec 3} {off : BitVec 48} {s : State} (h : s.Sound) :
    OutSound (execStFeW sgn a b col off s) := h.storeFrom

theorem State.Sound.extentAt {s : State} {x : Fin 16} {i : Word} {imm : BitVec 16} {size : Nat} {write : Bool} (h : s.Sound) :
    (s.extentAt x i imm size write).Sound := by
  unfold State.extentAt
  split
  · exact h.trapAt
  · exact .ite h.trapAt (.ite h.trapAt (.ok h))

protected theorem State.Sound.execLdx {d : GReg} {q : IQ} {x : Fin 16} {a : GReg} {i : BitVec 16} {s : State} (h : s.Sound) :
    OutSound (execLdx d q x a i s) := (h.extentAt.bind (fun _ _ h1 => h1.readGlobal.bind (fun _ _ h2 => .ok h2.setG))).run

protected theorem State.Sound.execStx {q : IQ} {x : Fin 16} {a b : GReg} {i : BitVec 16} {s : State} (h : s.Sound) :
    OutSound (execStx q x a b i s) := (h.extentAt.bind (fun _ _ h1 => .ok h1.pushLane)).run

protected theorem State.Sound.atomicOp {op : Nat} {d : GReg} {q : IQ} {a b : GReg} {o : AOrd} {col : BitVec 3} {sc : Scope} {s : State}
    (h : s.Sound) :
    OutSound (atomicOp op d q a b o col sc s) := (h.atomicMem.bind (fun _ _ h1 => .ok h1.setG)).run

protected theorem State.Sound.execAadd {d : GReg} {q : IQ} {a b : GReg} {o : AOrd} {col : BitVec 3} {sc : Scope} {s : State} (h : s.Sound) :
    OutSound (execAadd d q a b o col sc s) := h.atomicOp

protected theorem State.Sound.execAand {d : GReg} {q : IQ} {a b : GReg} {o : AOrd} {col : BitVec 3} {sc : Scope} {s : State} (h : s.Sound) :
    OutSound (execAand d q a b o col sc s) := h.atomicOp

protected theorem State.Sound.execAor {d : GReg} {q : IQ} {a b : GReg} {o : AOrd} {col : BitVec 3} {sc : Scope} {s : State} (h : s.Sound) :
    OutSound (execAor d q a b o col sc s) := h.atomicOp

protected theorem State.Sound.execAxor {d : GReg} {q : IQ} {a b : GReg} {o : AOrd} {col : BitVec 3} {sc : Scope} {s : State} (h : s.Sound) :
    OutSound (execAxor d q a b o col sc s) := h.atomicOp

protected theorem State.Sound.execAmin {d : GReg} {q : IQ} {a b : GReg} {o : AOrd} {col : BitVec 3} {sc : Scope} {s : State} (h : s.Sound) :
    OutSound (execAmin d q a b o col sc s) := h.atomicOp

protected theorem State.Sound.execAmax {d : GReg} {q : IQ} {a b : GReg} {o : AOrd} {col : BitVec 3} {sc : Scope} {s : State} (h : s.Sound) :
    OutSound (execAmax d q a b o col sc s) := h.atomicOp

protected theorem State.Sound.execAswap {d : GReg} {q : IQ} {a b : GReg} {o : AOrd} {col : BitVec 3} {sc : Scope} {s : State} (h : s.Sound) :
    OutSound (execAswap d q a b o col sc s) := h.atomicOp

protected theorem State.Sound.execAcas {d : GReg} {q : IQ} {a b : GReg} {o : AOrd} {col : BitVec 3} {sc : Scope} {s : State} (h : s.Sound) :
    OutSound (execAcas d q a b o col sc s) := h.atomicOp

theorem State.Sound.failCheckMask {s : State} {mask : BitVec 8} (h : s.Sound) : (s.failCheckMask mask).Sound := by
  unfold State.failCheckMask
  split
  · exact .ok h
  · exact h.onMe.trapAt

protected theorem State.Sound.execFence {mask : BitVec 8} {sc : Scope} {s : State} (h : s.Sound) : OutSound (execFence mask sc s) :=
  ((Res.Sound.ite h.failCheckMask (.ok h)).bind (fun _ _ h1 => .ite (.stop h1) (.ite (.stop h1) (.ok (State.Sound.ite h1 h1.noteSync))))).run

/-! ### Observation -/

theorem State.Sound.putSample {s : State} {core : Nat} {w : List Word} (h : s.Sound) : (s.putSample core w).Sound :=
  .ite h (.ite h.putRing.onPart h.putRing.onPart.count)

protected theorem State.Sound.execSample {core : Nat} {s : State} (h : s.Sound) : OutSound (execSample core s) := by
  unfold execSample
  split
  · exact .next h
  · exact .next h.onCore.putSample

protected theorem State.Sound.execSamplePeriodWrite {part : Nat} {period : BitVec 32} {s : State} (h : s.Sound) :
    OutSound (execSamplePeriodWrite part period s) := by
  unfold execSamplePeriodWrite
  split
  · exact .next h
  · exact .next (h.onPart.foldl (fun _ _ h1 => h1.onCore))

protected theorem State.Sound.execRingHeadWrite {part : Nat} {r : RingSel} {head : BitVec 32} {s : State} (h : s.Sound) :
    OutSound (execRingHeadWrite part r head s) := .next h.onPart

protected theorem State.Sound.execDropWrite {part : Nat} {r : RingSel} {bits : BitVec 32} {s : State} (h : s.Sound) :
    OutSound (execDropWrite part r bits s) := .next h.onPart

protected theorem State.Sound.execCounterWrite {part i : Nat} {v : Word} {s : State} (h : s.Sound) : OutSound (execCounterWrite part i v s) :=
  .next h.onPart

protected theorem State.Sound.execTimeWrap {part : Nat} {s : State} (h : s.Sound) : OutSound (execTimeWrap part s) :=
  .ite (.next h) (.next h.event.onPart)

/-! ### Power and tokens -/

protected theorem State.Sound.execTokenReallot {s : State} (h : s.Sound) : OutSound (execTokenReallot s) := .ite (.next h) (.next h.onPkg.tick)

protected theorem State.Sound.execTokenExhaust {die : Nat} {s : State} (h : s.Sound) : OutSound (execTokenExhaust die s) := .next h.onPkg

protected theorem State.Sound.execPowerAllotWrite {allot : List Nat} {s : State} (h : s.Sound) : OutSound (execPowerAllotWrite allot s) :=
  .ite (.next h.onPkg) (.next h)

protected theorem State.Sound.execThermalSample {island flux : Nat} {s : State} (h : s.Sound) : OutSound (execThermalSample island flux s) :=
  .ite (.next (State.Sound.ite h.onPkg.log h.onPkg.onPkg)) (.ite (.next h.onPkg) (.next h))

/-! ### Page requests to the host -/

theorem State.Sound.freeTag {s : State} {t : Nat} (h : s.Sound) : (s.freeTag t).Sound := h.onPkg

theorem State.Sound.refusedOwn {s : State} {q : Pri} (h : s.Sound) : (s.refusedOwn q).Sound := by
  refine .ite ?_ (.ite h.advRefused h.failLodged)
  split
  · split
    · exact .ite h.packetFail h
    all_goals exact h
  · exact h

theorem State.Sound.applyPrg {s : State} {q : Pri} {c : PrgCode} (h : s.Sound) : (s.applyPrg q c).Sound := by
  refine .ite ?_ ?_
  · split
    · exact h
    · exact h.refusedOwn
    · exact h.refusedOwn
  · split
    · exact h
    · refine .ite h.pruneFaults ?_
      split
      · exact h.pruneFaults.served
      · exact h.abortFault
      · exact h.frameOut

protected theorem State.Sound.execPrgResponse {tag : BitVec 9} {code : PrgCode} {s : State} (h : s.Sound) :
    OutSound (execPrgResponse tag code s) := by
  unfold execPrgResponse
  split
  · exact .next h
  · exact .next h.freeTag.applyPrg

protected theorem State.Sound.execPriTimeout {tag : BitVec 9} {s : State} (h : s.Sound) : OutSound (execPriTimeout tag s) := by
  unfold execPriTimeout
  split
  · exact .next h
  · exact .ite (.next h) (.next h.freeTag.applyPrg)

/-! ### Registers written from outside -/

theorem State.Sound.claim {s : State} {f n : Nat} (h : s.Sound) : (s.claim f n).Sound := h.update

theorem State.Sound.mapped {s : State} {p dies lvl va : Nat} {v : Word} (h : s.Sound) : (s.mapped p dies lvl va v).Sound :=
  .ite h
    (.ite
       (State.Sound.ite (h.foldl (fun _ _ h1 => h1.claim)).onPart.rekey (h.foldl (fun _ _ h1 => h1.claim))).zeroFrames
       (.ite (h.foldl (fun _ _ h1 => h1.claim)).onPart.rekey (h.foldl (fun _ _ h1 => h1.claim))))

theorem State.Sound.adopt {s : State} {p dies lvl va : Nat} {v : Word} {n : Nat} (h : s.Sound) : (s.adopt p dies lvl va v n).Sound := by
  induction n generalizing s lvl va v with
  | zero => exact .ite h.mapped h
  | succ n ih =>
    refine .ite h.mapped ?_
    split
    · exact h.claim.foldl fun _ _ h => ih h
    · exact h

theorem State.Sound.mapWord {s : State} {pa : Nat} {v : Word} (h : s.Sound) : (s.mapWord pa v).Sound := by
  simp only [State.mapWord]
  split
  · exact .ite h (.ite h.adopt.moveCmds h.adopt)
  · exact h

theorem State.Sound.hostWrite {s : State} {pa : Nat} {v : Word} (h : s.Sound) : (s.hostWrite pa v).Sound :=
  .ite (h.claim.mapWord.onMem (fun _ h1 => Memory.wf_store _ _ _ h1)) h

protected theorem State.Sound.execRegisterWrite {r : RegTarget} {v : Word} {s : State} (h : s.Sound) : OutSound (execRegisterWrite r v s) := by
  refine .ite (.next h) ?_
  split
  · exact .next h.onPart
  · exact .next h.onPart
  · exact .next h.onPart
  · exact .next h.onPart
  · exact .next h.onPart.trFlush
  · exact .next h.onPart
  · exact .next h.onPart
  · exact .next h.onPart
  · exact .next h.onPart
  · exact .next h.onPart
  · exact .next h.onPart
  · exact .next h.onPart
  · exact .next h.update
  · exact .next h.onPkg
  · exact .next (State.Sound.ite h.onPkg h)
  · exact .next h.hostFrontAt
  · exact .next h.hostFrontAt
  · exact .next h.hostWrite

/-! ### Controller instructions -/

theorem State.Sound.storeKeys {s : State} {p : Word} (h : s.Sound) : (s.storeKeys p).Sound := by
  unfold State.storeKeys
  split
  · exact h.trapAt
  · exact .ok h
  · exact h.translate.bind (fun _ _ h1 => .ite h1.trapAt (.ite (.ok h1) (.ok h1)))

protected theorem State.Sound.execRlcrun {d a : GReg} {s : State} (h : s.Sound) : OutSound (execRlcrun d a s) :=
  (Res.Sound.ite h.trapAt
     (.ite h.trapAt
        (h.readWords.bind (fun _ _ h1 =>
           h1.storeKeys.bind (fun _ _ h2 =>
             h2.storeKeys.bind (fun _ _ h3 =>
               h3.readWords.bind (fun _ _ h4 => .ite h4.trapAt (.ite (.ok h4.setG) (h4.release.bind (fun _ _ h5 => .ok h5.rlcPost.setG)))))))))).run

protected theorem State.Sound.execRlcnorm {d a : GReg} {s : State} (h : s.Sound) : OutSound (execRlcnorm d a s) := by
  refine (h.release.bind (fun _ _ h1 => ?_)).run
  split
  · exact .ok h1.onMe.rlcPost.setG
  · exact .ok h1.setG

protected theorem State.Sound.execRlcstat {d a : GReg} {s : State} (h : s.Sound) : OutSound (execRlcstat d a s) := h.setG.retired

protected theorem State.Sound.execRlcstop {d a : GReg} {s : State} (h : s.Sound) : OutSound (execRlcstop d a s) :=
  (State.Sound.ite h.rlcPost h).setG.retired

/-! ### Tag table -/

protected theorem State.Sound.execTlook {d a : GReg} {s : State} (h : s.Sound) : OutSound (execTlook d a s) := h.setG.retired

protected theorem State.Sound.execTset {d a b : GReg} {s : State} (h : s.Sound) : OutSound (execTset d a b s) := by
  refine .ite (.next h.takeStop) ?_
  split
  · exact h.setG.retired
  · exact h.onMyCore.setG.retired

protected theorem State.Sound.execTclr {d a : GReg} {s : State} (h : s.Sound) : OutSound (execTclr d a s) :=
  .ite (.next h.takeStop) h.onMyCore.setG.retired

protected theorem State.Sound.execTinv {d a b : GReg} {s : State} (h : s.Sound) : OutSound (execTinv d a b s) := h.onMyCore.setG.retired

/-! ### Window instructions -/

protected theorem State.Sound.execRfence {mask : BitVec 8} {s : State} (h : s.Sound) : OutSound (execRfence mask s) := by
  refine (Res.Sound.ite (.stop h) ?_).run
  split
  · exact .ok h
  · exact h.onMe.trapAt

theorem State.Sound.probe {s : State} {p : Word} (h : s.Sound) : (s.probe p).Sound := by
  refine .ite h.trapAt ?_
  split
  · exact .ite h.trapAt (.ok h)
  · split
    · exact h.trapAt
    · exact .stop h
    · exact .ite h.trapAt (.ok (h.onMem (fun _ h1 => Memory.wf_orWord _ _ h1)).onMe)

protected theorem State.Sound.execWstat {d a : GReg} {s : State} (h : s.Sound) : OutSound (execWstat d a s) :=
  (h.probe.bind (fun _ _ h1 => .ok h1.setG)).run

protected theorem State.Sound.execWseq {d a : GReg} {s : State} (h : s.Sound) : OutSound (execWseq d a s) :=
  (h.probe.bind (fun _ _ h1 => .ok h1.setG)).run

protected theorem State.Sound.execWindowPacketSend {xd entry : Nat} {s : State} (h : s.Sound) : OutSound (execWindowPacketSend xd entry s) := by
  simp only [execWindowPacketSend]
  split
  · exact .next h
  · exact .ite (.next h) (.next h.sentStores.sendPkt)

protected theorem State.Sound.execLoopbackApply {xd entry : Nat} {s : State} (h : s.Sound) : OutSound (execLoopbackApply xd entry s) := by
  simp only [execLoopbackApply]
  split
  · exact .next h
  · refine .ite (.next h) ?_
    split
    · exact .next h
    · exact .next (State.Sound.ite h h.sentStores.target)
    · exact .next h.sentStores.target
    · exact .next h.sentStores.target

protected theorem State.Sound.execWindowAckReceive {xd : Nat} {s : State} (h : s.Sound) : OutSound (execWindowAckReceive xd s) := by
  unfold execWindowAckReceive
  split
  · exact .next h
  · exact .next h.onWin.ackApply

protected theorem State.Sound.execWindowMissReceive {xd : Nat} {s : State} (h : s.Sound) : OutSound (execWindowMissReceive xd s) := by
  unfold execWindowMissReceive
  split
  · exact .next h
  · exact .next h.onWin.missApply

protected theorem State.Sound.execStorePacketReceive {xd : Nat} {s : State} (h : s.Sound) : OutSound (execStorePacketReceive xd s) := by
  unfold execStorePacketReceive
  split
  · exact .next h
  · exact .ite (.next h.onWin) (.ite (.next h.onWin.target) (.next h.onWin.answer))

protected theorem State.Sound.execPathReopen {xd path : Nat} {s : State} (h : s.Sound) : OutSound (execPathReopen xd path s) :=
  .next (State.Sound.ite h (.ite (State.Sound.ite h h.setPath).setWent (.ite h h.setPath)))

protected theorem State.Sound.execWindowEntryWrite {xd entry : Nat} {w0 w1 : Word} {s : State} (h : s.Sound) :
    OutSound (execWindowEntryWrite xd entry w0 w1 s) := .ite (.next h) (.next h.setWent.dropTlb)

theorem State.Sound.rxZero {s : State} {r : RxWin} (h : s.Sound) : (s.rxZero r).Sound := by
  simp only [State.rxZero]
  refine h.foldl (fun _ _ h1 => ?_)
  split
  · exact .ite h1 h1.zeroFrames
  · exact h1
  · exact h1

protected theorem State.Sound.execReceiveWindowWrite {entry : Nat} {w0 w1 : Word} {s : State} (h : s.Sound) :
    OutSound (execReceiveWindowWrite entry w0 w1 s) := .ite (.next h) (.next (State.Sound.ite h.rxZero h).update)

theorem State.Sound.cutShort {s : State} {link : Nat} {f : LinkFlit} (h : s.Sound) : (s.cutShort link f).Sound := by
  refine .ite ?_ h.stompCut
  split
  · exact .ite h.feed h
  · exact h

theorem State.Sound.cutThrough {s t : State} {link : Nat} {f : LinkFlit} {old : List Byte} (h : s.Sound) (ht : s.cutThrough link f old = some t) :
    t.Sound := by
  unfold State.cutThrough at ht
  split at ht
  · cases ht
  · split at ht
    · split at ht
      · cases ht; exact h.feed
      · split at ht
        · cases ht; exact h.feed
        · cases ht
    · cases ht

protected theorem State.Sound.execLinkFlitReceive {link : Nat} {f : LinkFlit} {s : State} (h : s.Sound) :
    OutSound (execLinkFlitReceive link f s) := by
  simp only [execLinkFlitReceive]
  refine .ite
    (.next h)
    (.ite (.next (.ite h.onLink.linkFall h.onLink.cutShort)) (.ite (.next h.stompCut.onLink) (.ite (.next h.cutShort) ?_)))
  split
  · next he => exact .next (h.onLink.cutThrough he)
  · refine .ite (.next h.onLink) ?_
    split
    · exact .next h.onLink.pktIn
    · exact .next h.onLink

protected theorem State.Sound.execLinkNak {link seq : Nat} {s : State} (h : s.Sound) : OutSound (execLinkNak link seq s) := by
  refine .next (h.foldl (fun _ _ h1 => ?_))
  split
  · exact h1.count
  · exact h1

protected theorem State.Sound.execLinkAck {link seq : Nat} {s : State} (h : s.Sound) : OutSound (execLinkAck link seq s) :=
  .ite (.next h.onLink.pump) (.next h)

protected theorem State.Sound.execLinkDown {link : Nat} {s : State} (h : s.Sound) : OutSound (execLinkDown link s) :=
  .next (State.Sound.ite h.linkFall h)

protected theorem State.Sound.execLinkRetrained {link : Nat} {s : State} (h : s.Sound) : OutSound (execLinkRetrained link s) :=
  .ite (.next h) (.next h.onLink.pump)

protected theorem State.Sound.execLinkDownTimeout {link : Nat} {s : State} (h : s.Sound) : OutSound (execLinkDownTimeout link s) :=
  .ite (.next h) (.next (h.foldl (fun _ _ h1 => .ite h1.breakEntry h1)))

/-! ### Every instruction and event -/

protected theorem State.Sound.exec {s : State} (h : s.Sound) : ∀ i : Instr, OutSound (exec i s)
  | .nop => h.execNop
  | .done => h.execDone
  | .ret => h.execRet
  | .bkpt => h.execBkpt
  | .add .. => h.execAdd
  | .sub .. => h.execSub
  | .mul .. => h.execMul
  | .mulh .. => h.execMulh
  | .div .. => h.execDiv
  | .rem .. => h.execRem
  | .and .. => h.execAnd
  | .or .. => h.execOr
  | .xor .. => h.execXor
  | .andn .. => h.execAndn
  | .shl .. => h.execShl
  | .shr .. => h.execShr
  | .sha .. => h.execSha
  | .rot .. => h.execRot
  | .min .. => h.execMin
  | .max .. => h.execMax
  | .cmpeq .. => h.execCmpeq
  | .cmpne .. => h.execCmpne
  | .cmplt .. => h.execCmplt
  | .cmple .. => h.execCmple
  | .clz .. => h.execClz
  | .ctz .. => h.execCtz
  | .popc .. => h.execPopc
  | .brev .. => h.execBrev
  | .addI16 .. => h.execAddI16
  | .subI16 .. => h.execSubI16
  | .mulI16 .. => h.execMulI16
  | .mulhI16 .. => h.execMulhI16
  | .divI16 .. => h.execDivI16
  | .remI16 .. => h.execRemI16
  | .andI16 .. => h.execAndI16
  | .orI16 .. => h.execOrI16
  | .xorI16 .. => h.execXorI16
  | .andnI16 .. => h.execAndnI16
  | .shlI16 .. => h.execShlI16
  | .shrI16 .. => h.execShrI16
  | .shaI16 .. => h.execShaI16
  | .rotI16 .. => h.execRotI16
  | .minI16 .. => h.execMinI16
  | .maxI16 .. => h.execMaxI16
  | .cmpeqI16 .. => h.execCmpeqI16
  | .cmpneI16 .. => h.execCmpneI16
  | .cmpltI16 .. => h.execCmpltI16
  | .cmpleI16 .. => h.execCmpleI16
  | .addI48 .. => h.execAddI48
  | .andI48 .. => h.execAndI48
  | .orI48 .. => h.execOrI48
  | .xorI48 .. => h.execXorI48
  | .movi16 .. => h.execMovi16
  | .movi32 .. => h.execMovi32
  | .movi64 .. => h.execMovi64
  | .ext .. => h.execExt
  | .ins .. => h.execIns
  | .sel .. => h.execSel
  | .padd .. => h.execPadd
  | .paddI16 .. => h.execPaddI16
  | .psub .. => h.execPsub
  | .viewset .. => h.execViewset
  | .viewof .. => h.execViewof
  | .isspc .. => h.execIsspc
  | .castspc .. => h.execCastspc
  | .hown .. => h.execHown
  | .br .. => h.execBr
  | .bz .. => h.execBz
  | .bnz .. => h.execBnz
  | .bltz .. => h.execBltz
  | .bgez .. => h.execBgez
  | .call .. => h.execCall
  | .loop .. => h.execLoop
  | .jmp .. => h.execJmp
  | .callr .. => h.execCallr
  | .ld .. => h.execLd
  | .ldW .. => h.execLdW
  | .ldAcq .. => h.execLdAcq
  | .ldAcqW .. => h.execLdAcqW
  | .ldSync .. => h.execLdSync
  | .ldSyncW .. => h.execLdSyncW
  | .ldSynce .. => h.execLdSynce
  | .ldSynceW .. => h.execLdSynceW
  | .st .. => h.execSt
  | .stW .. => h.execStW
  | .stRel .. => h.execStRel
  | .stRelW .. => h.execStRelW
  | .stFe .. => h.execStFe
  | .stFeW .. => h.execStFeW
  | .ldx .. => h.execLdx
  | .stx .. => h.execStx
  | .aadd .. => h.execAadd
  | .aand .. => h.execAand
  | .aor .. => h.execAor
  | .axor .. => h.execAxor
  | .amin .. => h.execAmin
  | .amax .. => h.execAmax
  | .aswap .. => h.execAswap
  | .acas .. => h.execAcas
  | .fence .. => h.execFence
  | .csrrd .. => h.execCsrrd
  | .csrwr .. => h.execCsrwr
  | .csrswp .. => h.execCsrswp
  | .csrset .. => h.execCsrset
  | .csrclr .. => h.execCsrclr
  | .trap .. => h.execTrap
  | .trapI16 .. => h.execTrapI16
  | .time .. => h.execTime
  | .featq .. => h.execFeatq
  | .migok .. => h.execMigok
  | .send .. => h.execSend
  | .senda .. => h.execSenda
  | .sendp .. => h.execSendp
  | .sendl .. => h.execSendl
  | .reply .. => h.execReply
  | .msgid .. => h.execMsgid
  | .msgpay .. => h.execMsgpay
  | .requeue => h.execRequeue
  | .chbind .. => h.execChbind
  | .chwaitf .. => h.execChwaitf
  | .chwaite .. => h.execChwaite
  | .chadvh .. => h.execChadvh
  | .chadvt .. => h.execChadvt
  | .chstat .. => h.execChstat
  | .chptr .. => h.execChptr
  | .tlook .. => h.execTlook
  | .tset .. => h.execTset
  | .tclr .. => h.execTclr
  | .tinv .. => h.execTinv
  | .vadd .. => h.execVadd
  | .vsub .. => h.execVsub
  | .vmul .. => h.execVmul
  | .vdiv .. => h.execVdiv
  | .vmin .. => h.execVmin
  | .vmax .. => h.execVmax
  | .vabs .. => h.execVabs
  | .vneg .. => h.execVneg
  | .vsqrt .. => h.execVsqrt
  | .vand .. => h.execVand
  | .vor .. => h.execVor
  | .vxor .. => h.execVxor
  | .vshl .. => h.execVshl
  | .vshr .. => h.execVshr
  | .vsha .. => h.execVsha
  | .vfma .. => h.execVfma
  | .vfms .. => h.execVfms
  | .vfnma .. => h.execVfnma
  | .vcvt .. => h.execVcvt
  | .vcmpEq .. => h.execVcmpEq
  | .vcmpNe .. => h.execVcmpNe
  | .vcmpLt .. => h.execVcmpLt
  | .vcmpLe .. => h.execVcmpLe
  | .vcmpUnord .. => h.execVcmpUnord
  | .vsel .. => h.execVsel
  | .vmov .. => h.execVmov
  | .vbcast .. => h.execVbcast
  | .vext .. => h.execVext
  | .viota .. => h.execViota
  | .vredSum .. => h.execVredSum
  | .vredMin _ _ _ _ rm sat => h.execVredMin (rm := rm) (sat := sat)
  | .vredMax _ _ _ _ rm sat => h.execVredMax (rm := rm) (sat := sat)
  | .vdot .. => h.execVdot
  | .vshuf .. => h.execVshuf
  | .vrot .. => h.execVrot
  | .vpack .. => h.execVpack
  | .vunpack .. => h.execVunpack
  | .vld .. => h.execVld
  | .vst .. => h.execVst
  | .vlds .. => h.execVlds
  | .vsts .. => h.execVsts
  | .vgather .. => h.execVgather
  | .vscatter .. => h.execVscatter
  | .kand .. => h.execKand
  | .kor .. => h.execKor
  | .kxor .. => h.execKxor
  | .knot .. => h.execKnot
  | .kpop .. => h.execKpop
  | .kset .. => h.execKset
  | .kget .. => h.execKget
  | .vscale .. => h.execVscale
  | .vquant .. => h.execVquant
  | .mput .. => h.execMput
  | .mget .. => h.execMget
  | .mgang .. => h.execMgang
  | .mwait .. => h.execMwait
  | .mstat .. => h.execMstat
  | .cpreq .. => h.execCpreq
  | .cptest .. => h.execCptest
  | .cpwait .. => h.execCpwait
  | .lvbind .. => h.execLvbind
  | .lvunbind .. => h.execLvunbind
  | .lvread .. => h.execLvread
  | .lvcommit .. => h.execLvcommit
  | .lvcmp .. => h.execLvcmp
  | .lvfreeze .. => h.execLvfreeze
  | .lvthaw .. => h.execLvthaw
  | .lvstat .. => h.execLvstat
  | .rfence .. => h.execRfence
  | .wstat .. => h.execWstat
  | .wseq .. => h.execWseq
  | .rlcrun .. => h.execRlcrun
  | .rlcnorm .. => h.execRlcnorm
  | .rlcstat .. => h.execRlcstat
  | .rlcstop .. => h.execRlcstop
  | .moduleReset .. => h.execModuleReset
  | .recoveryImageWrite .. => h.execRecoveryImageWrite
  | .partitionConfigure .. => h.execPartitionConfigure
  | .modeSelect .. => h.execModeSelect
  | .leaseRenew .. => h.execLeaseRenew
  | .leaseLapse .. => h.execLeaseLapse
  | .voteRequest .. => h.execVoteRequest
  | .leaderDesignate .. => h.execLeaderDesignate
  | .queueResume .. => h.execQueueResume
  | .packetChoose .. => h.execPacketChoose
  | .nopPacket .. => h.execNopPacket
  | .launch .. => h.execLaunch
  | .endPacket .. => h.execEndPacket
  | .inval .. => h.execInval
  | .disposeRelease .. => h.execDisposeRelease
  | .disposeDiscard .. => h.execDisposeDiscard
  | .disposeEnd .. => h.execDisposeEnd
  | .trapDisposition .. => h.execTrapDisposition
  | .trheadWrite .. => h.execTrheadWrite
  | .pageFaultService .. => h.execPageFaultService
  | .prgResponse .. => h.execPrgResponse
  | .priTimeout .. => h.execPriTimeout
  | .spdmRequest .. => h.execSpdmRequest
  | .keyExchangeStart .. => h.execKeyExchangeStart
  | .keyExchangeComplete .. => h.execKeyExchangeComplete
  | .hostKeyWrite .. => h.execHostKeyWrite
  | .preemptRequest .. => h.execPreemptRequest
  | .preemptComplete .. => h.execPreemptComplete
  | .preemptwaitExpiry .. => h.execPreemptwaitExpiry
  | .preemptResume .. => h.execPreemptResume
  | .deadlockDetect .. => h.execDeadlockDetect
  | .requestReassembled .. => h.execRequestReassembled
  | .slotFreedAdmit .. => h.execSlotFreedAdmit
  | .activationStart .. => h.execActivationStart
  | .queueAging .. => h.execQueueAging
  | .budgetExpiry .. => h.execBudgetExpiry
  | .parkResume .. => h.execParkResume
  | .migrationShip .. => h.execMigrationShip
  | .wayfarerArrive .. => h.execWayfarerArrive
  | .logicalQuantumEnd .. => h.execLogicalQuantumEnd
  | .quantumEnd .. => h.execQuantumEnd
  | .turnSwitch .. => h.execTurnSwitch
  | .debugHold .. => h.execDebugHold
  | .debugWrite .. => h.execDebugWrite
  | .debugRelease .. => h.execDebugRelease
  | .breakpointSet .. => h.execBreakpointSet
  | .breakpointMatch .. => h.execBreakpointMatch
  | .bkptRelease .. => h.execBkptRelease
  | .flitRoute .. => h.execFlitRoute
  | .poisonSink .. => h.execPoisonSink
  | .throttle .. => h.execThrottle
  | .responseReceive .. => h.execResponseReceive
  | .nackReceive .. => h.execNackReceive
  | .stayNoticeReceive .. => h.execStayNoticeReceive
  | .retxTimeout .. => h.execRetxTimeout
  | .busyBackoff .. => h.execBusyBackoff
  | .remoteRead .. => h.execRemoteRead
  | .remoteWrite .. => h.execRemoteWrite
  | .remoteAtomic .. => h.execRemoteAtomic
  | .synceConfirm .. => h.execSynceConfirm
  | .synceReturn .. => h.execSynceReturn
  | .waitCancel .. => h.execWaitCancel
  | .lodgeService .. => h.execLodgeService
  | .stayNoticeSend .. => h.execStayNoticeSend
  | .engineWrite .. => h.execEngineWrite
  | .xferReceive .. => h.execXferReceive
  | .matrixFlip .. => h.execMatrixFlip
  | .copyAccept .. => h.execCopyAccept
  | .copyComplete .. => h.execCopyComplete
  | .copyFault .. => h.execCopyFault
  | .transferBoardUpdate .. => h.execTransferBoardUpdate
  | .blockDispatch .. => h.execBlockDispatch
  | .levelNotice .. => h.execLevelNotice
  | .levelPublish .. => h.execLevelPublish
  | .windowPacketSend .. => h.execWindowPacketSend
  | .storePacketReceive .. => h.execStorePacketReceive
  | .windowAckReceive .. => h.execWindowAckReceive
  | .windowMissReceive .. => h.execWindowMissReceive
  | .loopbackApply .. => h.execLoopbackApply
  | .linkFlitReceive .. => h.execLinkFlitReceive
  | .linkNak .. => h.execLinkNak
  | .linkAck .. => h.execLinkAck
  | .linkDown .. => h.execLinkDown
  | .linkRetrained .. => h.execLinkRetrained
  | .linkDownTimeout .. => h.execLinkDownTimeout
  | .windowEntryWrite _ _ _ w1 => h.execWindowEntryWrite (w1 := w1)
  | .receiveWindowWrite .. => h.execReceiveWindowWrite
  | .pathReopen .. => h.execPathReopen
  | .sample .. => h.execSample
  | .samplePeriodWrite .. => h.execSamplePeriodWrite
  | .ringHeadWrite .. => h.execRingHeadWrite
  | .dropWrite .. => h.execDropWrite
  | .counterWrite .. => h.execCounterWrite
  | .timeWrap .. => h.execTimeWrap
  | .tokenReallot => h.execTokenReallot
  | .tokenExhaust .. => h.execTokenExhaust
  | .powerAllotWrite .. => h.execPowerAllotWrite
  | .thermalSample .. => h.execThermalSample
  | .registerWrite .. => h.execRegisterWrite
  | .decodingFault .. => h.execDecodingFault
  | .flashRewrite .. => h.execFlashRewrite

/-! ### The step -/

theorem State.Sound.latched {s : State} {f : Fetched} (h : s.Sound) : (s.latched f).Sound := h.onMe

protected theorem State.Sound.issueCtx {s : State} (h : s.Sound) : OutSound (issueCtx s) := by
  refine .ite h.execDecodingFault ?_
  split
  · exact h.execBreakpointMatch
  · split
    · exact h.execDecodingFault
    · next he =>
        split
        · exact h.execDecodingFault
        · exact (h.fetch.of_ok he).latched.exec _

protected theorem State.Sound.issue {core : Nat} {s : State} (h : s.Sound) : OutSound (issue core s) := by
  simp only [issue]
  split
  · exact (State.Sound.ite h.cycle h).onCore.execBudgetExpiry
  · refine .ite (.next (State.Sound.ite h.cycle h).onCore) ?_
    split
    · exact .next (State.Sound.ite h.cycle h).onCore
    · exact (State.Sound.ite h.cycle h).onCore.update.issueCtx

protected theorem State.Sound.step {s : State} (h : s.Sound) : OutSound (step s) := by
  unfold step
  split
  · exact h.issue
  · exact h.update.issue
  · exact .next h.update.cycle
  · exact .ite (h.update.exec _) .fault

/-- Settles O57: every operation that a step is made of keeps memory in its canonical form, so the step does. -/
theorem stepKeepsInv : Obligations.StepKeepsInv := by
  intro s t h hst
  have hn : OutSound (step s) := State.Sound.step ⟨h⟩
  rw [hst] at hn
  cases hn with
  | next h => exact h.inv

end Sys2Proof.Machine
end

section
/-!
SUPPORT. What observation and the registers written from outside leave (R4, R348, R430-R437, R454), operation by operation, and O54 from it.
-/

namespace Sys2Proof.Machine

/-! ### Tables -/

theorem AMap.find_mapVals {α : Type} (f : Nat → α → α) (m : AMap α) (k : Nat) : AMap.find (AMap.mapVals f m) k = (AMap.find m k).map (f k) := by
  induction m with
  | nil => rfl
  | cons e t ih =>
    obtain ⟨k', v⟩ := e
    by_cases hk : k = k'
    · subst hk; simp [AMap.mapVals, AMap.find]
    · simpa [AMap.mapVals, AMap.find, hk] using ih

theorem AMap.find_del_self {α : Type} (m : AMap α) (k : Nat) : AMap.find (AMap.del m k) k = none := by
  induction m with
  | nil => rfl
  | cons e t ih =>
    obtain ⟨k', v⟩ := e
    by_cases hk : k' = k
    · simpa [AMap.del, hk] using ih
    · simpa [AMap.del, AMap.find, hk, Ne.symm hk] using ih

/-! ### A partition that is listed -/

theorem State.part_of_find {s : State} {p : Nat} {P : Part} (hp : AMap.find s.parts p = some P) : s.part p = P := AMap.get_of_find hp

theorem State.find_onPart {s : State} {p : Nat} {P : Part} (hp : AMap.find s.parts p = some P) (f : Part → Part) :
    AMap.find (s.onPart p f).parts p = some (f P) := by
  simp [State.onPart, hp, AMap.find_set]

/-- A count changes no field of a partition but its counters. -/
theorem State.find_count {s : State} {p : Nat} {P : Part} (hp : AMap.find s.parts p = some P) (die ev n : Nat) :
    ∃ c, AMap.find (s.count die ev n).parts p = some { P with counters := c } := by
  unfold State.count
  cases hd : AMap.find s.parts (s.partKey die) with
  | none => exact ⟨P.counters, hp⟩
  | some D =>
    by_cases hs : D.pre = PreSt.saved
    · simp only [hs, if_true]
      exact ⟨P.counters, hp⟩
    · simp only [hs, if_false, AMap.find_set]
      by_cases hk : p = s.partKey die
      · obtain rfl : P = D := by rw [hk, hd] at hp; exact (Option.some.inj hp).symm
        exact ⟨_, if_pos hk⟩
      · exact ⟨P.counters, by rw [if_neg hk]; exact hp⟩

theorem State.find_ringCount {s : State} {p : Nat} {P : Part} (hp : AMap.find s.parts p = some P) (a : Nat) :
    ∃ c, AMap.find (s.ringCount a).parts p = some { P with counters := c } := by
  unfold State.ringCount
  split
  · exact State.find_count hp _ _ _
  · exact ⟨P.counters, hp⟩

@[simp] theorem State.ringCount_mem (s : State) (a : Nat) : (s.ringCount a).mem = s.mem := by
  unfold State.ringCount; split <;> simp

@[simp] theorem State.ringCount_cores (s : State) (a : Nat) : (s.ringCount a).cores = s.cores := by
  unfold State.ringCount; split <;> simp

theorem State.core_congr_cores {s t : State} (h : t.cores = s.cores) (n : Nat) : t.core n = s.core n := by
  unfold State.core; rw [h]

/-! ### Rings (R433) -/

theorem RingReg.isFull_iff (r : RingReg) : r.isFull = true ↔ (r.tail - r.head).toNat = 2 ^ r.sizelog := beq_iff_eq

/-- A full ring takes no record: the drop is counted. -/
theorem State.putRing_full {r : RingReg} (hr : r.isFull = true) (s : State) (p size : Nat) (ws : List Word) :
    s.putRing p r size ws =
      ({ r with drop := if r.drop = 0xFFFFFFFF then r.drop else r.drop + 1, lost := r.lost + 1 }, s, false) := by
  simp only [State.putRing, RingReg.put, hr, if_true, Bool.false_and, Bool.false_eq_true, if_false]

/-- A ring with room whose slot is the partition's or the host's: the record is stored there and TAIL moves on. -/
theorem State.putRing_stored {s : State} {p size : Nat} {r : RingReg} (hr : r.isFull = false) (ho : s.ringOwn p (r.slotAt size) = true)
    (ws : List Word) :
    s.putRing p r size ws =
      ({ r with tail := r.tail + 1 },
        ({ s with mem := s.mem.setBytes (r.slotAt size) (wordsBytes ws) } : State).ringCount (r.slotAt size), true) := by
  simp only [State.putRing, RingReg.put, hr, ho, Bool.false_eq_true, if_false, Bool.true_and, if_true]

/-! ### Samples (R430) -/

section
variable {s : State} {core p : Nat} {P : Part} (hp : AMap.find s.parts p = some P) (hc : s.pOf core = p) (he : P.samples.en = true)
include hp hc he

/-- What a sample that is stored leaves. -/
theorem State.putSample_stored (hr : P.samples.isFull = false) (ho : s.ringOwn p (P.samples.slotAt 32) = true) (w : List Word) :
    ∃ c, AMap.find (s.putSample core w).parts p =
        some { P with counters := c, samples := { P.samples with tail := P.samples.tail + 1 } } ∧
      (s.putSample core w).mem = s.mem.setBytes (P.samples.slotAt 32) (wordsBytes w) ∧ (s.putSample core w).cores = s.cores := by
  subst hc
  simp only [State.putSample, State.part_of_find hp, he, Bool.not_true, Bool.false_eq_true, if_false, State.putRing_stored hr ho, if_true]
  obtain ⟨c, hc⟩ := State.find_ringCount (s := { s with mem := s.mem.setBytes (P.samples.slotAt 32) (wordsBytes w) }) hp (P.samples.slotAt 32)
  exact ⟨c, State.find_onPart hc _, by simp, by simp⟩

/-- What a sample that finds the ring full leaves. -/
theorem State.putSample_full (hr : P.samples.isFull = true) (w : List Word) :
    ∃ c, AMap.find (s.putSample core w).parts p = some { P with
        counters := c
        samples := { P.samples with
          drop := if P.samples.drop = 0xFFFFFFFF then P.samples.drop else P.samples.drop + 1
          lost := P.samples.lost + 1 } } ∧
      (s.putSample core w).mem = s.mem := by
  subst hc
  simp only [State.putSample, State.part_of_find hp, he, Bool.not_true, Bool.false_eq_true, if_false, State.putRing_full hr]
  obtain ⟨c, hc⟩ := State.find_count (State.find_onPart hp _) (dieOf core) 0x15 1
  exact ⟨c, hc, by simp⟩

end

/-- SAMPLE takes the oldest sample of a core. -/
theorem execSample_cons {s : State} {core : Nat} {w : List Word} {rest : List (List Word)} (h : (s.core core).samples = w :: rest) :
    execSample core s = .next ((s.onCore core (fun k => { k with samples := rest })).putSample core w) := by
  simp only [execSample, h]

/-! ### The period of a partition's cores (R430) -/

/-- A change that is the same when made again, made to every core of a list. -/
theorem State.core_foldl_onCore {f : CoreSt → CoreSt} (hf : ∀ k, f (f k) = f k) (l : List Nat) (s : State) (n : Nat) :
    (l.foldl (fun s c => s.onCore c f) s).core n = if n ∈ l then f (s.core n) else s.core n := by
  induction l generalizing s with
  | nil => rfl
  | cons a t ih =>
    rw [List.foldl_cons, ih]
    by_cases h : n = a
    · subst h; simp [hf]
    · simp [h, State.core_onCore_ne s f h]

theorem State.foldl_onCore_rest (f : CoreSt → CoreSt) (l : List Nat) (s : State) :
    (l.foldl (fun s c => s.onCore c f) s).parts = s.parts ∧ (l.foldl (fun s c => s.onCore c f) s).mem = s.mem :=
  List.foldlRecOn (motive := fun t : State => t.parts = s.parts ∧ t.mem = s.mem) l _ ⟨rfl, rfl⟩ (fun _ h _ _ => h)

/-- A core with a new sample period and its count at 0. -/
def CoreSt.setPeriod (h : BitVec 32) (k : CoreSt) : CoreSt := { k with sampcfg := h, sampCount := 0 }

theorem execSamplePeriodWrite_of_find {s : State} {p : Nat} {P : Part} (hp : AMap.find s.parts p = some P) (h : BitVec 32) :
    execSamplePeriodWrite p h s =
      .next ((s.partCores p).foldl (fun s c => s.onCore c (CoreSt.setPeriod h)) (s.onPart p (fun P => { P with period := h }))) := by
  simp only [execSamplePeriodWrite, hp]; rfl

theorem samplePeriodWrite_sets {s : State} {p : Nat} {P : Part} (hp : AMap.find s.parts p = some P) (h : BitVec 32) :
    ∃ t, execSamplePeriodWrite p h s = .next t ∧ AMap.find t.parts p = some { P with period := h } ∧ t.mem = s.mem ∧
      ∀ n ∈ s.partCores p, t.core n = (s.core n).setPeriod h := by
  obtain ⟨hparts, hmem⟩ :=
    State.foldl_onCore_rest (CoreSt.setPeriod h) (s.partCores p) (s.onPart p (fun P => { P with period := h }))
  refine ⟨_, execSamplePeriodWrite_of_find hp h, ?_, hmem.trans (State.onPart_mem s p _), fun n hn => ?_⟩
  · rw [hparts]; exact State.find_onPart hp _
  · rw [State.core_foldl_onCore (f := CoreSt.setPeriod h) (fun _ => rfl), if_pos hn, State.core_congr_cores (State.onPart_cores s p _)]

/-! ### TIME (R434) -/

theorem timeWrap_sets {s : State} {p : Nat} {P : Part} (hp : AMap.find s.parts p = some P) (hw : P.wraps + 1 ≤ s.engTime p / 2 ^ 48) :
    ∃ t P', execTimeWrap p s = .next t ∧ AMap.find t.parts p = some P' ∧ P'.wraps = P.wraps + 1 ∧ t.cores = s.cores := by
  have hrec := Recorded.event s p ((P.wraps + 1) * 2 ^ 48) 4 1 0 ((P.wraps + 1) % 2 ^ 16)
  obtain ⟨Q, hQ, -⟩ := hrec.find hp
  refine ⟨_, _, ?_, State.find_onPart hQ (fun P' => { P' with wraps := P.wraps + 1 }), rfl, (State.onPart_cores _ _ _).trans hrec.cores⟩
  simp only [execTimeWrap, State.part_of_find hp, if_neg (Nat.not_lt.2 hw)]

/-- What software outside sees of the rings, the counters and TIME. -/
theorem observationClauses : Says.ObservationEvents := by
  intro s core p i P h v sel hp k r ring other
  refine ⟨fun w rest hc hs he => ⟨fun hr ho => ?_, fun hr hd => ?_⟩, ?_, ?_, ?_, ?_, fun hw => ?_⟩
  · obtain ⟨c, hf, hm, hk⟩ :=
      State.putSample_stored (s := s.onCore core (fun k => { k with samples := rest })) (core := core) hp hc he
        (Bool.eq_false_iff.2 (mt r.isFull_iff.1 hr)) ho w
    refine ⟨_, _, execSample_cons hs, hf, rfl, rfl, hm, ?_, ?_⟩ <;> rw [State.core_congr_cores hk, State.core_onCore_self]
  · obtain ⟨c, hf, hm⟩ :=
      State.putSample_full (s := s.onCore core (fun k => { k with samples := rest })) (core := core) hp hc he (r.isFull_iff.2 hr) w
    exact ⟨_, _, execSample_cons hs, hf, rfl, if_neg hd, hm⟩
  · obtain ⟨t, ht, hf, hm, hk⟩ := samplePeriodWrite_sets hp h
    refine ⟨t, _, ht, hf, rfl, hm, fun n hn => ?_⟩
    rw [hk n hn]
    exact ⟨rfl, rfl, rfl⟩
  · refine ⟨_, _, rfl, State.find_onPart hp _, State.onPart_mem s p _, State.onPart_cores s p _, ?_⟩
    cases sel <;> exact ⟨rfl, rfl, rfl⟩
  · refine ⟨_, _, rfl, State.find_onPart hp _, ?_⟩
    cases sel <;> exact ⟨rfl, rfl, rfl, State.onPart_mem s p _, State.onPart_cores s p _⟩
  · refine ⟨_, _, rfl, State.find_onPart hp _, ?_, fun j hj => AMap.get_set_ne _ _ _ hj, State.onPart_mem s p _, State.onPart_cores s p _⟩
    rw [AMap.get_set_self]
  · exact timeWrap_sets hp hw

/-! ### Fronts (R348) -/

theorem State.frontSt_congr {s t : State} (h : t.fronts = s.fronts) (p tag num : Nat) : t.frontSt p tag num = s.frontSt p tag num := by
  simp only [State.frontSt, State.frontAt, h]

theorem Recorded.frontSt {s t : State} (h : Recorded s t) (p tag num : Nat) : t.frontSt p tag num = s.frontSt p tag num :=
  State.frontSt_congr (by rw [h.rest]) p tag num

theorem find?_filter_not {α : Type} (f : α → Bool) (l : List α) : (l.filter (fun a => !f a)).find? f = none := by
  simp [List.find?_eq_none]

theorem State.frontSt_setFront (s : State) (p tag num : Nat) (st : FrontSt) : (s.setFront p tag num st).frontSt p tag num = st := by
  simp only [State.frontSt, State.frontAt, State.setFront, List.find?_append,
    find?_filter_not (fun f : Front => f.part == p && f.tag == tag && f.num == num)]
  simp

/-- A front that is not RUNNING does not become so by its check. -/
theorem State.frontSt_checkFrozen {s : State} {p tag num : Nat} (h : s.frontSt p tag num ≠ .running) :
    (s.checkFrozen p tag num).frontSt p tag num ≠ .running := by
  unfold State.checkFrozen
  simp only
  split
  · rw [((Recorded.recordE _ _ _ _ _ _).trans (Recorded.event _ _ _ _ _ _ _)).frontSt, State.frontSt_setFront]
    decide
  · exact h

theorem State.frontSt_freezeFront (s : State) (p tag num : Nat) : (s.freezeFront p tag num).frontSt p tag num ≠ .running := by
  refine State.frontSt_checkFrozen ?_
  split
  · rw [State.frontSt_setFront]; decide
  · next h => exact h

/-- A thaw writes the blocks of a front; the fronts are those of its first step. -/
theorem State.frontSt_thawFront {s : State} {p tag num : Nat} (h : s.frontSt p tag num = .frozen) :
    (s.thawFront p tag num).frontSt p tag num = .running := by
  simp only [State.thawFront, if_pos h]
  refine List.foldlRecOn (motive := fun t : State => t.frontSt p tag num = .running) _ _ ?_ (fun t ht e _ => ?_)
  · rw [(Recorded.event _ _ _ _ _ _ _).frontSt, State.frontSt_setFront]
  · split <;> exact ht

/-- Outside deterministic mode the host's freeze or thaw acts at once. -/
theorem State.hostFrontAt_of_blk {s : State} {p id : Nat} {b : Blk} (hd : (s.part p).det = false) (hb : s.blk p id = some b) (thaw : Bool) :
    s.hostFrontAt p id thaw = if thaw then s.thawFront p b.tag b.front else s.freezeFront p b.tag b.front := by
  simp only [State.hostFrontAt, hd, Bool.false_eq_true, if_false, State.hostFront, hb]

/-! ### Words of host memory (R450, R454) -/

theorem State.part_claim (s : State) (f n p : Nat) : ∃ l, (s.claim f n).part p = { s.part p with free := l } := by
  simp only [State.part, State.claim, get_eq_find, AMap.find_mapVals]
  cases AMap.find s.parts p with
  | none => exact ⟨_, rfl⟩
  | some P => exact ⟨_, rfl⟩

theorem State.partKey_claim (s : State) (f n d : Nat) : (s.claim f n).partKey d = s.partKey d := by
  simp only [State.partKey, Machine.partKey, State.claim, AMap.mapVals, List.find?_map]
  simp only [Function.comp_def]
  cases s.parts.find? (fun e => decide (e.1 ≤ d) && decide (d < e.1 + e.2.dies)) <;> rfl

/-- A leaf of no receive page that becomes valid leaves memory. -/
theorem State.mapped_mem {v : Word} (hv : pteRxw v = false) (s : State) (p dies lvl va : Nat) : (s.mapped p dies lvl va v).mem = s.mem := by
  have claims : ∀ l : List Nat, (l.foldl (fun s f => s.claim f (pagesOf lvl)) s).mem = s.mem := fun l =>
    List.foldlRecOn (motive := fun t : State => t.mem = s.mem) l _ rfl (fun _ h _ _ => h)
  simp only [State.mapped, hv, Bool.false_and, Bool.false_eq_true, if_false]
  split
  · rfl
  · split
    · exact (State.onPart_mem _ _ _).trans (claims _)
    · exact claims _

/-- A word that is not valid names no table, and a leaf is mapped. -/
theorem State.adopt_mem {v : Word} (hv : pteRxw v = false) (hl : pteV v = false ∨ pteLeaf v = true) (s : State) (p dies lvl va n : Nat) :
    (s.adopt p dies lvl va v n).mem = s.mem := by
  cases hV : pteV v with
  | false => cases n <;> simp [State.adopt, tableOf, hV]
  | true =>
    have hL : pteLeaf v = true := hl.resolve_left (by simp [hV])
    cases n <;> simp [State.adopt, hV, hL, State.mapped_mem hv]

/-- A word of no table, a word that is not valid, or a leaf of no receive page, leaves the rest of memory. -/
theorem State.mapWord_mem (s : State) (pa : Nat) (v : Word)
    (h : tableLvl s.mem (s.partKey (pa / 2 ^ 36 % 8)) (s.part (s.partKey (pa / 2 ^ 36 % 8))).dies pa 4 0 0
        (s.part (s.partKey (pa / 2 ^ 36 % 8))).root = none ∨
      (pteRxw v = false ∧ (pteV v = false ∨ pteLeaf v = true))) :
    (s.mapWord pa v).mem = s.mem := by
  unfold State.mapWord
  simp only
  split
  · next hs =>
    obtain ⟨hv, hl⟩ := h.resolve_left (fun hn => by rw [hs] at hn; cases hn)
    split
    · rfl
    · split <;> exact State.adopt_mem hv hl _ _ _ _ _ _
  · rfl

theorem State.hostWrite_mem {s : State} {pa : Nat} (ha : pa % 8 = 0) (hh : hostMem pa = true) (v : Word)
    (h : tableLvl s.mem (s.partKey (pa / 2 ^ 36 % 8)) (s.part (s.partKey (pa / 2 ^ 36 % 8))).dies pa 4 0 0
        (s.part (s.partKey (pa / 2 ^ 36 % 8))).root = none ∨
      (pteRxw v = false ∧ (pteV v = false ∨ pteLeaf v = true))) :
    (s.hostWrite pa v).mem = s.mem.store pa 8 v.toNat := by
  have hm : ((s.claim (pa / 4096) 1).mapWord pa v).mem = s.mem := by
    refine State.mapWord_mem _ pa v ?_
    obtain ⟨l, hl⟩ := State.part_claim s (pa / 4096) 1 (s.partKey (pa / 2 ^ 36 % 8))
    rw [State.partKey_claim, hl]
    exact h
  simp only [State.hostWrite, ha, hh, beq_self_eq_true, Bool.true_or, Bool.and_true, if_true]
  show Memory.store _ pa 8 v.toNat = _
  rw [hm]

/-! ### The registers (R4) -/

theorem exposed_of_ne_mem {r : RegTarget} (h : ∀ a, r ≠ .mem a) : exposed r = false := by
  cases r with
  | mem a => exact absurd rfl (h a)
  | _ => rfl

/-- A write to a register of a partition that changes the partition and nothing else. -/
theorem registerWrite_sets {s : State} {p : Nat} {P P' : Part} (hp : AMap.find s.parts p = some P) {r : RegTarget} {v : Word} {f : Part → Part}
    (hr : execRegisterWrite r v s = .next (s.onPart p f)) (hf : f P = P') :
    ∃ t, exec (.registerWrite r v) s = .next t ∧ AMap.find t.parts p = some P' ∧ t.mem = s.mem ∧ t.cores = s.cores ∧ t.pkg = s.pkg :=
  ⟨_, hr, hf ▸ State.find_onPart hp f, State.onPart_mem _ _ _, State.onPart_cores _ _ _, State.onPart_pkg _ _ _⟩

/-- QBASE of a queue that is off and empty (R407). -/
theorem CmdQ.setBase_still {c : CmdQ} (he : c.en = false) (hh : c.head = c.tail) (v : Word) : c.setBase v = { c with base := v.toNat / 64 * 64 } := by
  simp only [CmdQ.setBase, CmdQ.still, he, hh, base64, Bool.not_false, beq_self_eq_true, Bool.and_true, if_true]

/-- A route that is present and of the I/O die's own links is listed, any other is not (R380). -/
theorem find_routeWrite (m : AMap Nat) (k link xd : Nat) (on : Bool) :
    AMap.find (if on && link / 8 == xd then AMap.set m k link else AMap.del m k) k = if on = true ∧ link / 8 = xd then some link else none := by
  simp only [Bool.and_eq_true, beq_iff_eq]
  split
  · rw [AMap.find_set, if_pos rfl]
  · exact AMap.find_del_self m k

theorem registerClauses : Says.RegisterWrites := by
  intro s p q pa xd pkg P v hp c sets
  refine ⟨fun hb r hr => if_pos ⟨hb, exposed_of_ne_mem hr⟩, fun hb => ?_, ?_⟩
  · have shown : ∀ r, ¬ (s.pkg.boot = .recovery ∧ exposed r = false) := fun _ h => hb h.1
    refine ⟨?_, fun he hh => ?_, fun hv => ?_, ?_, ?_, ?_, ?_, fun hi => ?_, fun b hblk hd => ?_⟩
    · refine registerWrite_sets hp (if_neg (shown _)) ?_
      simp [Part.setQ, c]
    · refine registerWrite_sets hp (if_neg (shown _)) ?_
      rw [← CmdQ.setBase_still he hh]; rfl
    · refine registerWrite_sets hp (if_neg (shown _)) ?_
      rw [if_pos hv]
    · exact registerWrite_sets hp (if_neg (shown _)) rfl
    · exact registerWrite_sets hp (if_neg (shown _)) rfl
    · exact ⟨_, if_neg (shown _), rfl, rfl, find_routeWrite _ _ _ _ _⟩
    · exact ⟨_, if_neg (shown _), rfl, rfl, rfl, rfl⟩
    · refine ⟨s.onPkg (fun g => { g with number := v.setWidth 12 }), ?_, rfl, rfl, rfl⟩
      refine (if_neg (shown _)).trans ?_
      rw [if_pos hi]
    · rw [← State.part_of_find hp] at hd
      refine ⟨fun _ => ⟨_, if_neg (shown _), ?_⟩, fun hf => ⟨_, if_neg (shown _), ?_⟩⟩
      · rw [State.hostFrontAt_of_blk hd hblk]
        exact State.frontSt_freezeFront _ _ _ _
      · rw [State.hostFrontAt_of_blk hd hblk]
        exact State.frontSt_thawFront hf
  · intro k hi ha hh hw
    refine ⟨s.hostWrite pa v, if_neg (fun h => ?_), ?_, fun j hj => ?_⟩
    · simp [exposed, hh] at h
    · rw [State.hostWrite_mem ha hh v hw, Memory.read_store pa 8 v.toNat hi]
      exact Nat.mod_eq_of_lt v.isLt
    · rw [State.hostWrite_mem ha hh v hw, Memory.byte_store, Memory.write, Memory.byte_setBytes _ _ _ hi, leBytes_length, if_neg hj]

/-- Settles O54: what each write and each record leaves is said once per operation, and the clauses read it off. -/
theorem observationEvents : Obligations.ObservationEvents := ⟨observationClauses, registerClauses⟩

end Sys2Proof.Machine
end

section
/-!
SUPPORT. What a configuration leaves of the partitions (R22-R25, R246) and what a mode selection writes (R28-R30), and O37 from it.
-/

namespace Sys2Proof.Machine

/-- An entry of a table after a write is the entry written or one of the table before it. -/
theorem AMap.mem_set {α : Type} {m : AMap α} {k : Nat} {v : α} {e : Nat × α} (h : e ∈ AMap.set m k v) : e = (k, v) ∨ e ∈ m := by
  induction m with
  | nil => exact .inl (List.mem_singleton.1 h)
  | cons x t ih =>
    obtain ⟨k', v'⟩ := x
    simp only [AMap.set] at h
    split at h
    · exact (List.mem_cons.1 h).imp_right (List.mem_cons_of_mem _)
    · split at h
      · exact List.mem_cons.1 h
      · rcases List.mem_cons.1 h with rfl | h
        · exact .inr (List.mem_cons_self ..)
        · exact (ih h).imp_right (List.mem_cons_of_mem _)

/-! ### Partitions created (R22, R24) -/

/-- A reserve filled takes frames and changes no die of the partition (R152). -/
@[simp] theorem Part.refill_dies (hint n : Nat) (P : Part) : (P.refill hint n).dies = P.dies := by
  induction n generalizing P with
  | zero => rfl
  | succ n ih =>
    simp only [Part.refill]
    split
    · split
      · exact ih _
      · rfl
    · split
      · split
        · exact ih _
        · rfl
      · rfl

@[simp] theorem State.create_pkg (s : State) (q : Nat × Nat) (back : List (Nat × Nat)) : (s.create q back).pkg = s.pkg := rfl
@[simp] theorem State.create_time (s : State) (q : Nat × Nat) (back : List (Nat × Nat)) : (s.create q back).time = s.time := rfl

/-- A partition created is listed with its dies, in the place of one of the same lowest die; no other entry changes. -/
theorem State.create_parts (s : State) (q : Nat × Nat) (back : List (Nat × Nat)) :
    ∃ P : Part, P.dies = q.2 ∧ (s.create q back).parts = AMap.set s.parts q.1 P :=
  ⟨_, Part.refill_dies _ _ _, rfl⟩

/-- The partitions of a list created in turn, each with its second-tier ranges. -/
def State.createAll (back : Nat × Nat → List (Nat × Nat)) (new : List (Nat × Nat)) (s : State) : State :=
  new.foldl (fun s q => s.create q (back q)) s

section
variable (back : Nat × Nat → List (Nat × Nat)) (new : List (Nat × Nat)) (s : State)

theorem State.createAll_pkg : (s.createAll back new).pkg = s.pkg :=
  List.foldlRecOn (motive := fun t : State => t.pkg = s.pkg) new _ rfl (fun _ h _ _ => h)

theorem State.createAll_time : (s.createAll back new).time = s.time :=
  List.foldlRecOn (motive := fun t : State => t.time = s.time) new _ rfl (fun _ h _ _ => h)

variable {new s}

/-- Every partition afterwards was there before or is one of the list. -/
theorem State.of_mem_createAll {e : Nat × Part} (h : e ∈ (s.createAll back new).parts) : e ∈ s.parts ∨ (e.1, e.2.dies) ∈ new := by
  refine List.foldlRecOn (motive := fun t : State => ∀ e ∈ t.parts, e ∈ s.parts ∨ (e.1, e.2.dies) ∈ new) new _ (fun _ h => .inl h)
    (fun t ht q hq e he => ?_) e h
  obtain ⟨P, hd, hP⟩ := t.create_parts q (back q)
  rcases AMap.mem_set (hP ▸ he) with rfl | he
  · exact .inr (hd ▸ hq)
  · exact ht e he

/-- A partition that was there before or is one of the list is there afterwards. -/
theorem State.find_createAll {k : Nat} (h : (AMap.find s.parts k).isSome = true ∨ ∃ q ∈ new, q.1 = k) :
    (AMap.find (s.createAll back new).parts k).isSome = true := by
  induction new generalizing s with
  | nil => exact h.resolve_right (by simp)
  | cons q new ih =>
    refine ih (s := s.create q (back q)) ?_
    obtain ⟨P, -, hP⟩ := s.create_parts q (back q)
    rw [hP, AMap.find_set]
    by_cases hk : k = q.1
    · exact .inl (by rw [if_pos hk]; rfl)
    · rw [if_neg hk]
      refine h.imp_right ?_
      rintro ⟨x, hx, rfl⟩
      exact ⟨x, (List.mem_cons.1 hx).resolve_left (fun h => hk (h ▸ rfl)), rfl⟩

end

/-! ### A configuration applied (R22-R25, R246) -/

/-- The fences of R246 depend on the partitions alone. -/
theorem State.fenced_congr {s t : State} (h : t.parts = s.parts) : t.fenced = s.fenced := by
  simp only [State.fenced, State.partKey, h]

/-- A partition that a configuration leaves as it is: it is listed, with no grant of its own. -/
def staysIn (l : List (Nat × Nat)) (g : List (Nat × Nat × Nat)) (e : Nat × Part) : Bool :=
  l.contains (e.1, e.2.dies) && !g.any (fun x => x.1 == e.1)

section
variable (s : State) (l : List (Nat × Nat)) (g : List (Nat × Nat × Nat))

/-- A configuration applied: the partitions that stay, then those created that are listed and not among them, then the fences. -/
theorem State.configure_eq :
    let s0 : State := { s with parts := s.parts.filter (staysIn l g) }
    let s1 := s0.createAll (fun q => (g.filter (fun x => x.1 == q.1)).map (·.2)) (l.filter (fun q => (AMap.find s0.parts q.1).isNone))
    s.configure l g = { s1 with fences := s1.fenced } := rfl

@[simp] theorem State.configure_pkg : (s.configure l g).pkg = s.pkg := State.createAll_pkg ..
@[simp] theorem State.configure_time : (s.configure l g).time = s.time := State.createAll_time ..

theorem State.configure_fences : (s.configure l g).fences = (s.configure l g).fenced := by
  rw [State.configure_eq]
  exact (State.fenced_congr rfl).symm

variable {s l g}

theorem State.configure_no_other {e : Nat × Part} (h : e ∈ (s.configure l g).parts) : (e.1, e.2.dies) ∈ l := by
  rw [State.configure_eq] at h
  rcases State.of_mem_createAll _ h with h | h
  · have hs : staysIn l g e = true := (List.mem_filter.1 h).2
    obtain ⟨hlisted, -⟩ := Bool.and_eq_true_iff.1 hs
    exact List.contains_iff_mem.1 hlisted
  · exact (List.mem_filter.1 h).1

theorem State.find_configure {q : Nat × Nat} (hq : q ∈ l) : (AMap.find (s.configure l g).parts q.1).isSome = true := by
  rw [State.configure_eq]
  refine State.find_createAll _ ?_
  by_cases h : (AMap.find (s.parts.filter (staysIn l g)) q.1).isSome = true
  · exact .inl h
  · exact .inr ⟨q, List.mem_filter.2 ⟨hq, by simpa using h⟩, rfl⟩

end

/-- A leader applies a legal configuration whose grants are legal where no partition that it changes has a task (R25). -/
theorem execPartitionConfigure_legal {s : State} {l : List (Nat × Nat)} {g : List (Nat × Nat × Nat)} (hl : s.hasLeader = true)
    (hc : s.legalConfig l = true) (hg : legalGrants l g ((s.parts.filter (staysIn l g)).flatMap (fun e => e.2.second)) = true)
    (hi : ∀ e ∈ s.parts, staysIn l g e = false → s.launched e.1 = false) :
    execPartitionConfigure l g s = .next (s.configure l g) := by
  have hbusy : s.parts.any (fun e => !staysIn l g e && s.launched e.1) = false := by simpa using hi
  refine if_neg ?_
  change ¬ (!s.hasLeader || !s.legalConfig l || !legalGrants l g ((s.parts.filter (staysIn l g)).flatMap (fun e => e.2.second)) ||
    s.parts.any (fun e => !staysIn l g e && s.launched e.1)) = true
  simp only [hl, hc, hg, hbusy, Bool.not_true, Bool.or_self, Bool.false_eq_true, not_false_iff]

/-! ### Modes selected (R28-R30) -/

/-- A mode of an idle partition: `f` is what the mode writes. -/
theorem modeSelect_sets_part {s : State} {p : Nat} {P : Part} {fn : ModeFn} {a : Bool} {f : Part → Part} {P' : Part}
    (hp : AMap.find s.parts p = some P) (hx : execModeSelect p fn a s = .next (s.onPart p f)) (hf : f P = P') :
    ∃ t, exec (.modeSelect p fn a) s = .next t ∧ AMap.find t.parts p = some P' ∧
      (∀ q, q ≠ p → AMap.find t.parts q = AMap.find s.parts q) ∧ t.pkg = s.pkg ∧ t.cores = s.cores ∧ t.mem = s.mem :=
  ⟨_, hx, hf ▸ State.find_onPart hp f, fun q hq => by simp [State.onPart, hp, AMap.find_set, hq],
    State.onPart_pkg _ _ _, State.onPart_cores _ _ _, State.onPart_mem _ _ _⟩

/-- A mode of an idle module: `f` is what the mode writes. -/
theorem modeSelect_sets_pkg {s : State} {p : Nat} {fn : ModeFn} {a : Bool} {f : Pkg → Pkg} {k : Pkg}
    (hx : execModeSelect p fn a s = .next (s.onPkg f)) (hf : f s.pkg = k) :
    ∃ t, exec (.modeSelect p fn a) s = .next t ∧ t.pkg = k ∧ t.parts = s.parts ∧ t.cores = s.cores ∧ t.mem = s.mem :=
  ⟨_, hx, hf, rfl, rfl, rfl⟩

/-- Settles O37: the partitions created in turn are those of the configuration that do not stay, and a mode selection is one write. -/
theorem configurationEvents : Obligations.ConfigurationEvents := by
  intro s p P a l g hl kept
  have led : ¬ (!s.hasLeader) = true := by simp [hl]
  refine ⟨fun hc hg hi => ?_, fun hp hq => ?_, fun hidle => ?_⟩
  · exact ⟨_, execPartitionConfigure_legal hl hc hg (fun e he _ => hi e he), fun _ => State.configure_no_other,
      fun _ => State.find_configure, State.configure_fences s l g, State.configure_pkg s l g, State.configure_time s l g⟩
  · have idle : ∀ f, (if s.launched p = true then s else s.onPart p f) = s.onPart p f := fun f => if_neg (by simp [hq])
    exact ⟨modeSelect_sets_part hp ((if_neg led).trans (congrArg _ (idle _))) rfl,
      modeSelect_sets_part hp ((if_neg led).trans (congrArg _ (idle _))) rfl,
      modeSelect_sets_part hp ((if_neg led).trans (congrArg _ (idle _))) rfl⟩
  · have idle : ∀ f, (if s.idleAll = true then s.onPkg f else s) = s.onPkg f := fun f => if_pos hidle
    exact ⟨modeSelect_sets_pkg ((if_neg led).trans (congrArg _ (idle _))) rfl,
      modeSelect_sets_pkg ((if_neg led).trans (congrArg _ (idle _))) rfl,
      modeSelect_sets_pkg ((if_neg led).trans (congrArg _ (idle _))) rfl⟩

end Sys2Proof.Machine
end

section
/-!
SUPPORT. What a step with an empty agenda issues, and what an event on the agenda does, and O59 from it (R32, R57, R90, R104, R197).
-/

namespace Sys2Proof.Machine

/-! ### The context that a core issues -/

/-- A core that issues in the cycle, with its rotation at `rot` (R57). -/
def CoreSt.issues (rot : Nat) (k : CoreSt) : CoreSt := { k with issued := true, rot := rot }

/-- The machine as context `c` of core `n` issues. -/
def State.issuing (s : State) (n c rot : Nat) : State := { s.onCore n (CoreSt.issues rot) with cur := (n, c4 c) }

theorem State.core_issuing (s : State) (n c rot : Nat) : (s.issuing n c rot).core n = (s.core n).issues rot := State.core_onCore_self s n _

@[simp] theorem CoreSt.ctx_c4 (k : CoreSt) (c : Nat) : k.ctx (c4 c).val = k.ctx c := by
  simp only [CoreSt.ctx, c4_val]

@[simp] theorem State.ctx_c4 (s : State) (n c : Nat) : s.ctx n (c4 c).val = s.ctx n c := CoreSt.ctx_c4 _ c

theorem State.matchBp_c4 (s : State) (n c : Nat) : s.matchBp n (c4 c).val = s.matchBp n c := by
  unfold State.matchBp; rw [State.ctx_c4]

/-- A breakpoint depends on the context and on the breakpoints of its core, which the issue leaves alone. -/
theorem State.matchBp_issuing (s : State) (n c rot : Nat) : (s.issuing n c rot).matchBp n (c4 c).val = s.matchBp n c := by
  rw [State.matchBp_c4]
  simp only [State.matchBp, State.ctx, State.core_issuing]
  rfl

/-- The context that issues is the running one. -/
theorem State.me_issuing (s : State) (n c rot : Nat) : (s.issuing n c rot).me = s.ctx n c := by
  change ((s.issuing n c rot).core n).ctx (c4 c).val = _
  rw [State.core_issuing, CoreSt.ctx_c4]
  rfl

section
variable {s : State} {n c : Nat} (hi : (s.core n).issued = false) (he : (s.core n).expired = none) (hb : s.barred n = false)
  (hn : (s.core n).next (s.detAt n) = some c)
include hi he hb hn

/-- A core that has not issued in the cycle, with no context out of BUDGET, issues the context whose turn it is. -/
theorem issue_next :
    issue n s = issueCtx (s.issuing n c (if s.detAt n && (s.matchBp n c).isSome && (s.ctx n c).exitTrap.isNone then (s.core n).rot else c)) := by
  simp only [issue, hi, he, hb, hn, Bool.false_eq_true, if_false, ite_self]
  rfl

/-- Where no breakpoint stops the context, the rotation moves to it. -/
theorem issue_unstopped (hm : s.matchBp n c = none ∨ (s.ctx n c).exitTrap.isSome = true) : issue n s = issueCtx (s.issuing n c c) := by
  have hstop : (s.detAt n && (s.matchBp n c).isSome && (s.ctx n c).exitTrap.isNone) = false := by
    rcases hm with h | h
    · simp [h]
    · simp [Option.isNone_eq_false_iff.2 h]
  rw [issue_next hi he hb hn, hstop, if_neg Bool.false_ne_true]

end

/-! ### What it issues -/

/-- The trap of an exit message comes before its first instruction (R399). -/
theorem issueCtx_exitTrap {s : State} (h : s.me.exitTrap.isSome = true) : issueCtx s = execDecodingFault s.cur.1 s.cur.2.val s := if_pos h

/-- Otherwise, with no breakpoint there and its line fetched, the instruction decoded at the IP runs. -/
theorem issueCtx_decoded {s u : State} {f : Fetched} {i : Instr} (hx : s.me.exitTrap = none) (hm : s.matchBp s.cur.1 s.cur.2.val = none)
    (hf : s.fetch = .ok f u) (hd : decode f.head f.tail = .ok i) : issueCtx s = exec i (u.latched f) := by
  simp only [issueCtx, hx, hm, hf, hd, Option.isSome_none, Bool.false_eq_true, if_false]

theorem step_idle_agenda {s : State} (h : s.agenda = []) : step s = issue s.cur.1 s := by
  simp only [step, h]

theorem step_event {s : State} {i : Instr} {t : List Turn} (h : s.agenda = .event i :: t) (hw : i.wf = true) (hc : i.isCore = false) :
    step s = exec i { s with agenda := t } := by
  simp only [step, h, hw, hc, Bool.not_false, Bool.and_self, if_true]

/-- Settles O59: a step issues the context that the core's rotation chooses, and an event on the agenda is executed. -/
theorem stepRunsDecoded : Obligations.StepRunsDecoded := by
  refine ⟨fun s c f u i ha hi he hb hn => ?_, fun s i t ha hw hc => step_event ha hw hc⟩
  have hme := State.me_issuing s s.cur.1 c c
  have hbp := State.matchBp_issuing s s.cur.1 c c
  rw [step_idle_agenda ha]
  change (Ctx.exitTrap (s.issuing s.cur.1 c c).me = none → (s.issuing s.cur.1 c c).matchBp s.cur.1 (c4 c).val = none →
    (s.issuing s.cur.1 c c).fetch = .ok f u → _) ∧ (_ → _ = execDecodingFault _ _ (s.issuing s.cur.1 c c))
  refine ⟨fun hx hm hf hd => ?_, fun hx => ?_⟩
  · rw [issue_unstopped hi he hb hn (.inl (hbp ▸ hm))]
    exact issueCtx_decoded hx hm hf hd
  · have hx' : (s.issuing s.cur.1 c c).me.exitTrap.isSome = true := hx
    rw [issue_unstopped hi he hb hn (.inr (hme ▸ hx'))]
    exact issueCtx_exitTrap hx'

end Sys2Proof.Machine
end

section
/-!
SUPPORT. What an operation that works away from the contexts leaves alone. `Offcore` says it of one that touches no core, as what engines, controllers and
front units learn, and `Inboxed` of one that touches no more of a core than its inbox, as what messages do that leave or arrive. Both keep the layout of the
partitions. Each operation is shown to obey one of them once.
-/

namespace Sys2Proof.Machine

/-! ### The layout of the partitions -/

/-- The partitions with a view of each. -/
def viewsOf {α : Type} (f : Part → α) (l : AMap Part) : List (Nat × α) := l.map (fun e => (e.1, f e.2))

section
variable {α : Type} {f : Part → α}

theorem viewsOf_set {l : AMap Part} {p : Nat} {P Q : Part} (h : AMap.find l p = some P) (hq : f Q = f P) : viewsOf f (AMap.set l p Q) = viewsOf f l := by
  induction l with
  | nil => simp [AMap.find] at h
  | cons e t ih =>
    obtain ⟨k, v⟩ := e
    simp only [AMap.find] at h
    simp only [AMap.set]
    split
    · next hk =>
      obtain rfl : v = P := by simpa [hk] using h
      simp [viewsOf, hq, hk]
    · next hk =>
      rw [if_neg hk] at h
      simp only [h, Option.isNone_some, Bool.and_false, Bool.false_eq_true, if_false]
      exact congrArg ((k, f v) :: ·) (ih h)

theorem viewsOf_mapVals {l : AMap Part} {g : Nat → Part → Part} (hg : ∀ k P, f (g k P) = f P) : viewsOf f (AMap.mapVals g l) = viewsOf f l := by
  simp [viewsOf, AMap.mapVals, hg]

/-- A coarser view of partitions that have one view in common. -/
theorem viewsOf_comp {β : Type} {l m : AMap Part} (g : α → β) (h : viewsOf f l = viewsOf f m) : viewsOf (g ∘ f) l = viewsOf (g ∘ f) m := by
  have hb : ∀ x : AMap Part, viewsOf (g ∘ f) x = (viewsOf f x).map (fun e => (e.1, g e.2)) := fun x => by simp [viewsOf]
  rw [hb l, hb m, h]

theorem find_viewsOf {l m : AMap Part} (h : viewsOf f l = viewsOf f m) (p : Nat) : (AMap.find l p).map f = (AMap.find m p).map f := by
  have hb : ∀ x : AMap Part, (AMap.find x p).map f = AMap.find (viewsOf f x) p := fun x => by
    induction x with
    | nil => rfl
    | cons e t ih =>
      obtain ⟨k, v⟩ := e
      by_cases hk : p = k
      · simp [viewsOf, AMap.find, hk]
      · simpa [viewsOf, AMap.find, hk] using ih
  rw [hb l, hb m, h]

theorem partKey_viewsOf {l m : AMap Part} (dies : α → Nat) (hd : ∀ P, dies (f P) = P.dies) (h : viewsOf f l = viewsOf f m) (d : Nat) :
    partKey l d = partKey m d := by
  have hb : ∀ x : AMap Part, partKey x d =
      ((viewsOf f x).find? (fun e => decide (e.1 ≤ d) && decide (d < e.1 + dies e.2))).elim d (·.1) := fun x => by
    simp only [partKey, viewsOf, List.find?_map, Function.comp_def, hd]
    cases x.find? (fun e => decide (e.1 ≤ d) && decide (d < e.1 + e.2.dies)) <;> rfl
  rw [hb l, hb m, h]

end

/-- What of a partition no message, record or grant changes. -/
def Part.bare (P : Part) : Part := { P.plan with taskq := [], fevs := [], granted := none }

/-- The partitions with what of them stays. -/
abbrev baresOf (l : AMap Part) : List (Nat × Part) := viewsOf Part.bare l

theorem baresOf_of_plansOf {l m : AMap Part} (h : plansOf l = plansOf m) : baresOf l = baresOf m :=
  viewsOf_comp (fun P : Part => ({ P with taskq := [], fevs := [], granted := none } : Part)) h

/-- The partitions stand as they did, but for what waits in them, is granted or is recorded. -/
structure SameLayout (s t : State) : Prop where
  bares : baresOf t.parts = baresOf s.parts

namespace SameLayout
variable {s t u : State}

theorem refl (s : State) : SameLayout s s := ⟨rfl⟩
theorem trans (h : SameLayout s t) (g : SameLayout t u) : SameLayout s u := ⟨g.bares.trans h.bares⟩
theorem of_parts (h : t.parts = s.parts) : SameLayout s t := ⟨by rw [h]⟩
theorem of_recorded (h : Recorded s t) : SameLayout s t := ⟨baresOf_of_plansOf h.plans⟩

theorem onPart (s : State) (p : Nat) (f : Part → Part) (hf : ∀ P, (f P).bare = P.bare) : SameLayout s (s.onPart p f) := by
  unfold State.onPart
  cases h : AMap.find s.parts p with
  | none => exact refl s
  | some P => exact ⟨viewsOf_set h (hf P)⟩

theorem ungrant (s : State) (n c : Nat) : SameLayout s (s.ungrant n c) :=
  ⟨viewsOf_mapVals (l := s.parts) (g := fun _ P => if P.granted = some (n, c) then { P with granted := none } else P)
    (fun _ P => by split <;> rfl)⟩

theorem partKey (h : SameLayout s t) (d : Nat) : t.partKey d = s.partKey d := partKey_viewsOf (f := Part.bare) Part.dies (fun _ => rfl) h.bares d
theorem pOf (h : SameLayout s t) (n : Nat) : t.pOf n = s.pOf n := h.partKey _

theorem part (h : SameLayout s t) (p : Nat) : (t.part p).bare = (s.part p).bare := by
  have := find_viewsOf h.bares p
  simp only [State.part, get_eq_find]
  cases hs : AMap.find s.parts p <;> cases ht : AMap.find t.parts p <;> simp_all

theorem find (h : SameLayout s t) {p : Nat} {P : Part} (hp : AMap.find s.parts p = some P) :
    ∃ Q, AMap.find t.parts p = some Q ∧ Q.bare = P.bare := by
  have := find_viewsOf h.bares p
  rw [hp] at this
  cases ht : AMap.find t.parts p with
  | none => simp [ht] at this
  | some Q => exact ⟨Q, rfl, by simpa [ht] using this⟩

theorem det (h : SameLayout s t) (p : Nat) : (t.part p).det = (s.part p).det := (congrArg Part.det (h.part p) : _)
theorem dies (h : SameLayout s t) (p : Nat) : (t.part p).dies = (s.part p).dies := (congrArg Part.dies (h.part p) : _)
theorem shape (h : SameLayout s t) (p : Nat) : (t.part p).shape = (s.part p).shape := (congrArg Part.shape (h.part p) : _)
theorem quanta (h : SameLayout s t) (p : Nat) : (t.part p).quanta = (s.part p).quanta := (congrArg Part.quanta (h.part p) : _)

theorem detAt (h : SameLayout s t) (n : Nat) : t.detAt n = s.detAt n := by simp only [State.detAt, h.pOf, h.det]
theorem lnum (h : SameLayout s t) (n : Nat) : t.lnum n = s.lnum n := by simp only [State.lnum, h.pOf, h.detAt]
theorem knum (h : SameLayout s t) (n l : Nat) : t.knum n l = s.knum n l := by simp only [State.knum, h.pOf, h.detAt]
theorem coreRange (h : SameLayout s t) (n : Nat) : t.coreRange n = s.coreRange n := by
  simp only [State.coreRange, h.pOf, h.det, h.shape, h.dies]

end SameLayout

/-! ### Operations that touch no core -/

/-- The requests that an interface keeps, by destination and body. -/
def Endp.outs (e : Endp) : List (Nat × ReqBody) := e.out.map (fun o => (o.dest, o.body))

/-- No core has changed, and every interface still keeps the requests that it kept, in their order before any new one. -/
structure Offcore (s t : State) : Prop where
  cores  : t.cores = s.cores
  cur    : t.cur = s.cur
  time   : t.time = s.time
  layout : SameLayout s t
  outs   : ∀ n, ∃ l, (t.ep n).outs = (s.ep n).outs ++ l

namespace Offcore
variable {s t u : State}

theorem refl (s : State) : Offcore s s := ⟨rfl, rfl, rfl, .refl s, fun _ => ⟨[], by simp⟩⟩

theorem trans (h : Offcore s t) (g : Offcore t u) : Offcore s u where
  cores := g.cores.trans h.cores
  cur := g.cur.trans h.cur
  time := g.time.trans h.time
  layout := h.layout.trans g.layout
  outs n := by
    obtain ⟨l, hl⟩ := h.outs n
    obtain ⟨k, hk⟩ := g.outs n
    exact ⟨l ++ k, by rw [hk, hl, List.append_assoc]⟩

/-- A change of what is neither of a core nor of a partition nor of an interface. -/
theorem of_eq (hc : t.cores = s.cores) (hr : t.cur = s.cur) (ht : t.time = s.time) (hp : t.parts = s.parts) (he : t.eps = s.eps) : Offcore s t :=
  ⟨hc, hr, ht, .of_parts hp, fun n => ⟨[], by simp [State.ep, he]⟩⟩

theorem of_recorded (h : Recorded s t) : Offcore s t :=
  ⟨h.cores, h.cur, h.time, .of_recorded h, fun n => ⟨[], by simp [State.ep, h.eps]⟩⟩

theorem ite {c : Prop} {_ : Decidable c} (ht : Offcore s t) (hu : Offcore s u) : Offcore s (if c then t else u) := by
  split
  · exact ht
  · exact hu

theorem foldl {α : Type} {f : State → α → State} (hf : ∀ s a, Offcore s (f s a)) (l : List α) (s : State) : Offcore s (l.foldl f s) := by
  induction l generalizing s with
  | nil => exact refl s
  | cons a t ih => exact (hf s a).trans (ih _)

theorem core (h : Offcore s t) (n : Nat) : t.core n = s.core n := State.core_congr_cores h.cores n
theorem ctx (h : Offcore s t) (n c : Nat) : t.ctx n c = s.ctx n c := by simp only [State.ctx, h.core]

theorem me (h : Offcore s t) : t.me = s.me := by simp only [State.me, h.cur, h.ctx]

theorem timeAt (h : Offcore s t) (n : Nat) : t.timeAt n = s.timeAt n := by
  simp only [State.timeAt, h.layout.pOf, h.layout.det, h.layout.quanta, h.core, h.time]

theorem onPart (s : State) (p : Nat) (f : Part → Part) (hf : ∀ P, (f P).bare = P.bare) : Offcore s (s.onPart p f) :=
  ⟨by simp, by simp, by simp, .onPart s p f hf, fun n => ⟨[], by simp [State.ep]⟩⟩

theorem ungrant (s : State) (n c : Nat) : Offcore s (s.ungrant n c) :=
  ⟨rfl, rfl, rfl, .ungrant s n c, fun _ => ⟨[], by simp [State.ep]⟩⟩

/-- A change of an interface that keeps its requests. -/
theorem onEp (s : State) (n : Nat) (f : Endp → Endp) (hf : ∀ e, ∃ l, (f e).outs = e.outs ++ l) : Offcore s (s.onEp n f) where
  cores := rfl
  cur := rfl
  time := rfl
  layout := .of_parts rfl
  outs m := by
    simp only [State.ep, State.onEp, AMap.get_set]
    split
    · next h => subst h; exact hf _
    · exact ⟨[], by simp⟩

theorem count (s : State) (die ev n : Nat) : Offcore s (s.count die ev n) := .of_recorded (.count s die ev n)
theorem event (s : State) (p time src ev unit data : Nat) : Offcore s (s.event p time src ev unit data) := .of_recorded (.event s p time src ev unit data)
theorem coreEvent (s : State) (n ev data : Nat) : Offcore s (s.coreEvent n ev data) := .of_recorded (.coreEvent s n ev data)
theorem pushRec (s : State) (p : Nat) (r : TrapRec) : Offcore s (s.pushRec p r) := .of_recorded (.pushRec s p r)
theorem recordE (s : State) (p die : Nat) (c : Cause) (tval : Word) (telem : Nat) : Offcore s (s.recordE p die c tval telem) :=
  .of_recorded (.recordE s p die c tval telem)
theorem onMem (s : State) (f : Memory → Memory) : Offcore s (s.onMem f) := .of_eq rfl rfl rfl rfl rfl
theorem onRlc (s : State) (n : Nat) (f : Rlc → Rlc) : Offcore s (s.onRlc n f) := .of_eq rfl rfl rfl rfl rfl
theorem onFu (s : State) (n : Nat) (f : FrontUnit → FrontUnit) : Offcore s (s.onFu n f) := .of_eq rfl rfl rfl rfl rfl
theorem onHome (s : State) (n : Nat) (f : Home → Home) : Offcore s (s.onHome n f) := .of_eq rfl rfl rfl rfl rfl
theorem onRing (s : State) (n : Nat) (f : Ring → Ring) : Offcore s (s.onRing n f) := .of_eq rfl rfl rfl rfl rfl
theorem tick (s : State) : Offcore s s.tick := .of_eq rfl rfl rfl rfl rfl
theorem setBlk (s : State) (p id : Nat) (b : Blk) : Offcore s (s.setBlk p id b) := .onFu _ _ _
theorem setFront (s : State) (p tag num : Nat) (st : FrontSt) : Offcore s (s.setFront p tag num st) := .of_eq rfl rfl rfl rfl rfl

/-! ### Requests -/

theorem sendUse (s : State) (ep dest kind : Nat) (body : ReqBody) (snd : Sender) (use : OutUse) : Offcore s (s.sendUse ep dest kind body snd use) := by
  refine .onEp s ep _ (fun e => ?_)
  split
  · exact ⟨[(dest, body)], by simp [Endp.outs, Endp.send]⟩
  · exact ⟨[], by simp [Endp.outs]⟩

theorem sendReq (s : State) (ep dest kind : Nat) (body : ReqBody) (snd : Sender) : Offcore s (s.sendReq ep dest kind body snd) := .sendUse ..

theorem sendRsp (s : State) (ep dst num : Nat) (r : Rsp) : Offcore s (s.sendRsp ep dst num r) := .onEp _ _ _ (fun e => ⟨[], by simp [Endp.outs]⟩)

theorem respond (s : State) (ep dst num : Nat) (r : Rsp) : Offcore s (s.respond ep dst num r) :=
  (sendRsp s ep dst num r).trans (.onEp _ _ _ (fun e => ⟨[], by simp [Endp.outs]⟩))

theorem respondTo (s : State) (ep : Nat) (o : Option (Nat × Nat)) (r : Rsp) : Offcore s (s.respondTo ep o r) := by
  cases o with
  | none => exact refl s
  | some x => exact respond s ep x.1 x.2 r

theorem engineMsg (s : State) (eng core ctx dest : Nat) (m : Msg) (born : Nat) : Offcore s (s.engineMsg eng core ctx dest m born) :=
  ite (onPart _ _ _ (fun _ => rfl)) (sendReq ..)

/-! ### Front units and controllers -/

theorem checkFrozen (s : State) (p tag num : Nat) : Offcore s (s.checkFrozen p tag num) :=
  ite (((setFront ..).trans (recordE ..)).trans (event ..)) (refl s)

theorem freezeFront (s : State) (p tag num : Nat) : Offcore s (s.freezeFront p tag num) :=
  (ite (setFront ..) (refl s)).trans (checkFrozen ..)

theorem updateEnd (s : State) (p id : Nat) (faulty committed : Bool) : Offcore s (s.updateEnd p id faulty committed) := by
  unfold State.updateEnd
  split
  · exact refl s
  · exact ite (refl s) (ite (((setBlk ..).trans (recordE ..)).trans (freezeFront ..)) ((setBlk ..).trans (checkFrozen ..)))

theorem rlcDispatch (s : State) (cl : Nat) (r : RRun) (ph : RPhase) : Offcore s (s.rlcDispatch cl r ph) :=
  (onRlc ..).trans (foldl (fun _ _ => (engineMsg ..).trans (tick _)) _ _)

theorem rlcStart (s : State) (cl : Nat) (c : RCmd) : Offcore s (s.rlcStart cl c) := (onRlc ..).trans (rlcDispatch ..)

theorem rlcFinish (s : State) (cl : Nat) (c : RCmd) (code rung i total : Nat) (norm : Word) : Offcore s (s.rlcFinish cl c code rung i total norm) :=
  (((onMem ..).trans (onRlc ..)).trans (engineMsg ..)).trans (tick _)

theorem rlcNext (s : State) (cl : Nat) : Offcore s (s.rlcNext cl) := by
  unfold State.rlcNext
  split
  · exact ite ((onRlc ..).trans (rlcStart ..)) (refl s)
  · exact refl s

theorem rlcExit (s : State) (cl : Nat) (r : RRun) (code : Nat) : Offcore s (s.rlcExit cl r code) :=
  ((onRlc ..).trans (rlcFinish ..)).trans (rlcNext ..)

theorem rlcComplete (s : State) (cl : Nat) (r : RRun) : Offcore s (s.rlcComplete cl r) := by
  unfold State.rlcComplete
  split
  · exact ite (rlcDispatch ..) (rlcDispatch ..)
  · exact rlcDispatch ..
  · exact rlcDispatch ..
  · exact rlcDispatch ..
  · dsimp only
    split
    · exact rlcDispatch ..
    · exact ite (rlcDispatch ..) (rlcExit ..)

theorem rlcLatest (s : State) (cl : Nat) : Offcore s (s.rlcLatest cl) := by
  unfold State.rlcLatest
  split
  · exact refl s
  · exact onRlc ..

theorem rlcStopCheck (s : State) (cl : Nat) : Offcore s (s.rlcStopCheck cl) := by
  unfold State.rlcStopCheck
  split
  · exact refl s
  · split
    · exact refl s
    · exact ite (refl s) (rlcExit ..)

theorem rlcStop (s : State) (cl : Nat) (r : RRun) (code : Nat) : Offcore s (s.rlcStop cl r code) := (onRlc ..).trans (rlcStopCheck ..)

theorem rlcApply (s : State) (cl : Nat) (e : REv) : Offcore s (s.rlcApply cl e) := by
  refine trans ?_ (rlcLatest _ cl)
  split
  · exact (onRlc ..).trans (rlcNext ..)
  · split
    · exact refl s
    · exact ite (refl s) (ite ((onRlc ..).trans (rlcComplete ..)) (onRlc ..))
  · split
    · exact refl s
    · exact ite (refl s) (ite ((onRlc ..).trans (rlcStop ..)) ((onRlc ..).trans (rlcStopCheck ..)))
  · split
    · exact (onRlc ..).trans (rlcFinish ..)
    · split
      · exact refl s
      · exact ite (rlcStop ..) (refl s)

theorem rlcPost (s : State) (cl : Nat) (e : REv) : Offcore s (s.rlcPost cl e) := ite (onRlc ..) (rlcApply ..)

/-- What a front unit or a controller learns of the end of its dispatch. -/
theorem tellDispatcher (s : State) (core ctx : Nat) (a : Act) (faulty : Bool) : Offcore s (s.tellDispatcher core ctx a faulty) := by
  unfold State.tellDispatcher
  split
  · exact ite (onPart _ _ _ (fun _ => rfl)) (updateEnd ..)
  · exact rlcPost ..
  all_goals exact refl s

/-! ### What a context waits for, given up -/

theorem failedRecords (s : State) (core ctx : Nat) : Offcore s (s.failedRecords core ctx) := foldl (fun _ _ => pushRec ..) _ _

theorem endEvent (s : State) (core ctx how : Nat) : Offcore s (s.endEvent core ctx how) := coreEvent ..

theorem cancelSync (s : State) (core ctx : Nat) : Offcore s (s.cancelSync core ctx) := by
  have hmap : ∀ e : Endp, ({ e with out := e.out.map (OutReq.disown ctx), backlog := e.backlog.map (Backlog.disown ctx) } : Endp).outs = e.outs := by
    intro e
    simp only [Endp.outs, List.map_map]
    refine List.map_congr_left fun o _ => ?_
    simp only [Function.comp_def, OutReq.disown]
    split <;> rfl
  refine trans (ite (onEp _ _ _ (fun e => ⟨[], ?_⟩)) (refl s)) (foldl (fun u o => ?_) _ _)
  · rw [hmap, List.append_nil]
  · split
    · exact sendReq ..
    all_goals exact refl u

theorem cancelOwn (s : State) (core ctx : Nat) : Offcore s (s.cancelOwn core ctx) := ite (onHome ..) (refl s)

theorem giveBack (s : State) (core ctx : Nat) (o : Option Taken) : Offcore s (s.giveBack core ctx o) := by
  cases o with
  | none => exact refl s
  | some t => exact sendReq ..

theorem giveBackAll (s : State) (core ctx : Nat) : Offcore s (s.giveBackAll core ctx) := foldl (fun _ _ => giveBack ..) _ _

theorem withdraw (s : State) (core ctx : Nat) : Offcore s (s.withdraw core ctx) := onRing ..

theorem unask (s : State) (core ctx : Nat) : Offcore s (s.unask core ctx) := onPart _ _ _ (fun _ => rfl)

end Offcore

end Sys2Proof.Machine
end

section
/-!
SUPPORT. What a message that leaves or arrives leaves alone of the cores (R36-R44), and how an interface keeps the messages that leave it in their order
(R44, R232, R254).
-/

namespace Sys2Proof.Machine

/-- A core but for its inbox: its queues, its slots and what waits at its interface. -/
def CoreSt.sansInbox (k : CoreSt) : CoreSt := { k with queues := Vector.replicate 5 [], unbound := [], waiting := [], slotsHeld := [] }

/-- No core has changed but in its inbox. -/
structure Inboxed (s t : State) : Prop where
  cores  : ∀ n, (t.core n).sansInbox = (s.core n).sansInbox
  cur    : t.cur = s.cur
  time   : t.time = s.time
  layout : SameLayout s t

theorem Offcore.inboxed {s t : State} (h : Offcore s t) : Inboxed s t := ⟨fun n => by rw [h.core], h.cur, h.time, h.layout⟩

namespace Inboxed
variable {s t u : State}

theorem refl (s : State) : Inboxed s s := (Offcore.refl s).inboxed

theorem trans (h : Inboxed s t) (g : Inboxed t u) : Inboxed s u :=
  ⟨fun n => (g.cores n).trans (h.cores n), g.cur.trans h.cur, g.time.trans h.time, h.layout.trans g.layout⟩

theorem ite {c : Prop} {_ : Decidable c} (ht : Inboxed s t) (hu : Inboxed s u) : Inboxed s (if c then t else u) := by
  split
  · exact ht
  · exact hu

theorem ite_fst {α : Type} {c : Prop} {_ : Decidable c} {x y : State × α} (hx : Inboxed s x.1) (hy : Inboxed s y.1) :
    Inboxed s (if c then x else y).1 := by
  split
  · exact hx
  · exact hy

theorem of_fst {α : Type} {x : State × α} {a : α} (h : Inboxed s x.1) (e : x = (u, a)) : Inboxed s u := by rw [e] at h; exact h

theorem foldl {α : Type} {f : State → α → State} (hf : ∀ s a, Inboxed s (f s a)) (l : List α) (s : State) : Inboxed s (l.foldl f s) := by
  induction l generalizing s with
  | nil => exact refl s
  | cons a t ih => exact (hf s a).trans (ih _)

theorem onCore (s : State) (n : Nat) (f : CoreSt → CoreSt) (hf : ∀ k, (f k).sansInbox = k.sansInbox) : Inboxed s (s.onCore n f) where
  cores m := by
    by_cases h : m = n
    · subst h; rw [State.core_onCore_self, hf]
    · rw [State.core_onCore_ne s f h]
  cur := rfl
  time := rfl
  layout := .of_parts rfl

theorem ctx (h : Inboxed s t) (n c : Nat) : t.ctx n c = s.ctx n c := (congrArg (fun k => k.ctx c) (h.cores n) : _)
theorem tasks (h : Inboxed s t) (n : Nat) : (t.core n).tasks = (s.core n).tasks := (congrArg CoreSt.tasks (h.cores n) : _)
theorem quant (h : Inboxed s t) (n : Nat) : (t.core n).quant = (s.core n).quant := (congrArg CoreSt.quant (h.cores n) : _)
theorem retired (h : Inboxed s t) (n : Nat) : (t.core n).retired = (s.core n).retired := (congrArg CoreSt.retired (h.cores n) : _)
theorem qdone (h : Inboxed s t) (n : Nat) : (t.core n).qdone = (s.core n).qdone := (congrArg CoreSt.qdone (h.cores n) : _)
theorem arrivals (h : Inboxed s t) (n : Nat) : (t.core n).arrivals = (s.core n).arrivals := (congrArg CoreSt.arrivals (h.cores n) : _)

theorem me (h : Inboxed s t) : t.me = s.me := by simp only [State.me, h.cur, h.ctx]

theorem task (h : Inboxed s t) (n tag : Nat) : (t.core n).task tag = (s.core n).task tag := by simp only [CoreSt.task, h.tasks]

theorem taskLive (h : Inboxed s t) (n : Nat) (m : Msg) : t.taskLive n m = s.taskLive n m := by simp only [State.taskLive, h.task]

theorem timeAt (h : Inboxed s t) (n : Nat) : t.timeAt n = s.timeAt n := by
  simp only [State.timeAt, h.layout.pOf, h.layout.det, h.layout.quanta, h.quant, h.retired, h.time]

/-! ### Admission (R36-R39) -/

theorem admFail (s : State) (core kind : Nat) (c : Cause) : Inboxed s (s.admFail core kind c).1 := ite_fst (Offcore.count ..).inboxed (refl s)

theorem enqueue (s : State) (core slot : Nat) (m : Msg) (arrival : Nat) : Inboxed s (s.enqueue core slot m arrival) := by
  unfold State.enqueue
  refine trans (onCore s core _ ?_) (Offcore.onMem _ _).inboxed
  exact fun _ => rfl

theorem admitFrom3 (s : State) (core : Nat) (m : Msg) (slot : Option Nat) (arrival : Nat) : Inboxed s (s.admitFrom3 core m slot arrival).1 := by
  refine ite_fst (admFail ..) (ite_fst (admFail ..) (ite_fst (admFail ..) (ite_fst (admFail ..) (ite_fst ?_ ?_))))
  · dsimp only
    split
    · exact ite_fst (enqueue ..) (refl s)
    · exact refl s
  · split
    · exact enqueue ..
    · exact refl s

theorem enters (s : State) (core : Nat) (m : Msg) (o : Option (Nat × Nat)) (arrival : Nat) : Inboxed s (s.enters core m o arrival).1 := by
  unfold State.enters
  dsimp only
  split
  · exact admFail ..
  · split
    · refine ite_fst ?_ (ite_fst (refl s) (refl s))
      dsimp only
      refine trans (onCore s core _ ?_) (Offcore.onMem _ _).inboxed
      exact fun _ => rfl
    · exact ite_fst (refl s) (refl s)
  · exact admitFrom3 ..

theorem deliverHere (s : State) (core : Nat) (m : Msg) (o : Option (Nat × Nat)) : Inboxed s (s.deliverHere core m o) := by
  refine ite (onCore s core _ (by exact fun _ => rfl)) ?_
  have he := enters s core m o (s.timeAt core)
  split
  next h => exact (he.of_fst h).trans (Offcore.respondTo ..).inboxed
  next h => exact (he.of_fst h).trans (Offcore.respondTo ..).inboxed
  next h => exact (he.of_fst h).trans (Offcore.respondTo ..).inboxed
  next h => exact (he.of_fst h).trans (Offcore.respondTo ..).inboxed
  next h => exact (he.of_fst h).trans (onCore _ core _ (by exact fun _ => rfl))

/-! ### Messages that leave (R42, R44, R58, R231) -/

theorem refuse (s : State) (core : Nat) (m : Msg) (snd : Sender) (target : Nat) (c : Cause) : Inboxed s (s.refuse core m snd target c) := by
  have hs := ((Offcore.count s (dieOf core) 0x06 1).trans (Offcore.coreEvent _ core 2 (c.code * 2 ^ 32 + m.env.id))).inboxed
  exact ite (Offcore.count ..).inboxed (ite (hs.trans (Offcore.onPart _ _ _ (by exact fun _ => rfl)).inboxed) (hs.trans (deliverHere ..)))

theorem leave (s : State) (core : Nat) (snd : Sender) (o : OutMsg) : Inboxed s (s.leave core snd o) := by
  have hs := (Offcore.count s (dieOf core) 0x05 1).inboxed
  exact ite (hs.trans (refuse ..)) (ite (hs.trans (Offcore.onPart _ _ _ (by exact fun _ => rfl)).inboxed) (hs.trans (Offcore.sendReq ..).inboxed))

theorem leaveAll (s : State) (core : Nat) (snd : Sender) (l : List OutMsg) : Inboxed s (s.leaveAll core snd l) := foldl (fun _ _ => leave ..) l s

end Inboxed

/-! ### The numbers of a pair (R254) -/

@[simp] theorem State.ep_onEp_self (s : State) (n : Nat) (f : Endp → Endp) : (s.onEp n f).ep n = f (s.ep n) := by
  simp [State.ep, State.onEp]

@[simp] theorem State.ep_count (s : State) (die ev n m : Nat) : (s.count die ev n).ep m = s.ep m := by simp [State.ep]

/-- A message inside the core range, outside deterministic mode, from an interface with nothing in its backlog and a free number: it leaves as a
request. -/
theorem State.leave_sends {s : State} {core : Nat} {snd : Sender} {o : OutMsg} (hd : s.detAt core = false)
    (hr : (s.coreRange core).1 ≤ o.dest ∧ o.dest < (s.coreRange core).1 + (s.coreRange core).2) (hb : (s.ep core).backlog = [])
    (hn : (s.ep core).canSend o.dest = true) :
    s.leave core snd o = (s.count (dieOf core) 0x05 1).onEp core (fun _ => (s.ep core).send core s.time o.dest 0 (.msg o.msg) snd .reply) := by
  have hc := (Offcore.count s (dieOf core) 0x05 1).layout
  have hrange : (decide (o.dest < (s.coreRange core).1) || decide ((s.coreRange core).1 + (s.coreRange core).2 ≤ o.dest)) = false := by
    simp only [Bool.or_eq_false_iff, decide_eq_false_iff_not]; omega
  simp only [State.leave, hc.coreRange, hc.detAt, State.knum, hd, hrange, if_false, Bool.false_eq_true, State.sendReq, State.sendUse, State.onEp,
    State.ep_count, hb, hn, List.isEmpty_nil, Bool.and_self, if_true, State.count_time]

/-- What `canLeave` says where it is not for deterministic mode. -/
theorem State.canLeave_iff {s : State} {core : Nat} {o : OutMsg} {l : List OutMsg} (hd : s.detAt core = false) :
    s.canLeave core (o :: l) = true ↔ (s.ep core).out.length + (l.length + 1) ≤ 64 ∧ (s.ep core).backlog = [] ∧
      ∀ x ∈ o :: l, ((s.ep core).out.filter (fun y => y.dest == x.dest)).length + ((o :: l).filter (fun y => y.dest == x.dest)).length ≤ 16 ∧
        ∀ y ∈ (s.ep core).out.filter (fun y => y.dest == x.dest),
          (AMap.get 0 (s.ep core).nextNum x.dest + 32 - y.num) % 32 + ((o :: l).filter (fun y => y.dest == x.dest)).length ≤ 16 := by
  simp only [State.canLeave, hd, List.isEmpty_cons, Bool.false_or, Bool.and_eq_true, decide_eq_true_eq, List.isEmpty_iff, List.all_eq_true,
    List.length_cons, and_assoc]

/-- The next number of a pair moves on: those outstanding fall behind by no more than one. -/
theorem num_behind (next num k : Nat) (h : (next + 32 - num) % 32 + (k + 1) ≤ 16) : ((next + 1) % 32 + 32 - num) % 32 + k ≤ 16 := by omega

section
variable {s : State} {core : Nat} {snd : Sender} {o : OutMsg} {l : List OutMsg} (hd : s.detAt core = false)
  (hc : s.canLeave core (o :: l) = true)
include hd hc

/-- The first of the messages that can leave has a free number. -/
theorem State.canSend_of_canLeave : (s.ep core).backlog = [] ∧ (s.ep core).canSend o.dest = true := by
  obtain ⟨hlen, hb, hx⟩ := (State.canLeave_iff hd).1 hc
  obtain ⟨hk, hall⟩ := hx o (List.mem_cons_self ..)
  have hpos : 1 ≤ ((o :: l).filter (fun y => y.dest == o.dest)).length := by
    rw [List.filter_cons_of_pos (by simp)]; simp
  refine ⟨hb, ?_⟩
  simp only [Endp.canSend, Bool.and_eq_true, decide_eq_true_eq, List.all_eq_true, and_assoc]
  exact ⟨by omega, by omega, fun y hy => by have := hall y hy; omega⟩

/-- Once it has left, the others still can. -/
theorem State.canLeave_leave (hr : (s.coreRange core).1 ≤ o.dest ∧ o.dest < (s.coreRange core).1 + (s.coreRange core).2) :
    (s.leave core snd o).canLeave core l = true := by
  obtain ⟨hb, hn⟩ := State.canSend_of_canLeave hd hc
  obtain ⟨hlen, -, hx⟩ := (State.canLeave_iff hd).1 hc
  have hd' : (s.leave core snd o).detAt core = false := ((Inboxed.leave s core snd o).layout.detAt core).trans hd
  cases l with
  | nil => simp [State.canLeave]
  | cons p l =>
    rw [State.canLeave_iff hd', State.leave_sends hd hr hb hn, State.ep_onEp_self]
    refine ⟨by simp only [Endp.send, List.length_append, List.length_cons, List.length_nil] at hlen ⊢; omega, hb, fun x hmem => ?_⟩
    obtain ⟨hk, hall⟩ := hx x (List.mem_cons_of_mem _ hmem)
    by_cases ho : o.dest = x.dest
    · rw [List.filter_cons_of_pos (by simp [ho]), List.length_cons] at hk hall
      simp only [Endp.send, List.filter_append, List.length_append, ho, AMap.get_set_self, List.mem_append]
      refine ⟨by simp; omega, fun y hy => ?_⟩
      rcases hy with hy | hy
      · exact num_behind _ _ _ (hall y hy)
      · have hnum : y.num = AMap.get 0 (s.ep core).nextNum x.dest := by
          have := (List.mem_filter.1 hy).1
          rw [List.mem_singleton.1 this]
        rw [hnum]
        omega
    · rw [List.filter_cons_of_neg (by simp [ho])] at hk hall
      have hnew : (o.dest == x.dest) = false := by simpa using ho
      simp only [Endp.send, List.filter_append, List.filter_singleton, hnew, cond_false, List.append_nil, AMap.get_set_ne _ _ _ (Ne.symm ho)]
      exact ⟨hk, hall⟩

end

/-- Messages that can leave, each to a core of the range, become requests of the interface in their order. -/
theorem State.outs_leaveAll {core : Nat} {snd : Sender} {l : List OutMsg} {s : State} (hd : s.detAt core = false)
    (hr : ∀ o ∈ l, (s.coreRange core).1 ≤ o.dest ∧ o.dest < (s.coreRange core).1 + (s.coreRange core).2) (hc : s.canLeave core l = true) :
    ((s.leaveAll core snd l).ep core).outs = (s.ep core).outs ++ l.map (fun o => (o.dest, ReqBody.msg o.msg)) := by
  induction l generalizing s with
  | nil => simp [State.leaveAll]
  | cons o l ih =>
    have ho := hr o (List.mem_cons_self ..)
    obtain ⟨hb, hn⟩ := State.canSend_of_canLeave hd hc
    have hi := (Inboxed.leave s core snd o).layout
    have hrest := ih (s := s.leave core snd o) ((hi.detAt core).trans hd) (fun x hx => by rw [hi.coreRange]; exact hr x (List.mem_cons_of_mem _ hx))
      (State.canLeave_leave hd hc ho)
    have hout : ((s.leave core snd o).ep core).outs = (s.ep core).outs ++ [(o.dest, ReqBody.msg o.msg)] := by
      rw [State.leave_sends hd ho hb hn, State.ep_onEp_self]
      simp [Endp.outs, Endp.send]
    change ((State.leaveAll (s.leave core snd o) core snd l).ep core).outs = _
    rw [hrest, hout]
    simp

end Sys2Proof.Machine
end

section
/-!
SUPPORT. The end of an activation by DONE, by REQUEUE or by an abort (R45, R46, R234), and O14 and O17 from it: what becomes of the context, of the slot
and the queue of its message, and of the requests of its core's interface.
-/

namespace Sys2Proof.Machine

/-! ### Operations that touch contexts and transfer boards -/

/-- A core but for its contexts and its transfer board. -/
def CoreSt.house (k : CoreSt) : CoreSt := { k with ctxs := Vector.replicate 4 Ctx.reset, board := [] }

/-- No core has changed but in its contexts and its board, and every interface still keeps the requests that it kept. -/
structure Housed (s t : State) : Prop where
  cores  : ∀ n, (t.core n).house = (s.core n).house
  cur    : t.cur = s.cur
  time   : t.time = s.time
  layout : SameLayout s t
  outs   : ∀ n, ∃ l, (t.ep n).outs = (s.ep n).outs ++ l

theorem Offcore.housed {s t : State} (h : Offcore s t) : Housed s t := ⟨fun n => by rw [h.core], h.cur, h.time, h.layout, h.outs⟩

namespace Housed
variable {s t u : State}

theorem trans (h : Housed s t) (g : Housed t u) : Housed s u where
  cores n := (g.cores n).trans (h.cores n)
  cur := g.cur.trans h.cur
  time := g.time.trans h.time
  layout := h.layout.trans g.layout
  outs n := by
    obtain ⟨l, hl⟩ := h.outs n
    obtain ⟨k, hk⟩ := g.outs n
    exact ⟨l ++ k, by rw [hk, hl, List.append_assoc]⟩

theorem onCore (s : State) (n : Nat) (f : CoreSt → CoreSt) (hf : ∀ k, (f k).house = k.house) : Housed s (s.onCore n f) where
  cores m := by
    by_cases h : m = n
    · subst h; rw [State.core_onCore_self, hf]
    · rw [State.core_onCore_ne s f h]
  cur := rfl
  time := rfl
  layout := .of_parts rfl
  outs _ := ⟨[], by simp [State.ep]⟩

theorem onCtx (s : State) (n c : Nat) (f : Ctx → Ctx) : Housed s (s.onCtx n c f) := onCore s n _ (fun _ => rfl)

theorem queue (h : Housed s t) (n q : Nat) : (t.core n).queue q = (s.core n).queue q := (congrArg (fun k => k.queue q) (h.cores n) : _)
theorem slotsHeld (h : Housed s t) (n : Nat) : (t.core n).slotsHeld = (s.core n).slotsHeld := (congrArg CoreSt.slotsHeld (h.cores n) : _)
theorem task (h : Housed s t) (n tag : Nat) : (t.core n).task tag = (s.core n).task tag := (congrArg (fun k => k.task tag) (h.cores n) : _)
theorem arrivals (h : Housed s t) (n : Nat) : (t.core n).arrivals = (s.core n).arrivals := (congrArg CoreSt.arrivals (h.cores n) : _)
theorem quant (h : Housed s t) (n : Nat) : (t.core n).quant = (s.core n).quant := (congrArg CoreSt.quant (h.cores n) : _)
theorem retired (h : Housed s t) (n : Nat) : (t.core n).retired = (s.core n).retired := (congrArg CoreSt.retired (h.cores n) : _)

theorem taskLive (h : Housed s t) (n : Nat) (m : Msg) : t.taskLive n m = s.taskLive n m := by simp only [State.taskLive, h.task]
theorem holds (h : Housed s t) (a : Act) : t.holds a = s.holds a := by simp only [State.holds, h.taskLive]

theorem timeAt (h : Housed s t) (n : Nat) : t.timeAt n = s.timeAt n := by
  simp only [State.timeAt, h.layout.pOf, h.layout.det, h.layout.quanta, h.quant, h.retired, h.time]

theorem unwait (s : State) (core ctx : Nat) : Housed s (s.unwait core ctx) := by
  unfold State.unwait
  split
  · exact onCore _ _ _ (fun _ => rfl)
  · exact (Offcore.refl s).housed

theorem giveUp (s : State) (core ctx : Nat) : Housed s (s.giveUp core ctx) :=
  ((((Offcore.cancelSync ..).trans (Offcore.cancelOwn ..)).trans ((Offcore.giveBackAll ..).trans (Offcore.withdraw ..))).housed.trans
    (unwait ..)).trans (Offcore.unask ..).housed

theorem freeCtx (s : State) (core ctx : Nat) : Housed s (s.freeCtx core ctx) :=
  ((giveUp ..).trans (Offcore.ungrant ..).housed).trans (onCtx ..)

end Housed

/-! ### The context freed (R32) -/

/-- A freed context: nothing of the activation remains in it but its registers. -/
def Ctx.freed (x : Ctx) : Ctx :=
  { x with st := .free, await := .none, act := none, sendBuf := [], failed := [], rbuf := [], rcur := 0, rpend := false,
           fill := .none, stall := 0, hold := false, nobp := false }

/-- The changes of the transfer board leave the contexts. -/
theorem State.ctx_unwait (s : State) (core ctx n c : Nat) : (s.unwait core ctx).ctx n c = s.ctx n c := by
  unfold State.unwait
  split
  · by_cases h : n = core
    · subst h; simp only [State.ctx, State.core_onCore_self]; rfl
    · simp only [State.ctx, State.core_onCore_ne _ _ h]
  · rfl

/-- What a context waits for can be given up without a change of the contexts. -/
theorem State.ctx_giveUp (s : State) (core ctx n c : Nat) : (s.giveUp core ctx).ctx n c = s.ctx n c := by
  rw [State.giveUp, (Offcore.unask ..).ctx, State.ctx_unwait, (Offcore.withdraw ..).ctx, (Offcore.giveBackAll ..).ctx, (Offcore.cancelOwn ..).ctx,
    (Offcore.cancelSync ..).ctx]

theorem State.ctx_freeCtx_self (s : State) (n c : Nat) : (s.freeCtx n c).ctx n c = (s.ctx n c).freed := by
  rw [State.freeCtx, State.ctx_onCtx_self, (Offcore.ungrant ..).ctx, State.ctx_giveUp]; rfl

theorem State.ctx_onCtx_ne (s : State) (f : Ctx → Ctx) {n c m d : Nat} (h : ¬ (m = n ∧ c4 d = c4 c)) : (s.onCtx n c f).ctx m d = s.ctx m d := by
  by_cases hm : m = n
  · subst hm; exact State.ctx_onCtx_peer s f (fun hd => h ⟨rfl, hd⟩)
  · simp only [State.ctx, State.core_onCtx_ne s f hm]

theorem State.ctx_freeCtx_ne (s : State) {n c m d : Nat} (h : ¬ (m = n ∧ c4 d = c4 c)) : (s.freeCtx n c).ctx m d = s.ctx m d := by
  rw [State.freeCtx, State.ctx_onCtx_ne _ _ h, (Offcore.ungrant ..).ctx, State.ctx_giveUp]

/-! ### An abort (R46) -/

/-- The trap CSRs as a trap writes them (R192). -/
def Ctx.trapped (x : Ctx) (t : TrapInfo) (tip : Word) : Ctx :=
  { x with trap := ⟨t.cause.word t.fetch, t.tval, tip, BitVec.ofNat 64 x.msgId, BitVec.ofNat 64 (t.telem % 2 ^ 16),
    BitVec.ofNat 64 (t.ttile % 2 ^ 32), BitVec.ofNat 64 (t.tfmt % 2 ^ 12)⟩ }

@[simp] theorem Ctx.trapped_g (x : Ctx) (t : TrapInfo) (tip : Word) : (x.trapped t tip).g = x.g := rfl
@[simp] theorem Ctx.trapped_ip (x : Ctx) (t : TrapInfo) (tip : Word) : (x.trapped t tip).ip = x.ip := rfl
@[simp] theorem Ctx.trapped_trap (x : Ctx) (t : TrapInfo) (tip : Word) : (x.trapped t tip).trap = ⟨t.cause.word t.fetch, t.tval, tip,
  BitVec.ofNat 64 x.msgId, BitVec.ofNat 64 (t.telem % 2 ^ 16), BitVec.ofNat 64 (t.ttile % 2 ^ 32), BitVec.ofNat 64 (t.tfmt % 2 ^ 12)⟩ := rfl
@[simp] theorem Ctx.freed_g (x : Ctx) : x.freed.g = x.g := rfl
@[simp] theorem Ctx.freed_ip (x : Ctx) : x.freed.ip = x.ip := rfl
@[simp] theorem Ctx.freed_trap (x : Ctx) : x.freed.trap = x.trap := rfl

/-- A freed slot, and a message put back, are changes of an inbox. -/
theorem Inboxed.freeSlotOf (s : State) (a : Act) : Inboxed s (s.freeSlotOf a) := onCore _ _ _ (fun _ => rfl)

theorem Inboxed.returnMsg (s : State) (a : Act) : Inboxed s (s.returnMsg a) := by
  refine (freeSlotOf s a).trans (ite (refl _) (ite (Offcore.count ..).inboxed (onCore _ _ _ ?_)))
  exact fun _ => rfl

theorem State.slotsHeld_freeSlotOf (s : State) (a : Act) : a.m.slot ∉ ((s.freeSlotOf a).core a.core).slotsHeld := by
  rw [State.freeSlotOf, State.core_onCore_self]
  simp

@[simp] theorem CoreSt.queue_setQueue_self (k : CoreSt) (q : Nat) (l : List QMsg) : (k.setQueue q l).queue q = l := by
  simp [CoreSt.setQueue, CoreSt.queue, Vector.get_eq_getElem]

theorem mem_insertBy {α : Type} (le : α → α → Bool) (x y : α) (l : List α) : y ∈ insertBy le x l ↔ y = x ∨ y ∈ l := by
  induction l with
  | nil => simp [insertBy]
  | cons z l ih =>
    simp only [insertBy]
    split <;> simp [ih, or_left_comm]

/-- A message that the abort holds stands in its queue as held, and its slot is no longer of a context. -/
theorem State.returnMsg_held {s : State} {a : Act} (h : s.holds a = true) :
    { a.m with held := true } ∈ ((s.returnMsg a).core a.core).queue a.queue ∧ a.m.slot ∉ ((s.returnMsg a).core a.core).slotsHeld := by
  have hk : (decide (a.m.msg.env.kind = 4) || decide (a.m.msg.env.kind = 5)) = false := by
    simp only [State.holds, Bool.and_eq_true, bne_iff_ne] at h
    simp [h.1.1, h.1.2]
  simp only [State.returnMsg, hk, h, Bool.not_true, Bool.false_eq_true, if_false, State.core_onCore_self, CoreSt.queue_setQueue_self]
  exact ⟨List.mem_append_left _ ((mem_insertBy _ _ _ _).2 (.inl rfl)), State.slotsHeld_freeSlotOf s a⟩

section
variable (s : State) (n c : Nat) (t : TrapInfo) (tip : Word)

/-- The abort up to the return of its message: trap CSRs, records and counts. -/
theorem State.abort_eq : ∃ u v, Offcore (s.setTrap n c t tip) u ∧
    v = ((u.returnMsg (s.ctx n c).activation).onCtx n c Ctx.noteAbort).freeCtx n c ∧ Offcore v (s.abort n c t tip) :=
  ⟨_, _, (((((Offcore.pushRec ..).trans (Offcore.endEvent ..)).trans (Offcore.count ..)).trans (Offcore.count ..)).trans
    (Offcore.failedRecords ..)), rfl, Offcore.tellDispatcher ..⟩

/-- The context of an abort: the trap CSRs written, then freed. -/
theorem State.ctx_abort : (s.abort n c t tip).ctx n c = ((s.ctx n c).trapped t tip).noteAbort.freed := by
  obtain ⟨u, v, hu, rfl, hv⟩ := State.abort_eq s n c t tip
  rw [hv.ctx, State.ctx_freeCtx_self, State.ctx_onCtx_self, (Inboxed.returnMsg ..).ctx, hu.ctx, State.setTrap, State.ctx_onCtx_self]
  rfl

theorem State.cur_abort : (s.abort n c t tip).cur = s.cur := by
  obtain ⟨u, v, hu, rfl, hv⟩ := State.abort_eq s n c t tip
  rw [hv.cur, (Housed.freeCtx ..).cur, State.onCtx_cur, (Inboxed.returnMsg ..).cur, hu.cur]
  rfl

/-- The message of the activation, where the abort holds it. -/
theorem State.abort_held (h : s.holds (s.ctx n c).activation = true) :
    let a := (s.ctx n c).activation
    { a.m with held := true } ∈ ((s.abort n c t tip).core a.core).queue a.queue ∧ a.m.slot ∉ ((s.abort n c t tip).core a.core).slotsHeld := by
  obtain ⟨u, v, hu, rfl, hv⟩ := State.abort_eq s n c t tip
  have hh : u.holds (s.ctx n c).activation = true := by
    rw [(Housed.trans (Housed.onCtx s n c _) hu.housed).holds]; exact h
  have hend := ((Housed.onCtx (u.returnMsg (s.ctx n c).activation) n c Ctx.noteAbort).trans (Housed.freeCtx _ n c)).trans hv.housed
  intro a
  rw [hend.queue, hend.slotsHeld]
  exact State.returnMsg_held hh

end

/-- What an abort does to a context's own fields. -/
@[simp] theorem Ctx.noteAbort_g (x : Ctx) : x.noteAbort.g = x.g := by unfold Ctx.noteAbort; split <;> rfl
@[simp] theorem Ctx.noteAbort_ip (x : Ctx) : x.noteAbort.ip = x.ip := by unfold Ctx.noteAbort; split <;> rfl
@[simp] theorem Ctx.noteAbort_trap (x : Ctx) : x.noteAbort.trap = x.trap := by unfold Ctx.noteAbort; split <;> rfl

/-! ### TRAP and BKPT (R202, R228) -/

/-- A trap of kind A aborts the running activation (R192). -/
theorem State.takeStop_abort {s : State} {t : TrapInfo} (h : t.cause.kind = .a) :
    s.takeStop (.trap t) = s.noteIssue.abort s.cur.1 s.cur.2.val t s.me.ip := by
  simp only [State.takeStop, State.takeTrap, h]

theorem State.ctx_noteIssue (s : State) : s.noteIssue.ctx s.cur.1 s.cur.2.val = { s.me with issued := true } := State.me_onMe s _

/-- The running context once its activation has aborted. -/
theorem State.me_takeStop_abort {s : State} {t : TrapInfo} (h : t.cause.kind = .a) :
    (s.takeStop (.trap t)).me = (({ s.me with issued := true } : Ctx).trapped t s.me.ip).noteAbort.freed := by
  rw [State.takeStop_abort h, State.me, State.cur_abort]
  exact (State.ctx_abort ..).trans (by rw [State.ctx_noteIssue])

theorem trapAborts : Says.TrapAborts := by
  intro s a n i v hi
  have hx : exec i s = .next (s.takeStop (.trap (mkTrap .swtrap v))) := by
    rcases hi with ⟨rfl, rfl⟩ | ⟨rfl, rfl⟩ <;> rfl
  have hme := State.me_takeStop_abort (s := s) (t := mkTrap .swtrap v) rfl
  refine ⟨_, hx, ?_⟩
  rw [hme]
  have hid : Ctx.msgId { s.me with issued := true } = s.me.msgId := rfl
  refine ⟨rfl, rfl, rfl, by simp, by simp, by simp [mkTrap], by simp [mkTrap], by simp, by simp [hid], by simp [mkTrap], fun m hm _ hh => ?_⟩
  have hact : (s.noteIssue.ctx s.cur.1 s.cur.2.val).activation = m := by
    rw [State.ctx_noteIssue]; simp [Ctx.activation, hm]
  rw [State.takeStop_abort rfl]
  have hissue : Housed s s.noteIssue := .onCtx s s.cur.1 s.cur.2.val (fun x => { x with issued := true })
  have hheld := State.abort_held s.noteIssue s.cur.1 s.cur.2.val (mkTrap .swtrap v) s.me.ip (by rw [hact, hissue.holds]; exact hh)
  rw [hact] at hheld
  exact hheld

/-- BKPT writes the trap CSRs and parks its context at itself (R197). -/
theorem State.takeStop_bkpt (s : State) : s.takeStop (.trap (mkTrap .bkpt 0)) =
    (s.noteIssue.setTrap s.cur.1 s.cur.2.val (mkTrap .bkpt 0) s.me.ip).parkAt s.cur.1 s.cur.2.val (.bkpt true) := by
  simp only [State.takeStop, State.takeTrap, mkTrap, Cause.kind, beq_self_eq_true]

theorem State.me_takeStop_bkpt (s : State) : (s.takeStop (.trap (mkTrap .bkpt 0))).me =
    { ({ s.me with issued := true } : Ctx).trapped (mkTrap .bkpt 0) s.me.ip with
      st := .parked, await := .bkpt true, stall := Stall.fault.code, rcur := 0, rbuf := [] } := by
  rw [State.takeStop_bkpt]
  refine (State.ctx_onCtx_self ..).trans ?_
  rw [State.setTrap, State.ctx_onCtx_self, State.ctx_noteIssue]
  rfl

theorem bkptParks : Says.BkptParks := by
  intro s
  refine ⟨s.takeStop (.trap (mkTrap .bkpt 0)), rfl, ?_⟩
  rw [State.me_takeStop_bkpt]
  refine ⟨rfl, rfl, by simp, by simp, by simp [mkTrap], by simp [mkTrap], by simp, ?_⟩
  rw [State.takeStop_bkpt]
  rfl

/-- Settles O14: a trap of kind A ends in an abort, of which the context, the queue and the slot are read off; BKPT's park is a change of its context. -/
theorem trapForms : Obligations.TrapForms := ⟨trapAborts, bkptParks⟩

/-! ### DONE and REQUEUE (R45, R234) -/

/-- What an instruction that ends its activation does before its messages leave: the context's bookkeeping, the count of the quantum, a grant and a count. -/
theorem State.advance_layout (s : State) (ip' : Word) : SameLayout s (s.advance ip') := by
  refine SameLayout.trans (t := s.onMe (fun x => x.moved (s.detAt s.cur.1) ip')) (.of_parts rfl) ?_
  refine SameLayout.trans ?_ ((Offcore.ungrant ..).trans (Offcore.count ..)).layout
  dsimp only
  split
  · exact .of_parts rfl
  · exact .refl _

/-- It leaves every core but for its contexts and the counts of the quantum. -/
theorem State.advance_sides (s : State) (ip' : Word) (n : Nat) : ((s.advance ip').core n).side = (s.core n).side := by
  by_cases h : n = s.cur.1
  · subst h; exact State.advance_side s ip'
  · rw [State.advance_core_ne s ip' h]

/-- A message requeued re-enters its queue, or its slot is freed (R234). -/
theorem Inboxed.reenter (s : State) (core ctx : Nat) (a : Act) : Inboxed s (s.reenter core ctx a) := by
  refine ite (freeSlotOf s a) (ite ((freeSlotOf s a).trans (Offcore.count ..).inboxed) (ite ?_ ((freeSlotOf s a).trans (onCore _ _ _ ?_))))
  · exact (Offcore.onPart _ _ _ (by exact fun _ => rfl)).inboxed
  · exact fun _ => rfl

section
variable (s : State) (requeue : Bool)

/-- The state in which the held messages have left and the end is recorded. -/
theorem State.finish_eq : ∃ u v w, u = (s.advance s.me.ip).leaveAll s.cur.1 (s.me.sender s.cur.2.val) s.me.sendBuf ∧ Offcore u v ∧
    w = (if requeue then v.reenter s.cur.1 s.cur.2.val s.me.activation else v.freeSlotOf s.me.activation) ∧
    Offcore (w.freeCtx s.cur.1 s.cur.2.val) (s.finish requeue) :=
  ⟨_, _, _, rfl, (Offcore.endEvent ..).trans (Offcore.failedRecords ..), rfl, Offcore.tellDispatcher ..⟩

theorem State.me_finish : (s.finish requeue).me = (s.me.moved (s.detAt s.cur.1) s.me.ip).freed := by
  obtain ⟨u, v, w, rfl, hv, rfl, hw⟩ := State.finish_eq s requeue
  have hin : ∀ x : State, Inboxed x (if requeue then x.reenter s.cur.1 s.cur.2.val s.me.activation else x.freeSlotOf s.me.activation) :=
    fun x => .ite (.reenter ..) (.freeSlotOf ..)
  have hleave := Inboxed.leaveAll (s.advance s.me.ip) s.cur.1 (s.me.sender s.cur.2.val) s.me.sendBuf
  have hx := (hleave.trans hv.inboxed).trans (hin v)
  rw [State.me, hw.cur, (Housed.freeCtx ..).cur, hx.cur, State.advance_cur, hw.ctx, State.ctx_freeCtx_self, hx.ctx]
  have hme := State.advance_me s s.me.ip
  rw [State.me, State.advance_cur] at hme
  rw [hme]

/-- After DONE the slot of the message is free, and every request kept when the messages had left is still kept. -/
theorem State.finish_done {s : State} {m : Act} (hm : s.me.act = some m) : m.m.slot ∉ ((s.finish false).core m.core).slotsHeld ∧
    ∀ n, ∃ l, ((s.finish false).ep n).outs =
      (((s.advance s.me.ip).leaveAll s.cur.1 (s.me.sender s.cur.2.val) s.me.sendBuf).ep n).outs ++ l := by
  obtain ⟨u, v, w, rfl, hv, rfl, hw⟩ := State.finish_eq s false
  have ha : s.me.activation = m := by simp [Ctx.activation, hm]
  have hend := (Housed.freeCtx (v.freeSlotOf s.me.activation) s.cur.1 s.cur.2.val).trans hw.housed
  refine ⟨?_, fun n => ?_⟩
  · rw [hend.slotsHeld, ha]
    exact State.slotsHeld_freeSlotOf v m
  · obtain ⟨l, hl⟩ := hv.outs n
    obtain ⟨k, hk⟩ := hend.outs n
    exact ⟨l ++ k, by rw [hk, State.freeSlotOf]; exact (congrArg (· ++ k) hl).trans (List.append_assoc ..)⟩

/-- REQUEUE of a message of a task that goes on, outside deterministic mode, puts it at the tail of its queue, its slot no longer a context's. -/
theorem State.finish_requeue {s : State} {m : Act} (hm : s.me.act = some m) (hb : s.me.sendBuf = []) (hl : s.taskLive m.core m.m.msg = true)
    (h4 : m.m.msg.env.kind ≠ 4) (h5 : m.m.msg.env.kind ≠ 5) (hd : s.detAt s.cur.1 = false) (hdm : s.detAt m.core = false) :
    m.m.slot ∉ ((s.finish true).core m.core).slotsHeld ∧ ((s.finish true).core m.core).queue m.queue =
      (s.core m.core).queue m.queue ++ [{ m.m with arrival := s.time, since := s.time, held := false }] := by
  obtain ⟨u, v, w, rfl, hv, rfl, hw⟩ := State.finish_eq s true
  have ha : s.me.activation = m := by simp [Ctx.activation, hm]
  have hend := (Housed.freeCtx (v.reenter s.cur.1 s.cur.2.val m) s.cur.1 s.cur.2.val).trans (ha ▸ hw.housed)
  rw [hb] at hv
  have hlay : SameLayout s v := (State.advance_layout s s.me.ip).trans hv.layout
  have hside : ∀ n, (v.core n).side = (s.core n).side := fun n => by rw [hv.core]; exact State.advance_sides s s.me.ip n
  have hlive : v.taskLive m.core m.m.msg = true := by
    have htask : (v.core m.core).task m.m.msg.env.tag = (s.core m.core).task m.m.msg.env.tag :=
      (congrArg (fun k => k.task m.m.msg.env.tag) (hside m.core) : _)
    simpa only [State.taskLive, htask] using hl
  have hqueue : (v.core m.core).queue m.queue = (s.core m.core).queue m.queue := (congrArg (fun k => k.queue m.queue) (hside m.core) : _)
  have htime : v.timeAt m.core = s.time := by
    have hdv : (v.part (v.pOf m.core)).det = false := (hlay.detAt m.core).trans hdm
    simp only [State.timeAt, hdv, Bool.false_eq_true, if_false, hv.time]
    exact State.advance_time ..
  have hre : v.reenter s.cur.1 s.cur.2.val m = (v.freeSlotOf m).onCore m.core (fun k => k.setQueue m.queue (k.queue m.queue ++
      [{ m.m with arrival := s.time, since := s.time, held := false }])) := by
    simp only [State.reenter, h4, h5, hlive, hlay.detAt, hd, htime, decide_false, Bool.or_self, Bool.not_true, Bool.false_eq_true, if_false]
  rw [hend.slotsHeld, hend.queue, hre, State.core_onCore_self, CoreSt.queue_setQueue_self]
  refine ⟨State.slotsHeld_freeSlotOf v m, ?_⟩
  rw [State.freeSlotOf, State.core_onCore_self]
  exact congrArg (· ++ _) hqueue

end

/-- Whether messages can leave depends on the interface and on the layout of the partitions. -/
theorem State.canLeave_advance (s : State) (ip' : Word) (core : Nat) (l : List OutMsg) : (s.advance ip').canLeave core l = s.canLeave core l := by
  have hep : (s.advance ip').ep core = s.ep core := by rw [State.ep, State.advance_eps, State.ep]
  unfold State.canLeave
  rw [hep, (State.advance_layout s ip').detAt]

/-- Settles O17: an activation's end frees its context and its slot; what DONE holds leaves first, in its order, and REQUEUE puts the message back. -/
theorem activationEnds : Obligations.ActivationEnds := by
  intro s m hm hc
  have hfreed : ∀ b, (s.finish b).me.st = .free ∧ (s.finish b).me.act = none ∧ (s.finish b).me.sendBuf = [] ∧ (s.finish b).me.g = s.me.g := fun b => by
    rw [State.me_finish]; exact ⟨rfl, rfl, rfl, rfl⟩
  refine ⟨⟨_, if_pos hc, ?_⟩, fun hb hl _ h4 h5 hd hdm => ⟨_, if_pos hc, ?_⟩⟩
  · obtain ⟨hst, hact, hbuf, hg⟩ := hfreed false
    obtain ⟨hslot, houts⟩ := State.finish_done hm
    refine ⟨hst, hact, hbuf, hg, hslot, fun hd hr => ?_⟩
    have hlay := State.advance_layout s s.me.ip
    have hleave := State.outs_leaveAll (s := s.advance s.me.ip) (core := s.cur.1) (snd := s.me.sender s.cur.2.val) (l := s.me.sendBuf)
      ((hlay.detAt _).trans hd) (fun o ho => by rw [hlay.coreRange]; exact hr o ho) ((State.canLeave_advance ..).trans hc)
    obtain ⟨l, hl⟩ := houts s.cur.1
    refine ⟨l, hl.trans ?_⟩
    rw [hleave, State.ep, State.advance_eps]
    rfl
  · obtain ⟨hst, hact, -, hg⟩ := hfreed true
    obtain ⟨hslot, hqueue⟩ := State.finish_requeue hm hb hl h4 h5 hd hdm
    exact ⟨hst, hact, hg, hslot, hqueue⟩

end Sys2Proof.Machine
end

section
/-!
SUPPORT. The send instructions (R229-R231): the message that they build, where it waits or how it leaves (R44, R254), and O15 from it.
-/

namespace Sys2Proof.Machine

/-- The message that a send of the running context builds (R229, R230). -/
def State.built (s : State) (kind : Nat) (d : GReg) (q : QSel) (n : BitVec 6) (tg : Option (BitVec 3)) (pay : List Word) : Msg :=
  let tag := match tg with | some v => v.toNat | none => s.me.tag
  ⟨⟨s.lnum s.cur.1, s.cur.2.val, q.code.toNat, tag, (s.myCore.task tag).gen, 8 * n.toNat, kind, s.me.seq⟩,
    (List.range 5).map (fun j => s.g (gOf (BitVec.ofNat 5 (d.val + j)))), pay, .plain⟩

/-- A release with every earlier store performed and none failed goes through (R155, R195). -/
theorem State.release_ok {s : State} {r : Stall} (hl : s.lanesMine = false) (hf : s.me.failed = []) : s.release r = .ok () s := by
  simp only [State.release, State.failCheck, hf, Res.bind, hl, Bool.false_eq_true, if_false]

section
variable {s : State} {d b : GReg} {q : QSel} {n : BitVec 6} {tg : Option (BitVec 3)} {pay : List Word} {kind dest : Nat} {ptr : Word}
  {tgt : State → Option Nat} (hl : s.lanesMine = false) (hf : s.me.failed = []) (ha : n = 0 ∨ (s.g b).toNat % 8 = 0)
  (hp : s.readWords (s.g b) [] n.toNat = .ok pay s) (ht : tgt s = some dest)
include hl hf ha hp ht

/-- A send whose payload can be read places its message. -/
theorem sendMsg_places (now : Bool) : sendMsg tgt kind now d q ptr b n tg s = run (s.place now ⟨dest, s.built kind d q n tg pay⟩) := by
  have halign : (n != 0 && (s.g b).toNat % 8 != 0) = false := by
    rcases ha with h | h <;> simp [h]
  simp only [sendMsg, State.release_ok hl hf, Res.bind, ht, halign, hp, Bool.false_eq_true, if_false]
  rfl

end

/-! ### Held in the send buffer (R44, R230) -/

/-- The context with a message behind those that it holds, and SEQ counted on. -/
def Ctx.hold1 (x : Ctx) (o : OutMsg) : Ctx := { x with sendBuf := x.sendBuf ++ [o], seq := x.seq + 1 }

/-- A message that finds room in the send buffer waits there. -/
theorem State.place_held {s : State} {o : OutMsg} (hr : s.me.sendBuf.length < 8) (hc : s.canLeave s.cur.1 [] = true) :
    s.place false o = .ok () (s.onMe (fun x => x.hold1 o)) := by
  have hlen : (s.me.sendBuf ++ [o]).length - 8 = 0 := by simp; omega
  simp only [State.place, hlen, List.take_zero, List.drop_zero, hc, Bool.false_eq_true, if_false, if_true, State.leaveAll, List.foldl_nil]
  simp only [State.onMe, State.onCtx, Ctx.hold1]
  rfl

theorem sendHolds : Says.SendHolds := by
  intro s d a b q n tg i dest kind pay hs hi hl hf ha hp hr hc tag env words
  have hplace := State.place_held (o := ⟨dest, s.built kind d q n tg pay⟩) hr hc
  have hx : exec i s = run (s.place false ⟨dest, s.built kind d q n tg pay⟩) := by
    rcases hi with ⟨rfl, rfl, rfl⟩ | ⟨rfl, hd, rfl⟩ | ⟨rfl, rfl, rfl⟩ | ⟨rfl, rfl, rfl⟩
    · exact sendMsg_places (tgt := fun s => some (coreField (s.g a))) (ptr := s.g a) hl hf ha hp rfl false
    · exact sendMsg_places (tgt := fun s => s.placeOf (s.g a)) (ptr := s.g a) hl hf ha hp hd false
    · exact sendMsg_places (tgt := fun s => some (coreField (s.g a))) (ptr := s.g a) hl hf ha hp rfl false
    · exact sendMsg_places (tgt := fun s => some s.me.activation.m.msg.env.src) (ptr := 0) hl hf ha hp rfl false
  refine ⟨_, hx.trans (by rw [hplace]; rfl), ?_⟩
  rw [retire_eq s _ (by rw [State.me_onMe]; rfl) (by rw [State.me_onMe]; rfl)]
  exact retired_onMe s _ (fun x => x.hold1 _) hs

/-! ### Leaving at once (R231, R254) -/

/-- One message can leave an interface with nothing in its backlog, a free number and room. -/
theorem State.canLeave_one {s : State} {core : Nat} {o : OutMsg} (hd : s.detAt core = false) (hb : (s.ep core).backlog = [])
    (hn : (s.ep core).canSend o.dest = true) (hr : (s.ep core).out.length < 64)
    (hm : ((s.ep core).out.filter (fun y => y.dest == o.dest)).length < 16) : s.canLeave core [o] = true := by
  rw [State.canLeave_iff hd]
  refine ⟨hr, hb, fun x hx => ?_⟩
  obtain rfl : x = o := List.mem_singleton.1 hx
  simp only [Endp.canSend, Bool.and_eq_true, List.all_eq_true, decide_eq_true_eq] at hn
  have hone : ([x].filter (fun y => y.dest == x.dest)).length = 1 := by simp
  rw [hone]
  exact ⟨hm, fun y hy => hn.2 y hy⟩

/-- A message that leaves at once, with nothing held. -/
theorem State.place_now {s : State} {o : OutMsg} (hbuf : s.me.sendBuf = []) (hc : s.canLeave s.cur.1 [o] = true) :
    s.place true o = .ok () ((s.onMe (fun x => { x with sendBuf := [], seq := x.seq + 1 })).leave s.cur.1 (s.me.sender s.cur.2.val) o) := by
  simp only [State.place, hbuf, List.nil_append, if_true, hc, State.leaveAll, List.foldl_cons, List.foldl_nil]

theorem sendaLeaves : Says.SendaLeaves := by
  intro s d a b q n tg pay hs hl hf ha hp hbuf hd hb hn hr hm hlo hhi tag env words
  let o : OutMsg := ⟨(s.g a).toNat % 4096, s.built 0 d q n tg pay⟩
  let s1 := s.onMe (fun x => { x with sendBuf := [], seq := x.seq + 1 })
  let u := s1.leave s.cur.1 (s.me.sender s.cur.2.val) o
  have hu : u = _ := State.leave_sends (s := s1) (core := s.cur.1) (o := o) hd ⟨hlo, hhi⟩ hb hn
  have hin : Inboxed s1 u := .leave ..
  have hcur : u.cur = s.cur := hin.cur
  have hme : u.me = { s.me with sendBuf := [], seq := s.me.seq + 1 } := hin.me.trans (State.me_onMe s _)
  have hx : exec (.senda d q a b n tg) s = .next u.retire := by
    refine (sendMsg_places (tgt := fun s => some (coreField (s.g a))) (ptr := s.g a) hl hf ha hp rfl true).trans ?_
    change run (s.place true o) = _
    rw [State.place_now (o := o) hbuf (State.canLeave_one hd hb hn hr hm)]
    rfl
  have hsu : Steady u := by rw [Steady, hme]; exact hs
  have hret : u.retire = u.advance (nextIp s.me.latch.nh s.me.ip) := by
    rw [retire_eq s u (by rw [hme]) (by rw [hme]), State.retireTo_eq u _ hsu]
  have hep : u.retire.ep s.cur.1 = u.ep s.cur.1 := by rw [hret, State.ep, State.advance_eps, State.ep]
  have hmer : u.retire.me = _ := (congrArg State.me hret).trans (State.advance_me u _)
  let r : OutReq := ⟨o.dest, AMap.get 0 (s.ep s.cur.1).nextNum o.dest, 0, .msg o.msg, s.me.sender s.cur.2.val, .reply, s.time, 0, none, 0⟩
  refine ⟨u.retire, r, hx, ?_, rfl, rfl, ?_, ?_, ?_, ?_, ?_⟩
  · rw [hep, hu, State.ep_onEp_self]; rfl
  · rw [hmer, Ctx.moved, hme]
  · rw [hmer, Ctx.moved, hme]
  · rw [hmer, Ctx.moved]
  · rw [hmer, Ctx.moved, hme]
  · rw [hret, State.advance_mem, hu]
    change (s1.count _ _ _).mem = s.mem
    rw [State.count_mem]
    rfl

/-- Settles O15: each send builds one message; it waits in the buffer, or SENDA's becomes a request of the interface. -/
theorem sendForms : Obligations.SendForms := ⟨sendHolds, sendaLeaves⟩

end Sys2Proof.Machine
end

section
/-!
SUPPORT. Pre-emption (R49), PREEMPTWAIT and the freeze of a deadlock (R56, R424), and O44 from it: which fields of the partition a request, a completed
save, a resumption and a freeze write, and that a broken window entry stays broken.
-/

namespace Sys2Proof.Machine

/-! ### Records of a partition whose firmware disposes of them (R423) -/

/-- A record of firmware's own disposition waits behind those that wait. -/
theorem State.find_pushRec {s : State} {p : Nat} {P : Part} (hp : AMap.find s.parts p = some P) (h : P.trapHost = false) (r : TrapRec) :
    AMap.find (s.pushRec p r).parts p = some { P with recs := P.recs ++ [r] } := by
  have hpart := State.part_of_find hp
  have hfind := State.find_onPart hp (fun P => { P with recs := P.recs ++ [r] })
  have hpush : s.pushRec p r = s.onPart p (fun P => { P with recs := P.recs ++ [r] }) := by
    simp only [State.pushRec, hpart, h, Bool.false_and, Bool.false_eq_true, if_false, State.trFlush, State.part_of_find hfind, Bool.not_false,
      Bool.true_or, if_true]
    split <;> rfl
  rw [hpush, hfind]

/-- The state of a deadlock's report: records and a vector (R424). -/
theorem Recorded.reportDeadlock (s : State) (p : Nat) : Recorded s (s.reportDeadlock p) :=
  ((Recorded.recordE ..).trans (Recorded.foldl _ _ _ (fun _ _ => .pushRec ..))).trans (.msi ..)

/-! ### Window entries broken (R370, R375) -/

theorem State.wins_dropStore (s : State) (st : WStore) : (s.dropStore st).wins = s.wins := by simp only [State.dropStore, State.count_wins]; rfl

theorem State.wins_dropStores (l : List WStore) (s : State) : (l.foldl (fun s st => s.dropStore st) s).wins = s.wins := by
  induction l generalizing s with
  | nil => rfl
  | cons st l ih => exact (ih _).trans (State.wins_dropStore s st)

/-- An entry as BROKEN leaves it. -/
def WEnt.snapped (w : WEnt) : WEnt := { w with broken := true, q := [], outst := [], reopened := false }

/-- PREEMPTWAIT's end for one entry: broken and logged (R49). -/
def State.snap (s : State) (p xd n : Nat) : State :=
  (s.breakEntry xd n).log p [Cause.windowBroken.word false, BitVec.ofNat 64 (n + xd * 2 ^ 10)]

section
variable (s : State) (p xd n : Nat)

theorem State.wins_snap : (s.snap p xd n).wins = (s.setWent xd n (s.went xd n).snapped).wins := by
  rw [State.snap, (Recorded.log ..).wins]
  exact State.wins_dropStores ..

theorem State.win_snap_ne {xe : Nat} (h : xe ≠ xd) : (s.snap p xd n).win xe = s.win xe := by
  simp only [State.win, State.wins_snap, State.setWent, State.onWin, AMap.get_set_ne _ _ _ h]

theorem State.went_snap (m : Nat) : (s.snap p xd n).went xd m = if m = n then (s.went xd n).snapped else s.went xd m := by
  simp only [State.went, State.win, State.wins_snap, State.setWent, State.onWin, AMap.get_set_self]
  rw [AMap.get_set]

/-- What is broken stays broken. -/
theorem State.broken_snap {xe m : Nat} (h : (s.went xe m).broken = true) : ((s.snap p xd n).went xe m).broken = true := by
  by_cases hx : xe = xd
  · subst hx
    rw [State.went_snap]
    split
    · rfl
    · exact h
  · rw [State.went, State.win_snap_ne s p xd n hx]; exact h

end

/-- Entries of a die broken one after another. -/
def State.snapAll (s : State) (p xd : Nat) (l : List Nat) : State := l.foldl (fun s n => s.snap p xd n) s

theorem State.win_snapAll_ne {p xd xe : Nat} (h : xe ≠ xd) (l : List Nat) (s : State) : (s.snapAll p xd l).win xe = s.win xe := by
  induction l generalizing s with
  | nil => rfl
  | cons n l ih => exact (ih _).trans (State.win_snap_ne s p xd n h)

theorem State.broken_snapAll {p xd xe m : Nat} {l : List Nat} {s : State} (h : (s.went xe m).broken = true) :
    ((s.snapAll p xd l).went xe m).broken = true := by
  induction l generalizing s with
  | nil => exact h
  | cons n l ih => exact ih (State.broken_snap s p xd n h)

/-- Each entry of the list is broken. -/
theorem State.broken_snapAll_mem {p xd m : Nat} {l : List Nat} {s : State} (h : m ∈ l) : ((s.snapAll p xd l).went xd m).broken = true := by
  induction l generalizing s with
  | nil => cases h
  | cons n l ih =>
    rcases List.mem_cons.1 h with rfl | h
    · exact State.broken_snapAll (s := s.snap p xd m) (by rw [State.went_snap, if_pos rfl]; rfl)
    · exact ih h

/-- Both dies in turn: what held a store at the beginning is broken at the end. -/
theorem State.broken_holders (s : State) (p : Nat) {xd n : Nat} (hx : xd < 2) (hn : n ∈ s.holders p xd) :
    (((s.snapAll p 0 (s.holders p 0)).snapAll p 1 ((s.snapAll p 0 (s.holders p 0)).holders p 1)).went xd n).broken = true := by
  obtain rfl | rfl : xd = 0 ∨ xd = 1 := by omega
  · exact State.broken_snapAll (State.broken_snapAll_mem hn)
  · refine State.broken_snapAll_mem ?_
    rw [State.holders, State.win_snapAll_ne (by decide)]
    exact hn

/-! ### Resumption (R49) -/

/-- The clocks of cores that go on change the cores alone. -/
theorem State.restartClocks_rest (p : Nat) (l : List (Nat × CoreSt)) (s : State) :
    ∃ cs, l.foldl (fun s e => s.restartClocks p e.1) s = { s with cores := cs } := by
  induction l generalizing s with
  | nil => exact ⟨s.cores, rfl⟩
  | cons e l ih => exact ih (s.restartClocks p e.1)

/-- A saved partition runs again. -/
def Part.resumed (P : Part) : Part := { P with pre := .running, stopAt := [] }

/-- Settles O44: each event of R49 writes fields of its partition, of a deadlock's report the plan stays, and broken entries stay broken. -/
theorem preemptionEvents : Obligations.PreemptionEvents := by
  intro s p P hp
  have hpart := State.part_of_find hp
  refine ⟨fun hpre => ?_, fun hpre hfree hwork hout hwin => ?_, fun hw hsince => ?_, fun hpre hr => ?_, fun hf hdead hidle => ?_⟩
  · have hx : ((s.part p).pre != PreSt.running) = false := by rw [hpart, hpre]; rfl
    refine ⟨_, _, if_neg (by rw [hx]; decide), State.find_onPart hp _, rfl, rfl, rfl, rfl, by simp, by simp⟩
  · have hx : ((s.part p).pre == PreSt.asked && s.allFree p && !s.engineWork p && !s.requestsOut p && !s.windowWork p) = true := by
      rw [hpart, hpre, hfree, hwork, hout, hwin]; rfl
    obtain ⟨Q, hQ, -⟩ := (Recorded.recordE s p p .preempt 0 0).find hp
    refine ⟨_, _, if_pos hx, State.find_onPart hQ _, rfl, ?_, fun hh => ?_⟩
    · rw [State.onPart_cores, (Recorded.recordE ..).cores]
    · obtain rfl := Option.some.inj (hQ.symm.trans (State.find_pushRec hp hh _))
      exact ⟨_, rfl, rfl, rfl, rfl⟩
  · have hx : (s.waitsWindow p && decide ((s.part p).preSince + (s.part p).preemptwait ≤ s.time)) = true := by
      rw [hw, hpart]; simpa using hsince
    exact ⟨_, if_pos hx, fun xd hxd n hn => State.broken_holders s p hxd hn⟩
  · have hx : ((s.part p).pre != PreSt.saved) = false := by rw [hpart, hpre]; rfl
    obtain ⟨cs, hcs⟩ := State.restartClocks_rest p (s.cores.filter (fun e => s.pOf e.1 == p)) s
    have hnone : s.rlcs.filter (fun e => s.pOf (16 * e.1) == p) = [] := List.filter_eq_nil_iff.2 (fun e he => by simpa using hr e he)
    let s2 := State.onPart { s with cores := cs } p Part.resumed
    have hx2 : exec (.preemptResume p) s = .next s2 := by
      refine (if_neg (by rw [hx]; decide)).trans ?_
      rw [hcs]
      rw [State.onPart_rlcs, hnone]
      rfl
    exact ⟨s2, P.resumed, hx2, State.find_onPart (s := { s with cores := cs }) hp _, rfl, rfl, State.onPart_mem ..⟩
  · have hx : (!(s.part p).frozen && s.deadNow p && decide ((s.part p).idleSince + (s.part p).deadtime ≤ s.time)) = true := by
      rw [hpart, hf, hdead]; simpa using hidle
    have hrec := Recorded.reportDeadlock (s.onPart p (fun P => { P with frozen := true })) p
    obtain ⟨Q, hQ, hplan⟩ := hrec.find (State.find_onPart hp _)
    exact ⟨_, Q, if_pos hx, hQ, (congrArg Part.frozen hplan : _), hrec.cores.trans (by simp)⟩

end Sys2Proof.Machine
end

section
/-!
SUPPORT. How messages become activations, and O45 from it: a request reassembled (R255), a message that waited admitted (R36), the registers of an
activation at its start (R33, R40), and the queues under aging (R41).
-/

namespace Sys2Proof.Machine

/-! ### The start of an activation (R33) -/

section
variable (s : State) (core ctx q : Nat) (m : QMsg)

/-- The activation that a message becomes on a context. -/
def QMsg.act (m : QMsg) (core ctx q : Nat) : Act := ⟨m, q, core, ctx % 4, false, false, false⟩

/-- A core that has taken a message from its queue. -/
def CoreSt.takes (k : CoreSt) (q : Nat) (m : QMsg) : CoreSt :=
  { (k.setQueue q ((k.queue q).filter (fun x => x.slot != m.slot))) with slotsHeld := k.slotsHeld ++ [m.slot], issued := true }

/-- A start changes the inbox and the context of its core; what is recorded of it changes no core. -/
theorem State.startOn_eq : ∃ u, u = (s.onCore core (fun k => k.takes q m)).onCtx core ctx (fun x => x.start (m.act core ctx q)
    (s.startIp (m.act core ctx q)) (s.startG (m.act core ctx q)) ((s.core core).task m.msg.env.tag)) ∧ Offcore u (s.startOn core ctx q m) := by
  refine ⟨_, ?_, (Offcore.coreEvent ..).trans (Offcore.count ..)⟩
  simp only [State.core_onCore_self]
  rfl

theorem State.ctx_startOn : (s.startOn core ctx q m).ctx core ctx = (s.ctx core ctx).start (m.act core ctx q) (s.startIp (m.act core ctx q))
    (s.startG (m.act core ctx q)) ((s.core core).task m.msg.env.tag) := by
  obtain ⟨u, rfl, hu⟩ := State.startOn_eq s core ctx q m
  rw [hu.ctx, State.ctx_onCtx_self, State.ctx, State.core_onCore_self]
  rfl

theorem State.core_startOn : ((s.startOn core ctx q m).core core).slotsHeld = (s.core core).slotsHeld ++ [m.slot] ∧
    ((s.startOn core ctx q m).core core).queue q = ((s.core core).queue q).filter (fun y => y.slot != m.slot) := by
  obtain ⟨u, rfl, hu⟩ := State.startOn_eq s core ctx q m
  have hh := Housed.onCtx (s.onCore core (fun k => k.takes q m)) core ctx (fun x => x.start (m.act core ctx q)
    (s.startIp (m.act core ctx q)) (s.startG (m.act core ctx q)) ((s.core core).task m.msg.env.tag))
  rw [hu.core, hh.slotsHeld, hh.queue, State.core_onCore_self]
  exact ⟨rfl, CoreSt.queue_setQueue_self ..⟩

/-- A message that may start does. -/
theorem exec_activationStart {s : State} {core ctx q : Nat} {m : QMsg} (h : s.startable core ctx = some (q, m))
    (hd : s.detAt core = true → s.firstStart core = some (ctx % 4)) : exec (.activationStart core ctx) s = .next (s.startOn core ctx q m) := by
  have hx : (s.detAt core && s.firstStart core != some (ctx % 4)) = false := by
    cases hdet : s.detAt core with
    | false => rfl
    | true => simp [hd hdet]
  change execActivationStart core ctx s = _
  rw [execActivationStart, hx, if_neg (by decide), h]

end

/-- The value that R33 gives a general register. -/
def State.startVal (s : State) (a : Act) : Nat → Word
  | 1 => a.m.msg.words.getD 1 0
  | 2 => a.m.msg.words.getD 2 0
  | 3 => a.m.msg.words.getD 3 0
  | 4 => if a.m.msg.env.kind = 4 then s.startPay a else a.m.msg.words.getD 4 0
  | 5 => BitVec.ofNat 64 a.m.msg.env.id
  | 6 => s.startPay a
  | 7 => BitVec.ofNat 64 a.m.msg.env.plen
  | _ => 0

theorem State.startG_getD (s : State) (a : Act) {i : Nat} (hi : i < 32) : (s.startG a).toList.getD i 0 = s.startVal a i := by
  rw [List.getD_eq_getElem _ _ (by simpa using hi), Vector.getElem_toList]
  simp only [State.startG, Vector.getElem_ofFn]
  match i with
  | 0 | 1 | 2 | 3 | 4 | 5 | 6 | 7 | _ + 8 => rfl

theorem State.startVal_zero (s : State) (a : Act) {i : Nat} (hi : i = 0 ∨ 8 ≤ i ∧ i < 32) : s.startVal a i = 0 := by
  match i with
  | 0 | _ + 8 => rfl
  | 1 | 2 | 3 | 4 | 5 | 6 | 7 => omega

/-- The payload's generic inbox address (R33, R42). -/
theorem State.payStart_eq (s : State) (a : Act) : s.payStart a =
    0x0FFF300000000000 + s.lnum a.core % 4096 * 2 ^ 32 + 512 * a.m.slot + (if a.m.msg.env.kind = 2 then 8 else 48) := by
  simp only [State.payStart, payOffset]
  omega

theorem activationStarts : Says.ActivationStarts := by
  intro s core ctx q m hq hst hd task a
  have hx := exec_activationStart hst hd
  refine ⟨fun hinfo h4 hline => ⟨_, hx, ?_⟩, fun code hinfo => ⟨_, hx, ?_⟩⟩
  · obtain ⟨hslots, hqueue⟩ := State.core_startOn s core ctx q m
    have hg : ∀ i, i < 32 → ((s.startOn core ctx q m).ctx core ctx).g.toList.getD i 0 = s.startVal a i := fun i hi => by
      rw [State.ctx_startOn]; exact State.startG_getD s a hi
    have hip : s.startIp a = m.msg.words.getD 0 0 := by simp only [State.startIp, hline, Bool.false_eq_true, if_false]; rfl
    refine ⟨?_, ?_, ?_, fun i hi => ?_, hg 5 (by decide), (hg 6 (by decide)).trans ?_, hg 7 (by decide), fun i hi => ?_, ?_⟩
    · rw [State.ctx_startOn]; rfl
    · rw [State.ctx_startOn]; rfl
    · rw [State.ctx_startOn]; exact hip
    · rw [hg i (by fin_cases hi <;> decide)]
      fin_cases hi
      · rfl
      · rfl
      · rfl
      · exact if_neg h4
    · simp only [State.startVal, State.startPay, State.payStart_eq]
      rfl
    · rw [hg i (by omega), State.startVal_zero s a hi]
    · rw [State.ctx_startOn, hslots, hqueue]
      exact ⟨rfl, rfl, rfl, rfl, rfl, rfl, rfl, rfl, rfl, rfl, rfl, by simp, rfl⟩
  · rw [State.ctx_startOn]
    refine ⟨rfl, rfl, ?_⟩
    change (match m.msg.info with | .rlcExit code true => some code | .rlcExit _ false | .plain | .arrive | .copyDone _ | .dispatch _ | .phase _ _ => none) = _
    rw [hinfo]

/-! ### Reassembly (R255) and admission (R36) -/

/-- With nothing that is taken at once due, nothing is. -/
theorem State.admitDue_none {s : State} {ep : Nat} (h : (s.ep ep).due InReq.atOnce = none) (n : Nat) : s.admitDue ep n = s := by
  cases n with
  | zero => rfl
  | succ n => simp only [State.admitDue, h]

/-- A complete request that is new to its pair is held for its turn. -/
theorem State.assembled_held {s : State} {ep : Nat} {a : Asm} {left : List Asm} (hnew : (a.num + 32 - AMap.get 0 (s.ep ep).expect a.src) % 32 < 16)
    (hone : (s.ep ep).ready.any (fun y => y.src == a.src && y.num == a.num) = false) :
    s.assembled ep a left = (s.onEp ep (fun e => { e with asm := left })).onEp ep
      (fun e => { e with ready := insertBy InReq.before ⟨a.src, a.num, a.kind, a.body, s.time⟩ e.ready }) := by
  simp only [State.assembled, hnew, hone, if_true, Bool.false_eq_true, if_false]

/-- A duplicate of an answered request is answered again. -/
theorem State.assembled_again {s : State} {ep : Nat} {a : Asm} {left : List Asm} {k : Kept}
    (hold : 16 ≤ (a.num + 32 - AMap.get 0 (s.ep ep).expect a.src) % 32)
    (hk : (s.ep ep).kept.find? (fun k => k.src == a.src && k.num == a.num) = some k) :
    s.assembled ep a left = (s.onEp ep (fun e => { e with asm := left })).sendRsp ep a.src a.num k.rsp := by
  simp only [State.assembled, if_neg (Nat.not_lt.2 hold), hk]

/-- A complete request is taken in, and what is then due is taken. -/
theorem exec_requestReassembled {s : State} {n : Nat} {a : Asm} {left : List Asm}
    (h : takeFirst (fun (x : Asm) => x.got.length == x.mlen + 1) (s.ep n).asm = some (a, left)) :
    exec (.requestReassembled n) s = .next ((s.assembled n a left).admitDue n ((s.assembled n a left).ep n).ready.length) := by
  change execRequestReassembled n s = _
  simp only [execRequestReassembled]
  rw [h]

/-- An answer leaves memory. -/
theorem State.mem_respondTo (s : State) (ep : Nat) (o : Option (Nat × Nat)) (r : Rsp) : (s.respondTo ep o r).mem = s.mem := by
  cases o <;> rfl

/-! ### Aging (R41) -/

@[simp] theorem CoreSt.queue_setQueue_ne (k : CoreSt) {q r : Nat} (h : q % 5 ≠ r % 5) (l : List QMsg) : (k.setQueue q l).queue r = k.queue r := by
  simp [CoreSt.setQueue, CoreSt.queue, Vector.get_eq_getElem, h]

theorem mem_placeIn {l : List QMsg} {x m : QMsg} : x ∈ placeIn l m ↔ x = m ∨ x ∈ l := by
  simp only [placeIn, List.mem_append, mem_insertBy, List.mem_filter]
  by_cases hx : x.held = true <;> simp [hx, or_comm]

/-- What a queue holds after the messages of a list have been placed in it. -/
theorem mem_foldl_placeIn {now : Nat} {x : QMsg} (l : List QMsg) (l0 : List QMsg) :
    x ∈ l.foldl (fun l m => placeIn l { m with since := now }) l0 ↔ x ∈ l0 ∨ ∃ m ∈ l, x = { m with since := now } := by
  induction l generalizing l0 with
  | nil => simp
  | cons m l ih =>
    rw [List.foldl_cons, ih, mem_placeIn]
    simp only [List.mem_cons, exists_eq_or_imp]
    tauto

section
variable (k : CoreSt) (now : Nat) {q : Nat} (x : QMsg)

/-- What stays of a queue whose messages move up. -/
theorem CoreSt.mem_age_self (hq : 1 ≤ q ∧ q ≤ 3) : x ∈ (k.age now q).queue q ↔ x ∈ k.queue q ∧ x.ageDue now = false := by
  rw [CoreSt.age, CoreSt.queue_setQueue_ne _ (by omega), CoreSt.queue_setQueue_self]
  simp

/-- What the next higher queue then holds. -/
theorem CoreSt.mem_age_above (hq : 1 ≤ q ∧ q ≤ 3) :
    x ∈ (k.age now q).queue (q - 1) ↔ x ∈ k.queue (q - 1) ∨ ∃ m ∈ k.queue q, m.ageDue now = true ∧ x = { m with since := now } := by
  rw [CoreSt.age, CoreSt.queue_setQueue_self, mem_foldl_placeIn, CoreSt.queue_setQueue_ne _ (by omega)]
  simp [and_assoc]

/-- No other queue changes. -/
theorem CoreSt.queue_age_ne {r : Nat} (hq : 1 ≤ q ∧ q ≤ 3) (hr : r < 5) (h1 : r ≠ q) (h2 : r ≠ q - 1) : (k.age now q).queue r = k.queue r := by
  rw [CoreSt.age, CoreSt.queue_setQueue_ne _ (by omega), CoreSt.queue_setQueue_ne _ (by omega)]

end

/-- The queues once each of Q1 to Q3 has aged. -/
def CoreSt.aged (k : CoreSt) (now : Nat) : CoreSt := ((k.age now 1).age now 2).age now 3

/-- A message that has just moved is not due. -/
theorem QMsg.ageDue_moved (m : QMsg) (now : Nat) : ({ m with since := now } : QMsg).ageDue now = false := by
  simp [QMsg.ageDue]

/-- One of Q1 to Q3 after aging: what was not due, and what has come from below. -/
theorem CoreSt.mem_aged (k : CoreSt) (now : Nat) {q : Nat} (hq : 1 ≤ q ∧ q ≤ 3) (x : QMsg) : x ∈ (k.aged now).queue q ↔
    (x ∈ k.queue q ∧ x.ageDue now = false) ∨ (q ≤ 2 ∧ ∃ m ∈ k.queue (q + 1), m.ageDue now = true ∧ x = { m with since := now }) := by
  obtain rfl | rfl | rfl : q = 1 ∨ q = 2 ∨ q = 3 := by omega
  · rw [CoreSt.aged, CoreSt.queue_age_ne _ _ (by decide) (by decide) (by decide) (by decide), CoreSt.mem_age_above _ _ _ (q := 2) (by decide),
      CoreSt.mem_age_self _ _ _ (by decide), CoreSt.queue_age_ne _ _ (by decide) (by decide) (by decide) (by decide)]
    simp
  · rw [CoreSt.aged, CoreSt.mem_age_above _ _ _ (q := 3) (by decide), CoreSt.mem_age_self _ _ _ (by decide),
      CoreSt.queue_age_ne _ _ (by decide) (by decide) (by decide) (by decide), CoreSt.queue_age_ne _ _ (by decide) (by decide) (by decide) (by decide),
      CoreSt.queue_age_ne _ _ (by decide) (by decide) (by decide) (by decide)]
    simp
  · rw [CoreSt.aged, CoreSt.mem_age_self _ _ _ (by decide), CoreSt.queue_age_ne _ _ (by decide) (by decide) (by decide) (by decide),
      CoreSt.queue_age_ne _ _ (by decide) (by decide) (by decide) (by decide)]
    simp

/-- A message that is due has moved up one queue. -/
theorem CoreSt.mem_aged_above (k : CoreSt) (now : Nat) {q : Nat} (hq : 1 ≤ q ∧ q ≤ 3) {m : QMsg} (hm : m ∈ k.queue q) (h : m.ageDue now = true) :
    { m with since := now } ∈ (k.aged now).queue (q - 1) := by
  obtain rfl | ⟨h2, h3⟩ : q = 1 ∨ 2 ≤ q ∧ q ≤ 3 := by omega
  · rw [CoreSt.aged, CoreSt.queue_age_ne _ _ (by decide) (by decide) (by decide) (by decide),
      CoreSt.queue_age_ne _ _ (by decide) (by decide) (by decide) (by decide)]
    exact (CoreSt.mem_age_above _ _ _ (by decide)).2 (.inr ⟨m, hm, h, rfl⟩)
  · refine (CoreSt.mem_aged k now (q := q - 1) (by omega) _).2 (.inr ⟨by omega, m, ?_, h, rfl⟩)
    rwa [show q - 1 + 1 = q by omega]

theorem admissionEvents : Says.AdmissionEvents := by
  intro s n a left w rest s' q m e r held
  refine ⟨fun htake => ⟨fun hnew hone hdue => ?_, fun k hold hready hk => ?_⟩, fun hw hl hent => ?_, fun h1 h3 hpre hm => ?_⟩
  · have hx := exec_requestReassembled htake
    rw [State.assembled_held hnew hone, State.admitDue_none (by rw [State.ep_onEp_self, State.ep_onEp_self]; exact hdue)] at hx
    exact ⟨_, hx, by simp [held, r, e], by simp, rfl, rfl⟩
  · have hx := exec_requestReassembled htake
    have hnone : ((s.assembled n a left).ep n).ready = [] := by
      rw [State.assembled_again hold hk, State.sendRsp, State.ep_onEp_self, State.ep_onEp_self]; exact hready
    rw [hnone] at hx
    refine ⟨_, hx, ?_⟩
    simp only [List.length_nil, State.admitDue]
    rw [State.assembled_again hold hk, State.sendRsp, State.ep_onEp_self, State.ep_onEp_self]
    exact ⟨rfl, hready, rfl, rfl, rfl⟩
  · let t := (s'.onCore n (fun k => { k with waiting := rest })).respondTo n w.origin .ok
    have hx : exec (.slotFreedAdmit n) s = .next t := by
      change execSlotFreedAdmit n s = _
      simp only [execSlotFreedAdmit, hw, hl, hent, Bool.false_eq_true, if_false]
      rfl
    refine ⟨t, hx, ?_⟩
    rw [(Offcore.respondTo ..).core, State.core_onCore_self, State.mem_respondTo]
    exact ⟨rfl, rfl, rfl⟩
  · let now := s.timeAt n
    let t := s.onCore n (fun k => k.aged now)
    have hx : exec (.queueAging n) s = .next t := if_neg (by rw [hpre]; decide)
    refine ⟨t, hx, rfl, ?_⟩
    rw [State.core_onCore_self]
    refine ⟨fun hh hs => ?_, fun hh => ?_⟩
    · have hdue : m.ageDue now = true := by simp [QMsg.ageDue, hh, now, hs]
      refine ⟨CoreSt.mem_aged_above _ _ ⟨h1, h3⟩ hm hdue, fun hstay => ?_⟩
      rcases (CoreSt.mem_aged _ _ ⟨h1, h3⟩ m).1 hstay with ⟨-, hnot⟩ | ⟨-, m', -, -, hmoved⟩
      · simp [hdue] at hnot
      · have := QMsg.ageDue_moved m' now
        rw [← hmoved, hdue] at this
        cases this
    · refine (CoreSt.mem_aged _ _ ⟨h1, h3⟩ m).2 (.inl ⟨hm, ?_⟩)
      simp only [QMsg.ageDue, Bool.and_eq_false_iff, Bool.not_eq_false', decide_eq_false_iff_not, Nat.not_lt]
      exact hh

/-- Settles O45: a start writes the registers of R33, and each event of admission and aging is read off its own step. -/
theorem activationEvents : Obligations.ActivationEvents := ⟨activationStarts, admissionEvents⟩

end Sys2Proof.Machine
end

section
/-!
SUPPORT. What keeps the books of cores and partitions: their task entries, the count of a quantum, and of a partition the packet in hand, its queues and the
number of quanta. Paging (R152), engines, deliveries and the end of activations all do.
-/

namespace Sys2Proof.Machine

/-- The books of a core: task entries, features, and the count of its quantum. -/
def CoreSt.tally (k : CoreSt) : Vector Task 8 × Word × Nat × Bool := (k.tasks, k.featmask, k.retired, k.qdone)

/-- The books of a partition: the packet in hand, the command queues, its dies and the number of quanta. -/
def Part.tally (P : Part) : Option Packet × AMap CmdQ × Nat × Nat := (P.packet, P.queues, P.dies, P.quanta)

/-- The books of every core and of every partition stand as they did. -/
structure Tallied (s t : State) : Prop where
  cores : ∀ n, (t.core n).tally = (s.core n).tally
  parts : viewsOf Part.tally t.parts = viewsOf Part.tally s.parts

/-- So do the front-unit events of the quantum. -/
structure Paged (s t : State) : Prop extends Tallied s t where
  fevs : ∀ p, (t.part p).fevs = (s.part p).fevs

/-- A core of a machine whose listed cores have been changed one by one. -/
theorem State.core_mapVals {s t : State} {f : Nat → CoreSt → CoreSt} (h : t.cores = AMap.mapVals f s.cores) (n : Nat) :
    t.core n = f n (s.core n) ∨ (t.core n = CoreSt.reset ∧ s.core n = CoreSt.reset) := by
  simp only [State.core, get_eq_find, h, AMap.find_mapVals]
  cases AMap.find s.cores n with
  | none => exact .inr ⟨rfl, rfl⟩
  | some k => exact .inl rfl

/-- A core whose TLBs and instruction cache have dropped entries. -/
def CoreSt.dropTlb (f : TlbE → Bool) (k : CoreSt) : CoreSt :=
  { k with ctxs := k.ctxs.map (fun x => { x with tlb := x.tlb.filter (fun t => !f t) })
           icache := k.icache.filter (fun e => !f ⟨e.la, 64, 0, 0, false, 0⟩) }

/-- A core whose stores and channel advances have changed their keys. -/
def CoreSt.rekey (f : Nat → Nat) (k : CoreSt) : CoreSt :=
  { k with lanes := k.lanes.map (fun e => { e with pa := f e.pa }), advs := k.advs.map (fun a => { a with pa := f a.pa }) }

/-! ### Books kept -/

namespace Tallied
variable {s t u : State}

theorem refl (s : State) : Tallied s s := ⟨fun _ => rfl, rfl⟩
theorem trans (h : Tallied s t) (g : Tallied t u) : Tallied s u := ⟨fun n => (g.cores n).trans (h.cores n), g.parts.trans h.parts⟩

theorem ite {c : Prop} {_ : Decidable c} (ht : Tallied s t) (hu : Tallied s u) : Tallied s (if c then t else u) := by
  split
  · exact ht
  · exact hu

theorem foldl {α : Type} {f : State → α → State} (hf : ∀ s a, Tallied s (f s a)) (l : List α) (s : State) : Tallied s (l.foldl f s) := by
  induction l generalizing s with
  | nil => exact refl s
  | cons a t ih => exact (hf s a).trans (ih _)

theorem tasks (h : Tallied s t) (n : Nat) : (t.core n).tasks = (s.core n).tasks := (congrArg Prod.fst (h.cores n) : _)
theorem task (h : Tallied s t) (n tag : Nat) : (t.core n).task tag = (s.core n).task tag := by simp only [CoreSt.task, h.tasks]
theorem featmask (h : Tallied s t) (n : Nat) : (t.core n).featmask = (s.core n).featmask := (congrArg (fun x => x.2.1) (h.cores n) : _)
theorem retired (h : Tallied s t) (n : Nat) : (t.core n).retired = (s.core n).retired := (congrArg (fun x => x.2.2.1) (h.cores n) : _)
theorem qdone (h : Tallied s t) (n : Nat) : (t.core n).qdone = (s.core n).qdone := (congrArg (fun x => x.2.2.2) (h.cores n) : _)

theorem pOf (h : Tallied s t) (n : Nat) : t.pOf n = s.pOf n := partKey_viewsOf (f := Part.tally) (fun x => x.2.2.1) (fun _ => rfl) h.parts _

theorem find (h : Tallied s t) {p : Nat} {P : Part} (hp : AMap.find s.parts p = some P) :
    ∃ Q, AMap.find t.parts p = some Q ∧ Q.packet = P.packet ∧ Q.queues = P.queues ∧ Q.quanta = P.quanta := by
  have := find_viewsOf h.parts p
  rw [hp] at this
  cases ht : AMap.find t.parts p with
  | none => simp [ht] at this
  | some Q =>
    have hQ : Q.tally = P.tally := by simpa [ht] using this
    simp only [Part.tally, Prod.mk.injEq] at hQ
    obtain ⟨hk, hq, -, hn⟩ := hQ
    exact ⟨Q, rfl, hk, hq, hn⟩

theorem onCore (s : State) (n : Nat) (f : CoreSt → CoreSt) (hf : ∀ k, (f k).tally = k.tally) : Tallied s (s.onCore n f) where
  cores m := by
    by_cases h : m = n
    · subst h; rw [State.core_onCore_self, hf]
    · rw [State.core_onCore_ne s f h]
  parts := rfl

end Tallied

theorem Inboxed.tallied {s t : State} (h : Inboxed s t) : Tallied s t where
  cores n := (congrArg CoreSt.tally (h.cores n) : _)
  parts := viewsOf_comp (f := Part.bare) Part.tally h.layout.bares

theorem Offcore.tallied {s t : State} (h : Offcore s t) : Tallied s t := h.inboxed.tallied

theorem Housed.tallied {s t : State} (h : Housed s t) : Tallied s t where
  cores n := (congrArg CoreSt.tally (h.cores n) : _)
  parts := viewsOf_comp (f := Part.bare) Part.tally h.layout.bares

namespace Paged
variable {s t u : State}

theorem refl (s : State) : Paged s s := ⟨.refl s, fun _ => rfl⟩
theorem trans (h : Paged s t) (g : Paged t u) : Paged s u := ⟨h.toTallied.trans g.toTallied, fun p => (g.fevs p).trans (h.fevs p)⟩

theorem ite {c : Prop} {_ : Decidable c} (ht : Paged s t) (hu : Paged s u) : Paged s (if c then t else u) := by
  split
  · exact ht
  · exact hu

theorem foldl {α : Type} {f : State → α → State} (hf : ∀ s a, Paged s (f s a)) (l : List α) (s : State) : Paged s (l.foldl f s) := by
  induction l generalizing s with
  | nil => exact refl s
  | cons a t ih => exact (hf s a).trans (ih _)

/-- A change of what is neither of a core nor of a partition. -/
theorem of_eq (hc : t.cores = s.cores) (hp : t.parts = s.parts) : Paged s t :=
  ⟨⟨fun n => by rw [State.core_congr_cores hc], by rw [hp]⟩, fun p => by rw [State.part, hp, State.part]⟩

theorem of_recorded (h : Recorded s t) : Paged s t :=
  ⟨(Offcore.of_recorded h).tallied, fun p => (congrArg Part.fevs (h.part_plan p) : _)⟩

theorem onCore (s : State) (n : Nat) (f : CoreSt → CoreSt) (hf : ∀ k, (f k).tally = k.tally) : Paged s (s.onCore n f) :=
  ⟨.onCore s n f hf, fun _ => rfl⟩

theorem onCtx (s : State) (n c : Nat) (f : Ctx → Ctx) : Paged s (s.onCtx n c f) := onCore s n _ (fun _ => rfl)
theorem onMem (s : State) (f : Memory → Memory) : Paged s (s.onMem f) := of_eq rfl rfl
theorem onEp (s : State) (n : Nat) (f : Endp → Endp) : Paged s (s.onEp n f) := of_eq rfl rfl
theorem onFu (s : State) (n : Nat) (f : FrontUnit → FrontUnit) : Paged s (s.onFu n f) := of_eq rfl rfl
theorem onPkg (s : State) (f : Pkg → Pkg) : Paged s (s.onPkg f) := of_eq rfl rfl
theorem tick (s : State) : Paged s s.tick := of_eq rfl rfl

theorem onPart (s : State) (p : Nat) (f : Part → Part) (hf : ∀ P, (f P).tally = P.tally) (hv : ∀ P, (f P).fevs = P.fevs) : Paged s (s.onPart p f) := by
  unfold State.onPart
  cases h : AMap.find s.parts p with
  | none => exact refl s
  | some P =>
    refine ⟨⟨fun _ => rfl, viewsOf_set h (hf P)⟩, fun q => ?_⟩
    simp only [State.part, AMap.get_set]
    split
    · next hq => rw [hq, hv, AMap.get_of_find h]
    · rfl

/-- A change of the listed cores one by one. -/
theorem mapCores {f : Nat → CoreSt → CoreSt} (hc : t.cores = AMap.mapVals f s.cores) (hf : ∀ n k, (f n k).tally = k.tally) (hp : t.parts = s.parts) :
    Paged s t where
  cores n := by
    rcases State.core_mapVals hc n with h | ⟨h1, h2⟩
    · rw [h, hf]
    · rw [h1, h2]
  parts := by rw [hp]
  fevs p := by rw [State.part, hp, State.part]

/-! ### Paging (R152) -/

theorem dropTlb (s : State) (p : Nat) (f : TlbE → Bool) : Paged s (s.dropTlb p f) :=
  mapCores (f := fun n k => if s.pOf n = p then k.dropTlb f else k) rfl (fun n k => by split <;> rfl) rfl

theorem rekey (s : State) (p : Nat) (f : Nat → Nat) : Paged s (s.rekey p f) :=
  mapCores (f := fun n k => if decide (n < 4096) && s.pOf n == p then k.rekey f else k) rfl (fun n k => by split <;> rfl) rfl

theorem moveCmds (s : State) (n : Nat) (src dst : List Nat) : Paged s (s.moveCmds n src dst) := of_eq rfl rfl

theorem evict (s : State) (p : Nat) (r : Resident) : Paged s (s.evict p r) := by
  unfold State.evict
  split
  · have h1 : ∀ e f, Paged s (((s.onMem e).dropTlb p f).tick) := fun e f => ((onMem s e).trans (dropTlb ..)).trans (tick _)
    dsimp only
    refine trans (trans ?_ (rekey _ p _)) (onPart _ p _ ?_ ?_)
    · split
      · exact ite (((h1 _ _).trans (onMem ..)).trans (moveCmds ..)) (h1 _ _)
      · exact h1 _ _
    · exact fun _ => rfl
    · exact fun _ => rfl
  · exact refl s
  · exact refl s

theorem evictOne {s t : State} {p : Nat} {need : List Nat} (h : s.evictOne p need = .got t) : Paged s t := by
  simp only [State.evictOne] at h
  split at h
  · obtain rfl := Sought.got.inj h; exact evict ..
  · split at h <;> cases h

/-- A run of frames from the pool. -/
theorem fromPool {s : State} {p n : Nat} {repl : Bool} {r : Nat × State} (h : s.fromPool p n repl = some r) : Paged s r.2 := by
  simp only [State.fromPool] at h
  split at h
  · obtain rfl := Option.some.inj h
    exact (onPart _ _ _ (by exact fun _ => rfl) (by exact fun _ => rfl)).trans (tick _)
  · cases h

theorem fromReserve {s : State} {p n : Nat} {table repl : Bool} {r : Nat × State} (h : s.fromReserve p n table repl = some r) : Paged s r.2 := by
  have hp : ∀ f : Part → Part, (∀ P, (f P).tally = P.tally) → (∀ P, (f P).fevs = P.fevs) → Paged s (s.onPart p f) := onPart s p
  simp only [State.fromReserve] at h
  split at h
  · cases h
  · split at h
    · split at h
      · obtain rfl := Option.some.inj h; exact hp _ (by exact fun _ => rfl) (by exact fun _ => rfl)
      · cases h
    · split at h
      · obtain rfl := Option.some.inj h; exact hp _ (by exact fun _ => rfl) (by exact fun _ => rfl)
      · cases h

theorem evictFor {p n : Nat} {need : List Nat} {repl : Bool} {k : Nat} {s : State} {r : Nat × State} (h : s.evictFor p n need repl k = .got r) :
    Paged s r.2 := by
  induction k generalizing s with
  | zero => cases h
  | succ k ih =>
    simp only [State.evictFor] at h
    split at h
    · cases h
    · cases h
    · next s1 he =>
      have h1 := evictOne he
      split at h
      · next r' hr =>
        obtain rfl := Sought.got.inj h
        exact h1.trans (fromPool hr)
      · exact h1.trans (ih h)

/-- A refilled reserve leaves the books. -/
theorem tally_refill (hint n : Nat) (P : Part) : (Part.refill hint n P).tally = P.tally ∧ (Part.refill hint n P).fevs = P.fevs := by
  induction n generalizing P with
  | zero => exact ⟨rfl, rfl⟩
  | succ n ih =>
    simp only [Part.refill]
    split
    · split
      · exact ih _
      · exact ⟨rfl, rfl⟩
    · split
      · split
        · exact ih _
        · exact ⟨rfl, rfl⟩
      · exact ⟨rfl, rfl⟩

theorem takeFrame {s : State} {p n : Nat} {need : List Nat} {table repl grant : Bool} {r : Nat × State}
    (h : s.takeFrame p n need table repl grant = .got r) : Paged s r.2 := by
  have hfill : ∀ x : Nat × State, Paged s x.2 → Paged s (x.2.onPart p (fun P => Part.refill x.2.fresh 40 P)) := fun x hx =>
    hx.trans (onPart _ _ _ (fun P => (tally_refill _ _ P).1) (fun P => (tally_refill _ _ P).2))
  simp only [State.takeFrame] at h
  split at h
  · next x hx => obtain rfl := Sought.got.inj h; exact hfill x (fromPool hx)
  · split at h
    · next x hx => obtain rfl := Sought.got.inj h; exact hfill x (evictFor hx)
    · cases h
    · split at h
      · next x hx =>
        obtain rfl := Sought.got.inj h
        cases grant with
        | false => cases hx
        | true => exact hfill x (fromReserve hx)
      · cases h

theorem placed (s : State) (p slot : Nat) (e : Word) (f lvl : Nat) (src : Option Nat) (base : Nat) : Paged s (s.placed p slot e f lvl src base) := by
  unfold State.placed
  refine trans (trans ?_ (onMem ..)) (rekey _ p _)
  cases src with
  | none => exact refl s
  | some b => exact moveCmds ..

theorem fillFrames (s : State) (p f n : Nat) (repl : Bool) (src : Option Nat) : Paged s (s.fillFrames p f n repl src) := foldl (fun _ _ => onMem ..) _ s

theorem pageIn {s t : State} {p va : Nat} {need : List Nat} {grant : Bool} (h : s.pageIn p va need grant = .done t) : Paged s t := by
  simp only [State.pageIn] at h
  split at h
  · obtain rfl := PageIn.done.inj h; exact refl s
  · obtain rfl := PageIn.done.inj h; exact refl s
  · split at h
    · split at h
      · cases h
      · split at h
        · next hf => obtain rfl := PageIn.done.inj h; exact (takeFrame hf).trans (onMem ..)
        · cases h
        · cases h
    · split at h
      · cases h
      · split at h
        · next hf =>
          obtain rfl := PageIn.done.inj h
          exact ((takeFrame hf).trans ((fillFrames ..).trans (placed ..))).trans (onPart _ _ _ (by exact fun _ => rfl) (by exact fun _ => rfl))
        · cases h
        · cases h

/-- The state that the service of a page for firmware answers keeps the books. -/
def OfBrought (s : State) : Brought → Prop
  | .here t | .ask t | .later t => Paged s t
  | .unmapped => True

theorem bringIn (p va : Nat) (need : List Nat) (n : Nat) (s : State) : OfBrought s (s.bringIn p va need n) := by
  induction n generalizing s with
  | zero => exact refl s
  | succ n ih =>
    simp only [State.bringIn]
    split
    · exact refl s
    · trivial
    · split
      · exact refl s
      · split
        · next s1 hp =>
          have h1 := pageIn hp
          have h2 := ih s1
          cases hb : s1.bringIn p va need n <;> rw [hb] at h2
          · exact h1.trans h2
          · exact h1.trans h2
          · exact h1.trans h2
          · trivial
        · trivial
        · exact refl s
        · exact refl s

/-! ### Channel advances (R453) -/

theorem storeFault (s : State) (core ctx serial msgid tag colour va : Nat) : Paged s (s.storeFault core ctx serial msgid tag colour va) :=
  ite (onCtx ..) (of_recorded (.pushRec ..))

theorem redirty (s : State) (src : Nat) (va : Word) : Paged s (s.redirty src va) := by
  refine ite ?_ (refl s)
  split
  · exact onMem ..
  · exact refl s
  · exact refl s

theorem askFor (s : State) (p who va : Nat) : Paged s (s.askFor p who va) := by
  refine ite (refl s) ?_
  split
  · exact refl s
  · exact onPkg ..

theorem advDo (s : State) (p core : Nat) (a : Adv) : Paged s (s.advDo p core a) := by
  unfold State.advDo
  split
  · exact storeFault ..
  · exact ite (storeFault ..) ((redirty ..).trans (onMem ..))

theorem advTry (s : State) (p core : Nat) (a : Adv) : Paged s (s.advTry p core a).1 := by
  unfold State.advTry
  split
  · exact advDo ..
  · have hb := bringIn p (vaOf a.va) [] 4 s
    cases h : s.bringIn p (vaOf a.va) [] 4 <;> rw [h] at hb
    · exact hb.trans (advDo ..)
    · exact hb.trans (askFor ..)
    · exact hb
    · exact advDo ..

theorem dropAdv (s : State) (core ctx : Nat) : Paged s (s.dropAdv core ctx) := onCore _ _ _ (fun _ => rfl)

theorem advsRun (p : Nat) (l : List (Nat × Adv)) (s : State) : Paged s (s.advsRun p l).1 := by
  induction l generalizing s with
  | nil => exact refl s
  | cons x l ih =>
    obtain ⟨core, a⟩ := x
    have ht := advTry s p core a
    simp only [State.advsRun]
    cases h : s.advTry p core a with
    | mk s1 b =>
      rw [h] at ht
      cases b with
      | true => exact (ht.trans (dropAdv ..)).trans (ih _)
      | false => exact ht

theorem advsDo (s : State) (p : Nat) : Paged s (s.advsDo p).1 := advsRun ..

end Paged

end Sys2Proof.Machine
end

section
/-!
SUPPORT. LAUNCH, END and INVAL (R412-R415), and O41 from it: which task entries a launch takes and an END empties, and that everything else that they do
leaves the entries, the features, the packet in hand and the queues.
-/

namespace Sys2Proof.Machine

/-! ### Deliveries (R58) -/

namespace Inboxed

theorem reenterAt (s : State) (core q slot : Nat) (m : Msg) : Inboxed s (s.reenterAt core q slot m) := by
  have h1 : Inboxed s (s.onCore core (fun k => { k with slotsHeld := k.slotsHeld.filter (· != slot) })) := onCore s core _ (by exact fun _ => rfl)
  refine ite (h1.trans (onCore _ core _ ?_)) (h1.trans (Offcore.count ..).inboxed)
  exact fun _ => rfl

theorem deliver (s : State) (d : Deliv) : Inboxed s (s.deliver d) := by
  unfold State.deliver
  split
  · exact reenterAt ..
  · refine ite (deliverHere ..) ?_
    have he := enters s d.dest d.msg none (s.timeAt d.dest)
    split
    next h => exact (he.of_fst h).trans (refuse ..)
    all_goals next h => exact he.of_fst h

theorem deliverAll (s : State) (p : Nat) : Inboxed s (s.deliverAll p) :=
  trans (Offcore.onPart s p (fun P => { P with taskq := [] }) (fun _ => rfl)).inboxed (foldl (fun _ _ => deliver ..) _ _)

/-- A launch message at a core (R413). -/
theorem admitLaunch (s : State) (core : Nat) (m : Msg) (arrival : Nat) : Inboxed s (s.admitLaunch core m arrival).1 := by
  refine ite_fst (Offcore.count ..).inboxed ?_
  split
  · exact enqueue ..
  · exact refl s

theorem launchHere (s : State) (core : Nat) (m : Msg) : Inboxed s (s.launchHere core m) := by
  refine ite (onCore s core _ (by exact fun _ => rfl)) ?_
  have he := admitLaunch s core m (s.timeAt core)
  split
  next h => exact (he.of_fst h).trans (onCore _ core _ (by exact fun _ => rfl))
  all_goals next h => exact he.of_fst h

theorem spread (s : State) (p : Nat) (cores : List Nat) (w : List Word) : Inboxed s (s.spread p cores w) := by
  refine foldl (fun s i => ?_) _ s
  exact ite (refl s) (launchHere ..)

/-- The messages of an ended task gone (R414). -/
theorem dropMsgs (s : State) (core tag : Nat) : Inboxed s (s.dropMsgs core tag) := by
  have h1 : Inboxed s (s.onCore core (fun k => { k with
      queues := k.queues.map (fun q => q.filter (fun m => !m.ofTag tag)), unbound := k.unbound.filter (fun m => !m.ofTag tag) })) :=
    onCore s core _ (by exact fun _ => rfl)
  have h2 := h1.trans (foldl (f := fun s (m : QMsg) => if m.msg.env.kind ≤ 1 then s.respondTo core m.origin (Rsp.plain .refused Cause.badTask.code)
    else (s.count (dieOf core) 0x07 1).respondTo core m.origin .ok)
    (fun s m => ite (Offcore.respondTo ..).inboxed ((Offcore.count ..).trans (Offcore.respondTo ..)).inboxed)
    ((s.core core).unbound.filter (fun m => m.ofTag tag)) _)
  exact ite h2 (h2.trans (Offcore.count ..).inboxed)

end Inboxed

/-! ### Entries kept -/

/-- A partition as its packets see it. -/
def Part.front (P : Part) : Option Packet × AMap CmdQ := (P.packet, P.queues)

/-- Every task entry, every core's features, and of every partition the packet in hand and the queues stand as they did. -/
structure EntriesKept (s t : State) : Prop where
  tasks    : ∀ n, (t.core n).tasks = (s.core n).tasks
  featmask : ∀ n, (t.core n).featmask = (s.core n).featmask
  fronts   : viewsOf Part.front t.parts = viewsOf Part.front s.parts

theorem find_fronts {l m : AMap Part} (h : viewsOf Part.front m = viewsOf Part.front l) {p : Nat} {P : Part} (hp : AMap.find l p = some P) :
    ∃ Q, AMap.find m p = some Q ∧ Q.packet = P.packet ∧ Q.queues = P.queues := by
  have := find_viewsOf h p
  rw [hp] at this
  cases ht : AMap.find m p with
  | none => simp [ht] at this
  | some Q =>
    have hQ : Q.front = P.front := by simpa [ht] using this
    simp only [Part.front, Prod.mk.injEq] at hQ
    exact ⟨Q, rfl, hQ⟩

theorem Tallied.entries {s t : State} (h : Tallied s t) : EntriesKept s t :=
  ⟨h.tasks, h.featmask, viewsOf_comp (f := Part.tally) (fun x => (x.1, x.2.1)) h.parts⟩

theorem Paged.entries {s t : State} (h : Paged s t) : EntriesKept s t := h.toTallied.entries
theorem Inboxed.entries {s t : State} (h : Inboxed s t) : EntriesKept s t := h.tallied.entries
theorem Offcore.entries {s t : State} (h : Offcore s t) : EntriesKept s t := h.tallied.entries

namespace EntriesKept
variable {s t u : State}

theorem refl (s : State) : EntriesKept s s := ⟨fun _ => rfl, fun _ => rfl, rfl⟩
theorem trans (h : EntriesKept s t) (g : EntriesKept t u) : EntriesKept s u :=
  ⟨fun n => (g.tasks n).trans (h.tasks n), fun n => (g.featmask n).trans (h.featmask n), g.fronts.trans h.fronts⟩

theorem ite {c : Prop} {_ : Decidable c} (ht : EntriesKept s t) (hu : EntriesKept s u) : EntriesKept s (if c then t else u) := by
  split
  · exact ht
  · exact hu

theorem foldl {α : Type} {f : State → α → State} (hf : ∀ s a, EntriesKept s (f s a)) (l : List α) (s : State) : EntriesKept s (l.foldl f s) := by
  induction l generalizing s with
  | nil => exact refl s
  | cons a t ih => exact (hf s a).trans (ih _)

theorem task (h : EntriesKept s t) (n tag : Nat) : (t.core n).task tag = (s.core n).task tag := by simp only [CoreSt.task, h.tasks]

theorem onCore (s : State) (n : Nat) (f : CoreSt → CoreSt) (ht : ∀ k, (f k).tasks = k.tasks) (hf : ∀ k, (f k).featmask = k.featmask) :
    EntriesKept s (s.onCore n f) := by
  refine ⟨fun m => ?_, fun m => ?_, rfl⟩ <;> by_cases h : m = n
  · subst h; rw [State.core_onCore_self, ht]
  · rw [State.core_onCore_ne s f h]
  · subst h; rw [State.core_onCore_self, hf]
  · rw [State.core_onCore_ne s f h]

theorem onPart (s : State) (p : Nat) (f : Part → Part) (hf : ∀ P, (f P).front = P.front) : EntriesKept s (s.onPart p f) := by
  unfold State.onPart
  cases h : AMap.find s.parts p with
  | none => exact refl s
  | some P => exact ⟨fun _ => rfl, fun _ => rfl, viewsOf_set h (hf P)⟩

/-- A change of the listed cores one by one. -/
theorem mapCores {f : Nat → CoreSt → CoreSt} (hc : t.cores = AMap.mapVals f s.cores) (ht : ∀ n k, (f n k).tasks = k.tasks)
    (hf : ∀ n k, (f n k).featmask = k.featmask) (hp : t.parts = s.parts) : EntriesKept s t := by
  refine ⟨fun n => ?_, fun n => ?_, by rw [hp]⟩ <;> rcases State.core_mapVals hc n with h | ⟨h1, h2⟩
  · rw [h, ht]
  · rw [h1, h2]
  · rw [h, hf]
  · rw [h1, h2]

end EntriesKept

/-! ### Deterministic mode entered and left (R61) -/

namespace Paged

theorem firstTurns (s : State) (p : Nat) : Paged s (s.firstTurns p) := by
  refine ite (refl s) (foldl (fun s c => ?_) _ s)
  split
  · exact ite (onPkg ..) (refl s)
  · exact refl s

theorem startBoards (s : State) (p : Nat) : Paged s (s.startBoards p) :=
  (foldl (fun _ _ => onFu ..) _ s).trans (onPart _ _ _ (fun _ => rfl) (fun _ => rfl))

theorem setPin (s : State) (p va : Nat) (on : Bool) : Paged s (s.setPin p va on) := by
  unfold State.setPin
  split
  · exact onMem ..
  · exact refl s
  · exact refl s

theorem unpinAll (s : State) (p : Nat) (l : List Ext) : Paged s (s.unpinAll p l) :=
  foldl (fun _ _ => foldl (fun s _ => ite (refl s) (setPin ..)) _ _) l s

end Paged

/-- A core out of deterministic mode. -/
def CoreSt.leftDet (k : CoreSt) : CoreSt := { k with guest := false, quant := 8192, retired := 0, qdone := false, synced := false }

/-- A partition out of deterministic mode. -/
def Part.leftDet (time : Nat) (P : Part) : Part := { P with det := false, shape := 0, fevs := [], mine := [], mineF := [], wraps := time / 2 ^ 48 }

namespace EntriesKept

/-- The cores of a partition that leaves deterministic mode, and the writes that they showed. -/
theorem exitDet (s : State) (p : Nat) : EntriesKept s (s.exitDet p) := by
  refine trans (trans (onPart s p (Part.leftDet s.time) (fun _ => rfl)) ?_) (Inboxed.deliverAll _ p).entries
  refine mapCores (f := fun n k => if s.pOf n = p then k.leftDet else k) rfl ?_ ?_ rfl <;>
    intro n k <;> split <;> rfl

theorem leaveDet (s : State) (p : Nat) : EntriesKept s (s.leaveDet p) := by
  refine ite ?_ (refl s)
  have h := (Paged.advsDo s p).entries
  split
  · next h1 => rw [h1] at h; exact h.trans (exitDet ..)
  · next h1 => rw [h1] at h; exact h

theorem enterDet (s : State) (p : Nat) (w : List Word) : EntriesKept s (s.enterDet p w) := by
  unfold State.enterDet
  refine trans ?_ ((Paged.firstTurns _ p).trans (Paged.startBoards _ p)).entries
  have hwr : ∀ (u : State) (l : List QWrite), EntriesKept s u → EntriesKept s { u with wr := l } := fun _ _ h => ⟨h.tasks, h.featmask, h.fronts⟩
  refine hwr _ _ ?_
  refine trans (trans (onPart s p _ ?_) (foldl (fun _ _ => ?_) _ _)) (foldl (fun _ _ => ?_) _ _)
  · exact fun _ => rfl
  · exact onCore _ _ _ (by exact fun _ => rfl) (by exact fun _ => rfl)
  · exact onCore _ _ _ (by exact fun _ => rfl) (by exact fun _ => rfl)

end EntriesKept

/-! ### The use of a core by a launch (R412) -/

@[simp] theorem CoreSt.task_setTask (k : CoreSt) (tag j : Nat) (x : Task) :
    (k.setTask tag x).task j = if j % 8 = tag % 8 then x else k.task j := by
  simp only [CoreSt.task, CoreSt.setTask, Vector.get_eq_getElem, Vector.getElem_set]
  by_cases h : j % 8 = tag % 8
  · simp [h]
  · simp [h, Ne.symm h]

/-- A task entry as a launch leaves it on a core with such features (R54, R412). -/
def Task.taken (e : Task) (im : Image) (x : List Ext) (feats : Word) : Task :=
  if e.st = .invalid ∧ feats &&& im.featreq = im.featreq then
    ⟨.valid, im.base, im.lim, e.gen + 1, im.cline, im.featreq, im.budget, im.views, x, im.keepLo, im.keepHi, im.digest⟩
  else e

/-- An entry once taken stays as it is. -/
theorem Task.taken_taken (e : Task) (im : Image) (x : List Ext) (feats : Word) : (e.taken im x feats).taken im x feats = e.taken im x feats := by
  by_cases h : e.st = .invalid ∧ feats &&& im.featreq = im.featreq
  · have hv : (e.taken im x feats).st ≠ .invalid := by simp [Task.taken, h]
    rw [Task.taken, if_neg (fun hn => hv hn.1)]
  · simp only [Task.taken, if_neg h]

/-- A core whose entry has changed, and nothing else of its entries and features. -/
theorem EntriesKept.of_setTask {s t : State} {core tag : Nat} {f : Task → Task}
    (h : EntriesKept (s.onCore core (fun k => k.setTask tag (f (k.task tag)))) t) :
    (∀ n j, (t.core n).task j = if n = core ∧ j % 8 = tag % 8 then f ((s.core n).task j) else (s.core n).task j) ∧
    (∀ n, (t.core n).featmask = (s.core n).featmask) := by
  refine ⟨fun n j => ?_, fun n => ?_⟩
  · rw [h.task]
    by_cases hn : n = core
    · subst hn
      rw [State.core_onCore_self, CoreSt.task_setTask]
      by_cases hj : j % 8 = tag % 8
      · have : (s.core n).task tag = (s.core n).task j := by simp only [CoreSt.task, hj]
        simp [hj, this]
      · simp [hj]
    · rw [State.core_onCore_ne _ _ hn]; simp [hn]
  · rw [h.featmask]
    by_cases hn : n = core
    · subst hn; rw [State.core_onCore_self]; rfl
    · rw [State.core_onCore_ne _ _ hn]

/-- The same entry written on both sides. -/
theorem EntriesKept.setTask {s u : State} (h : EntriesKept s u) (core tag : Nat) (e : Task) :
    EntriesKept (s.onCore core (fun k => k.setTask tag e)) (u.onCore core (fun k => k.setTask tag e)) := by
  refine ⟨fun n => ?_, fun n => ?_, h.fronts⟩ <;> by_cases hn : n = core
  · subst hn; simp only [State.core_onCore_self, CoreSt.setTask, h.tasks]
  · rw [State.core_onCore_ne _ _ hn, State.core_onCore_ne _ _ hn, h.tasks]
  · subst hn; rw [State.core_onCore_self, State.core_onCore_self]; exact h.featmask n
  · rw [State.core_onCore_ne _ _ hn, State.core_onCore_ne _ _ hn, h.featmask]

section
variable (s : State) (p core tag stage : Nat) (im : Image) (x : List Ext)

/-- The lines of a task leave the instruction cache (R94). -/
theorem EntriesKept.dropLines : EntriesKept s (s.dropLines core im) := by
  unfold State.dropLines
  refine trans ?_ (onCore _ core _ ?_ ?_)
  · split
    · exact (Paged.onEp ..).entries
    · exact refl s
  · exact fun _ => rfl
  · exact fun _ => rfl

/-- The messages of the unbound queue of a task that has come (R37). -/
theorem EntriesKept.bound (l : List QMsg) : EntriesKept s (l.foldl (fun s m =>
      match s.admitFrom3 core m.msg (some m.slot) m.arrival with
      | (s', .refused c) => s'.respondTo core m.origin (Rsp.plain .refused c.code)
      | (s', .queued) | (s', .discarded) => s'.respondTo core m.origin .ok
      | (s', .unbound) | (s', .waits) => s') s) := by
  refine (Inboxed.foldl (fun s m => ?_) l s).entries
  have h := Inboxed.admitFrom3 s core m.msg (some m.slot) m.arrival
  split
  next he => exact (h.of_fst he).trans (Offcore.respondTo ..).inboxed
  next he => exact (h.of_fst he).trans (Offcore.respondTo ..).inboxed
  next he => exact (h.of_fst he).trans (Offcore.respondTo ..).inboxed
  next he => exact h.of_fst he
  next he => exact h.of_fst he

/-- An entry written with what it holds is as it was. -/
theorem EntriesKept.of_same {e : Task} (h : e = (s.core core).task tag) : EntriesKept (s.onCore core (fun k => k.setTask tag e)) s := by
  subst h
  refine ⟨fun n => ?_, fun n => ?_, rfl⟩ <;> by_cases hn : n = core
  · subst hn; rw [State.core_onCore_self]; simp [CoreSt.setTask, CoreSt.task, Vector.get_eq_getElem]
  · rw [State.core_onCore_ne _ _ hn]
  · subst hn; rw [State.core_onCore_self]; rfl
  · rw [State.core_onCore_ne _ _ hn]

/-- A launch uses a core: its entry is taken, and nothing else of the entries changes. -/
theorem State.useCore_entries : EntriesKept (s.onCore core (fun k => k.setTask tag (((s.core core).task tag).taken im x (s.core core).featmask)))
    (s.useCore p core tag stage im x) := by
  have hst : ∀ u : State, EntriesKept u (u.onCore core (fun k => { k with stage := BitVec.ofNat 8 stage })) := fun u =>
    .onCore u core _ (by exact fun _ => rfl) (by exact fun _ => rfl)
  refine EntriesKept.trans ?_ (hst _)
  split
  · next hi =>
    unfold State.install
    dsimp only
    split
    · next hf =>
      have hf' : ¬ (((s.core core).task tag).st = .invalid ∧ (s.core core).featmask &&& im.featreq = im.featreq) := fun h => by simp [h.2] at hf
      exact (EntriesKept.of_same s core tag (if_neg hf')).trans (Offcore.recordE ..).entries
    · next hf =>
      have hf' : ((s.core core).task tag).st = .invalid ∧ (s.core core).featmask &&& im.featreq = im.featreq := ⟨hi, by simpa using hf⟩
      refine EntriesKept.trans ?_ (EntriesKept.bound _ core _)
      refine EntriesKept.trans ?_ (.onCore _ core _ (by exact fun _ => rfl) (by exact fun _ => rfl))
      rw [show ((s.core core).task tag).taken im x (s.core core).featmask = _ from if_pos hf']
      exact (EntriesKept.dropLines s core im).setTask core tag _
  · next hi => exact EntriesKept.of_same s core tag (if_neg (fun h => hi h.1))

end

/-- The entries of a list of cores taken by a launch: those of the cores listed, once each, and no other. -/
theorem State.useCores (p tag stage : Nat) (im : Image) (x : List Ext) (l : List Nat) (s : State) :
    let t := l.foldl (fun s c => s.useCore p c tag stage im x) s
    (∀ n, (t.core n).task tag = if n ∈ l then ((s.core n).task tag).taken im x (s.core n).featmask else (s.core n).task tag) ∧
      viewsOf Part.front t.parts = viewsOf Part.front s.parts := by
  induction l generalizing s with
  | nil => exact ⟨fun n => by simp, rfl⟩
  | cons c l ih =>
    have hu := State.useCore_entries s p c tag stage im x
    obtain ⟨htask, hfeat⟩ := hu.of_setTask (f := fun _ => ((s.core c).task tag).taken im x (s.core c).featmask)
    obtain ⟨hl, hfronts⟩ := ih (s.useCore p c tag stage im x)
    refine ⟨fun n => ?_, hfronts.trans hu.fronts⟩
    refine (hl n).trans ?_
    rw [htask n tag, hfeat]
    by_cases hn : n = c
    · subst hn
      by_cases hm : n ∈ l <;> simp [hm, Task.taken_taken]
    · simp [hn]

/-- A launch before it uses a core: deterministic mode entered, and the extents pinned. -/
def State.launchPinned (s : State) (p : Nat) (k : Packet) (x : List Ext) : State :=
  x.foldl (fun s e => (pageSteps e.base.toNat e.len).foldl (fun s va => s.setPin p va true) s)
    (if pkDet k.words && !(s.part p).det then s.enterDet p k.words else s)

/-- A launch (R412): the entry of each core that it uses is taken. -/
theorem State.launch_entries (s : State) (p : Nat) (k : Packet) (cores : List Nat) (im : Image) (x : List Ext) :
    (∀ c ∈ cores, ((s.launch p k cores im x).core c).task (pf k.words 46 3) =
      ((s.core c).task (pf k.words 46 3)).taken im x (s.core c).featmask) ∧
    viewsOf Part.front (s.launch p k cores im x).parts = viewsOf Part.front s.parts := by
  have hu : EntriesKept s (s.launchPinned p k x) :=
    .trans (.ite (.enterDet ..) (.refl s)) (.foldl (fun _ _ => .foldl (fun _ _ => (Paged.setPin ..).entries) _ _) _ _)
  obtain ⟨htask, hfronts⟩ := State.useCores p (pf k.words 46 3) (pf k.words 32 8) im x cores (s.launchPinned p k x)
  have hw : EntriesKept (cores.foldl (fun s c => s.useCore p c (pf k.words 46 3) (pf k.words 32 8) im x) (s.launchPinned p k x))
      (s.launch p k cores im x) := by
    refine (Paged.unpinAll _ p x).entries.trans (.trans (.ite (.onPart _ p _ ?_) (.refl _)) (Inboxed.spread ..).entries)
    exact fun _ => rfl
  refine ⟨fun c hc => ?_, hw.fronts.trans (hfronts.trans hu.fronts)⟩
  rw [hw.task, htask c, if_pos hc, hu.task, hu.featmask]

/-! ### A task ended (R414) -/

/-- The task of an entry ended on some cores: every other entry stands as it did, and what had no task has none. -/
structure Ended (tag : Nat) (s t : State) : Prop where
  others : ∀ n j, j % 8 ≠ tag % 8 → (t.core n).task j = (s.core n).task j
  gone   : ∀ n, ((s.core n).task tag).st = .invalid → ((t.core n).task tag).st = .invalid
  fronts : viewsOf Part.front t.parts = viewsOf Part.front s.parts

theorem EntriesKept.ended {s t : State} (h : EntriesKept s t) (tag : Nat) : Ended tag s t :=
  ⟨fun n j _ => h.task n j, fun n hn => by rw [h.task]; exact hn, h.fronts⟩

theorem Ended.trans {tag : Nat} {s t u : State} (h : Ended tag s t) (g : Ended tag t u) : Ended tag s u :=
  ⟨fun n j hj => (g.others n j hj).trans (h.others n j hj), fun n hn => g.gone n (h.gone n hn), g.fronts.trans h.fronts⟩

/-- The entry of one core empty. -/
theorem State.endOnCore_ended (s : State) (core tag : Nat) :
    Ended tag s (s.endOnCore core tag) ∧ (((s.endOnCore core tag).core core).task tag).st = .invalid := by
  unfold State.endOnCore
  split
  · next h => exact ⟨(EntriesKept.refl s).ended tag, h⟩
  · have he : ∀ u : State, EntriesKept (s.onCore core (fun k => k.setTask tag { k.task tag with st := .invalid, exts := [] })) u →
        Ended tag s u ∧ ((u.core core).task tag).st = .invalid := fun u hu => by
      obtain ⟨htask, -⟩ := hu.of_setTask (f := fun e => { e with st := .invalid, exts := [] })
      refine ⟨⟨fun n j hj => by rw [htask]; simp [hj], fun n hn => by rw [htask]; split <;> simp [hn], hu.fronts⟩, ?_⟩
      rw [htask]; simp
    refine he _ (.trans (Inboxed.dropMsgs ..).entries (.ite (.onCore _ _ _ ?_ ?_) (.refl _)))
    · exact fun _ => rfl
    · exact fun _ => rfl

/-- The entries of a list of cores empty. -/
theorem State.endOnCores (tag : Nat) (l : List (Nat × CoreSt)) (s : State) :
    Ended tag s (l.foldl (fun s e => s.endOnCore e.1 tag) s) ∧
      ∀ e ∈ l, (((l.foldl (fun s e => s.endOnCore e.1 tag) s).core e.1).task tag).st = .invalid := by
  induction l generalizing s with
  | nil => exact ⟨(EntriesKept.refl s).ended tag, fun e he => by cases he⟩
  | cons d l ih =>
    obtain ⟨h1, hd⟩ := State.endOnCore_ended s d.1 tag
    obtain ⟨h2, hl⟩ := ih (s.endOnCore d.1 tag)
    refine ⟨h1.trans h2, fun e he => ?_⟩
    rcases List.mem_cons.1 he with rfl | he
    · exact h2.gone _ hd
    · exact hl e he

/-- What becomes of an activation of a task whose blocks are unbound. -/
def orphanOf (tag : Nat) (o : Option Act) : Option Act := o.map (fun a => if a.m.msg.env.tag = tag then a.orphan else a)

/-- A core whose activations, wayfarers' among them, have changed. -/
def CoreSt.actsMapped (f : Option Act → Option Act) (k : CoreSt) : CoreSt :=
  { k with ctxs := k.ctxs.map (fun x => { x with act := f x.act }), arrivals := k.arrivals.map (fun w => { w with act := f w.act }) }

namespace EntriesKept

theorem unbind (s : State) (p id : Nat) (b : Blk) : EntriesKept s (s.unbind p id b) :=
  .trans (Offcore.onFu ..).entries (foldl (fun _ _ => ite (Offcore.setBlk ..).entries (refl _)) _ _)

/-- The blocks of an ended task unbound (R353). -/
theorem endBlocks (s : State) (p tag : Nat) : EntriesKept s (s.endBlocks p tag) := by
  have horphan : EntriesKept s (s.orphanActs p tag) := by
    refine mapCores (f := fun n k => if s.pOf n = p then k.actsMapped (orphanOf tag) else k) rfl ?_ ?_ rfl <;> intro n k <;> split <;> rfl
  have hfronts : ∀ (u : State) (l : List Front), EntriesKept s u → EntriesKept s { u with fronts := l } := fun _ _ h => ⟨h.tasks, h.featmask, h.fronts⟩
  unfold State.endBlocks
  refine hfronts _ _ (horphan.trans (.trans (onPart _ p _ ?_) (foldl (fun s e => ?_) _ _)))
  · exact fun _ => rfl
  · split
    · exact unbind ..
    · exact refl s

theorem endRlc (s : State) (p tag : Nat) : EntriesKept s (s.endRlc p tag) :=
  foldl (fun _ _ => ((Offcore.onRlc ..).trans (Offcore.rlcNext ..)).entries) _ s

end EntriesKept

theorem AMap.mem_of_find {α : Type} {m : AMap α} {k : Nat} {v : α} (h : AMap.find m k = some v) : (k, v) ∈ m := by
  induction m with
  | nil => cases h
  | cons e t ih =>
    obtain ⟨k', v'⟩ := e
    simp only [AMap.find] at h
    split at h
    · next hk =>
      obtain rfl := Option.some.inj h
      simp [hk]
    · exact List.mem_cons_of_mem _ (ih h)

/-- Any core is listed, or as reset leaves it. -/
theorem State.core_listed (s : State) (n : Nat) : (n, s.core n) ∈ s.cores ∨ s.core n = CoreSt.reset := by
  cases h : AMap.find s.cores n with
  | none => exact .inr (by rw [State.core, get_eq_find, h]; rfl)
  | some k =>
    have hk : s.core n = k := AMap.get_of_find h
    exact .inl (hk ▸ AMap.mem_of_find h)

/-- What follows of an END once the entries are empty. -/
theorem State.endTask_rest (s : State) (p tag : Nat) :
    EntriesKept ((s.cores.filter (fun e => s.pOf e.1 == p)).foldl (fun s e => s.endOnCore e.1 tag) s) (s.endTask p tag) := by
  unfold State.endTask
  refine .trans ?_ (.leaveDet _ p)
  refine .trans ?_ (.onPart _ p _ ?_)
  · exact (Paged.unpinAll ..).entries.trans (.trans (.endBlocks ..) (.endRlc ..))
  · exact fun _ => rfl

/-- No entry of a core right after reset has a task. -/
theorem CoreSt.task_reset (j : Nat) : CoreSt.reset.task j = Task.reset := by
  simp [CoreSt.task, CoreSt.reset, Vector.get_eq_getElem]

/-- The task of an entry ended on every core of a partition. -/
theorem State.endTask_ended (s : State) (p tag : Nat) :
    Ended tag s (s.endTask p tag) ∧ ∀ n, s.pOf n = p → (((s.endTask p tag).core n).task tag).st = .invalid := by
  obtain ⟨h1, hl⟩ := State.endOnCores tag (s.cores.filter (fun e => s.pOf e.1 == p)) s
  have hend := (State.endTask_rest s p tag).ended tag
  refine ⟨h1.trans hend, fun n hn => hend.gone n ?_⟩
  rcases State.core_listed s n with hk | hk
  · exact hl (n, s.core n) (List.mem_filter.2 ⟨hk, by simpa using hn⟩)
  · refine h1.gone n ?_
    rw [hk, CoreSt.task_reset]
    rfl

/-! ### Packets (R408) -/

theorem State.chosen_of {s : State} {p kind : Nat} {P : Part} {k : Packet} (hp : AMap.find s.parts p = some P) (hk : P.packet = some k)
    (hkind : pkKind k.words = kind) : s.chosen p kind = some k := by
  simp only [State.chosen, State.part_of_find hp, hk, hkind, if_true]

theorem Part.q_setQ (P : Part) (n : Nat) (f : CmdQ → CmdQ) : (P.setQ n f).q n = f (P.q n) := by simp [Part.q, Part.setQ]

/-- A partition whose packet has failed. -/
def Part.failed (q : Nat) (e : QErr) (P : Part) : Part := { (P.setQ q (fun c => { c with err := e.code })) with packet := none, rr := q }

/-- A partition whose packet has completed. -/
def Part.completed (k : Packet) (P : Part) : Part :=
  { (P.setQ k.q (fun c => { c with head := c.head + BitVec.ofNat 32 (1 + pkExts k.words) })) with packet := none, rr := k.q }

/-- A packet that fails: ERR written, and no packet in hand. -/
theorem State.find_packetFail {s : State} {p q : Nat} {P : Part} (hp : AMap.find s.parts p = some P) (e : QErr) :
    ∃ Q, AMap.find (s.packetFail p q e).parts p = some Q ∧ Q.packet = none ∧ Q.q q = { P.q q with err := e.code } := by
  have h1 := State.find_onPart hp (Part.failed q e)
  exact ⟨_, State.find_onPart h1 _, rfl, Part.q_setQ P q (fun c => { c with err := e.code })⟩

/-- A packet that completes: HEAD past it, and no packet in hand. -/
theorem State.find_packetDone {s : State} {p : Nat} {k : Packet} {P : Part} (hp : AMap.find s.parts p = some P) :
    ∃ Q, AMap.find (s.packetDone p k).parts p = some Q ∧ Q.packet = none ∧
      Q.q k.q = { P.q k.q with head := (P.q k.q).head + BitVec.ofNat 32 (1 + pkExts k.words) } := by
  have h1 := State.find_onPart hp (Part.completed k)
  have hq := Part.q_setQ P k.q (fun c => { c with head := c.head + BitVec.ofNat 32 (1 + pkExts k.words) })
  unfold State.packetDone
  dsimp only
  split
  · exact ⟨_, State.find_onPart h1 _, rfl, hq⟩
  · exact ⟨_, h1, rfl, hq⟩

section
variable (s : State) (p q : Nat) (k : Packet) (e : QErr)

@[simp] theorem State.packetDone_cores : (s.packetDone p k).cores = s.cores := by
  unfold State.packetDone
  dsimp only
  split <;> simp [State.msi]

@[simp] theorem State.packetDone_mem : (s.packetDone p k).mem = s.mem := by
  unfold State.packetDone
  dsimp only
  split <;> simp [State.msi]

@[simp] theorem State.packetFail_cores : (s.packetFail p q e).cores = s.cores := by simp [State.packetFail, State.msi]
@[simp] theorem State.packetFail_mem : (s.packetFail p q e).mem = s.mem := by simp [State.packetFail, State.msi]

theorem State.core_packetDone (n : Nat) : (s.packetDone p k).core n = s.core n := State.core_congr_cores (State.packetDone_cores s p k) n

/-- A change of a partition that keeps its dies moves no core to another partition. -/
theorem State.pOf_onPart {f : Part → Part} (hf : ∀ P, (f P).dies = P.dies) (n : Nat) : (s.onPart p f).pOf n = s.pOf n := by
  unfold State.onPart
  cases h : AMap.find s.parts p with
  | none => rfl
  | some P => exact partKey_viewsOf (f := Part.dies) id (fun _ => rfl) (viewsOf_set h (hf P)) _

theorem State.pOf_packetDone (n : Nat) : (s.packetDone p k).pOf n = s.pOf n := by
  have h1 := State.pOf_onPart s p (f := Part.completed k) (fun _ => rfl) n
  unfold State.packetDone
  dsimp only
  split
  · exact (Recorded.msi (s.onPart p (Part.completed k)) p 1).pOf n |>.trans h1
  · exact h1

theorem State.taskRuns_packetDone (tag : Nat) : (s.packetDone p k).taskRuns p tag = s.taskRuns p tag := by
  simp only [State.taskRuns, State.partCtxs, State.packetDone_cores, State.pOf_packetDone]

end

/-! ### The packets performed -/

/-- What a LAUNCH does with the outcome of its check. -/
def State.afterCheck (s : State) (p : Nat) (k : Packet) (cores : List Nat) : Walked (Image × List Ext) → State
  | .fail e => s.packetFail p k.q e
  | .ask va s1 => s1.askFor p 0 va
  | .later s1 => s1
  | .ok x s1 => (s1.launch p k cores x.1 x.2).packetDone p k

section
variable {s : State} {p : Nat} {P : Part} {k : Packet} (hp : AMap.find s.parts p = some P) (hk : P.packet = some k)
include hp hk

theorem exec_launch (hkind : pkKind k.words = 1) :
    exec (.launch p) s = .next (s.afterCheck p k (s.launchCores p (P.q k.q).die k.words) (s.launchCheck p k (s.launchCores p (P.q k.q).die k.words))) := by
  change execLaunch p s = _
  simp only [execLaunch, State.launchTry, State.chosen_of hp hk hkind, State.part_of_find hp]
  cases s.launchCheck p k (s.launchCores p (P.q k.q).die k.words) <;> rfl

/-- An END that leaves activations of its task stays the packet in hand. -/
theorem exec_endPacket (hkind : pkKind k.words = 3) :
    exec (.endPacket p) s = .next (if (s.endTask p (pf k.words 46 3)).taskRuns p (pf k.words 46 3) then s.endTask p (pf k.words 46 3)
      else (s.endTask p (pf k.words 46 3)).packetDone p k) := by
  change execEndPacket p s = _
  simp only [execEndPacket, State.chosen_of hp hk hkind]
  split <;> rfl

theorem exec_inval (hkind : pkKind k.words = 4) :
    exec (.inval p) s = if (k.words.getD 1 0).toNat % 4096 != 0 then .next (s.packetFail p k.q .badPacket)
      else if (s.chansOf p).any (·.midBlock) then .next s
      else .next ((s.invalidate p ((k.words.getD 1 0).toNat % 2 ^ 60) (k.words.getD 2 0).toNat).packetDone p k) := by
  change execInval p s = _
  simp only [execInval, State.chosen_of hp hk hkind]

/-- An END empties the entry on every core of its partition and completes when no activation of the task remains. -/
theorem endPacket_ends (hkind : pkKind k.words = 3) : let tag := pf k.words 46 3
    ∃ t P', exec (.endPacket p) s = .next t ∧ AMap.find t.parts p = some P' ∧
      (∀ c, s.pOf c = p → ((t.core c).task tag).st = .invalid ∧ ∀ j, j % 8 ≠ tag → (t.core c).task j = (s.core c).task j) ∧
      (t.taskRuns p tag = true → P'.packet = some k) ∧
      (t.taskRuns p tag = false → P'.packet = none ∧ (P'.q k.q) = { P.q k.q with head := (P.q k.q).head + 1 }) := by
  intro tag
  have hx := exec_endPacket hp hk hkind
  obtain ⟨hend, hgone⟩ := State.endTask_ended s p tag
  obtain ⟨Q, hQ, hpk, hqs⟩ := find_fronts hend.fronts hp
  have htag : tag % 8 = tag := Nat.mod_eq_of_lt (Nat.mod_lt _ (by decide))
  have hcores : ∀ c, s.pOf c = p → (((s.endTask p tag).core c).task tag).st = .invalid ∧
      ∀ j, j % 8 ≠ tag → ((s.endTask p tag).core c).task j = (s.core c).task j := fun c hc =>
    ⟨hgone c hc, fun j hj => hend.others c j (by rwa [htag])⟩
  cases hr : (s.endTask p tag).taskRuns p tag with
  | true =>
    rw [if_pos hr] at hx
    exact ⟨_, Q, hx, hQ, hcores, fun _ => hpk.trans hk, fun h => by rw [hr] at h; cases h⟩
  | false =>
    rw [if_neg (by rw [hr]; decide)] at hx
    obtain ⟨R, hR, hnone, hhead⟩ := State.find_packetDone (k := k) hQ
    refine ⟨_, R, hx, hR, fun c hc => ?_, fun h => ?_, fun _ => ⟨hnone, ?_⟩⟩
    · rw [State.core_packetDone]; exact hcores c hc
    · rw [State.taskRuns_packetDone, hr] at h; cases h
    · have hq : Q.q k.q = P.q k.q := by simp only [Part.q, hqs]
      have hext : pkExts k.words = 0 := by simp [pkExts, hkind]
      rw [hhead, hq, hext]
      rfl

end

/-- A page asked of the host changes the package alone. -/
theorem State.askFor_rest (s : State) (p who va : Nat) : ∃ g, s.askFor p who va = { s with pkg := g } := by
  unfold State.askFor
  split
  · exact ⟨s.pkg, rfl⟩
  · split
    · exact ⟨s.pkg, rfl⟩
    · exact ⟨_, rfl⟩

/-- The TLB of a context after entries have been dropped from every TLB of a partition. -/
theorem State.tlb_dropTlb {s : State} {p : Nat} {f : TlbE → Bool} {n : Nat} (c : Nat) (h : s.pOf n = p) :
    ((s.dropTlb p f).ctx n c).tlb = (s.ctx n c).tlb.filter (fun t => !f t) := by
  have hc : (s.dropTlb p f).cores = AMap.mapVals (fun n k => if s.pOf n = p then k.dropTlb f else k) s.cores := rfl
  rcases State.core_mapVals hc n with hn | ⟨h1, h2⟩
  · simp only [State.ctx, hn, h, if_true, CoreSt.ctx, CoreSt.dropTlb, Vector.get_eq_getElem, Vector.getElem_map]
  · simp [State.ctx, h1, h2, CoreSt.ctx, CoreSt.reset, Vector.get_eq_getElem, Ctx.reset]

/-- Settles O41: the check of a LAUNCH decides what it does, and the entries, the packet and its queue are followed through each outcome. -/
theorem packetEvents : Obligations.PacketEvents := by
  intro s p P k hp hk cores tag va n
  refine ⟨fun e hkind hc => ?_, fun s1 hkind hc => ?_, fun a s1 hkind hc => ?_, fun im x s1 P1 hkind hc hP1 => ?_, fun hkind => endPacket_ends hp hk hkind,
    fun hkind hva => ?_, fun hkind hva hmid => ?_, fun hkind hva hmid => ?_⟩
  · have hx := exec_launch hp hk hkind
    rw [hc] at hx
    obtain ⟨Q, hQ, hnone, herr⟩ := State.find_packetFail (q := k.q) hp e
    exact ⟨_, Q, hx, hQ, hnone, herr, State.packetFail_cores .., State.packetFail_mem ..⟩
  · have hx := exec_launch hp hk hkind
    rw [hc] at hx
    exact hx
  · have hx := exec_launch hp hk hkind
    rw [hc] at hx
    obtain ⟨g, hg⟩ := State.askFor_rest s1 p 0 a
    exact ⟨s1.askFor p 0 a, hx, by rw [hg]; exact ⟨rfl, rfl, rfl⟩⟩
  · have hx := exec_launch hp hk hkind
    rw [hc] at hx
    obtain ⟨htask, hfronts⟩ := State.launch_entries s1 p k cores im x
    obtain ⟨Q, hQ, -, hqs⟩ := find_fronts hfronts hP1
    obtain ⟨R, hR, hnone, hhead⟩ := State.find_packetDone (k := k) hQ
    refine ⟨(s1.launch p k cores im x).packetDone p k, R, hx, hR, hnone, ?_, fun c hcore => ?_⟩
    · have hq : Q.q k.q = P1.q k.q := by simp only [Part.q, hqs]
      rw [hhead, hq]
    · rw [State.core_packetDone]
      exact htask c hcore
  · have hx := exec_inval hp hk hkind
    rw [if_pos (bne_iff_ne.2 hva)] at hx
    obtain ⟨Q, hQ, -, herr⟩ := State.find_packetFail (q := k.q) hp .badPacket
    exact ⟨_, Q, hx, hQ, by rw [herr]; rfl, State.packetFail_cores ..⟩
  · have hx := exec_inval hp hk hkind
    rw [if_neg (by rw [bne_iff_ne]; exact not_not.2 hva), if_pos (List.any_eq_true.2 hmid)] at hx
    exact hx
  · have hx := exec_inval hp hk hkind
    rw [if_neg (by rw [bne_iff_ne]; exact not_not.2 hva), if_neg (by simpa using hmid)] at hx
    obtain ⟨Q, hQ, hnone, -⟩ := State.find_packetDone (s := s.invalidate p (va % 2 ^ 60) n) (k := k) hp
    refine ⟨_, Q, hx, hQ, hnone, by rw [State.packetDone_mem]; rfl, fun c x hcx => ?_⟩
    rw [State.ctx, State.core_packetDone]
    exact State.tlb_dropTlb x hcx

end Sys2Proof.Machine
end

section
/-!
SUPPORT. Contexts under R47-R53 and R449: parks that end, BUDGET at its end, migration, and the turns of a physical core.
-/

namespace Sys2Proof.Machine

/-! ### Memory while a context is freed (R32) -/

theorem State.mem_foldl {α : Type} {f : State → α → State} (hf : ∀ s a, (f s a).mem = s.mem) (l : List α) (s : State) : (l.foldl f s).mem = s.mem := by
  induction l generalizing s with
  | nil => rfl
  | cons a l ih => exact (ih _).trans (hf s a)

section
variable (s : State) (core ctx : Nat)

theorem State.mem_cancelSync : (s.cancelSync core ctx).mem = s.mem := by
  unfold State.cancelSync
  refine (State.mem_foldl (fun u o => ?_) _ _).trans ?_
  · split <;> rfl
  · split <;> rfl

theorem State.mem_giveBackAll : (s.giveBackAll core ctx).mem = s.mem := by
  refine State.mem_foldl (fun u a => ?_) _ _
  cases a.orig <;> rfl

theorem State.mem_giveUp : (s.giveUp core ctx).mem = s.mem := by
  have hown : ∀ u : State, (u.cancelOwn core ctx).mem = u.mem := fun u => by unfold State.cancelOwn; split <;> rfl
  have hwait : ∀ u : State, (u.unwait core ctx).mem = u.mem := fun u => by unfold State.unwait; split <;> rfl
  have hring : ∀ u : State, (u.withdraw core ctx).mem = u.mem := fun _ => rfl
  rw [State.giveUp, State.unask, State.onPart_mem, hwait, hring, State.mem_giveBackAll, hown, State.mem_cancelSync]

/-- A context freed leaves memory as it is. -/
theorem State.mem_freeCtx : (s.freeCtx core ctx).mem = s.mem := by
  rw [State.freeCtx, State.onCtx_mem, State.ungrant_mem, State.mem_giveUp]

end

/-! ### Parks and BUDGET (R47, R48) -/

/-- A context that runs on. -/
def Ctx.resumed (x : Ctx) : Ctx := { x with st := .running, await := .none, stall := 0 }

@[simp] theorem State.ctx_resume (s : State) (core ctx : Nat) : (s.resume core ctx).ctx core ctx = (s.ctx core ctx).resumed := State.ctx_onCtx_self ..

theorem exec_parkResume {s : State} {core ctx : Nat} (hst : (s.ctx core ctx).st = .parked) (hdue : s.parkDue core ctx = true)
    (hd : s.detAt core = false) (hf : s.frozenAt core = false) (hr : s.rests core = false) :
    exec (.parkResume core ctx) s = .next (s.resume core ctx) := by
  refine if_pos ?_
  rw [hst, hdue, hd, hf, hr]
  rfl

theorem exec_budgetExpiry {s : State} {core ctx : Nat} (hc : (s.ctx core ctx).charged = true) (hb : (s.ctx core ctx).budget = 0)
    (hf : s.frozenAt core = false) :
    exec (.budgetExpiry core ctx) s = .next (s.abort core ctx (mkTrap .budget 0) (s.ctx core ctx).ip) := by
  refine (if_pos ?_).trans rfl
  rw [hc, hb, hf]
  rfl

/-! ### Migration (R50-R53) -/

section
variable {s : State} {core ctx : Nat} {h : Nat} (hst : (s.ctx core ctx).st = .parked) (haw : (s.ctx core ctx).await = .migrate h)
  (hship : s.shipReady core ctx = true) (hhold : (s.ctx core ctx).hold = false)
include hst haw hship hhold

/-- Without a target the count of the die starts again and the context runs on (R51). -/
theorem exec_migrationShip_none (ht : s.migTarget core ctx h = none) (hr : s.rests core = false) :
    exec (.migrationShip core ctx) s = .next ((s.resume core ctx).onCtx core ctx (fun x => { x with remote := set8 x.remote h 0 })) := by
  change execMigrationShip core ctx s = _
  unfold execMigrationShip
  simp only [hst, haw, hship, hhold, ht, hr, Bool.not_true, Bool.or_self, Bool.false_eq_true, if_false]

/-- The held messages leave and the end is recorded before the context is on its way. -/
def State.shipping (s : State) (core ctx : Nat) : State :=
  ((s.leaveAll core ((s.ctx core ctx).sender (ctx % 4)) (s.ctx core ctx).sendBuf).endEvent core ctx 3).failedRecords core ctx

omit hst haw hship hhold in
theorem Inboxed.shipping (s : State) (core ctx : Nat) : Inboxed s (s.shipping core ctx) :=
  (leaveAll ..).trans ((Offcore.endEvent ..).trans (Offcore.failedRecords ..)).inboxed

theorem exec_migrationShip_some {k c : Nat} (ht : s.migTarget core ctx h = some (k, c)) (hl : s.canLeave core (s.ctx core ctx).sendBuf = true) :
    exec (.migrationShip core ctx) s = .next (((s.shipping core ctx).onCore k (fun t => { t with
      arrivals := t.arrivals ++ [(s.ctx core ctx).wayfarer core ctx c] })).onCtx core ctx
        (fun x => { x with await := .shipped, sendBuf := [], failed := [] })) := by
  change execMigrationShip core ctx s = _
  unfold execMigrationShip
  simp only [hst, haw, hship, hhold, ht, hl, Bool.not_true, Bool.or_self, Bool.false_eq_true, if_false]
  rfl

end

/-- The context that ships stays parked, and its wayfarer is on its way to the target. -/
theorem State.shipped (s : State) (core ctx k c : Nat) : let x := s.ctx core ctx
    let t := ((s.shipping core ctx).onCore k (fun t => { t with arrivals := t.arrivals ++ [x.wayfarer core ctx c] })).onCtx core ctx
        (fun x => { x with await := .shipped, sendBuf := [], failed := [] })
    t.ctx core ctx = { x with await := .shipped, sendBuf := [], failed := [] } ∧ x.wayfarer core ctx c ∈ (t.core k).arrivals := by
  intro x t
  have hk : ∀ n, (((s.shipping core ctx).onCore k (fun t => { t with arrivals := t.arrivals ++ [x.wayfarer core ctx c] })).ctx n ctx) = s.ctx n ctx := by
    intro n
    rw [← (Inboxed.shipping s core ctx).ctx n ctx]
    by_cases hn : n = k
    · subst hn; simp only [State.ctx, State.core_onCore_self]; rfl
    · simp only [State.ctx, State.core_onCore_ne _ _ hn]
  refine ⟨?_, ?_⟩
  · rw [State.ctx_onCtx_self, hk]
  · rw [(Housed.onCtx ..).arrivals, State.core_onCore_self]
    exact List.mem_append_right _ (List.mem_singleton.2 rfl)

/-- The line of a code-line activation filled anew changes the instruction cache alone. -/
theorem State.newLine_eq (s : State) (core : Nat) (w : Wayfarer) :
    s.newLine core w = s ∨ ∃ f, s.newLine core w = s.onCore core (fun k => { k with icache := k.icache.filter f }) := by
  unfold State.newLine
  split
  · split
    · exact .inr ⟨_, rfl⟩
    · exact .inl rfl
  · exact .inl rfl

/-- A wayfarer at its target, before the context that shipped it is free (R53). -/
def State.arriving (s : State) (core ctx : Nat) (w : Wayfarer) (rest : List Wayfarer) : State :=
  ((s.onCore core (fun k => { k with arrivals := rest })).onCtx core ctx (fun x =>
    x.arrive w ((s.core core).task (match w.act with | some a => a.m.msg.env.tag | none => 0)))).newLine core w

theorem State.arriving_eq (s : State) (core ctx : Nat) (w : Wayfarer) (rest : List Wayfarer) :
    ((s.arriving core ctx w rest).core core).arrivals = rest ∧ (s.arriving core ctx w rest).mem = s.mem ∧
      (s.arriving core ctx w rest).ctx core ctx =
        (s.ctx core ctx).arrive w ((s.core core).task (match w.act with | some a => a.m.msg.env.tag | none => 0)) := by
  let u := (s.onCore core (fun k => { k with arrivals := rest })).onCtx core ctx (fun x =>
    x.arrive w ((s.core core).task (match w.act with | some a => a.m.msg.env.tag | none => 0)))
  have harr : (u.core core).arrivals = rest := by rw [(Housed.onCtx ..).arrivals, State.core_onCore_self]
  have hctx : u.ctx core ctx = _ := State.ctx_onCtx_self ..
  have hx : (s.onCore core (fun k => { k with arrivals := rest })).ctx core ctx = s.ctx core ctx := by
    simp only [State.ctx, State.core_onCore_self]; rfl
  rw [hx] at hctx
  have hu : s.arriving core ctx w rest = u.newLine core w := rfl
  rw [hu]
  rcases State.newLine_eq u core w with h | ⟨f, h⟩
  · rw [h]; exact ⟨harr, rfl, hctx⟩
  · rw [h, State.core_onCore_self]
    refine ⟨harr, rfl, ?_⟩
    rw [← hctx, State.ctx, State.core_onCore_self]
    rfl

theorem exec_wayfarerArrive {s : State} {core ctx : Nat} {w : Wayfarer} {rest : List Wayfarer}
    (ht : takeFirst (fun (w : Wayfarer) => w.ctx == ctx % 4) (s.core core).arrivals = some (w, rest)) (hst : (s.ctx core ctx).st = .free) :
    exec (.wayfarerArrive core ctx) s = .next ((s.arriving core ctx w rest).freeCtx w.hopCore w.hopCtx) := by
  change execWayfarerArrive core ctx s = _
  unfold execWayfarerArrive
  rw [ht]
  simp only [hst, bne_self_eq_false, Bool.false_eq_true, if_false]
  rfl

/-! ### Turns (R449) -/

/-- A context at the turn of its core: what the quantum's end has woken runs on. -/
def Ctx.turned (x : Ctx) : Ctx := if x.woken && !x.hold then x.resumed else x

theorem Ctx.turned_turned (x : Ctx) : x.turned.turned = x.turned := by
  by_cases h : (x.woken && !x.hold) = true
  · have h2 : x.turned = x.resumed := if_pos h
    rw [h2, Ctx.turned]
    exact if_neg (by simp [Ctx.woken, Ctx.resumed])
  · have h2 : x.turned = x := if_neg h
    rw [h2, h2]

/-- Which contexts those are. -/
theorem Ctx.turned_eq (x : Ctx) :
    x.turned = if x.st = .parked ∧ x.await = .none ∧ x.hold = false then { x with st := .running, stall := 0 } else x := by
  by_cases h : x.st = .parked ∧ x.await = .none ∧ x.hold = false
  · obtain ⟨hst, haw, hh⟩ := h
    rw [if_pos ⟨hst, haw, hh⟩, Ctx.turned, if_pos (by rw [Ctx.woken, hst, haw, hh]; rfl), Ctx.resumed, ← haw]
  · rw [if_neg h, Ctx.turned, if_neg (fun hw => h (by simpa [Ctx.woken, and_assoc] using hw))]

/-- One context of a core that takes its turn. -/
def State.turnOne (s : State) (core c : Nat) : State := if (s.ctx core c).woken && !(s.ctx core c).hold then s.resume core c else s

section
variable (s : State) (core c : Nat)

theorem State.ctx_turnOne (d : Nat) : (s.turnOne core c).ctx core d = if c4 c = c4 d then (s.ctx core d).turned else s.ctx core d := by
  have hsame : ∀ v : State, c4 c = c4 d → v.ctx core d = v.ctx core c := fun v hd => by simp only [State.ctx, CoreSt.ctx, hd]
  by_cases h : ((s.ctx core c).woken && !(s.ctx core c).hold) = true
  · have hw : s.turnOne core c = s.resume core c := if_pos h
    rw [hw]
    by_cases hd : c4 c = c4 d
    · rw [hsame _ hd, hsame s hd, State.ctx_resume, if_pos hd, Ctx.turned, if_pos h]
    · rw [if_neg hd, State.resume, State.ctx_onCtx_peer _ _ (Ne.symm hd)]
  · have hw : s.turnOne core c = s := if_neg h
    rw [hw]
    by_cases hd : c4 c = c4 d
    · rw [hsame s hd, if_pos hd, Ctx.turned, if_neg h]
    · rw [if_neg hd]

theorem State.turnOne_rest : (∀ n, n ≠ core → (s.turnOne core c).core n = s.core n) ∧ (s.turnOne core c).mem = s.mem ∧
    (s.turnOne core c).pkg = s.pkg := by
  unfold State.turnOne
  split
  · exact ⟨fun n hn => State.core_onCtx_ne s _ hn, rfl, rfl⟩
  · exact ⟨fun _ _ => rfl, rfl, rfl⟩

end

/-- Some contexts of a core take its turn: those run on that have been woken, and nothing else changes. -/
theorem State.turn_all (core : Nat) (l : List Nat) (s : State) : let t := l.foldl (fun s c => s.turnOne core c) s
    (∀ d, t.ctx core d = if ∃ c ∈ l, c4 c = c4 d then (s.ctx core d).turned else s.ctx core d) ∧
      (∀ n, n ≠ core → t.core n = s.core n) ∧ t.mem = s.mem ∧ t.pkg = s.pkg := by
  induction l generalizing s with
  | nil => exact ⟨fun d => by simp, fun _ _ => rfl, rfl, rfl⟩
  | cons c l ih =>
    obtain ⟨hctx, hcore, hmem, hpkg⟩ := ih (s.turnOne core c)
    obtain ⟨hucore, humem, hupkg⟩ := State.turnOne_rest s core c
    refine ⟨fun d => ?_, fun n hn => (hcore n hn).trans (hucore n hn), hmem.trans humem, hpkg.trans hupkg⟩
    refine (hctx d).trans ?_
    rw [State.ctx_turnOne s core c d]
    by_cases hd : c4 c = c4 d <;> by_cases hl : ∃ e ∈ l, c4 e = c4 d <;> simp [hd, hl, Ctx.turned_turned]

/-- The turn of a host given to a logical core since now. -/
def State.setTurn (s : State) (h core : Nat) : State := s.onPkg (fun g => { g with turns := AMap.set g.turns h (core, s.time) })

/-- A turn that may pass does (R449). -/
theorem exec_turnSwitch {s : State} {core a h on since : Nat} (hp : s.pairOf core = some (a, h)) (ht : s.turnOf h = (on, since))
    (hpass : (s.detAt core = false ∧ (s.core (if on = h then a else h)).hasWork = true ∧ since + 4096 ≤ s.time) ∨
      (s.detAt core = true ∧ (s.core on).qdone = true ∧ (s.core (if on = h then a else h)).qdone = false)) :
    exec (.turnSwitch core) s = .next ((s.setTurn h (if on = h then a else h)).wakeCore (if on = h then a else h)) := by
  change execTurnSwitch core s = _
  unfold execTurnSwitch
  rw [hp]
  simp only [ht]
  refine if_pos ?_
  rcases hpass with ⟨hd, hw, hs⟩ | ⟨hd, hon, hother⟩
  · simp [hd, hw, hs]
  · simp [hd, State.detPass, hon, hother]

/-- The core that takes the turn has it since now, what has been woken on it runs on, and no other core changes. -/
theorem State.turned (s : State) (h other : Nat) : let t := (s.setTurn h other).wakeCore other
    t.turnOf h = (other, s.time) ∧ (∀ n, n ≠ other → t.core n = s.core n) ∧ t.mem = s.mem ∧ ∀ c < 4, t.ctx other c = (s.ctx other c).turned := by
  intro t
  have ht : t = (upTo 4).foldl (fun s c => s.turnOne other c) (s.setTurn h other) := rfl
  obtain ⟨hctx, hcore, hmem, hpkg⟩ := State.turn_all other (upTo 4) (s.setTurn h other)
  rw [← ht] at hctx hcore hmem hpkg
  refine ⟨?_, hcore, hmem, fun c hc => ?_⟩
  · have hturn : t.turnOf h = (s.setTurn h other).turnOf h := by simp only [State.turnOf, hpkg]
    rw [hturn]
    simp [State.turnOf, State.setTurn, State.onPkg]
  · refine (hctx c).trans ?_
    rw [if_pos ⟨c, by simpa [upTo] using hc, rfl⟩]
    rfl

theorem contextsMove : Says.ContextEvents := by
  intro s core ctx x
  refine ⟨fun hst hdue hd hf hr => ?_, fun h hst haw hship hhold => ⟨fun ht hr => ?_, fun k c ht hl => ?_⟩, fun w rest ht hst hne => ?_,
    fun a h on since hp ht => ?_, fun hc hb hf => ?_⟩
  · exact ⟨_, exec_parkResume hst hdue hd hf hr, State.ctx_resume .., rfl⟩
  · refine ⟨_, exec_migrationShip_none hst haw hship hhold ht hr, ?_⟩
    rw [State.ctx_onCtx_self, State.ctx_resume]
    exact ⟨rfl, rfl, rfl, rfl⟩
  · obtain ⟨hctx, harr⟩ := State.shipped s core ctx k c
    refine ⟨_, exec_migrationShip_some hst haw hship hhold ht hl, ?_⟩
    rw [hctx]
    exact ⟨hst, rfl, rfl, harr⟩
  · obtain ⟨harr, hmem, hctx⟩ := State.arriving_eq s core ctx w rest
    have hother : ¬ (core = w.hopCore ∧ c4 ctx = c4 w.hopCtx) := fun h => hne ⟨h.1.symm, by simpa [c4] using h.2.symm⟩
    refine ⟨_, exec_wayfarerArrive ht hst, ?_⟩
    rw [(Housed.freeCtx ..).arrivals, State.mem_freeCtx, State.ctx_freeCtx_self, State.ctx_freeCtx_ne _ hother, hctx, hmem]
    exact ⟨harr, fun _ => rfl, rfl, rfl, rfl, rfl, rfl, rfl, rfl, rfl, rfl, rfl, rfl⟩
  · intro other hpass
    obtain ⟨hturn, hcore, hmem, hctx⟩ := State.turned s h other
    exact ⟨_, exec_turnSwitch hp ht hpass, hturn, hcore, hmem, fun c hc => (hctx c hc).trans (Ctx.turned_eq _)⟩
  · refine ⟨_, exec_budgetExpiry hc hb hf, ?_⟩
    rw [State.ctx_abort]
    exact ⟨rfl, by simp [mkTrap], by simp [x], by simp [x]⟩

/-! ### The end of a core's quantum (R47, R57) -/

end Sys2Proof.Machine
end

section
/-!
SUPPORT. The end of a quantum (R57-R59, R453), and O46 from it. What follows the count of a new quantum keeps the books; where nothing of the quantum waits it
is followed exactly.
-/

namespace Sys2Proof.Machine

/-! ### The end of a core's quantum (R47, R57) -/

/-- A core that has retired QUANT instructions ends its quantum. -/
theorem exec_logicalQuantumEnd {s : State} {core : Nat} (hd : s.detAt core = true) (hq : (s.core core).qdone = false) (hr : s.rests core = false)
    (hn : (s.core core).quant.toNat ≤ (s.core core).retired) : exec (.logicalQuantumEnd core) s = .next (s.onCore core CoreSt.endQuantum) := by
  refine if_pos ?_
  have hover : s.quantumOver core = true := by simp [State.quantumOver, hn]
  rw [hd, hq, hr, hover]
  rfl

theorem CoreSt.ctx_endQuantum (k : CoreSt) (c : Nat) : k.endQuantum.ctx c = (k.ctx c).quantumPark := by
  simp only [CoreSt.ctx, CoreSt.endQuantum, Vector.get_eq_getElem, Vector.getElem_map]

theorem Ctx.quantumPark_eq (x : Ctx) : x.quantumPark =
    if x.st = .running then { x with st := .parked, await := .quantum, stall := Stall.quantum.code } else x := by
  simp only [Ctx.quantumPark, beq_iff_eq]

/-! ### Books kept by the end of the shape's quantum (R58, R349) -/

namespace Offcore

theorem rlcAll (s : State) (p : Nat) : Offcore s (s.rlcAll p) :=
  foldl (fun _ _ => (onRlc ..).trans (foldl (fun _ _ => rlcApply ..) _ _)) _ s

theorem applyNotice (s : State) (p : Nat) (n : Notice) : Offcore s (s.applyNotice p n) := by
  unfold State.applyNotice
  split
  · exact refl s
  · exact ite (refl s) (setBlk ..)

theorem tellNbrs (s : State) (p id : Nat) (lv : BitVec 32) : Offcore s (s.tellNbrs p id lv) := by
  unfold State.tellNbrs
  split
  · exact refl s
  · refine foldl (fun u n => ?_) _ s
    split
    · exact refl u
    · exact ite (refl u) (applyNotice ..)

theorem commitNotices (s : State) (p : Nat) (l : List FEv) : Offcore s (s.commitNotices p l) := by
  refine foldl (fun u e => ?_) l s
  cases e with
  | commit => exact tellNbrs ..
  | op | ended | lease | host => exact refl u

theorem setLevel (s : State) (p id : Nat) (lv : BitVec 32) : Offcore s (s.setLevel p id lv) := by
  unfold State.setLevel
  split
  · exact refl s
  · exact (((setBlk ..).trans (onFu ..)).trans (event ..)).trans (count ..)

theorem freezeDie (s : State) (die : Nat) : Offcore s (s.freezeDie die) := foldl (fun _ _ => freezeFront ..) _ s

theorem thawFront (s : State) (p tag num : Nat) : Offcore s (s.thawFront p tag num) := by
  refine ite (((setFront ..).trans (event ..)).trans (foldl (fun u e => ?_) _ _)) (refl s)
  exact ite (setBlk ..) (refl u)

theorem hostFront (s : State) (p id : Nat) (thaw : Bool) : Offcore s (s.hostFront p id thaw) := by
  unfold State.hostFront
  split
  · exact refl s
  · exact ite (thawFront ..) (freezeFront ..)

/-- A front-unit event that no instruction waits for. -/
theorem fevDo (s : State) (p : Nat) (e : FEv) (h : ∀ c x r, e ≠ .op c x r) : Offcore s (s.fevDo p e) := by
  cases e with
  | op c x r => exact absurd rfl (h c x r)
  | commit => exact (setLevel ..).trans (tellNbrs ..)
  | ended => exact updateEnd ..
  | lease => exact freezeDie ..
  | host => exact hostFront ..

theorem fevsDo (p : Nat) (l : List FEv) (h : ∀ c x r, FEv.op c x r ∉ l) (s : State) : Offcore s (s.fevsDo p l) := by
  induction l generalizing s with
  | nil => exact refl s
  | cons e l ih =>
    have he := fevDo s p e (fun c x r heq => h c x r (heq ▸ List.mem_cons_self ..))
    exact he.trans (ih (fun c x r hm => h c x r (List.mem_cons_of_mem _ hm)) (s.fevDo p e))

theorem dispatch (s : State) (p id : Nat) (b : Blk) : Offcore s (s.dispatch p id b) :=
  ((((setBlk ..).trans (onFu ..)).trans (engineMsg ..)).trans ((event ..).trans (count ..))).trans (tick _)

theorem dispatchAll (s : State) (p : Nat) : Offcore s (s.dispatchAll p) := by
  refine ite (refl s) (foldl (fun u e => ?_) _ s)
  split
  · exact dispatch ..
  · exact refl u

theorem scrub (s : State) (die k n : Nat) : Offcore s (s.scrub die k n) := by
  unfold State.scrub
  split
  · exact refl s
  · exact (onMem ..).trans (count ..)

theorem ringFlip (s : State) (cl : Nat) (g : GOp) : Offcore s (s.ringFlip cl g) :=
  (((ite (foldl (fun _ _ => scrub ..) _ s) (refl s)).trans (onMem ..)).trans (onRing ..)).trans ((event ..).trans (count ..))

theorem clasp (s : State) (cl : Nat) : Offcore s (s.clasp cl) :=
  ite (refl s) (ite ((onRing ..).trans (event ..)) ((onRing ..).trans (event ..)))

theorem ringsAll (s : State) (p : Nat) : Offcore s (s.ringsAll p) := by
  refine foldl (fun u i => trans ?_ (clasp ..)) _ s
  split
  · exact ite (ringFlip ..) (refl u)
  · exact refl u

end Offcore

namespace Tallied

theorem onPart (s : State) (p : Nat) (f : Part → Part) (hf : ∀ P, (f P).tally = P.tally) : Tallied s (s.onPart p f) := by
  unfold State.onPart
  cases h : AMap.find s.parts p with
  | none => exact refl s
  | some P => exact ⟨fun _ => rfl, viewsOf_set h (hf P)⟩

theorem boardsAll (s : State) (p : Nat) : Tallied s (s.boardsAll p) := by
  have h0 : Tallied s { s with boardUpd := s.boardUpd.filter (fun u => s.pOf u.core != p) }  := ⟨fun _ => rfl, rfl⟩
  refine h0.trans (trans (foldl (fun u b => ?_) _ _) (foldl (fun u c => ite ?_ (refl u)) _ _))
  · exact onCore _ _ _ (by exact fun _ => rfl)
  · exact onCore _ _ _ (by exact fun _ => rfl)

theorem wakeAll (s : State) (p : Nat) : Tallied s (s.wakeAll p) := by
  have hctx : ∀ (u : State) n c f, Tallied u (u.onCtx n c f) := fun u n c f => (Paged.onCtx u n c f).toTallied
  have hwake : ∀ (u : State) n c, Tallied u (u.wake n c) := fun u n c => ite (hctx ..) (hctx ..)
  refine foldl (fun s core => foldl (fun s c => ite (refl s) (trans (ite (hctx ..) (refl s)) (ite (hwake ..) (refl _)))) _ s) _ s

end Tallied

/-- What of a quantum's end comes after the count of the new one, given the events of the front units. -/
def State.quantumRest (s : State) (p : Nat) (fevs : List FEv) : State :=
  let s2 := (((s.rlcAll p).boardsAll p).deliverAll p).commitNotices p fevs
  let s3 := (s2.onPart p (fun P => { P with taskq := [] })).fevsDo p fevs
  let s4 := ((s3.dispatchAll p).deliverAll p).onPart p (fun P => { P with taskq := (s2.part p).taskq ++ P.taskq })
  ((s4.ringsAll p).wakeAll p).startBoards p

/-- The count of the new quantum. -/
def State.counted (s : State) (p : Nat) : State := (s.onPart p (fun P => { P with quanta := P.quanta + 1, fevs := [] })).nextQuantum p

theorem State.quantumEnd_eq (s : State) (p : Nat) : s.quantumEnd p = (s.counted p).quantumRest p (s.fevList p) := rfl

/-- Without an instruction that waits for it, the rest of a quantum's end keeps the books. -/
theorem Tallied.quantumRest (s : State) (p : Nat) {l : List FEv} (h : ∀ c x r, FEv.op c x r ∉ l) : Tallied s (s.quantumRest p l) := by
  have h2 : Tallied s ((((s.rlcAll p).boardsAll p).deliverAll p).commitNotices p l) :=
    ((Offcore.rlcAll ..).tallied.trans (.boardsAll ..)).trans ((Inboxed.deliverAll ..).tallied.trans (Offcore.commitNotices ..).tallied)
  have hq : ∀ (u : State) (f : Part → List Deliv), Tallied u (u.onPart p (fun P => { P with taskq := f P })) := fun u f => .onPart u p _ (by exact fun _ => rfl)
  have h4 := (h2.trans (hq _ (fun _ => []))).trans ((Offcore.fevsDo p l h _).tallied.trans ((Offcore.dispatchAll _ p).tallied.trans
    (Inboxed.deliverAll _ p).tallied))
  exact (h4.trans (hq _ _)).trans ((Offcore.ringsAll _ p).tallied.trans ((Tallied.wakeAll _ p).trans (Paged.startBoards _ p).toTallied))

/-! ### The count of the new quantum (R57) -/

/-- A core at the beginning of a quantum. -/
def CoreSt.recount (k : CoreSt) : CoreSt := { k with retired := 0, qdone := false, rot := 3, synced := false }

/-- A partition at the beginning of a quantum. -/
def Part.recount (P : Part) : Part := { P with quanta := P.quanta + 1, fevs := [] }

/-- The turns of the physical cores are of the package. -/
theorem State.firstTurns_rest (s : State) (p : Nat) : s.firstTurns p = { s with pkg := (s.firstTurns p).pkg } := by
  have hfold : ∀ (f : State → Nat → State), (∀ u c, f u c = { u with pkg := (f u c).pkg }) → ∀ (l : List Nat) (u : State),
      l.foldl f u = { u with pkg := (l.foldl f u).pkg } := fun f hf l => by
    induction l with
    | nil => exact fun _ => rfl
    | cons c l ih =>
      intro u
      have hc := congrArg (fun v : State => ({ v with pkg := (l.foldl f (f u c)).pkg } : State)) (hf u c)
      exact (ih (f u c)).trans hc
  unfold State.firstTurns
  split
  · rfl
  · refine hfold _ (fun u c => ?_) _ s
    split
    · split <;> rfl
    · rfl

section
variable (s : State) (p : Nat)

/-- The new quantum before the turns of the physical cores. -/
def State.recounted : State :=
  { s.onPart p Part.recount with
    cores := AMap.mapVals (fun n k => if (s.onPart p Part.recount).pOf n = p then k.recount else k) (s.onPart p Part.recount).cores
    wr := (s.onPart p Part.recount).wr.filter (fun w => (s.onPart p Part.recount).pOf w.core != p) }

theorem State.counted_eq : s.counted p = { s.recounted p with pkg := (s.counted p).pkg } := State.firstTurns_rest (s.recounted p) p

theorem State.cores_counted : (s.counted p).cores = AMap.mapVals (fun n k => if s.pOf n = p then k.recount else k) s.cores := by
  rw [State.counted_eq]
  simp only [State.recounted, State.onPart_cores, State.pOf_onPart s p (f := Part.recount) (fun _ => rfl)]

theorem State.parts_counted : (s.counted p).parts = (s.onPart p Part.recount).parts := by rw [State.counted_eq]; rfl

theorem State.pOf_counted (n : Nat) : (s.counted p).pOf n = s.pOf n := by
  rw [← State.pOf_onPart s p (f := Part.recount) (fun _ => rfl) n]
  simp only [State.pOf, State.partKey, State.parts_counted]

/-- Every core of the partition counts from 0, and nothing else of it changes. -/
theorem State.core_counted {n : Nat} (h : s.pOf n = p) : (s.counted p).core n = (s.core n).recount := by
  rcases State.core_mapVals (State.cores_counted s p) n with hc | ⟨h1, h2⟩
  · rw [hc, if_pos h]
  · rw [h1, h2]; rfl

theorem State.counts_counted {n : Nat} (h : s.pOf n = p) : ((s.counted p).core n).retired = 0 ∧ ((s.counted p).core n).qdone = false := by
  rw [State.core_counted s p h]
  exact ⟨rfl, rfl⟩

end

/-- A partition of the new quantum. -/
theorem State.find_counted {s : State} {p : Nat} {P : Part} (hp : AMap.find s.parts p = some P) :
    AMap.find (s.counted p).parts p = some P.recount := by
  rw [State.parts_counted]
  exact State.find_onPart hp Part.recount

/-- Deterministic mode left, or not: the number of quanta stays, and the cores' counts stay 0. -/
theorem State.leaveDet_counts {u : State} {p : Nat} {Q : Part} (hQ : AMap.find u.parts p = some Q)
    (h0 : ∀ n, u.pOf n = p → (u.core n).retired = 0 ∧ (u.core n).qdone = false) :
    ∃ R, AMap.find (u.leaveDet p).parts p = some R ∧ R.quanta = Q.quanta ∧
      ∀ n, u.pOf n = p → ((u.leaveDet p).core n).retired = 0 ∧ ((u.leaveDet p).core n).qdone = false := by
  unfold State.leaveDet
  split
  · have ha := (Paged.advsDo u p).toTallied
    have h1 : ∀ n, u.pOf n = p → ((u.advsDo p).1.core n).retired = 0 ∧ ((u.advsDo p).1.core n).qdone = false := fun n hn => by
      rw [ha.retired, ha.qdone]; exact h0 n hn
    obtain ⟨A, hA, -, -, hAq⟩ := ha.find hQ
    split
    · next s1 hs1 =>
      rw [hs1] at ha h1 hA
      let v : State := { s1.onPart p (Part.leftDet s1.time) with
        cores := AMap.mapVals (fun n k => if s1.pOf n = p then k.leftDet else k) (s1.onPart p (Part.leftDet s1.time)).cores
        wr := (s1.onPart p (Part.leftDet s1.time)).wr.filter (fun w => s1.pOf w.core != p) }
      have hd : Tallied v (s1.exitDet p) := (Inboxed.deliverAll v p).tallied
      obtain ⟨R, hR, -, -, hRq⟩ := hd.find (P := Part.leftDet s1.time A) (State.find_onPart hA _)
      refine ⟨R, hR, hRq.trans hAq, fun n hn => ?_⟩
      rw [hd.retired, hd.qdone]
      have hn1 : s1.pOf n = p := (ha.pOf n).trans hn
      rcases State.core_mapVals (s := s1.onPart p (Part.leftDet s1.time)) (t := v) (f := fun n k => if s1.pOf n = p then k.leftDet else k) rfl n
        with h | ⟨h, -⟩ <;> rw [h]
      · rw [if_pos hn1]; exact ⟨rfl, rfl⟩
      · exact ⟨rfl, rfl⟩
    · next s1 hs1 =>
      rw [hs1] at h1 hA
      exact ⟨A, hA, hAq, h1⟩
  · exact ⟨Q, hQ, rfl, h0⟩

/-! ### The quantum's end performed -/

theorem mem_sortBy {α : Type} (le : α → α → Bool) (l : List α) (x : α) : x ∈ sortBy le l ↔ x ∈ l := by
  have h : ∀ acc, x ∈ l.foldl (fun acc x => insertBy le x acc) acc ↔ x ∈ acc ∨ x ∈ l := by
    induction l with
    | nil => simp
    | cons a l ih =>
      intro acc
      rw [List.foldl_cons, ih, mem_insertBy, List.mem_cons]
      tauto
  exact (h []).trans (by simp)

/-- What comes up to the first parked instruction is of the list. -/
theorem mem_of_splitOp {e : FEv} {l : List FEv} (h : e ∈ (splitOp l).1) : e ∈ l := by
  induction l with
  | nil => exact h
  | cons a l ih =>
    cases a with
    | op =>
      obtain rfl := List.mem_singleton.1 h
      exact List.mem_cons_self ..
    | commit | ended | lease | host =>
      rcases List.mem_cons.1 h with rfl | h
      · exact List.mem_cons_self ..
      · exact List.mem_cons_of_mem _ (ih h)

/-- Without a front-unit instruction that waits, none goes on in the quantum. -/
theorem State.passDue_none {s : State} {p : Nat} (h : ∀ c x r, FEv.op c x r ∉ (s.part p).fevs) : s.passDue p = none := by
  unfold State.passDue
  split
  · next c x r hl =>
    have hmem := mem_of_splitOp (List.mem_of_getLast? hl)
    exact absurd ((mem_sortBy _ _ _).1 hmem) (h c x r)
  all_goals rfl

/-- The shape's quantum ends where its channel advances can be performed. -/
theorem exec_quantumEnd {s : State} {p : Nat} (hdue : s.quantumDue p = true) (hop : ∀ c x r, FEv.op c x r ∉ (s.part p).fevs)
    (ha : (s.advsDo p).2 = true) : exec (.quantumEnd p) s = .next (((s.advsDo p).1.quantumEnd p).leaveDet p) := by
  change execQuantumEnd p s = _
  unfold execQuantumEnd
  rw [hdue, State.passDue_none hop, if_neg (by decide)]
  cases h : s.advsDo p with
  | mk s1 b =>
    rw [h] at ha
    obtain rfl : b = true := ha
    rfl

/-- The quantum's end counts one quantum more, and every core of the partition counts from 0. -/
theorem State.quantumEnd_counts {s : State} {p : Nat} {P : Part} (hp : AMap.find s.parts p = some P) (hop : ∀ c x r, FEv.op c x r ∉ P.fevs) :
    ∃ P', AMap.find (((s.advsDo p).1.quantumEnd p).leaveDet p).parts p = some P' ∧ P'.quanta = P.quanta + 1 ∧ ∀ c, s.pOf c = p →
      ((((s.advsDo p).1.quantumEnd p).leaveDet p).core c).retired = 0 ∧ ((((s.advsDo p).1.quantumEnd p).leaveDet p).core c).qdone = false := by
  have ha := Paged.advsDo s p
  obtain ⟨A, hA, -, -, hAq⟩ := ha.find hp
  have hops : ∀ c x r, FEv.op c x r ∉ (s.advsDo p).1.fevList p := fun c x r hm => by
    have := (mem_sortBy _ _ _).1 hm
    rw [ha.fevs, State.part_of_find hp] at this
    exact hop c x r this
  have hrest := Tallied.quantumRest ((s.advsDo p).1.counted p) p hops
  rw [← State.quantumEnd_eq] at hrest
  obtain ⟨Q, hQ, -, -, hQq⟩ := hrest.find (State.find_counted hA)
  have hpof : ∀ n, ((s.advsDo p).1.quantumEnd p).pOf n = s.pOf n := fun n => by rw [hrest.pOf, State.pOf_counted, ha.pOf]
  obtain ⟨R, hR, hRq, hcount⟩ := State.leaveDet_counts hQ (fun n hn => by
    rw [hrest.retired, hrest.qdone]
    exact State.counts_counted _ _ ((ha.pOf n).trans ((hpof n).symm.trans hn)))
  refine ⟨R, hR, ?_, fun c hc => hcount c ((hpof c).trans hc)⟩
  rw [hRq, hQq]
  exact congrArg (· + 1) hAq

/-! ### A quantum's end with nothing of the quantum waiting -/

theorem State.ring_of_none {s : State} (h : s.rings = []) (cl : Nat) : s.ring cl = Ring.reset := by simp [State.ring, h]

/-- No controller has an event of the quantum. -/
theorem State.rlcAll_none (p : Nat) {s : State} (h : s.rlcs = []) : ∃ l, s.rlcAll p = { s with rlcs := l } := by
  have hfold : ∀ (f : State → Nat → State), (∀ u cl, (∀ n, (u.rlc n).pend = []) → f u cl = u.onRlc (32 * p + cl) (fun x => { x with pend := [] })) →
      ∀ (l : List Nat) (u : State), (∀ n, (u.rlc n).pend = []) → ∃ k, l.foldl f u = { u with rlcs := k } := fun f hf l => by
    induction l with
    | nil => exact fun u _ => ⟨u.rlcs, rfl⟩
    | cons c l ih =>
      intro u hu
      have hnext : ∀ n, ((f u c).rlc n).pend = [] := fun n => by
        rw [hf u c hu]
        simp only [State.rlc, State.onRlc, AMap.get_set]
        split
        · rfl
        · exact hu n
      obtain ⟨k, hk⟩ := ih (f u c) hnext
      refine ⟨k, hk.trans ?_⟩
      rw [hf u c hu]
      rfl
  refine hfold _ (fun u cl hu => ?_) _ s (fun n => by simp [State.rlc, h, Rlc.reset])
  simp only [hu, sortBy, List.foldl_nil]

/-- No board update waits, and no copy of the partition is under way. -/
theorem State.boardsAll_none {s : State} {p : Nat} (hb : s.boardUpd = []) (hc : s.chansOf p = []) : s.boardsAll p = s := by
  have hch : ∀ c ∈ s.strs.flatMap (fun e => e.2.chans.map (·.2)), s.pOf c.core ≠ p := fun c hmem hp => by
    obtain ⟨e, he, hce⟩ := List.mem_flatMap.1 hmem
    have : c ∈ s.chansOf p := List.mem_flatMap.2 ⟨e, he, List.mem_filter.2 ⟨hce, by simpa using hp⟩⟩
    rw [hc] at this
    cases this
  have hfold : ∀ l : List StrChan, (∀ c ∈ l, s.pOf c.core ≠ p) → l.foldl (fun s c => if s.pOf c.core = p then s.boardShow c else s) s = s := fun l => by
    induction l with
    | nil => exact fun _ => rfl
    | cons c l ih =>
      intro hl
      rw [List.foldl_cons, if_neg (hl c (List.mem_cons_self ..))]
      exact ih (fun d hd => hl d (List.mem_cons_of_mem _ hd))
  have hs : ({ s with boardUpd := [] } : State) = s := by rw [← hb]
  unfold State.boardsAll
  simp only [hb, List.filter_nil, List.foldl_nil, hs]
  exact hfold _ hch

theorem State.dispatchAll_none {s : State} (p : Nat) (h : s.fus = []) : s.dispatchAll p = s := by
  have hb : s.blks p = [] := by simp [State.blks, State.fu, h, FrontUnit.reset]
  simp only [State.dispatchAll, hb, List.filter_nil, List.foldl_nil, ite_self]

theorem State.ringsAll_none {s : State} (p : Nat) (h : s.rings = []) : s.ringsAll p = s := by
  unfold State.ringsAll
  generalize upTo ((s.part p).shape / 16) = l
  induction l with
  | nil => rfl
  | cons c l ih =>
    rw [List.foldl_cons]
    have hcl : s.clasp (32 * p + c) = s := if_pos (by rw [State.ring_of_none h]; decide)
    have hrun : (s.ring (32 * p + c)).running = none := by rw [State.ring_of_none h]; rfl
    simp only [hrun, hcl]
    exact ih

/-- With an empty task queue nothing is delivered. -/
theorem State.deliverAll_none {s : State} {p : Nat} (h : (s.part p).taskq = []) : s.deliverAll p = s.onPart p (fun P => { P with taskq := [] }) := by
  simp only [State.deliverAll, h, sortBy, List.foldl_nil]

/-- Contexts alone have changed: memory, the partitions and all else of the cores stay. -/
structure CtxsOnly (s t : State) : Prop where
  mem   : t.mem = s.mem
  parts : t.parts = s.parts
  cores : ∀ n, (t.core n).house = (s.core n).house

namespace CtxsOnly
variable {s t u : State}

theorem refl (s : State) : CtxsOnly s s := ⟨rfl, rfl, fun _ => rfl⟩
theorem trans (h : CtxsOnly s t) (g : CtxsOnly t u) : CtxsOnly s u := ⟨g.mem.trans h.mem, g.parts.trans h.parts, fun n => (g.cores n).trans (h.cores n)⟩

theorem ite {c : Prop} {_ : Decidable c} (ht : CtxsOnly s t) (hu : CtxsOnly s u) : CtxsOnly s (if c then t else u) := by
  split
  · exact ht
  · exact hu

theorem foldl {α : Type} {f : State → α → State} (hf : ∀ s a, CtxsOnly s (f s a)) (l : List α) (s : State) : CtxsOnly s (l.foldl f s) := by
  induction l generalizing s with
  | nil => exact refl s
  | cons a t ih => exact (hf s a).trans (ih _)

theorem onCtx (s : State) (n c : Nat) (f : Ctx → Ctx) : CtxsOnly s (s.onCtx n c f) := ⟨rfl, rfl, (Housed.onCtx s n c f).cores⟩

theorem wake (s : State) (n c : Nat) : CtxsOnly s (s.wake n c) := ite (onCtx ..) (onCtx ..)

theorem wakeAll (s : State) (p : Nat) : CtxsOnly s (s.wakeAll p) :=
  foldl (fun s _ => foldl (fun s _ => ite (refl s) (trans (ite (onCtx ..) (refl s)) (ite (wake ..) (refl _)))) _ s) _ s

end CtxsOnly

/-- The boards of the quantum's start are of the front units and of the partition. -/
theorem State.startBoards_rest {s : State} {p : Nat} {P : Part} (hp : AMap.find s.parts p = some P) :
    (s.startBoards p).mem = s.mem ∧ (s.startBoards p).cores = s.cores ∧
      ∃ Q, AMap.find (s.startBoards p).parts p = some Q ∧ Q.taskq = P.taskq ∧ Q.shape = P.shape := by
  have hfus : ∀ (l : List Nat) (u : State), ∃ k, l.foldl (fun s i => s.onFu (p + i) (fun u => { u with start := u.board })) u = { u with fus := k } :=
    fun l => by
      induction l with
      | nil => exact fun u => ⟨u.fus, rfl⟩
      | cons i l ih =>
        intro u
        obtain ⟨k, hk⟩ := ih (u.onFu (p + i) (fun u => { u with start := u.board }))
        exact ⟨k, hk⟩
  obtain ⟨k, hk⟩ := hfus (upTo (s.part p).dies) s
  unfold State.startBoards
  rw [hk, State.onPart_mem, State.onPart_cores]
  exact ⟨rfl, rfl, _, State.find_onPart (s := { s with fus := k }) hp _, rfl, rfl⟩

/-- A partition with a task queue. -/
def Part.withTaskq (l : List Deliv) (P : Part) : Part := { P with taskq := l }

/-- The rest of a quantum's end where only deliveries wait: what comes after them touches contexts, boards and what the partition keeps of itself. -/
theorem State.quantumRest_quiet {s r : State} {p : Nat} {Q : Part} (hr : s.rlcAll p = r) (hb : r.boardsAll p = r) (hf : (r.deliverAll p).fus = [])
    (hg : (r.deliverAll p).rings = []) (hQ : AMap.find (r.deliverAll p).parts p = some Q) (hq : Q.taskq = []) :
    (s.quantumRest p []).mem = (r.deliverAll p).mem ∧ (∀ n, ((s.quantumRest p []).core n).house = ((r.deliverAll p).core n).house) ∧
      ∃ Q', AMap.find (s.quantumRest p []).parts p = some Q' ∧ Q'.taskq = [] ∧ Q'.shape = Q.shape := by
  let D := r.deliverAll p
  let d1 := D.onPart p (Part.withTaskq [])
  let d2 := d1.onPart p (Part.withTaskq [])
  let d3 := d2.onPart p (fun P => P.withTaskq ((D.part p).taskq ++ P.taskq))
  have h1 : AMap.find d1.parts p = some (Q.withTaskq []) := State.find_onPart hQ _
  have h2 : AMap.find d2.parts p = some (Q.withTaskq []) := State.find_onPart h1 _
  have h3 : AMap.find d3.parts p = some (Q.withTaskq []) := by
    have hraised : (D.part p).taskq = [] := (congrArg Part.taskq (State.part_of_find hQ)).trans hq
    refine (State.find_onPart h2 _).trans ?_
    rw [hraised]
    rfl
  have hdisp : d1.dispatchAll p = d1 := State.dispatchAll_none p ((State.onPart_fus ..).trans hf)
  have hdel : d1.deliverAll p = d2 := State.deliverAll_none (congrArg Part.taskq (State.part_of_find h1))
  have hrings : d3.ringsAll p = d3 := State.ringsAll_none p (by simp only [d3, d2, d1, State.onPart_rings]; exact hg)
  have heq : s.quantumRest p [] = (d3.wakeAll p).startBoards p := by
    have hfev : s.quantumRest p [] = ((((((d1.dispatchAll p).deliverAll p).onPart p (fun P => P.withTaskq ((D.part p).taskq ++ P.taskq))).ringsAll p).wakeAll p).startBoards p) := by
      unfold State.quantumRest
      rw [hr, hb]
      rfl
    rw [hfev, hdisp, hdel]
    exact congrArg (fun u : State => (u.wakeAll p).startBoards p) hrings
  have hw := CtxsOnly.wakeAll d3 p
  obtain ⟨hmem, hcores, R, hR, hRq, hRs⟩ := State.startBoards_rest (hw.parts.symm ▸ h3 : AMap.find (d3.wakeAll p).parts p = some (Q.withTaskq []))
  rw [heq]
  refine ⟨?_, fun n => ?_, R, hR, hRq, hRs⟩
  · rw [hmem, hw.mem]
    simp only [d3, d2, d1, State.onPart_mem]
    rfl
  · rw [State.core_congr_cores hcores, hw.cores]
    have hc : d3.cores = D.cores := by simp only [d3, d2, d1, State.onPart_cores]
    rw [State.core_congr_cores hc]

/-- A message that REQUEUE has returned, of a task that goes on, at the tail of its queue (R234). -/
theorem State.reenterAt_live {s : State} {core : Nat} (q slot : Nat) {m : Msg} (h : s.taskLive core m = true) :
    (∃ cs, s.reenterAt core q slot m = { s with cores := cs }) ∧
      ((s.reenterAt core q slot m).core core).queue q = (s.core core).queue q ++ [⟨m, slot, s.timeAt core, s.timeAt core, false, none⟩] := by
  have heq : s.reenterAt core q slot m = (s.onCore core (fun k => { k with slotsHeld := k.slotsHeld.filter (· != slot) })).onCore core
      (fun k => k.setQueue q (k.queue q ++ [⟨m, slot, s.timeAt core, s.timeAt core, false, none⟩])) := if_pos h
  rw [heq]
  refine ⟨⟨_, rfl⟩, ?_⟩
  rw [State.core_onCore_self, CoreSt.queue_setQueue_self, State.core_onCore_self]
  rfl

/-- Two deliveries in the order of R58, whichever came first. -/
theorem sortBy_two {d1 d2 : Deliv} (h : d1.core < d2.core ∨ (d1.core = d2.core ∧ d1.ctx < d2.ctx)) : sortBy Deliv.before [d2, d1] = [d1, d2] := by
  have hb : Deliv.before d2 d1 = false := by
    have hne : ¬ (d2.core = d1.core ∧ d2.ctx = d1.ctx) := by omega
    rw [Deliv.before, if_neg hne]
    simp only [r58, Bool.or_eq_false_iff, Bool.and_eq_false_iff, decide_eq_false_iff_not, beq_eq_false_iff_ne]
    omega
  simp [sortBy, insertBy, hb]

/-- A task of a core of the partition is launched. -/
theorem State.launched_of_task {s : State} {p n j : Nat} (hp : s.pOf n = p) (h : ((s.core n).task j).st ≠ .invalid) : s.launched p = true := by
  rcases State.core_listed s n with hk | hk
  · refine List.any_eq_true.2 ⟨_, hk, ?_⟩
    rw [Bool.and_eq_true]
    refine ⟨by simpa using hp, List.any_eq_true.2 ⟨(s.core n).task j, ?_, by simpa using h⟩⟩
    simp [CoreSt.task, Vector.get_eq_getElem]
  · rw [hk, CoreSt.task_reset] at h
    exact absurd rfl h

theorem State.taskLive_valid {s : State} {core : Nat} {m : Msg} (h : s.taskLive core m = true) : ((s.core core).task m.env.tag).st ≠ .invalid := by
  intro hi
  simp [State.taskLive, hi] at h

theorem State.chansOf_congr {s t : State} (hs : t.strs = s.strs) (hp : ∀ n, t.pOf n = s.pOf n) (p : Nat) : t.chansOf p = s.chansOf p := by
  simp only [State.chansOf, hs, hp]

section
variable {s : State} {p : Nat} {P : Part} (hp : AMap.find s.parts p = some P) (hrlc : s.rlcs = []) (hring : s.rings = []) (hfus : s.fus = [])
  (hboard : s.boardUpd = []) (hch : s.chansOf p = [])
include hp hrlc hring hfus hboard hch

/-- What the count of the new quantum and the controllers leave, where no controller, ring, front unit, board or copy has anything. -/
theorem State.counted_quiet : ∃ r, (s.counted p).rlcAll p = r ∧ r.boardsAll p = r ∧ r.fus = [] ∧ r.rings = [] ∧ r.mem = s.mem ∧
    r.cores = (s.counted p).cores ∧ AMap.find r.parts p = some P.recount ∧ (∀ n, r.pOf n = s.pOf n) := by
  have hc : (s.counted p).rlcs = [] ∧ (s.counted p).rings = [] ∧ (s.counted p).fus = [] ∧ (s.counted p).boardUpd = [] ∧
      (s.counted p).mem = s.mem ∧ (s.counted p).strs = s.strs := by
    rw [State.counted_eq]
    exact ⟨(State.onPart_rlcs ..).trans hrlc, (State.onPart_rings ..).trans hring, (State.onPart_fus ..).trans hfus,
      (State.onPart_boardUpd ..).trans hboard, State.onPart_mem .., State.onPart_strs ..⟩
  obtain ⟨h1, h2, h3, h4, h5, h6⟩ := hc
  obtain ⟨l, hl⟩ := State.rlcAll_none p h1
  have hpof : ∀ n, ({ s.counted p with rlcs := l } : State).pOf n = s.pOf n := State.pOf_counted s p
  exact ⟨_, hl, State.boardsAll_none h4 ((State.chansOf_congr h6 hpof p).trans hch), h3, h2, h5, rfl, State.find_counted hp, hpof⟩

/-- With no delivery waiting the quantum's end leaves memory, and each core as the count leaves it but for its contexts and its board. -/
theorem State.quantumEnd_idle (hfev : P.fevs = []) (hq : P.taskq = []) : (s.quantumEnd p).mem = s.mem ∧
    (∀ n, ((s.quantumEnd p).core n).house = ((s.counted p).core n).house) ∧
      ∃ Q, AMap.find (s.quantumEnd p).parts p = some Q ∧ Q.taskq = [] ∧ Q.shape = P.shape := by
  have hl : s.fevList p = [] := by simp [State.fevList, State.part_of_find hp, hfev, sortBy]
  obtain ⟨r, hr, hb, h3, h2, h5, hcores, hfind, -⟩ := State.counted_quiet hp hrlc hring hfus hboard hch
  have hd : r.deliverAll p = r.onPart p (Part.withTaskq []) := State.deliverAll_none ((congrArg Part.taskq (State.part_of_find hfind)).trans hq)
  obtain ⟨hmem, hhouse, Q, hQ, hQq, hQs⟩ := State.quantumRest_quiet (s := s.counted p) hr hb (by rw [hd, State.onPart_fus]; exact h3)
    (by rw [hd, State.onPart_rings]; exact h2) (by rw [hd]; exact State.find_onPart hfind _) rfl
  rw [State.quantumEnd_eq, hl]
  refine ⟨?_, fun n => ?_, Q, hQ, hQq, hQs⟩
  · rw [hmem, hd, State.onPart_mem, h5]
  · rw [hhouse, hd, State.core_congr_cores (State.onPart_cores ..), State.core_congr_cores hcores]

/-- Two messages that REQUEUE has returned re-enter the tail of their queue in the order of R58. -/
theorem State.quantumEnd_requeues (hfev : P.fevs = []) (hdet : P.det = true) {d1 d2 : Deliv} (hq : P.taskq = [d2, d1]) {core q l1 l2 : Nat}
    (hord : d1.core < d2.core ∨ (d1.core = d2.core ∧ d1.ctx < d2.ctx)) (hd1 : d1.dest = core) (hd2 : d2.dest = core) (hb1 : d1.back = some (q, l1))
    (hb2 : d2.back = some (q, l2)) (hc : s.pOf core = p) (ht1 : s.taskLive core d1.msg = true) (ht2 : s.taskLive core d2.msg = true) :
    let now := (P.quanta + 1) * (s.core core).quant.toNat
    ((s.quantumEnd p).core core).queue q = (s.core core).queue q ++ [⟨d1.msg, l1, now, now, false, none⟩, ⟨d2.msg, l2, now, now, false, none⟩] ∧
      (s.quantumEnd p).launched p = true := by
  have hl : s.fevList p = [] := by simp [State.fevList, State.part_of_find hp, hfev, sortBy]
  obtain ⟨r, hr, hb, h3, h2, -, hcores, hfind, hpof⟩ := State.counted_quiet hp hrlc hring hfus hboard hch
  intro now
  let b := r.onPart p (Part.withTaskq [])
  let b1 := b.reenterAt core q l1 d1.msg
  have hbfind : AMap.find b.parts p = some (P.recount.withTaskq []) := State.find_onPart hfind _
  have hbcore : b.core core = (s.core core).recount := by
    rw [State.core_congr_cores (State.onPart_cores ..), State.core_congr_cores hcores, State.core_counted s p hc]
  have hblive : ∀ m, b.taskLive core m = s.taskLive core m := fun m => by simp only [State.taskLive, hbcore]; rfl
  have hbtime : b.timeAt core = now := by
    have hbp : b.pOf core = p := (State.pOf_onPart r p (f := Part.withTaskq []) (fun _ => rfl) core).trans ((hpof core).trans hc)
    have hdet' : (P.recount.withTaskq []).det = true := hdet
    simp only [State.timeAt, hbp, State.part_of_find hbfind, hdet', if_true, hbcore]
    rfl
  have hin : Inboxed b b1 := .reenterAt ..
  obtain ⟨⟨cs1, hcs1⟩, hq1⟩ := State.reenterAt_live (s := b) q l1 ((hblive d1.msg).trans ht1)
  obtain ⟨⟨cs2, hcs2⟩, hq2⟩ := State.reenterAt_live (s := b1) q l2 ((hin.taskLive core d2.msg).trans ((hblive d2.msg).trans ht2))
  have hd : r.deliverAll p = b1.reenterAt core q l2 d2.msg := by
    have htq : (r.part p).taskq = [d2, d1] := (congrArg Part.taskq (State.part_of_find hfind)).trans hq
    simp only [State.deliverAll, htq, sortBy_two hord, List.foldl_cons, List.foldl_nil, State.deliver, hb1, hb2, hd1, hd2]
    rfl
  have hrest : b1.reenterAt core q l2 d2.msg = { b with cores := cs2 } := by rw [hcs2]; simp only [b1]; rw [hcs1]
  obtain ⟨-, hhouse, -, -, -, -⟩ := State.quantumRest_quiet (s := s.counted p) hr hb (by rw [hd, hrest]; exact (State.onPart_fus ..).trans h3)
    (by rw [hd, hrest]; exact (State.onPart_rings ..).trans h2) (by rw [hd, hrest]; exact hbfind) rfl
  have hqueue : ((s.quantumEnd p).core core).queue q = ((b1.reenterAt core q l2 d2.msg).core core).queue q := by
    rw [State.quantumEnd_eq, hl, ← hd]
    exact congrArg (fun k => k.queue q) (hhouse core)
  refine ⟨?_, ?_⟩
  · rw [hqueue, hq2, hq1, hin.timeAt, hbtime, hbcore, List.append_assoc]
    rfl
  · have hrt := Tallied.quantumRest (s.counted p) p (l := s.fevList p) (by rw [hl]; simp)
    rw [← State.quantumEnd_eq] at hrt
    refine State.launched_of_task (n := core) (j := d1.msg.env.tag) ?_ ?_
    · rw [hrt.pOf, State.pOf_counted, hc]
    · rw [hrt.task, State.core_counted s p hc]
      exact State.taskLive_valid ht1

end

/-! ### A channel advance of a local word (R453) -/

/-- No table maps a local address: a write there finds no page brought back. -/
theorem State.redirty_local {s : State} {core : Nat} {va : Word} (h : isLocal va = true) : s.redirty core va = s := by
  have hw : s.walk (s.pOf core) (vaOf va) = .bad := by
    have h48 : vaOf va / 2 ^ 48 % 4096 = 0xFFF := by
      simp only [isLocal, bitsNat, beq_iff_eq, Nat.shiftRight_eq_div_pow] at h
      simp only [vaOf]
      omega
    exact if_pos h48
  unfold State.redirty
  rw [hw]
  exact ite_self s

/-- The state after the one channel advance of a quantum, of a local word. -/
def State.advanced (s : State) (core : Nat) (a : Adv) : State :=
  (s.onMem (fun m => m.store a.pa 8 ((s.mem.read a.pa 8 + a.n) % 2 ^ 64))).dropAdv core a.ctx

theorem State.advDo_local {s : State} {p core : Nat} {a : Adv} (h : isLocal a.va = true) (hp : s.mem.poisoned a.pa 8 = false) :
    s.advDo p core a = s.onMem (fun m => m.store a.pa 8 ((s.mem.read a.pa 8 + a.n) % 2 ^ 64)) := by
  have hk : s.advKeys p a = [a.pa] := if_pos h
  simp only [State.advDo, hk, hp, State.redirty_local h, Bool.false_eq_true, if_false]
  rfl

theorem State.shapeCores_nodup (s : State) (p : Nat) : (s.shapeCores p).Nodup :=
  List.Nodup.map (fun _ _ h => Nat.add_left_cancel h) List.nodup_range

/-- A list of advances that one core alone has. -/
theorem flatMap_one {α : Type} {f : Nat → List α} {n : Nat} {l : List Nat} (hl : l.Nodup) (hn : n ∈ l) (h : ∀ m ∈ l, m ≠ n → f m = []) :
    l.flatMap f = f n := by
  induction l with
  | nil => cases hn
  | cons m l ih =>
    obtain ⟨hm, hl⟩ := List.nodup_cons.1 hl
    rw [List.flatMap_cons]
    by_cases hmn : m = n
    · subst hmn
      have : l.flatMap f = [] := List.flatMap_eq_nil_iff.2 (fun k hk => h k (List.mem_cons_of_mem _ hk) (fun he => hm (he ▸ hk)))
      rw [this, List.append_nil]
    · rw [h m (List.mem_cons_self ..) hmn, List.nil_append]
      exact ih hl ((List.mem_cons.1 hn).resolve_left (Ne.symm hmn)) (fun k hk => h k (List.mem_cons_of_mem _ hk))

section
variable {s : State} {p core : Nat}

theorem State.advList_none (h : ∀ n ∈ s.shapeCores p, (s.core n).advs = []) : s.advList p = [] :=
  List.flatMap_eq_nil_iff.2 (fun n hn => by rw [h n hn]; rfl)

theorem State.advsDo_none (h : ∀ n ∈ s.shapeCores p, (s.core n).advs = []) : s.advsDo p = (s, true) := by
  rw [State.advsDo, State.advList_none h]
  rfl

theorem State.advsDo_one {a : Adv} (hc : core ∈ s.shapeCores p) (ha : (s.core core).advs = [a])
    (hn : ∀ n ∈ s.shapeCores p, n ≠ core → (s.core n).advs = []) (hl : isLocal a.va = true) (hp : s.mem.poisoned a.pa 8 = false) :
    s.advsDo p = (s.advanced core a, true) := by
  have hlist : s.advList p = [(core, a)] := by
    refine (flatMap_one (s.shapeCores_nodup p) hc (fun m hm hmc => by rw [hn m hm hmc]; rfl)).trans ?_
    rw [ha]
    rfl
  have htry : s.advTry p core a = (s.advDo p core a, true) := if_pos hl
  simp only [State.advsDo, hlist, State.advsRun, htry, State.advDo_local hl hp]
  rfl

end

/-- The advance of the state's one core is no longer pending. -/
theorem State.advs_advanced {s : State} {core : Nat} {a : Adv} (ha : (s.core core).advs = [a]) (n : Nat) :
    ((s.advanced core a).core n).advs = if n = core then [] else (s.core n).advs := by
  by_cases h : n = core
  · subst h
    rw [State.advanced, State.dropAdv, State.core_onCore_self, if_pos rfl]
    change (s.core n).advs.eraseP (fun b => b.ctx == a.ctx) = []
    rw [ha]
    simp
  · rw [State.advanced, State.dropAdv, State.core_onCore_ne _ _ h, if_neg h]
    rfl

/-- The count of the quantum leaves the channel advances. -/
theorem State.advs_counted (s : State) (p n : Nat) : ((s.counted p).core n).advs = (s.core n).advs := by
  rcases State.core_mapVals (State.cores_counted s p) n with h | ⟨h1, h2⟩
  · rw [h]; split <;> rfl
  · rw [h1, h2]

/-- Deterministic mode left with nothing pending: memory and the channel advances stay. -/
theorem State.leaveDet_idle {s : State} {p : Nat} {Q : Part} (hQ : AMap.find s.parts p = some Q) (hq : Q.taskq = [])
    (h : ∀ n ∈ s.shapeCores p, (s.core n).advs = []) : (s.leaveDet p).mem = s.mem ∧ ∀ n, ((s.leaveDet p).core n).advs = (s.core n).advs := by
  have hexit : (s.exitDet p).mem = s.mem ∧ ∀ n, ((s.exitDet p).core n).advs = (s.core n).advs := by
    let v : State := { s.onPart p (Part.leftDet s.time) with
      cores := AMap.mapVals (fun n k => if s.pOf n = p then k.leftDet else k) (s.onPart p (Part.leftDet s.time)).cores
      wr := (s.onPart p (Part.leftDet s.time)).wr.filter (fun w => s.pOf w.core != p) }
    have hv : AMap.find v.parts p = some (Part.leftDet s.time Q) := State.find_onPart hQ _
    have hd : s.exitDet p = v.onPart p (fun P => { P with taskq := [] }) :=
      State.deliverAll_none (s := v) ((congrArg Part.taskq (State.part_of_find hv)).trans hq)
    rw [hd]
    refine ⟨(State.onPart_mem ..).trans (State.onPart_mem ..), fun n => ?_⟩
    rw [State.core_congr_cores (State.onPart_cores ..)]
    have hvc : v.cores = AMap.mapVals (fun n k => if s.pOf n = p then k.leftDet else k) s.cores := by simp only [v, State.onPart_cores]
    rcases State.core_mapVals hvc n with h | ⟨h1, h2⟩
    · rw [h]; split <;> rfl
    · rw [h1, h2]
  unfold State.leaveDet
  split
  · rw [State.advsDo_none h]
    exact hexit
  · exact ⟨rfl, fun _ => rfl⟩

/-- A task that is launched keeps its partition in deterministic mode. -/
theorem State.leaveDet_launched {s : State} {p : Nat} (h : s.launched p = true) : s.leaveDet p = s := by
  simp only [State.leaveDet, h, Bool.not_true, Bool.and_false, Bool.false_and, Bool.false_eq_true, if_false]

/-- No copy of the partition is under way at the end of its quantum. -/
theorem State.quantumDue_elim {s : State} {p : Nat} (h : s.quantumDue p = true) : (s.part p).det = true ∧ s.chansOf p = [] := by
  simp only [State.quantumDue, Bool.and_eq_true, List.isEmpty_iff] at h
  obtain ⟨⟨⟨⟨⟨⟨hdet, -⟩, -⟩, -⟩, hch⟩, -⟩, -⟩ := h
  exact ⟨hdet, hch⟩

section
variable {s : State} {p : Nat} {P : Part} (hp : AMap.find s.parts p = some P) (hdue : s.quantumDue p = true) (hfev : P.fevs = [])
  (hrlc : s.rlcs = []) (hring : s.rings = []) (hfus : s.fus = []) (hboard : s.boardUpd = [])
include hp hdue hfev hrlc hring hfus hboard

/-- A channel advance of the quantum adds its count to its word, and no other byte changes. -/
theorem State.quantumEnd_advances (hq : P.taskq = []) {core : Nat} {a : Adv} (hinv : s.Inv) (hc : core ∈ s.shapeCores p) (ha : (s.core core).advs = [a])
    (hn : ∀ n ∈ s.shapeCores p, n ≠ core → (s.core n).advs = []) (hl : isLocal a.va = true) (hpo : s.mem.poisoned a.pa 8 = false) :
    let t := ((s.advsDo p).1.quantumEnd p).leaveDet p
    t.mem.read a.pa 8 = (s.mem.read a.pa 8 + a.n) % 2 ^ 64 ∧ (∀ j, ¬ (a.pa ≤ j ∧ j < a.pa + 8) → t.mem.byte j = s.mem.byte j) ∧
      (t.core core).advs = [] := by
  have hrun := State.advsDo_one hc ha hn hl hpo
  let u := s.advanced core a
  have hmem : u.mem = s.mem.store a.pa 8 ((s.mem.read a.pa 8 + a.n) % 2 ^ 64) := rfl
  have hch : u.chansOf p = [] := (State.chansOf_congr (t := u) rfl (fun _ => rfl) p).trans (State.quantumDue_elim hdue).2
  obtain ⟨hqmem, hhouse, Q, hQ, hQq, hQs⟩ := State.quantumEnd_idle (s := u) hp hrlc hring hfus hboard hch hfev hq
  have hadvs : ∀ n, ((u.quantumEnd p).core n).advs = if n = core then [] else (s.core n).advs := fun n => by
    rw [← State.advs_advanced ha n, ← State.advs_counted u p n]
    exact (congrArg CoreSt.advs (hhouse n) : _)
  have hshape : (u.quantumEnd p).shapeCores p = s.shapeCores p := by
    simp only [State.shapeCores, State.part_of_find hQ, State.part_of_find hp, hQs]
  obtain ⟨hlmem, hladv⟩ := State.leaveDet_idle hQ hQq (fun n hmem => by
    rw [hadvs]
    split
    · rfl
    · next hne => exact hn n (hshape ▸ hmem) hne)
  intro t
  have ht : t = (u.quantumEnd p).leaveDet p := by simp only [t, hrun, u]
  rw [ht, hlmem, hqmem, hladv, hadvs, if_pos rfl, hmem]
  refine ⟨?_, fun j hj => ?_, rfl⟩
  · rw [Memory.read_store _ _ _ hinv]
    exact Nat.mod_mod_of_dvd _ (by decide)
  · rw [Memory.byte_store, Memory.write, Memory.byte_setBytes _ _ _ hinv, leBytes_length, if_neg hj]

end

theorem quantaEnd : Says.QuantumEvents := by
  intro s core p P hp
  refine ⟨fun hd hq hr hn => ?_, fun hdue hop ha => ?_⟩
  · refine ⟨_, exec_logicalQuantumEnd hd hq hr hn, ?_, fun c _ => ?_, fun n hne => State.core_onCore_ne s _ hne, rfl⟩
    · rw [State.core_onCore_self]; rfl
    · have hctx : (s.onCore core CoreSt.endQuantum).ctx core c = (s.ctx core c).quantumPark := by
        rw [State.ctx, State.core_onCore_self, CoreSt.ctx_endQuantum]
        rfl
      exact hctx.trans (Ctx.quantumPark_eq _)
  · obtain ⟨R, hR, hRq, hcount⟩ := State.quantumEnd_counts hp hop
    have hx := exec_quantumEnd hdue (by rw [State.part_of_find hp]; exact hop) ha
    refine ⟨_, R, hx, hR, hRq, hcount, fun a hinv _ _ hfev hq hrlc hring hfus hboard hc hadv hn hl hpo => ?_,
      fun d1 d2 q l1 l2 hfev hq hrlc hring hfus hboard hadv hord _ hd1 hd2 hb1 hb2 hc ht1 ht2 => ?_⟩
    · exact State.quantumEnd_advances hp hdue hfev hrlc hring hfus hboard hq hinv hc hadv hn hl hpo
    · obtain ⟨hdet, hch⟩ := State.quantumDue_elim hdue
      rw [State.part_of_find hp] at hdet
      obtain ⟨hqueue, hlaunched⟩ := State.quantumEnd_requeues hp hrlc hring hfus hboard hch hfev hdet hq hord hd1 hd2 hb1 hb2 hc ht1 ht2
      rw [State.advsDo_none hadv, State.leaveDet_launched hlaunched]
      exact hqueue

/-- Settles O46: each event of a context or a turn is read off its step; a quantum's end is its count, which what follows keeps, and with nothing else waiting
what follows is the advance or the two messages. -/
theorem contextEvents : Obligations.ContextEvents := ⟨contextsMove, quantaEnd⟩

end Sys2Proof.Machine
end

section
/-!
SUPPORT. O50: what an engine's write leaves in memory, the answer of an interface, the flip of a ring and the steps of a copy.
-/

namespace Sys2Proof.Machine

/-! ### Requests taken and answered (R255) -/

theorem State.ep_took (s : State) (ep : Nat) (r : InReq) (left : List InReq) :
    ((s.took ep r left).ep ep).ready = left ∧ ((s.took ep r left).ep ep).inj1 = (s.ep ep).inj1 := by simp [State.took]

theorem State.ep_respond (s : State) (ep dst num : Nat) (v : Rsp) :
    ((s.respond ep dst num v).ep ep).ready = (s.ep ep).ready ∧ ((s.respond ep dst num v).ep ep).inj1 = (s.ep ep).inj1 ++ rspFlits dst ep num v := by
  simp [State.respond, State.sendRsp]

/-- What is done between taking a request and answering it leaves the interface as it was when the request was taken. -/
theorem State.ep_answered {s u : State} {ep : Nat} {r : InReq} {left : List InReq} (v : Rsp) (h : u.eps = (s.took ep r left).eps) :
    ((u.respond ep r.src r.num v).ep ep).ready = left ∧ ((u.respond ep r.src r.num v).ep ep).inj1 = (s.ep ep).inj1 ++ rspFlits r.src ep r.num v := by
  have hu : u.ep ep = (s.took ep r left).ep ep := by simp only [State.ep, h]
  obtain ⟨hr, hi⟩ := State.ep_took s ep r left
  obtain ⟨hr', hi'⟩ := State.ep_respond u ep r.src r.num v
  exact ⟨by rw [hr', hu, hr], by rw [hi', hu, hi]⟩

/-! ### An engine's write (R251) -/

/-- Steps that leave a byte leave it one after another. -/
theorem Memory.byte_foldl {α : Type} {f : Memory → α → Memory} {j : Nat} (l : List α) (hf : ∀ m, ∀ a ∈ l, (f m a).byte j = m.byte j) (m : Memory) :
    (l.foldl f m).byte j = m.byte j := by
  induction l generalizing m with
  | nil => rfl
  | cons a l ih => rw [List.foldl_cons, ih (fun m b hb => hf m b (List.mem_cons_of_mem _ hb)), hf m a (List.mem_cons_self ..)]

/-- The marks of a write's words are no bytes. -/
@[simp] theorem Memory.byte_engineWrite (m : Memory) (k : Nat) (bytes : List Byte) (how : WrHow) (j : Nat) :
    (m.engineWrite k bytes how).byte j = (m.setBytes k bytes).byte j := by
  refine Memory.byte_foldl _ (fun m w _ => ?_) _
  split <;> split <;> simp <;> split <;> simp

theorem State.noteWrite_rest (s : State) (core born k size new : Nat) (fe : Bool) : ∃ l, s.noteWrite core born k size new fe = { s with wr := l } := by
  unfold State.noteWrite
  split
  · exact ⟨_, rfl⟩
  · exact ⟨s.wr, rfl⟩

theorem State.noteCopy_rest (s : State) (core k : Nat) (bytes : List Byte) (fe : Bool) : ∃ l, s.noteCopy core k bytes fe = { s with wr := l } := by
  unfold State.noteCopy
  split
  · exact ⟨s.wr, rfl⟩
  · exact State.noteWrite_rest ..

/-- A write that makes no word full lets no waiting request be served. -/
theorem State.engineWrite_plain (s : State) (k : Nat) (bytes : List Byte) {how : WrHow} (h : how.fe = false) :
    s.engineWrite k bytes how = s.onMem (fun m => m.engineWrite k bytes how) := by
  simp [State.engineWrite, h]

/-- The write of an engine at an interface. -/
def State.wroteFor (s : State) (ep : Nat) (r : InReq) (left : List InReq) (core k : Nat) (bytes : List Byte) (how : WrHow) : State :=
  (((s.took ep r left).noteCopy core k bytes how.fe).engineWrite k bytes how).respond ep r.src r.num .ok

theorem State.wroteFor_eq {s : State} (ep : Nat) (r : InReq) (left : List InReq) (core k : Nat) (bytes : List Byte) {how : WrHow} (hs : s.Inv)
    (h : how.fe = false) : let t := s.wroteFor ep r left core k bytes how
    ((t.ep ep).ready = left ∧ (t.ep ep).inj1 = (s.ep ep).inj1 ++ rspFlits r.src ep r.num .ok ∧
      ∀ j, t.mem.byte j = if k ≤ j ∧ j < k + bytes.length then bytes.getD (j - k) 0 else s.mem.byte j) ∧ t.cores = s.cores := by
  obtain ⟨l, hl⟩ := State.noteCopy_rest (s.took ep r left) core k bytes how.fe
  intro t
  have ht : t = (({ s.took ep r left with wr := l } : State).onMem (fun m => m.engineWrite k bytes how)).respond ep r.src r.num .ok := by
    rw [← State.engineWrite_plain _ _ _ h, ← hl]
    rfl
  obtain ⟨hr, hi⟩ := State.ep_answered (s := s) (ep := ep) (r := r) (left := left)
    (u := ({ s.took ep r left with wr := l } : State).onMem (fun m => m.engineWrite k bytes how)) .ok rfl
  rw [ht]
  exact ⟨⟨hr, hi, fun j => (Memory.byte_engineWrite ..).trans (Memory.byte_setBytes k j bytes hs)⟩, rfl⟩

/-! ### A phase of a replica write (R142) -/

theorem State.serveAll_none {s : State} {h : Nat} (hw : (s.home h).wait = []) : s.serveAll h = s := by
  rw [State.serveAll, hw]
  rfl

theorem State.landed_rest (s : State) (core lane : Nat) : ∃ l, s.landed core lane = { s with cores := l } := by
  unfold State.landed
  split
  · exact ⟨_, rfl⟩
  · exact ⟨s.cores, rfl⟩

/-- A value written to a replica: besides memory it changes what a quantum notes, the counters, and, at the writer's own die, its store's state. -/
theorem State.writeRepl_eq (s : State) (die src lane pa size val : Nat) (fe bad : Bool) : let t := s.writeRepl die src lane pa size val fe bad
    t.mem = s.mem.storeRepl pa size val fe bad ∧ t.homes = s.homes ∧ t.eps = s.eps ∧ (dieOf src ≠ die → t.cores = s.cores) := by
  obtain ⟨w, hw⟩ := State.noteWrite_rest s src (s.bornOf src lane) pa size val fe
  simp only [State.writeRepl, hw]
  split
  next hd =>
    obtain ⟨l, hl⟩ := State.landed_rest ((({ s with wr := w } : State).onMem (fun m => m.storeRepl pa size val fe bad)).count die 0x10 1) src lane
    rw [hl]
    simp [State.onMem, hd]
  next => simp [State.onMem]

/-- A write phase at a home at which no request waits. -/
theorem State.replicaApply_write {s : State} {h primary job pa size val : Nat} {fe bad : Bool} (hw : (s.home h).wait = []) :
    let t := s.replicaApply h primary job 1 pa size val fe bad
    t.mem = s.mem.storeRepl pa size val fe bad ∧ t.eps = s.eps ∧ ((∀ j ∈ (s.home primary).jobs, j.id = job → dieOf j.src ≠ h) → t.cores = s.cores) := by
  have hserve : ∀ u : State, u.homes = s.homes → u.serveAll h = u := fun u hu => State.serveAll_none (by simpa only [State.home, hu] using hw)
  cases hj : (s.home primary).jobs.find? (fun j => j.id == job) with
  | none =>
    simp only [State.replicaApply, hj]
    rw [hserve _ (by simp)]
    simp [State.onMem]
  | some j =>
    obtain ⟨hm, hh, he, hc⟩ := State.writeRepl_eq s h j.src j.lane pa size val fe bad
    simp only [State.replicaApply, hj]
    rw [hserve _ hh]
    exact ⟨hm, he, fun hne => hc (hne j (List.mem_of_find?_eq_some hj) (by simpa using List.find?_some hj))⟩

/-! ### A read of a streamer (R318) -/

theorem State.mem_scrub (s : State) (die k n : Nat) : (s.scrub die k n).mem = s.mem.scrub k n := by
  unfold State.scrub
  split
  next h =>
    have hnone : s.mem.corr.filter (fun w => !(decide (w < k + n) && decide (k < w + 8))) = s.mem.corr :=
      List.filter_eq_self.2 fun w hw => by
        have hw' := List.filter_eq_nil_iff.1 h w hw
        simp only [Bool.and_eq_true, decide_eq_true_eq, Bool.not_eq_true', Bool.and_eq_false_iff, decide_eq_false_iff_not] at hw' ⊢
        omega
    simp only [Memory.scrub, hnone]
  next => simp [State.onMem]

theorem State.eps_scrub (s : State) (die k n : Nat) : (s.scrub die k n).eps = s.eps := by
  unfold State.scrub
  split
  · rfl
  · simp

/-- The answer to a streamer's read of an engine. -/
theorem State.xferRead_answers {s : State} {eng : Nat} {r : InReq} {left : List InReq} (ch k size : Nat) :
    let t := (s.took (4096 + eng) r left).xferRead eng r.src r.num ch k size
    (t.ep (4096 + eng)).ready = left ∧ (t.ep (4096 + eng)).inj1 = (s.ep (4096 + eng)).inj1 ++ rspFlits r.src (4096 + eng) r.num
      ⟨.done, 0, if s.mem.poisoned k size then 1 else 0, s.mem.bytes (64 * blockOf k) 64, false⟩ ∧ t.mem = s.mem.scrub k size ∧ t.cores = s.cores := by
  obtain ⟨hr, hi⟩ := State.ep_answered (s := s) (r := r) (left := left)
    ⟨.done, 0, if s.mem.poisoned k size then 1 else 0, s.mem.bytes (64 * blockOf k) 64, false⟩ (State.eps_scrub (s.took (4096 + eng) r left) _ k size)
  exact ⟨hr, hi, State.mem_scrub .., (Offcore.scrub ..).cores⟩

/-! ### The flip of a ring (R305) -/

theorem Memory.read_congr {m m' : Memory} (h : ∀ j, m'.byte j = m.byte j) (k n : Nat) : m'.read k n = m.read k n := by
  simp only [Memory.read, Memory.bytes_eq, h]

/-- An element of C written, poisoned where an uncorrectable error reached it. -/
def Memory.putOut (m : Memory) (o : MOut) : Memory :=
  let m' := m.write o.key 4 (roundF .f32 .rne o.val).1
  if o.ues.isEmpty then m' else m'.setPoison o.key true

/-- The words of the C regions are whole again before their elements are written. -/
def Memory.openC (m : Memory) (g : GOp) : Memory :=
  let nc := (regionCounts ((g.member 0).w 3)).2.2
  if m.poison.isEmpty then m else g.members.foldl (fun m x => let k := memberKey x.core (x.w 2); m.cleanse k (k + nc)) m

theorem writeOuts_eq (m : Memory) (g : GOp) (l : List MOut) : writeOuts m g l = l.foldl Memory.putOut (m.openC g) := rfl

section
variable {m : Memory} (h : m.wf = true)

theorem Memory.byte_openC (m : Memory) (g : GOp) (j : Nat) : (m.openC g).byte j = m.byte j := by
  unfold Memory.openC
  dsimp only
  split
  · rfl
  · refine Memory.byte_foldl _ (fun _ _ _ => ?_) m
    rfl

include h

theorem Memory.wf_openC (g : GOp) : (m.openC g).wf = true := by
  unfold Memory.openC
  dsimp only
  split
  · exact h
  · exact Memory.wf_foldl _ _ h (fun _ _ h => Memory.wf_cleanse _ _ h)

theorem Memory.wf_putOut (o : MOut) : (m.putOut o).wf = true := by
  unfold Memory.putOut
  dsimp only
  split
  · exact Memory.wf_write _ _ _ h
  · exact Memory.wf_setPoison _ _ (Memory.wf_write _ _ _ h)

theorem Memory.byte_putOut {o : MOut} {j : Nat} (hj : ¬ (o.key ≤ j ∧ j < o.key + 4)) : (m.putOut o).byte j = m.byte j := by
  have hw : (m.write o.key 4 (roundF .f32 .rne o.val).1).byte j = m.byte j := by
    rw [Memory.write, Memory.byte_setBytes _ _ _ h, leBytes_length, if_neg hj]
  unfold Memory.putOut
  dsimp only
  split
  · exact hw
  · exact hw

theorem Memory.read_putOut (o : MOut) : (m.putOut o).read o.key 4 = (roundF .f32 .rne o.val).1 % 2 ^ 32 := by
  unfold Memory.putOut
  dsimp only
  split
  · exact Memory.read_write _ _ _ h
  · rw [Memory.read_setPoison]
    exact Memory.read_write _ _ _ h

end

/-- Bytes outside the elements written stay. -/
theorem Memory.byte_putOuts {j : Nat} (l : List MOut) : ∀ {m : Memory}, m.wf = true → (∀ o ∈ l, ¬ (o.key ≤ j ∧ j < o.key + 4)) →
    (l.foldl Memory.putOut m).byte j = m.byte j := by
  induction l with
  | nil => exact fun _ _ => rfl
  | cons a l ih =>
    intro m h hj
    rw [List.foldl_cons, ih (Memory.wf_putOut h a) (fun o ho => hj o (List.mem_cons_of_mem _ ho)), Memory.byte_putOut h (hj a (List.mem_cons_self ..))]

/-- Elements that do not overlap are read back. -/
theorem Memory.read_putOuts (l : List MOut) : ∀ {m : Memory}, m.wf = true → l.Pairwise (fun a b => a.key + 4 ≤ b.key ∨ b.key + 4 ≤ a.key) →
    ∀ o ∈ l, (l.foldl Memory.putOut m).read o.key 4 = (roundF .f32 .rne o.val).1 % 2 ^ 32 := by
  induction l with
  | nil => exact fun _ _ o ho => absurd ho (List.not_mem_nil)
  | cons a l ih =>
    intro m h hl o ho
    obtain ⟨ha, hl⟩ := List.pairwise_cons.1 hl
    have hw := Memory.wf_putOut h a
    rcases List.mem_cons.1 ho with rfl | ho
    · rw [List.foldl_cons, ← Memory.read_putOut h o, Memory.read, Memory.read, Memory.bytes_eq, Memory.bytes_eq]
      refine congrArg leNat (List.map_congr_left fun i hi => Memory.byte_putOuts l hw fun b hb => ?_)
      have hi := List.mem_range.1 hi
      have hab := ha b hb
      omega
    · exact ih hw hl o ho

theorem State.ring_onRing (s : State) (cl : Nat) (f : Ring → Ring) : (s.onRing cl f).ring cl = f (s.ring cl) := by simp [State.ring, State.onRing]

/-- `t` is `s` with errors corrected and counted: no byte of memory and no event ring changes. -/
structure Corrected (s t : State) : Prop extends Recorded s t where
  byte   : ∀ j, t.mem.byte j = s.mem.byte j
  events : viewsOf Part.events t.parts = viewsOf Part.events s.parts

namespace Corrected
variable {s t u : State}

theorem refl (s : State) : Corrected s s := ⟨.refl s, fun _ => rfl, rfl⟩
theorem trans (h : Corrected s t) (g : Corrected t u) : Corrected s u :=
  ⟨h.toRecorded.trans g.toRecorded, fun j => (g.byte j).trans (h.byte j), g.events.trans h.events⟩

theorem foldl {α : Type} {f : State → α → State} (hf : ∀ s a, Corrected s (f s a)) (l : List α) (s : State) : Corrected s (l.foldl f s) := by
  induction l generalizing s with
  | nil => exact refl s
  | cons a l ih => exact (hf s a).trans (ih _)

theorem events_at (h : Corrected s t) (p : Nat) : (t.part p).events = (s.part p).events := by
  have hf := find_viewsOf h.events p
  simp only [State.part, get_eq_find]
  cases hs : AMap.find s.parts p <;> cases ht : AMap.find t.parts p <;> simp_all

theorem count (s : State) (die ev n : Nat) : Corrected s (s.count die ev n) := by
  refine ⟨.count s die ev n, fun _ => by simp, ?_⟩
  unfold State.count
  cases hp : AMap.find s.parts (s.partKey die) with
  | none => rfl
  | some P =>
    dsimp only
    split
    · rfl
    · exact viewsOf_set hp rfl

theorem scrub (s : State) (die k n : Nat) : Corrected s (s.scrub die k n) := by
  unfold State.scrub
  split
  · exact refl s
  · exact trans ⟨.onMem s _ (Memory.wf_scrub k n), fun _ => rfl, rfl⟩ (count ..)

end Corrected

section
variable (s : State) (cl : Nat) (g : GOp)

/-- The correctable errors that a flip finds corrected. -/
def State.flipScrub : State :=
  if !s.mem.corr.isEmpty && (opSpans g).any (fun r => !(s.mem.corrIn r.1 r.2).isEmpty) then
    (opSpans g).foldl (fun s r => s.scrub (dieOf (16 * cl)) r.1 r.2) s
  else s

theorem State.corrected_flipScrub : Corrected s (s.flipScrub cl g) := by
  unfold State.flipScrub
  split
  · exact Corrected.foldl (fun _ _ => .scrub ..) _ s
  · exact .refl s

/-- The key of an operation's barrier. -/
def GOp.key (g : GOp) : Nat := memberKey (g.member 0).core (g.member 0).barrier

/-- The serial that an operation's completion gives its barrier. -/
def Memory.nextSerial (m : Memory) (key : Nat) : Nat := (m.read (key + 4) 4 + 1) % 2 ^ 32

/-- C, the status word and the barrier written, and the closed operation started. -/
def State.flipTo (outs : List MOut) (st p : Nat) : State :=
  let ser := s.mem.nextSerial g.key
  (s.onMem (fun m => ((writeOuts m g outs).store (g.key + 8) 8 st).store g.key 8 (ser * 2 ^ 32 + ser % 2))).onRing cl (fun r =>
    { r with running := r.closed.map (fun c => { c with quantum := (s.part p).quanta, since := s.time }), closed := none, errs := [] })

/-- The status word of an operation's completion. -/
def State.flipStatus (outs : List MOut) : Word :=
  statusWord ((g.member 0).w 4) ((g.member 0).w 5) (!s.mem.corr.isEmpty && (opSpans g).any (fun r => !(s.mem.corrIn r.1 r.2).isEmpty)) outs

/-- The outputs of the operation that a ring runs, with the ring's errors. -/
def State.ringOuts : List MOut := (opOuts s.mem g).map (fun o => o.meet (s.ring cl).errs)

end

theorem State.part_flipTo (s : State) (cl : Nat) (g : GOp) (outs : List MOut) (st p q : Nat) : (s.flipTo cl g outs st p).part q = s.part q := by
  simp only [State.part, State.flipTo, State.onRing_parts, State.onMem_parts]

theorem State.event_off {s : State} {p : Nat} (h : (s.part p).events.en = false) (time src ev unit data : Nat) : s.event p time src ev unit data = s := by
  simp [State.event, h]

section
variable {s : State} {cl : Nat} {g : GOp} (hev : (s.part (s.pOf (16 * cl))).events.en = false)
include hev

/-- A flip whose partition records no event is the writes, and what is counted. -/
theorem State.ringFlip_flipTo : ∃ die ev n, s.ringFlip cl g =
    ((s.flipScrub cl g).flipTo cl g (s.ringOuts cl g) (s.flipStatus g (s.ringOuts cl g)).toNat (s.pOf (16 * cl))).count die ev n := by
  have hu : ((s.flipScrub cl g).part (s.pOf (16 * cl))).events.en = false := by rw [(State.corrected_flipScrub s cl g).events_at, hev]
  have h : s.ringFlip cl g =
      ((((s.flipScrub cl g).flipTo cl g (s.ringOuts cl g) (s.flipStatus g (s.ringOuts cl g)).toNat (s.pOf (16 * cl))).event (s.pOf (16 * cl))
        ((s.flipScrub cl g).engTime (s.pOf (16 * cl))) 1 1 ((s.flipScrub cl g).ringUnit cl)
        ((s.flipScrub cl g).mem.nextSerial g.key * 2 ^ 16 + bitsNat (s.flipStatus g (s.ringOuts cl g)) 48 16)).count (dieOf (16 * cl))
          (if isP16 (viewFmt ((g.member 0).w 4)) then 0x0C else 0x0B) (opMacs g)) := rfl
  rw [h, State.event_off (by rw [State.part_flipTo, hu])]
  exact ⟨_, _, _, rfl⟩

theorem State.ring_ringFlip : ((s.ringFlip cl g).ring cl).closed = none ∧
    ((s.ringFlip cl g).ring cl).running =
      (s.ring cl).closed.map (fun c => { c with quantum := (s.part (s.pOf (16 * cl))).quanta, since := s.time }) := by
  obtain ⟨die, ev, n, h⟩ := State.ringFlip_flipTo (g := g) hev
  have hc := State.corrected_flipScrub s cl g
  have hring : (s.flipScrub cl g).ring cl = s.ring cl := by rw [hc.rest]; rfl
  have hq : ((s.flipScrub cl g).part (s.pOf (16 * cl))).quanta = (s.part (s.pOf (16 * cl))).quanta :=
    (congrArg Part.quanta (hc.toRecorded.part_plan _) : _)
  have hr : (s.ringFlip cl g).ring cl = ((s.flipScrub cl g).flipTo cl g (s.ringOuts cl g) (s.flipStatus g (s.ringOuts cl g)).toNat
      (s.pOf (16 * cl))).ring cl := by
    rw [h]
    simp only [State.ring, State.count_rings]
  rw [hr]
  have hmem : ∀ f, ((s.flipScrub cl g).onMem f).ring cl = s.ring cl := fun _ => hring
  simp [State.flipTo, State.ring_onRing, hmem, hq, hc.time]

/-- The bytes of C, of the status word and of the barrier; the memory that the elements are written over has every byte of the one before. -/
theorem State.mem_ringFlip (hs : s.Inv) : ∃ m : Memory, ∃ st : Nat, m.wf = true ∧ (∀ j, m.byte j = s.mem.byte j) ∧
    (s.ringFlip cl g).mem = (((s.ringOuts cl g).foldl Memory.putOut m).store (g.key + 8) 8 st).store g.key 8
      (s.mem.nextSerial g.key * 2 ^ 32 + s.mem.nextSerial g.key % 2) := by
  obtain ⟨die, ev, n, h⟩ := State.ringFlip_flipTo (g := g) hev
  have hc := State.corrected_flipScrub s cl g
  have hser : (s.flipScrub cl g).mem.nextSerial g.key = s.mem.nextSerial g.key := by
    simp only [Memory.nextSerial, Memory.read_congr hc.byte]
  refine ⟨(s.flipScrub cl g).mem.openC g, (s.flipStatus g (s.ringOuts cl g)).toNat, Memory.wf_openC (hc.inv hs) g, fun j => (Memory.byte_openC ..).trans (hc.byte j), ?_⟩
  rw [h, State.count_mem, ← hser, ← writeOuts_eq]
  rfl

end

theorem Memory.read_store_ne {m : Memory} {k n v j i : Nat} (h : m.wf = true) (hd : j + i ≤ k ∨ k + n ≤ j) : (m.store k n v).read j i = m.read j i := by
  simp only [Memory.store]
  split
  · rw [Memory.read_renew, Memory.read_write_ne _ _ _ _ _ h hd]
  · exact Memory.read_write_ne _ _ _ _ _ h hd

theorem Memory.byte_store_ne {m : Memory} {k n v j : Nat} (h : m.wf = true) (hd : ¬ (k ≤ j ∧ j < k + n)) : (m.store k n v).byte j = m.byte j := by
  rw [Memory.byte_store, Memory.write, Memory.byte_setBytes _ _ _ h, leBytes_length, if_neg hd]

section
variable {s : State} {n : Nat} {g : GOp}

theorem State.mem_ringOuts {o : MOut} (h : o ∈ opOuts s.mem g) : o.meet (s.ring n).errs ∈ s.ringOuts n g := List.mem_map_of_mem h

theorem State.pairwise_ringOuts (h : (opOuts s.mem g).Pairwise (fun a b => a.key + 4 ≤ b.key ∨ b.key + 4 ≤ a.key)) :
    (s.ringOuts n g).Pairwise (fun a b => a.key + 4 ≤ b.key ∨ b.key + 4 ≤ a.key) := List.pairwise_map.2 h

/-- What the completion of an operation leaves in memory. -/
theorem State.flipped (hs : s.Inv) (hev : (s.part (s.pOf (16 * n))).events.en = false) : let t := s.ringFlip n g
    t.mem.read g.key 8 = s.mem.nextSerial g.key * 2 ^ 32 + s.mem.nextSerial g.key % 2 ∧
    (∀ j, ¬ (g.key ≤ j ∧ j < g.key + 16) → (∀ o ∈ opOuts s.mem g, ¬ (o.key ≤ j ∧ j < o.key + 4)) → t.mem.byte j = s.mem.byte j) ∧
    ((opOuts s.mem g).Pairwise (fun a b => a.key + 4 ≤ b.key ∨ b.key + 4 ≤ a.key) → ∀ o ∈ opOuts s.mem g, o.key + 4 ≤ g.key ∨ g.key + 16 ≤ o.key →
      t.mem.read o.key 4 = (roundF .f32 .rne o.val).1 % 2 ^ 32) := by
  obtain ⟨m, st, hm, hbyte, hmem⟩ := State.mem_ringFlip (g := g) hev hs
  have houts : ((s.ringOuts n g).foldl Memory.putOut m).wf = true := Memory.wf_foldl _ _ hm (fun _ o h => Memory.wf_putOut h o)
  have hst := Memory.wf_store (g.key + 8) 8 st houts
  have hser : s.mem.nextSerial g.key < 2 ^ 32 := Nat.mod_lt _ (by decide)
  intro t
  rw [hmem]
  refine ⟨?_, fun j hk ho => ?_, fun hpair o ho hk => ?_⟩
  · rw [Memory.read_store _ _ _ hst]
    omega
  · rw [Memory.byte_store_ne hst (by omega), Memory.byte_store_ne houts (by omega), Memory.byte_putOuts _ hm, hbyte]
    intro o' ho'
    obtain ⟨o, hmo, rfl⟩ := List.mem_map.1 ho'
    exact ho o hmo
  · rw [Memory.read_store_ne hst (by omega), Memory.read_store_ne houts (by omega)]
    exact Memory.read_putOuts _ hm (State.pairwise_ringOuts hpair) (o.meet (s.ring n).errs) (State.mem_ringOuts ho)

end

theorem exec_matrixFlip {s : State} {n : Nat} {g : GOp} (hg : (s.ring n).running = some g) (hsince : g.since ≠ s.time) (hdet : s.detAt (16 * n) = false) :
    exec (.matrixFlip n) s = .next (s.ringFlip n g) := by
  change execMatrixFlip n s = _
  simp [execMatrixFlip, hg, hsince, hdet]

theorem engineWrites : Says.EngineWrites := by
  intro s n r left k bytes how a b hs hfe written
  refine ⟨fun hdue hb => ⟨s.wroteFor n r left (s.writerOf a b) k bytes how, ?_, State.wroteFor_eq n r left _ k bytes hs hfe⟩,
    fun hdue => ⟨fun hb hrepl => ⟨s.wroteFor (4096 + n) r left (s.writerOf a b) k bytes how, ?_, State.wroteFor_eq _ r left _ k bytes hs hfe⟩,
      fun job size val fe bad hb hw => ?_, fun m sg c size va hb => ⟨fun hmark => ?_, fun hmark => ?_⟩⟩,
    fun g hg hsince hdet hev => ?_⟩
  · change execEngineWrite n s = _
    simp only [execEngineWrite, hdue, hb]
    rfl
  · change execXferReceive n s = _
    simp only [execXferReceive, hdue, hb, hfe, hrepl]
    simp [State.wroteFor, hfe]
  · obtain ⟨hm, he, hc⟩ := State.replicaApply_write (s := s.took (4096 + n) r left) (h := n) (primary := r.src - 4096) (job := job) (pa := k)
      (size := size) (val := val) (fe := fe) (bad := bad) hw
    refine ⟨_, ?_, (State.ep_answered .ok he).1, hm, hc⟩
    change execXferReceive n s = _
    simp only [execXferReceive, hdue, hb]
  · change execXferReceive n s = _
    simp only [execXferReceive, hdue, hb, hmark, if_true]
  · refine ⟨_, ?_, State.xferRead_answers c k size⟩
    change execXferReceive n s = _
    simp [execXferReceive, hdue, hb, hmark]
  · obtain ⟨hread, hbyte, hout⟩ := State.flipped (g := g) hs hev
    obtain ⟨hclosed, hrun⟩ := State.ring_ringFlip (g := g) hev
    exact ⟨_, exec_matrixFlip hg hsince hdet, hread, hclosed, hrun, (Offcore.ringFlip ..).cores, hbyte, hout⟩

/-! ### Copies (R321-R329) -/

section
variable {s t : State} (h : Recorded s t)
include h

theorem Recorded.ep (n : Nat) : t.ep n = s.ep n := by simp only [State.ep, h.eps]
theorem Recorded.str (n : Nat) : t.str n = s.str n := by simp only [State.str, h.strs]
theorem Recorded.home (n : Nat) : t.home n = s.home n := by rw [h.rest]; rfl
theorem Recorded.boardUpd : t.boardUpd = s.boardUpd := by rw [h.rest]

end

theorem State.str_onStr (s : State) (n : Nat) (f : Streamer → Streamer) : (s.onStr n f).str n = f (s.str n) := by simp [State.str, State.onStr]

theorem State.home_onHome (s : State) (n : Nat) (f : Home → Home) : (s.onHome n f).home n = f (s.home n) := by simp [State.home, State.onHome]

/-- A channel after it is changed. -/
theorem State.chan_onChan (s : State) (str ch : Nat) (f : StrChan → StrChan) :
    AMap.find ((s.onChan str ch f).str str).chans ch = (AMap.find (s.str str).chans ch).map f := by
  rw [State.onChan, State.str_onStr, AMap.find_mapVals]
  simp only [if_true]

theorem State.str_boardPush (s : State) (c : StrChan) (st : XferSt) (n : Nat) : (s.boardPush c st).str n = s.str n := rfl
theorem State.home_boardPush (s : State) (c : StrChan) (st : XferSt) (n : Nat) : (s.boardPush c st).home n = s.home n := rfl
theorem State.home_onChan (s : State) (str ch : Nat) (f : StrChan → StrChan) (n : Nat) : (s.onChan str ch f).home n = s.home n := rfl

theorem Recorded.copyEvent (s : State) (str ev : Nat) (c : StrChan) : Recorded s (s.copyEvent str ev c) := .event ..

/-- A copy without DONEIP that ends frees its channel and sends its last state to the board. -/
theorem State.copyEnd_quiet {s : State} {str ch : Nat} {c : StrChan} {st : XferSt} (h : c.rcd.getD 11 0 = 0) : let t := s.copyEnd str ch c st
    AMap.find (t.str str).chans ch = none ∧ t.boardUpd = s.boardUpd ++ [⟨c.core, c.tag, recId c.rcd, st, c.bytes⟩] := by
  have ht : s.copyEnd str ch c st = (s.onStr str (fun x => { x with chans := AMap.del x.chans ch })).boardPush c st := if_pos h
  rw [ht]
  refine ⟨?_, rfl⟩
  rw [State.str_boardPush, State.str_onStr, AMap.find_del_self]

/-- What reading a word of an element changes besides its channel. -/
def State.fetched (s : State) (str n : Nat) (c : StrChan) (p : Word) (k : Nat) (pg : SPage) : State :=
  let s0 := s.touch false pg
  let s1 := if c.freshBlock (planOf c.rcd c.sv c.dv).src (planOf c.rcd c.sv c.dv).unit c.got.isEmpty p then s0.countBlk k 0x0F else s0
  s1.scrub (strDie str c.core) k n

theorem Recorded.touch (s : State) (write : Bool) (pg : SPage) : Recorded s (s.touch write pg) := by
  unfold State.touch
  split
  · exact .onMem s _ (Memory.wf_orWord _ _)
  · exact .refl s
  · exact .refl s
  · exact .refl s

theorem Recorded.countBlk (s : State) (pa ev : Nat) : Recorded s (s.countBlk pa ev) := by
  unfold State.countBlk
  split
  · exact .count ..
  · exact .refl s

theorem Recorded.fetched (s : State) (str n : Nat) (c : StrChan) (p : Word) (k : Nat) (pg : SPage) : Recorded s (s.fetched str n c p k pg) := by
  refine Recorded.trans ?_ (Corrected.scrub ..).toRecorded
  split
  · exact (Recorded.touch ..).trans (.countBlk ..)
  · exact .touch ..

/-- A word in a local memory is read at once. -/
theorem State.readPart_local (s : State) (str ch n : Nat) (c : StrChan) (p : Word) (k : Nat) (sl : Option Nat) (rp co : Nat) :
    s.readPart str ch n c p (.here k sl rp (some co)) =
      (s.fetched str n c p k (.here k sl rp (some co))).onChan str ch (fun c => c.take (s.mem.bytes k n) (s.mem.poisoned k n)) := rfl

section
variable {s : State} {str ch : Nat} {c : StrChan} (hc : AMap.find (s.str str).chans ch = some c) (hl : c.lodged = false) (ht : s.copyTurn c = true)
include hc hl ht

theorem exec_copyComplete_ended (hn : s.copyNext str c = .ended) (h12 : c.rcd.getD 12 0 = 0) :
    exec (.copyComplete str ch) s = .next ((s.copyEnd str ch c .complete).copyEvent str 2 c) := by
  change execCopyComplete str ch s = _
  simp only [execCopyComplete, hc, hl, ht, hn, if_pos h12]
  rfl

theorem exec_copyComplete_read {p : Word} {pg : SPage} {n : Nat} {held : List HeldT} (hn : s.copyNext str c = .read p pg n held) :
    exec (.copyComplete str ch) s = .next ((s.onChan str ch (fun x => { x with held := held })).readPart str ch n c p pg) := by
  change execCopyComplete str ch s = _
  simp [execCopyComplete, hc, hl, ht, hn]

/-- The channel of a copy whose page is absent, in the lodge. -/
def StrChan.lodge (c : StrChan) : StrChan := { c with lodged := true, held := [] }

/-- What stands in the lodge for it. -/
def StrChan.asLodged (c : StrChan) (now : Nat) : Lodged := ⟨c.core, c.num, .copy c.core c.ctx c.tag c.gen c.rcd c.sv c.dv, now, now⟩

theorem exec_copyComplete_absent {p : Word} (hn : s.copyNext str c = .absent p) (hroom : s.lodgeCount (strHome str) < 64) :
    exec (.copyComplete str ch) s = .next ((((s.onChan str ch (fun _ => c.lodge)).onHome (strHome str) (fun h =>
      { h with lodge := h.lodge ++ [c.asLodged s.time] })).boardPush c.lodge .lodged).copyEvent str 1 c.lodge) := by
  change execCopyComplete str ch s = _
  have hroom' := Nat.not_le.2 hroom
  simp only [execCopyComplete, hc, hl, ht, hn, if_neg hroom']
  rfl

theorem exec_copyFault {p : Word} (hn : s.copyNext str c = .fault p) : ∃ u, Recorded s u ∧
    exec (.copyFault str ch) s = .next ((u.copyEnd str ch c .faulted).copyEvent str 3 c) := by
  refine ⟨if str < 8 then s.recordE (s.pOf c.core) str .xferFault (BitVec.ofNat 64 (vaOf p)) (recId c.rcd)
    else s.recordX (s.pOf c.core) (str - 8) .xferFault (BitVec.ofNat 64 (vaOf p)) (recId c.rcd), ?_, ?_⟩
  · split
    · exact .recordE ..
    · exact .recordX ..
  · change execCopyFault str ch s = _
    simp [execCopyFault, hc, hl, ht, hn]

end

/-- The channel of a request for a copy. -/
def StrChan.begun (core ctx tag : Nat) (gen : BitVec 16) (rcd : List Word) (sv dv : Word) (num : Nat) : StrChan :=
  ⟨core, ctx, tag, gen, rcd, sv, dv, num, 0, [], 0, false, 0, 0, false, none, []⟩

theorem exec_copyAccept {s : State} {str : Nat} {r : InReq} {left : List InReq} {core ctx tag : Nat} {gen : BitVec 16} {rcd : List Word} {sv dv : Word} {n : Nat}
    (hdue : (s.ep (4096 + strEng str)).due (fun r => r.body.sort == .copy) = some (r, left)) (hb : r.body = .copy core ctx tag gen rcd sv dv)
    (hn : (upTo 16).find? (fun n => (AMap.find (s.str str).chans n).isNone) = some n) :
    exec (.copyAccept str) s = .next ((((((s.took (4096 + strEng str) r left).respond (4096 + strEng str) r.src r.num .ok).onStr str (fun x =>
      { x with chans := AMap.set x.chans n (.begun core ctx tag gen rcd sv dv r.num) })).boardPush (.begun core ctx tag gen rcd sv dv r.num)
        .accepted)).copyEvent str 0 (.begun core ctx tag gen rcd sv dv r.num)) := by
  change execCopyAccept str s = _
  simp only [execCopyAccept, hdue, hb, hn]
  rfl

theorem takeFirst_accepts {α : Type} {p : α → Bool} {x : α} {t : List α} : ∀ {l : List α}, takeFirst p l = some (x, t) → p x = true
  | [], h => by cases h
  | a :: l, h => by
    rw [takeFirst] at h
    split at h
    next ha => cases h; exact ha
    next =>
      split at h
      next hl => cases h; exact takeFirst_accepts hl
      next => cases h

/-- A board of one entry, which a change for it reaches. -/
theorem State.board_boardApply {s : State} {u : BoardUpd} {e : BoardE} (hb : (s.core u.core).board = [e]) (ht : e.tag = u.tag) (hx : e.xferid = u.xferid)
    (hst : e.st.final = false) (hw : e.waiters = []) :
    ((s.boardApply u).core u.core).board =
      if u.st.final = true ∧ e.doneip = true then [] else [{ e with st := u.st, bytes := max e.bytes u.bytes }] := by
  rw [State.boardApply, State.core_onCore_self]
  simp only [hb, List.filterMap_cons, List.filterMap_nil, ht, hx, hst, hw, beq_self_eq_true, Bool.not_false, List.isEmpty_nil, Bool.and_eq_true]
  split <;> simp_all

theorem copyEvents : Says.CopyEvents := by
  intro s str ch c ep
  refine ⟨fun r left core ctx tag gen rcd sv dv n hdue hb hn => ?_, fun hc hl ht => ⟨fun hn h11 h12 => ?_, fun p k sl rp n co held hn => ?_,
    fun p hn hroom => ?_, fun p hn h11 => ?_⟩, fun core u rest e hdet htake hb htag hx hst hw => ?_⟩
  · have hrec := Recorded.copyEvent (((((s.took ep r left).respond ep r.src r.num .ok).onStr str (fun x =>
      { x with chans := AMap.set x.chans n (.begun core ctx tag gen rcd sv dv r.num) })).boardPush (.begun core ctx tag gen rcd sv dv r.num)
        .accepted)) str 0 (.begun core ctx tag gen rcd sv dv r.num)
    refine ⟨_, exec_copyAccept hdue hb hn, ?_, ?_, ?_⟩
    · rw [hrec.ep]
      exact (State.ep_answered .ok rfl).1
    · rw [hrec.str]
      rw [State.str_boardPush, State.str_onStr, AMap.find_set, if_pos rfl]
      rfl
    · rw [hrec.boardUpd]
      rfl
  · have hrec := Recorded.copyEvent (s.copyEnd str ch c .complete) str 2 c
    rw [exec_copyComplete_ended hc hl ht hn h12]
    refine ⟨_, rfl, ?_⟩
    rw [hrec.str, hrec.boardUpd]
    exact State.copyEnd_quiet h11
  · have hrec := Recorded.fetched (s.onChan str ch (fun x => { x with held := held })) str n c p k (.here k sl rp (some co))
    refine ⟨_, exec_copyComplete_read hc hl ht hn, ?_, hrec.cores⟩
    rw [State.readPart_local, State.chan_onChan, hrec.str, State.chan_onChan, hc]
    rfl
  · have hrec := Recorded.copyEvent (((s.onChan str ch (fun _ => c.lodge)).onHome (strHome str) (fun h =>
      { h with lodge := h.lodge ++ [c.asLodged s.time] })).boardPush c.lodge .lodged) str 1 c.lodge
    refine ⟨_, exec_copyComplete_absent hc hl ht hn hroom, ?_, ?_⟩
    · rw [hrec.str]
      exact (State.chan_onChan ..).trans (by rw [hc]; rfl)
    · rw [hrec.home]
      rw [State.home_boardPush, State.home_onHome, State.home_onChan]
      exact List.length_append
  · obtain ⟨u, hu, hexec⟩ := exec_copyFault hc hl ht hn
    have hrec := Recorded.copyEvent (u.copyEnd str ch c .faulted) str 3 c
    refine ⟨_, hexec, ?_⟩
    rw [hrec.str, hrec.boardUpd, ← hu.boardUpd]
    exact State.copyEnd_quiet h11
  · obtain rfl : u.core = core := by simpa using takeFirst_accepts htake
    refine ⟨({ s with boardUpd := rest } : State).boardApply u, ?_, rfl, State.board_boardApply hb htag hx hst hw⟩
    change execTransferBoardUpdate u.core s = _
    simp [execTransferBoardUpdate, hdet, htake]

/-- Settles O50: what an engine's write, a phase of a replica and a flip leave in memory is said byte by byte, and each event of a copy is read off its step. -/
theorem engineEvents : Obligations.EngineEvents := ⟨engineWrites, copyEvents⟩

end Sys2Proof.Machine
end

section
/-!
SUPPORT. What vector instructions deliver (R70, R71, R271-R274): the lanes that they write into a register, the flags of the active lanes, and how an
instruction that writes flags and one register completes.
-/

namespace Sys2Proof.Machine

/-! ### Lanes of a register (R108, R271) -/

theorem testBit_lane (x : VWord) (w i k : Nat) : (lane x w i).testBit k = (decide (k < w) && x.toNat.testBit (w * i + k)) := by
  simp [lane, Nat.testBit_mod_two_pow, Nat.testBit_shiftRight]

/-- A register after a lane is set: inside the lane the value's bits, elsewhere its own. -/
theorem testBit_setLane (x : VWord) {w i : Nat} (v : Nat) (hfit : w * i + w ≤ 1024) (k : Nat) :
    (setLane x w i v).toNat.testBit k = if w * i ≤ k ∧ k < w * i + w then v.testBit (k - w * i) else x.toNat.testBit k := by
  have hm : (2 ^ w - 1) <<< (w * i) < 2 ^ 1024 := by
    have hlt : (2 ^ w - 1) * 2 ^ (w * i) < 2 ^ w * 2 ^ (w * i) :=
      Nat.mul_lt_mul_of_pos_right (Nat.sub_one_lt (Nat.two_pow_pos w).ne') (Nat.two_pow_pos _)
    have hle : 2 ^ (w * i + w) ≤ 2 ^ 1024 := pow_le_pow_right₀ (by decide) hfit
    rw [← Nat.pow_add, Nat.add_comm] at hlt
    rw [Nat.shiftLeft_eq]
    exact hlt.trans_le hle
  have hx : 1024 ≤ k → x.toNat.testBit k = false := fun hk =>
    (BitVec.testBit_toNat x).trans (BitVec.getLsbD_of_ge x k hk)
  have hsub : 2 ^ 1024 - 1 - (2 ^ w - 1) <<< (w * i) = 2 ^ 1024 - ((2 ^ w - 1) <<< (w * i) + 1) := by omega
  simp only [setLane, BitVec.toNat_ofNat, Nat.testBit_mod_two_pow, Nat.testBit_or, Nat.testBit_and, hsub, Nat.testBit_two_pow_sub_succ hm,
    Nat.testBit_shiftLeft, Nat.testBit_two_pow_sub_one]
  by_cases hk : k < 1024
  · by_cases h1 : w * i ≤ k <;> by_cases h2 : k < w * i + w
    · have : k - w * i < w := by omega
      simp [hk, h1, h2, this]
    · have : ¬ k - w * i < w := by omega
      simp [hk, h2, this]
    · simp [hk, h1]
    · simp [hk, h1]
  · have h2 : ¬ k < w * i + w := by omega
    simp [hk, h2, hx (by omega)]

/-- Lanes that lie apart. -/
theorem lane_apart {w i j k : Nat} (hk : k < w) (h : j ≠ i) : ¬ (w * i ≤ w * j + k ∧ w * j + k < w * i + w) := by
  rintro ⟨h1, h2⟩
  have hij : i < j + 1 := Nat.lt_of_mul_lt_mul_left (a := w) (by rw [Nat.mul_add_one]; omega)
  have hji : j < i + 1 := Nat.lt_of_mul_lt_mul_left (a := w) (by rw [Nat.mul_add_one]; omega)
  omega

theorem lane_setLane (x : VWord) {w i : Nat} (v : Nat) (hfit : w * i + w ≤ 1024) (j : Nat) :
    lane (setLane x w i v) w j = if j = i then v % 2 ^ w else lane x w j := by
  apply Nat.eq_of_testBit_eq
  intro k
  rw [testBit_lane, testBit_setLane x v hfit]
  by_cases hk : k < w
  · split
    · next h =>
      obtain rfl : j = i := by by_contra hne; exact lane_apart hk hne h
      simp [Nat.testBit_mod_two_pow]
    · next h =>
      have hne : j ≠ i := by rintro rfl; omega
      rw [if_neg hne, testBit_lane]
  · by_cases hj : j = i <;> simp [Nat.testBit_mod_two_pow, testBit_lane, hk, hj]

/-- The results of the lanes of a list. -/
def laneResults (l : List Nat) (res : Nat → Nat × Fl) : List LaneR := l.map (fun i => ⟨i, (res i).1, (res i).2⟩)

/-- A register with results laid into it: in the lanes of the list their values, elsewhere its own. -/
theorem lane_layLanes {w : Nat} {l : List Nat} (res : Nat → Nat × Fl) (hfit : ∀ i ∈ l, w * i + w ≤ 1024) (j : Nat) (x : VWord) :
    lane (layLanes w x (laneResults l res)) w j = if j ∈ l then (res j).1 % 2 ^ w else lane x w j := by
  induction l generalizing x with
  | nil => simp [layLanes, laneResults]
  | cons i t ih =>
    have ih' := ih (fun i hi => hfit i (List.mem_cons_of_mem _ hi)) (setLane x w i (res i).1)
    refine Eq.trans ih' ?_
    rw [lane_setLane x _ (hfit i (by simp))]
    by_cases ht : j ∈ t
    · simp [ht]
    · by_cases hi : j = i <;> simp [ht, hi]

theorem flagsOf_laneResults (l : List Nat) (res : Nat → Nat × Fl) : flagsOf (laneResults l res) = l.foldl (fun a j => a ||| (res j).2) 0 := by
  simp only [flagsOf, laneResults, List.foldl_map]
  rfl

theorem State.mem_actLanes (s : State) (q : KReg) (w n j : Nat) : j ∈ s.actLanes q w n ↔ j < n ∧ s.act q w j = true := by
  simp [State.actLanes, upTo]

/-- The lanes of a width lie in the register. -/
theorem lane_fits {w j : Nat} (h : j < 1024 / w) : w * j + w ≤ 1024 := by
  calc w * j + w = w * (j + 1) := (Nat.mul_add_one w j).symm
    _ ≤ w * (1024 / w) := Nat.mul_le_mul_left w h
    _ ≤ 1024 := Nat.mul_div_le 1024 w

theorem State.actLanes_fit {s : State} {q : KReg} {w n : Nat} (hn : n ≤ 1024 / w) : ∀ i ∈ s.actLanes q w n, w * i + w ≤ 1024 := fun i hi =>
  lane_fits (((s.mem_actLanes q w n i).1 hi).1.trans_le hn)

/-- The lowest active lane whose result is of a kind. -/
theorem find?_laneResults {s : State} {q : KReg} {w n j : Nat} {res : Nat → Nat × Fl} {p : Nat → Bool} (hj : j < n) (ha : s.act q w j = true)
    (hp : p (res j).1 = true) (hlow : ∀ k < j, s.act q w k = true → p (res k).1 = false) :
    (laneResults (s.actLanes q w n) res).find? (fun r => p r.v) = some ⟨j, (res j).1, (res j).2⟩ := by
  have hfind : (s.actLanes q w n).find? (fun i => p (res i).1) = some j := by
    rw [State.actLanes, upTo, List.find?_filter, List.find?_range_eq_some]
    refine ⟨by simp [ha, hp], by simpa using hj, fun k hk => ?_⟩
    cases hk' : s.act q w k with
    | false => simp
    | true => simp [hlow k hk hk']
  simp [laneResults, List.find?_map, hfind]

/-! ### Flags and one register (R70, R90) -/

@[simp] theorem fcsrSet_zero (c : BitVec 9) : fcsrSet c 0 = c := by simp [fcsrSet]

/-- The running context with flags set. -/
def Ctx.flagged (x : Ctx) (fl : Fl) : Ctx := { x with fcsr := fcsrSet x.fcsr fl }

@[simp] theorem Ctx.flagged_zero (x : Ctx) : x.flagged 0 = x := by rw [Ctx.flagged, fcsrSet_zero]

@[simp] theorem State.me_flags (s : State) (fl : Fl) : (s.flags fl).me = s.me.flagged fl := State.me_onMe s _

/-- What a write of a register leaves of a context, so that its instruction retires in sequence. -/
structure Ctx.Onward (x y : Ctx) : Prop where
  ip    : y.ip = x.ip
  latch : y.latch = x.latch
  step1 : y.step1 = x.step1
  migok : y.migok = x.migok

theorem Ctx.onward_putV (x : Ctx) (fl : Fl) (d : VReg) (v : VWord) : x.Onward ((x.flagged fl).putV d v) := ⟨rfl, rfl, rfl, rfl⟩
theorem Ctx.onward_putG (x : Ctx) (fl : Fl) (d : GReg) (v : Word) : x.Onward ((x.flagged fl).putG d v) :=
  ⟨Ctx.putG_ip .., Ctx.putG_latch .., Ctx.putG_step1 .., Ctx.putG_migok ..⟩

/-- Of two writes of an entry the later one stays. -/
theorem AMap.set_set {α : Type} (m : AMap α) (k : Nat) (v w : α) : AMap.set (AMap.set m k v) k w = AMap.set m k w := by
  induction m with
  | nil => simp [AMap.set]
  | cons e t ih =>
    obtain ⟨j, u⟩ := e
    simp only [AMap.set]
    split
    · simp [AMap.set]
    · next hjk =>
      split
      · simp [AMap.set]
      · next hlt => simp [AMap.set, hjk, AMap.find_set, ih]

/-- Two changes of the running context are one. -/
theorem State.onMe_onMe (s : State) (f g : Ctx → Ctx) : (s.onMe f).onMe g = s.onMe (fun x => g (f x)) := by
  have hself := State.core_onCore_self s s.cur.1 (fun k => k.setCtx s.cur.2.val (f (k.ctx s.cur.2.val)))
  simp only [State.onMe, State.onCtx, State.onCore_cur]
  rw [State.onCore, hself]
  simp [State.onCore, State.setCore, AMap.set_set, CoreSt.setCtx, CoreSt.ctx, Vector.get_eq_getElem]

/-- An instruction that sets flags and changes its context completes; counters may have moved before (`P`). -/
theorem completes_of_flags {i : Instr} {s : State} {P : AMap Part} {fl : Fl} {f : Ctx → Ctx} (hs : Steady s)
    (hx : exec i s = retired ((({ s with parts := P } : State).flags fl).onMe f)) (hf : s.me.Onward (f (s.me.flagged fl))) :
    Completes i s (f (s.me.flagged fl)) := by
  have hu : (({ s with parts := P } : State).flags fl).onMe f = ({ s with parts := P } : State).onMe (fun x => f (x.flagged fl)) :=
    State.onMe_onMe ..
  have hme : (({ s with parts := P } : State).onMe (fun x => f (x.flagged fl))).me = f (s.me.flagged fl) := State.me_onMe ..
  refine ⟨_, hx, ?_⟩
  rw [hu, retire_eq s _ (by rw [hme, hf.latch]) (by rw [hme, hf.ip])]
  have h := retired_onMe ({ s with parts := P } : State) (nextIp s.me.latch.nh s.me.ip) (fun x => f (x.flagged fl))
    ⟨hf.step1.trans hs.1, hf.migok.trans hs.2⟩
  exact ⟨h.ip, h.regs, h.mem, h.peers, h.core, h.cores, h.eps, h.homes, h.cur, h.time⟩

theorem gives_of_setG {i : Instr} {s : State} {d : GReg} {v : Word} (hs : Steady s) (hx : exec i s = retired (s.setG d v)) : Gives i s d v := by
  refine ⟨_, hx, ?_⟩
  rw [retire_eq s _ (by simp) (by simp)]
  exact retired_setG s _ d v hs

theorem vecRun_zero {s : State} (h : s.me.vstart = 0) (k : Host.Outcome State Fault Refusal) : vecRun s k = k := by
  simp [vecRun, h]

theorem State.count_parts (s : State) (die ev n : Nat) : s.count die ev n = { s with parts := (s.count die ev n).parts } := by
  have h := (Recorded.count s die ev n).rest
  rw [State.count_mem] at h
  exact h

end Sys2Proof.Machine
end

section
/-!
SUPPORT. Vector arithmetic and its traps (R71, R273, R274, R277-R279), and O21 and O29 from it: the delivery of a value operation with NANTRAP off and at its
lowest NaN lane, and the instructions that VSTART stops.
-/

namespace Sys2Proof.Machine

/-! ### Delivery (R70, R71, R274) -/

/-- No NaN of the format stops a value operation: NANTRAP is off, or the format has no NaN. -/
abbrev NanFree (s : State) (t : Fmt) : Prop := fcsrNanTrap s.me.fcsr = false ∨ ∀ x, isNaNPat t x = false

/-- Where no NaN stops it, a value operation sets the flags and writes the lanes. -/
theorem deliver_writes {s : State} {t : Fmt} (h : NanFree s t) (d : VReg) (base : VWord) (tfmt : Nat) (l : List LaneR) :
    deliver d t base tfmt l s = retired ((s.flags (flagsOf l)).setV d (layLanes t.width base l)) := by
  unfold deliver
  split
  · next r hr =>
    have hn := List.find?_some hr
    rcases h with h | h
    · simp [h]
    · simp [h] at hn
  · rfl

/-- Under NANTRAP it stops at the first NaN, with the flags set. -/
theorem deliver_traps {s : State} {t : Fmt} (h : fcsrNanTrap s.me.fcsr = true) {l : List LaneR} {r : LaneR}
    (hr : l.find? (fun r => isNaNPat t r.v) = some r) (d : VReg) (base : VWord) (tfmt : Nat) :
    deliver d t base tfmt l s = .next ((s.flags (flagsOf l)).takeStop (.trap ⟨.nanFirst, false, 0, r.i, 0, tfmt⟩)) := by
  unfold deliver
  simp only [hr, h, if_true]

section
variable {i : Instr} {s : State} {P : AMap Part} {d : VReg} {f : Fmt} (hs : Steady s)
include hs

/-- A delivery completes, with each lane of the register told. -/
theorem completes_of_lanes {q : KReg} {w n : Nat} {base : VWord} {res : Nat → Nat × Fl} (hw : f.width ≤ w) (hn : n ≤ 1024 / w)
    (hx : exec i s = retired ((({ s with parts := P } : State).flags (flagsOf (laneResults (s.actLanes q w n) res))).setV d
      (layLanes f.width base (laneResults (s.actLanes q w n) res)))) :
    ∃ v : VWord, Completes i s ({ s.me with fcsr := fcsrSet s.me.fcsr ((s.actLanes q w n).foldl (fun a j => a ||| (res j).2) 0) }.putV d v) ∧
      ∀ j, lane v f.width j = if j < n ∧ s.act q w j = true then (res j).1 % 2 ^ f.width else lane base f.width j := by
  have hfit : ∀ i ∈ s.actLanes q w n, f.width * i + f.width ≤ 1024 := fun i hi =>
    (Nat.add_le_add (Nat.mul_le_mul_right i hw) hw).trans (s.actLanes_fit hn i hi)
  have h := completes_of_flags hs hx (Ctx.onward_putV ..)
  rw [flagsOf_laneResults] at h
  refine ⟨_, h, fun j => ?_⟩
  rw [lane_layLanes res hfit]
  simp only [State.mem_actLanes]

theorem givesLanes_of_retired {q : KReg} {res : Nat → Nat × Fl}
    (hx : exec i s = retired ((({ s with parts := P } : State).flags (flagsOf (laneResults (s.actLanes q f.width (lanesOf f)) res))).setV d
      (layLanes f.width (s.v d) (laneResults (s.actLanes q f.width (lanesOf f)) res)))) : GivesLanes i s d q f res := by
  obtain ⟨v, hv, hl⟩ := completes_of_lanes hs (Nat.le_refl _) (Nat.le_refl (lanesOf f)) hx
  refine ⟨v, hv, fun j hj => ?_⟩
  rw [hl]
  simp only [hj, true_and]

end

/-! ### Lane operations (R277, R279) -/

/-- A fused operation delivers the results of its lanes once it has counted them (R438). -/
theorem fmaOp_eq (s : State) (d : VReg) (q : KReg) (a b : VReg) (f : Fmt) (op : FV → FV → FV → Nat × Fl) : ∃ ev n, fmaOp d q a b f op s =
    vecRun s (deliver d f (s.v d) (tfmtOf (fcode f) (fcode f) (fcode f)) (laneResults (s.actLanes q f.width (lanesOf f)) (fun j =>
      op (decodeF f (lane (s.v a) f.width j)) (decodeF f (lane (s.v b) f.width j)) (decodeF f (lane (s.v d) f.width j))))
      (s.count (dieOf s.cur.1) ev n)) := ⟨_, _, rfl⟩

section
variable {i : Instr} {s : State} {d : VReg} {q : KReg} {a b : VReg} {f : Fmt} (hs : Steady s) (h0 : s.me.vstart = 0) (hn : NanFree s f)
include hs h0 hn

/-- A lane operation gives each active lane its result. -/
theorem givesLanes_laneOp {bf : Nat} {op : LaneOp} {res : Nat → Nat × Fl} (hx : exec i s = laneOp d q a b f bf op s)
    (hop : ∀ j, op (lane (s.v a) f.width j) (lane (s.v b) f.width j) = res j) : GivesLanes i s d q f res := by
  obtain rfl : (fun j => op (lane (s.v a) f.width j) (lane (s.v b) f.width j)) = res := funext hop
  refine givesLanes_of_retired (P := s.parts) hs (hx.trans ?_)
  rw [laneOp, vecRun_zero h0]
  exact deliver_writes hn ..

/-- A fused operation gives each active lane its result; what it counts is of the partitions. -/
theorem givesLanes_fmaOp {op : FV → FV → FV → Nat × Fl} (hx : exec i s = fmaOp d q a b f op s) :
    GivesLanes i s d q f
      (fun j => op (decodeF f (lane (s.v a) f.width j)) (decodeF f (lane (s.v b) f.width j)) (decodeF f (lane (s.v d) f.width j))) := by
  obtain ⟨ev, n, hop⟩ := fmaOp_eq s d q a b f op
  rw [hop, vecRun_zero h0, State.count_parts] at hx
  generalize (s.count (dieOf s.cur.1) ev n).parts = P at hx
  exact givesLanes_of_retired hs (hx.trans (deliver_writes (s := { s with parts := P }) hn ..))

end

theorem Fmt.isInt_of_isArithFloat {f : Fmt} (h : f.isArithFloat = true) : f.isInt = false := by
  cases f <;> simp_all [Fmt.isArithFloat, Fmt.isInt]

/-- The float meaning of a two-source operation. -/
theorem arith2_float {f : Fmt} (h : f.isArithFloat = true) (fl : FV → FV → Nat × Fl) (int : Int → Int → Nat) (x y : Nat) :
    arith2 f fl int x y = fl (decodeF f x) (decodeF f y) := by
  simp [arith2, Fmt.isInt_of_isArithFloat h]

theorem fMinMax_eq (f : Fmt) (big : Bool) (u v : FV) : fMinMax f big u v =
    if u.isNaN ∨ v.isNaN then (f.qnan, u.snv ||| v.snv) else roundF f .rne (if cmpBelow u v = big then v else u) := by
  simp [fMinMax]

/-- Settles O21: each instruction is a lane operation whose float meaning is the rounded exact value, and a lane operation delivers what its lanes give. -/
theorem vectorFloatForms : Obligations.VectorFloatForms := by
  intro s d a b q f rm sat hs h0 hf ht
  have hn : NanFree s f := .inl ht
  refine ⟨?add, ?sub, ?mul, ?div, ?min, ?max, ?abs, ?neg, ?sqrt, ?fma, ?fms, ?fnma⟩
  case add => exact givesLanes_laneOp hs h0 hn rfl (fun j => arith2_float hf ..)
  case sub => exact givesLanes_laneOp hs h0 hn rfl (fun j => arith2_float hf ..)
  case mul => exact givesLanes_laneOp hs h0 hn rfl (fun j => arith2_float hf ..)
  case div => exact givesLanes_laneOp hs h0 hn rfl (fun j => arith2_float hf ..)
  case min => exact givesLanes_laneOp hs h0 hn rfl (fun j => (arith2_float hf ..).trans (fMinMax_eq ..))
  case max => exact givesLanes_laneOp hs h0 hn rfl (fun j => (arith2_float hf ..).trans (fMinMax_eq ..))
  case abs => exact givesLanes_laneOp hs h0 hn rfl (fun j => arith2_float hf ..)
  case neg => exact givesLanes_laneOp hs h0 hn rfl (fun j => arith2_float hf ..)
  case sqrt => exact givesLanes_laneOp (a := a) (b := a) hs h0 hn rfl (fun j => rfl)
  case fma => exact givesLanes_fmaOp (op := fun x y z => fFma f (effRm s.me.fcsr rm) x y z) hs h0 hn rfl
  case fms => exact givesLanes_fmaOp (op := fun x y z => fFma f (effRm s.me.fcsr rm) x y z.neg) hs h0 hn rfl
  case fnma => exact givesLanes_fmaOp (op := fun x y z => fFma f (effRm s.me.fcsr rm) x.neg y z) hs h0 hn rfl

/-! ### NAN-FIRST (R71, R274) -/

@[simp] theorem Ctx.noteAbort_v (x : Ctx) : x.noteAbort.v = x.v := by unfold Ctx.noteAbort; split <;> rfl
@[simp] theorem Ctx.noteAbort_k (x : Ctx) : x.noteAbort.k = x.k := by unfold Ctx.noteAbort; split <;> rfl
@[simp] theorem Ctx.noteAbort_fcsr (x : Ctx) : x.noteAbort.fcsr = x.fcsr := by unfold Ctx.noteAbort; split <;> rfl

/-- The registers and trap CSRs that an aborted activation leaves. -/
theorem State.takeStop_abort_regs {s : State} {t : TrapInfo} (h : t.cause.kind = .a) : let u := s.takeStop (.trap t)
    u.me.st = .free ∧ u.me.trap.cause = t.cause.word t.fetch ∧ u.me.trap.tval = t.tval ∧ u.me.trap.telem = BitVec.ofNat 64 (t.telem % 2 ^ 16) ∧
      u.me.v = s.me.v ∧ u.me.k = s.me.k ∧ u.me.g = s.me.g ∧ u.me.fcsr = s.me.fcsr := by
  intro u
  rw [State.me_takeStop_abort h]
  refine ⟨rfl, by simp, by simp, by simp, ?_, ?_, by simp, ?_⟩
  · exact Ctx.noteAbort_v _
  · exact Ctx.noteAbort_k _
  · exact Ctx.noteAbort_fcsr _

/-- A lane operation under NANTRAP stops at its lowest active NaN lane, with the flags of every active lane set. -/
theorem laneOp_nanFirst {s : State} {d : VReg} {q : KReg} {a b : VReg} {f : Fmt} {bf j : Nat} {op : LaneOp} (h0 : s.me.vstart = 0)
    (ht : fcsrNanTrap s.me.fcsr = true) : let r := fun k => op (lane (s.v a) f.width k) (lane (s.v b) f.width k)
    j < lanesOf f → s.act q f.width j = true → isNaNPat f (r j).1 = true →
    (∀ k < j, s.act q f.width k = true → isNaNPat f (r k).1 = false) → ∃ tfmt, laneOp d q a b f bf op s =
      .next ((s.flags ((s.actLanes q f.width (lanesOf f)).foldl (fun a k => a ||| (r k).2) 0)).takeStop (.trap ⟨.nanFirst, false, 0, j, 0, tfmt⟩)) := by
  intro r hj ha hp hlow
  have hfind := find?_laneResults (res := r) hj ha hp hlow
  have h := deliver_traps ht hfind d (s.v d) (tfmtOf (fcode f) bf (fcode f))
  rw [flagsOf_laneResults] at h
  exact ⟨_, (vecRun_zero h0 _).trans h⟩

theorem nanFirstTraps : Says.NanFirstTraps := by
  intro s d a b q f rm sat j i r h0 hf ht x y hi on hon hp hlow
  obtain ⟨hj, ha⟩ := hon
  obtain ⟨op, hx, hr⟩ : ∃ op, exec i s = laneOp d q a b f (fcode f) op s ∧
      r = fun k => op (lane (s.v a) f.width k) (lane (s.v b) f.width k) := by
    rcases hi with ⟨rfl, rfl⟩ | ⟨rfl, rfl⟩ <;> exact ⟨_, rfl, funext fun k => (arith2_float hf ..).symm⟩
  subst hr
  obtain ⟨tfmt, hl⟩ := laneOp_nanFirst (d := d) (bf := fcode f) h0 ht hj ha hp (fun k hk hak => hlow k hk ⟨hk.trans hj, hak⟩)
  have hj16 : j % 2 ^ 16 = j := Nat.mod_eq_of_lt (hj.trans_le ((Nat.div_le_self ..).trans (by decide)))
  obtain ⟨hst, hcause, -, htelem, hv, -, -, hfl⟩ := State.takeStop_abort_regs
    (s := s.flags ((s.actLanes q f.width (lanesOf f)).foldl (fun u k => u ||| (op (lane (s.v a) f.width k) (lane (s.v b) f.width k)).2) 0))
    (t := ⟨.nanFirst, false, 0, j, 0, tfmt⟩) rfl
  rw [State.me_flags] at hv hfl
  exact ⟨_, hx.trans hl, hst, hcause, htelem.trans (by rw [hj16]), hv, hfl⟩

/-! ### VSTART-BAD (R273) -/

/-- Where VSTART is not 0, an instruction that may not resume traps. -/
theorem vecRun_bad {s : State} (h : s.me.vstart ≠ 0) (k : Host.Outcome State Fault Refusal) :
    vecRun s k = .next (s.takeStop (.trap (mkTrap .vstartBad (s.me.vstart.setWidth 64)))) := by
  simpa [vecRun] using fun h0 => absurd h0 h

/-- A memory form through view 0 traps where VSTART lies beyond its lanes. -/
theorem vecMem_bad {s : State} {p : Word} {f : Fmt} (hf : f ≠ .o4) (hp : p.extractLsb' 60 4 = 0) (h : lanesOf f ≤ s.me.vstart.toNat) (plain : Bool)
    (one : VMem → Nat → Option Quad → State → Res (Option Quad)) (d : VReg) (q : KReg) (rm : Rm) (elem : Fmt → Nat → Elem) :
    vecMem plain one d q p f rm false elem s = .next (s.takeStop (.trap (mkTrap .vstartBad (s.me.vstart.setWidth 64)))) := by
  have hraw : bitsNat p 60 4 = 0 := by simpa [bitsNat, field] using congrArg BitVec.toNat hp
  simp [vecMem, memFmt, hraw, hf, h]

theorem vstartBad : Says.VstartBad := by
  intro s d a b q k j g h f f' rm sat i hv hi
  have hx : exec i s = .next (s.takeStop (.trap (mkTrap .vstartBad (s.me.vstart.setWidth 64)))) := by
    rcases hi with hi | ⟨hi, hf, hp, hl⟩
    · fin_cases hi <;> exact vecRun_bad hv _
    · simp only [List.mem_cons, List.not_mem_nil, or_false] at hi
      rcases hi with rfl | rfl | rfl | rfl
      · exact vecMem_bad hf hp hl false loadElem d q rm (regionElem s (s.g g))
      · exact vecMem_bad hf hp hl true storeElem d q rm (regionElem s (s.g g))
      · exact vecMem_bad hf hp hl true loadElem d q rm (fun _ => strideElem (s.g g) (s.g h))
      · exact vecMem_bad hf hp hl true storeElem d q rm (fun _ => strideElem (s.g g) (s.g h))
  obtain ⟨hst, hcause, htval, -, hregs⟩ := State.takeStop_abort_regs (s := s) (t := mkTrap .vstartBad (s.me.vstart.setWidth 64)) rfl
  exact ⟨_, hx, hst, hcause, htval, hregs⟩

/-- Settles O29: a lane operation stops at its lowest NaN lane, each instruction that may not resume begins with the check of VSTART, and an abort leaves the
registers. -/
theorem vectorTraps : Obligations.VectorTraps := ⟨nanFirstTraps, vstartBad⟩

end Sys2Proof.Machine
end

section
/-!
SUPPORT. Vector conversion, moves and permutes (R72, R280, R282, R284), and O23 from it; the integers that lanes hold (R62, R63), reductions over the active
lanes (R84, R283), and O25 from it.
-/

namespace Sys2Proof.Machine

/-! ### Conversion (R280) -/

/-- A register with its lanes from `m` on set to 0. -/
theorem lane_trim (x : VWord) {w m : Nat} (hm : m * w ≤ 1024) (j : Nat) :
    lane (BitVec.ofNat 1024 (x.toNat % 2 ^ (m * w))) w j = if m ≤ j then 0 else lane x w j := by
  apply Nat.eq_of_testBit_eq
  intro k
  simp only [testBit_lane, BitVec.toNat_ofNat, Nat.testBit_mod_two_pow]
  by_cases hk : k < w
  · split
    · next h =>
      have := Nat.mul_le_mul_left w h
      have hout : ¬ w * j + k < m * w := by rw [Nat.mul_comm m]; omega
      simp [hout]
    · next h =>
      have := Nat.mul_le_mul_left w (Nat.not_le.1 h)
      have hin : w * j + k < m * w := by rw [Nat.mul_comm m, Nat.mul_add_one] at *; omega
      simp [testBit_lane, hk, hin, hin.trans_le hm]
  · split <;> simp [testBit_lane, hk]

theorem isNaNPat_of_isInt {f : Fmt} (h : f.isInt = true) (x : Nat) : isNaNPat f x = false := by
  cases f <;> simp_all [Fmt.isInt, isNaNPat, Fmt.isFloat]

theorem vectorConverts : Says.VectorConverts := by
  intro s d a q f t rm sat hs h0 _ _ ht w n r
  have hn : NanFree s t := ht.imp_right isNaNPat_of_isInt
  have hw : (if f.width < t.width then t.width else f.width) = w := by
    change _ = max f.width t.width
    split <;> omega
  have hx : exec (.vcvt d q a f t rm sat) s = retired ((s.flags (flagsOf (laneResults (s.actLanes q w n) r))).setV d
      (layLanes t.width (BitVec.ofNat 1024 ((s.v d).toNat % 2 ^ (n * t.width))) (laneResults (s.actLanes q w n) r))) := by
    change execVcvt d q a f t rm sat s = _
    unfold execVcvt
    simp only [hw]
    exact (vecRun_zero h0 _).trans (deliver_writes hn ..)
  obtain ⟨v, hv, hl⟩ := completes_of_lanes (P := s.parts) hs (Nat.le_max_right ..) (Nat.le_refl n) hx
  refine ⟨v, hv, fun j _ => ?_⟩
  have hnt : n * t.width ≤ 1024 := (Nat.mul_le_mul_left n (Nat.le_max_right ..)).trans (Nat.div_mul_le_self ..)
  rw [hl, lane_trim _ hnt]
  by_cases hj : n ≤ j
  · simp [hj]
  · simp [w, hj, Nat.not_le.1 hj]

/-! ### Moves and permutes (R282, R284) -/

/-- No flag is a change of the context. -/
theorem State.flags_zero_onMe (s : State) (f : Ctx → Ctx) : (s.flags 0).onMe f = s.onMe f :=
  (State.onMe_onMe s (fun x => x.flagged 0) f).trans (congrArg s.onMe (funext fun x => by rw [Ctx.flagged_zero]))

theorem flagsOf_none (l : List Nat) (g : Nat → Nat) : flagsOf (laneResults l (fun j => (g j, 0))) = 0 := by
  rw [flagsOf_laneResults]
  simp

/-- A move gives each active lane its pattern and sets no flag. -/
theorem givesLanes_moveOp {i : Instr} {s : State} {d : VReg} {q : KReg} {f : Fmt} {src g : Nat → Nat} (hs : Steady s) (h0 : s.me.vstart = 0)
    (hx : exec i s = moveOp d q f src s) (hsrc : ∀ j, src j % 2 ^ f.width = g j % 2 ^ f.width) : GivesLanes i s d q f (fun j => (g j, 0)) := by
  rw [moveOp, vecRun_zero h0] at hx
  obtain ⟨v, hv, hl⟩ := givesLanes_of_retired (P := s.parts) (res := fun j => (src j, 0)) hs
    (hx.trans (by rw [flagsOf_none]; exact congrArg retired (State.flags_zero_onMe ..).symm))
  exact ⟨v, hv, fun j hj => by simpa only [hsrc] using hl j hj⟩

/-! ### Integers delivered and extended (R63, R282) -/

theorem Fmt.imin_le_imax (f : Fmt) : f.imin ≤ f.imax := by cases f <;> decide

/-- What a result delivers, as the model computes it (R63). -/
theorem intRes_eq_delivered (f : Fmt) (sat : Bool) (y : Int) : intRes f sat y = delivered f sat y := by
  have h := Fmt.imin_le_imax f
  cases sat
  · rfl
  · have hc : (if y < f.imin then f.imin else if f.imax < y then f.imax else y) = max f.imin (min f.imax y) := by
      split
      · omega
      · split <;> omega
    simp only [intRes, satI, hc]
    rfl

/-- A lane in a general register is its integer (R282, R283). -/
theorem extLane_eq_ofInt (f : Fmt) (v : Nat) : extLane f v = BitVec.ofInt 64 (if f.signed then toSigned f.width v else (v : Int)) := by
  unfold extLane
  split <;> simp

theorem gives_vext (s : State) (h : GReg) (a : VReg) (g : GReg) (f : Fmt) (hs : Steady s) (h0 : s.me.vstart = 0) :
    let v := lane (s.v a) f.width ((s.g g).toNat % lanesOf f)
    Gives (.vext h a g f) s h (BitVec.ofInt 64 (if f.signed then toSigned f.width v else (v : Int))) := by
  intro v
  rw [← extLane_eq_ofInt]
  exact gives_of_setG hs (vecRun_zero h0 _)

theorem lanesMove : Says.VectorMoves := by
  intro s d a b q g h f sat hs h0 _ w n x y wide mv
  refine ⟨?vsel, ?vmov, ?vbcast, ?viota, gives_vext s h a g f hs h0, ?vshuf, ?vrot, fun _ _ => ?vpack, fun _ _ => ?vunpack⟩
  case vsel => exact givesLanes_moveOp hs h0 rfl (fun _ => rfl)
  case vmov => exact givesLanes_moveOp hs h0 rfl (fun _ => rfl)
  case vbcast => exact givesLanes_moveOp hs h0 rfl (fun _ => Nat.mod_mod ..)
  case viota => exact givesLanes_moveOp hs h0 rfl (fun _ => Nat.mod_mod ..)
  case vshuf => exact givesLanes_moveOp hs h0 rfl (fun _ => rfl)
  case vrot => exact givesLanes_moveOp hs h0 rfl (fun _ => rfl)
  case vpack => exact givesLanes_moveOp hs h0 rfl (fun _ => by rw [intRes_eq_delivered])
  case vunpack => exact givesLanes_moveOp hs h0 rfl (fun _ => rfl)

/-- Settles O23: VCVT delivers into a register trimmed to the converted lanes, and the other forms move lane patterns. -/
theorem vectorMoves : Obligations.VectorMoves := ⟨vectorConverts, lanesMove⟩

/-! ### The integers that lanes hold (R62, R63) -/

theorem Fmt.two_pow_width (f : Fmt) : (2 : Int) ^ f.width = 2 * 2 ^ (f.width - 1) := by cases f <;> rfl

/-- The integer of a pattern lies in the range of its format. -/
theorem decodeI_mem (f : Fmt) (x : Nat) : f.imin ≤ decodeI f x ∧ decodeI f x ≤ f.imax := by
  have hlt : x % 2 ^ f.width < 2 ^ f.width := Nat.mod_lt _ (Nat.two_pow_pos _)
  have hw := Fmt.two_pow_width f
  zify at hlt
  unfold decodeI Fmt.imin Fmt.imax
  cases hs : f.signed
  · simp
    omega
  · by_cases hb : 2 ^ (f.width - 1) ≤ x % 2 ^ f.width <;> simp [hb] <;> zify at hb <;> omega

/-- An integer in the range of its format, from its pattern. -/
theorem decodeI_wrapI {f : Fmt} {y : Int} (h1 : f.imin ≤ y) (h2 : y ≤ f.imax) : decodeI f (wrapI f y) = y := by
  have hw := Fmt.two_pow_width f
  have hpos : (0 : Int) < 2 ^ (f.width - 1) := by positivity
  have hmod : (wrapI f y % 2 ^ f.width : Nat) = y % (2 : Int) ^ f.width := by
    rw [wrapI, wrapN, Int.natCast_emod, Int.toNat_of_nonneg (Int.emod_nonneg _ (by positivity))]
    simp
  unfold Fmt.imin at h1
  unfold Fmt.imax at h2
  unfold decodeI
  cases hs : f.signed
  · simp only [hs, Bool.false_eq_true, if_false] at h1 h2
    simp only [Bool.false_and, Bool.false_eq_true, if_false, hmod]
    exact Int.emod_eq_of_lt h1 (by omega)
  · simp only [hs, if_true] at h1 h2
    have hle : (2 ^ (f.width - 1) ≤ wrapI f y % 2 ^ f.width) ↔ (2 : Int) ^ (f.width - 1) ≤ y % 2 ^ f.width := by
      rw [← hmod]
      norm_cast
    simp only [Bool.true_and, decide_eq_true_eq, hle, hmod]
    rcases lt_or_ge y 0 with hy | hy
    · have he : y % (2 : Int) ^ f.width = y + 2 ^ f.width := by
        rw [← Int.add_emod_right]
        exact Int.emod_eq_of_lt (by omega) (by omega)
      rw [he, if_pos (by omega)]
      omega
    · rw [Int.emod_eq_of_lt hy (by omega), if_neg (by omega)]

theorem wrapI_lt (f : Fmt) (y : Int) : wrapI f y < 2 ^ f.width := by
  have h := Int.emod_lt_of_pos y (b := 2 ^ f.width) (by positivity)
  rw [wrapI, wrapN, Int.toNat_lt (Int.emod_nonneg _ (by positivity))]
  exact_mod_cast h

theorem lane_lt (x : VWord) (w i : Nat) : lane x w i < 2 ^ w := Nat.mod_lt _ (Nat.two_pow_pos _)

/-- A result without a flag whose pattern holds an integer. -/
structure Holds (f : Fmt) (r : Nat × Fl) (y : Int) : Prop where
  val  : decodeI f r.1 = y
  lt   : r.1 < 2 ^ f.width
  none : r.2 = 0

theorem holds_wrapI {f : Fmt} {y : Int} (h1 : f.imin ≤ y) (h2 : y ≤ f.imax) : Holds f (wrapI f y, flNone) y :=
  ⟨decodeI_wrapI h1 h2, wrapI_lt f y, rfl⟩

theorem holds_lane (f : Fmt) (x : VWord) (j : Nat) : Holds f (lane x f.width j, flNone) (decodeI f (lane x f.width j)) :=
  ⟨rfl, lane_lt .., rfl⟩

theorem holds_intRes (f : Fmt) (sat : Bool) (y : Int) : Holds f (intRes f sat y, flNone) (decodeI f (delivered f sat y)) := by
  refine ⟨by rw [intRes_eq_delivered], ?_, rfl⟩
  cases sat <;> exact wrapI_lt ..

/-- An integer in a general register, extended as its format says (R283). -/
def intExt (f : Fmt) (z : Int) : Word := if f.signed then BitVec.ofInt 64 z else BitVec.ofNat 64 z.toNat

theorem Holds.extLane {f : Fmt} {r : Nat × Fl} {y : Int} (h : Holds f r y) : extLane f r.1 = intExt f y := by
  obtain ⟨rfl, hlt, -⟩ := h
  simp only [Machine.extLane, intExt, decodeI, Nat.mod_eq_of_lt hlt, toSigned]
  cases f.signed <;> simp

/-! ### Reductions (R84, R283) -/

/-- A running result with the flags of its steps. -/
def runFold (next : Nat → Nat → Nat × Fl) (l : List Nat) (u : Nat × Fl) : Nat × Fl :=
  l.foldl (fun u k => ((next u.1 k).1, u.2 ||| (next u.1 k).2)) u

/-- What a reduction over the lanes of a list comes to, and where there are none. -/
def redFold (empty : Nat) (first : Nat → Nat × Fl) (next : Nat → Nat → Nat × Fl) : List Nat → Nat × Fl
  | [] => (empty, flNone)
  | j :: t => runFold next t (first j)

section
variable {f : Fmt} {first : Nat → Nat × Fl} {next : Nat → Nat → Nat × Fl}

theorem foldl_redStep_some (l : List Nat) (u : Nat × Fl) (nan : Option Nat) : let r := l.foldl (redStep f first next) ⟨some u.1, u.2, nan⟩
    r.val = some (runFold next l u).1 ∧ r.fl = (runFold next l u).2 := by
  induction l generalizing u nan with
  | nil => exact ⟨rfl, rfl⟩
  | cons k t ih => exact ih ((next u.1 k).1, u.2 ||| (next u.1 k).2) _

theorem foldl_redStep (l : List Nat) (empty : Nat) : let r := l.foldl (redStep f first next) ⟨none, flNone, none⟩
    r.val.getD empty = (redFold empty first next l).1 ∧ r.fl = (redFold empty first next l).2 := by
  cases l with
  | nil => exact ⟨rfl, rfl⟩
  | cons j t =>
    have hfl : flNone ||| (first j).2 = (first j).2 := by simp [flNone]
    obtain ⟨hv, hf⟩ := foldl_redStep_some (f := f) (first := first) (next := next) t (first j) (if isNaNPat f (first j).1 then some j else none)
    simp only [List.foldl_cons, redStep, hfl, Option.isNone_none, Bool.true_and]
    exact ⟨by rw [hv]; rfl, hf⟩

/-- A format without a NaN leaves no lane of one. -/
theorem foldl_redStep_nan (hno : ∀ x, isNaNPat f x = false) (l : List Nat) {r : RedSt} (hr : r.nan = none) :
    (l.foldl (redStep f first next) r).nan = none := by
  induction l generalizing r with
  | nil => exact hr
  | cons j t ih => exact ih (by simp [redStep, hno, hr])

variable {i : Instr} {s : State} {d : GReg} {q : KReg} {empty tfmt : Nat} (hs : Steady s) (h0 : s.me.vstart = 0)
include hs h0

/-- Where no NaN stops it, a reduction completes with its result in the register. -/
theorem completes_reduce {z : Nat × Fl} (hn : NanFree s f) (hx : exec i s = reduce d q f tfmt empty first next s)
    (hz : redFold empty first next (s.actLanes q f.width (lanesOf f)) = z) : Completes i s ((s.me.flagged z.2).putG d (extLane f z.1)) := by
  obtain ⟨hv, hf⟩ := foldl_redStep (f := f) (first := first) (next := next) (s.actLanes q f.width (lanesOf f)) empty
  rw [hz] at hv hf
  refine completes_of_flags (P := s.parts) (f := fun x => x.putG d (extLane f z.1)) hs (hx.trans ?_) (Ctx.onward_putG ..)
  rw [reduce, vecRun_zero h0]
  simp only [hv, hf]
  split
  · next k hk =>
    rcases hn with ht | hno
    · simp only [ht, Bool.false_eq_true, if_false]
      rfl
    · rw [foldl_redStep_nan hno _ rfl] at hk
      cases hk
  · rfl

/-- A reduction of integers gives the register what the fold of its steps holds. -/
theorem gives_reduce_int {G : Int → Nat → Int} {z0 : Int} (hi : f.isInt = true) (hx : exec i s = reduce d q f tfmt empty first next s)
    (hempty : Holds f (empty, flNone) z0) (hfirst : ∀ j, Holds f (first j) (G z0 j)) (hnext : ∀ u k, Holds f (next u k) (G (decodeI f u) k)) :
    Gives i s d (intExt f ((s.actLanes q f.width (lanesOf f)).foldl G z0)) := by
  have hrun : ∀ (l : List Nat) (u : Nat × Fl) (z : Int), Holds f u z → Holds f (runFold next l u) (l.foldl G z) := by
    intro l
    induction l with
    | nil => exact fun u z h => h
    | cons k t ih =>
      intro u z h
      obtain ⟨hval, hlt, hfl⟩ := hnext u.1 k
      rw [h.val] at hval
      exact ih _ _ ⟨hval, hlt, by simp [h.none, hfl]⟩
  have hz : Holds f (redFold empty first next (s.actLanes q f.width (lanesOf f))) ((s.actLanes q f.width (lanesOf f)).foldl G z0) := by
    cases s.actLanes q f.width (lanesOf f) with
    | nil => exact hempty
    | cons j t => exact hrun t _ _ (hfirst j)
  have h := completes_reduce hs h0 (.inr (isNaNPat_of_isInt hi)) hx rfl
  rwa [hz.none, hz.extLane, Ctx.flagged_zero] at h

end

theorem arith2_int {f : Fmt} (h : f.isInt = true) (fl : FV → FV → Nat × Fl) (int : Int → Int → Nat) (x y : Nat) :
    arith2 f fl int x y = (int (decodeI f x) (decodeI f y), flNone) := by
  simp [arith2, h]

theorem decodeI_delivered {f : Fmt} {y : Int} (h1 : f.imin ≤ y) (h2 : y ≤ f.imax) (sat : Bool) : decodeI f (delivered f sat y) = y := by
  have hc : (if sat then max f.imin (min f.imax y) else y) = y := by
    cases sat
    · rfl
    · simp [h1, h2]
  rw [delivered, hc]
  exact decodeI_wrapI h1 h2

theorem holds_zero (f : Fmt) : Holds f (0, flNone) 0 := ⟨by simp [decodeI], Nat.two_pow_pos _, rfl⟩

section
variable {f : Fmt} (hi : f.isInt = true)
include hi

theorem holds_firstLane (x : VWord) (j : Nat) : Holds f (firstLane f (lane x f.width j)) (decodeI f (lane x f.width j)) := by
  rw [firstLane, if_pos hi]
  exact holds_lane ..

theorem holds_laneAdd (m : Mode) (sat : Bool) (u x : Nat) :
    Holds f (laneAdd f m sat u x) (decodeI f (delivered f sat (decodeI f u + decodeI f x))) := by
  rw [laneAdd, arith2_int hi]
  exact holds_intRes ..

theorem holds_laneMul (m : Mode) (sat : Bool) (u x : Nat) :
    Holds f (laneMul f m sat u x) (decodeI f (delivered f sat (decodeI f u * decodeI f x))) := by
  rw [laneMul, arith2_int hi]
  exact holds_intRes ..

theorem holds_dotNext (m : Mode) (sat : Bool) (u x y : Nat) :
    Holds f (dotNext f m sat u x y) (decodeI f (delivered f sat (decodeI f u + decodeI f x * decodeI f y))) := by
  rw [dotNext, if_pos hi]
  exact holds_intRes ..

theorem holds_laneMinMax (big : Bool) (u x : Nat) :
    Holds f (laneMinMax f big u x) (if big then max (decodeI f u) (decodeI f x) else min (decodeI f u) (decodeI f x)) := by
  have hu := decodeI_mem f u
  have hx := decodeI_mem f x
  rw [laneMinMax, arith2_int hi]
  simp only [← max_def, ← min_def]
  refine holds_wrapI ?_ ?_ <;> split <;> omega

theorem holds_emptyMinMax (big : Bool) : Holds f (emptyMinMax f big, flNone) (if big then f.imin else f.imax) := by
  have h := Fmt.imin_le_imax f
  rw [emptyMinMax, if_pos hi]
  cases big
  · exact holds_wrapI h (Int.le_refl _)
  · exact holds_wrapI (Int.le_refl _) h

end

section
variable {f : Fmt} (hf : f.isArithFloat = true)
include hf

theorem extLane_float (v : Nat) : extLane f v = BitVec.ofNat 64 v := by
  have hs : f.signed = false := by cases f <;> simp_all [Fmt.isArithFloat, Fmt.signed]
  simp [extLane, hs]

theorem firstLane_float (x : Nat) : firstLane f x = ((roundF f .rne (decodeF f x)).1, (roundF f .rne (decodeF f x)).2 ||| (decodeF f x).snv) := by
  rw [firstLane, Fmt.isInt_of_isArithFloat hf]
  rfl

theorem dotNext_float (m : Mode) (sat : Bool) (u x y : Nat) : dotNext f m sat u x y = fFma f m (decodeF f x) (decodeF f y) (decodeF f u) := by
  rw [dotNext, Fmt.isInt_of_isArithFloat hf]
  rfl

end

theorem reductions_int (s : State) (d : GReg) (q : KReg) (a b : VReg) (f : Fmt) (rm : Rm) (sat : Bool) (hs : Steady s) (h0 : s.me.vstart = 0)
    (hi : f.isInt = true) : let l := s.actLanes q f.width (lanesOf f)
    let x := fun j => decodeI f (lane (s.v a) f.width j)
    let y := fun j => decodeI f (lane (s.v b) f.width j)
    let step := fun (z : Int) => decodeI f (delivered f sat z)
    Gives (.vredSum d q a f rm sat) s d (intExt f (l.foldl (fun z j => step (z + x j)) 0)) ∧
    Gives (.vdot d q a b f rm sat) s d (intExt f (l.foldl (fun z j => step (z + x j * y j)) 0)) ∧
    Gives (.vredMin d q a f rm sat) s d (intExt f (l.foldl (fun z j => min z (x j)) f.imax)) ∧
    Gives (.vredMax d q a f rm sat) s d (intExt f (l.foldl (fun z j => max z (x j)) f.imin)) := by
  intro l x y step
  have hx := fun j => decodeI_mem f (lane (s.v a) f.width j)
  have hfirst := holds_firstLane hi (s.v a)
  refine ⟨gives_reduce_int hs h0 hi rfl (holds_zero f) (fun j => ?_) (fun _ _ => holds_laneAdd hi ..),
    gives_reduce_int hs h0 hi rfl (holds_zero f) (fun j => ?_) (fun _ _ => holds_dotNext hi ..),
    gives_reduce_int hs h0 hi rfl (holds_emptyMinMax hi false) (fun j => ?_) (fun _ _ => holds_laneMinMax hi false ..),
    gives_reduce_int hs h0 hi rfl (holds_emptyMinMax hi true) (fun j => ?_) (fun _ _ => holds_laneMinMax hi true ..)⟩
  · rw [Int.zero_add]
    have hstep : step (x j) = x j := decodeI_delivered (hx j).1 (hx j).2 sat
    rw [hstep]
    exact hfirst j
  · rw [Int.zero_add]
    exact holds_laneMul hi ..
  · exact (min_eq_right (hx j).2).symm ▸ hfirst j
  · exact (max_eq_right (hx j).1).symm ▸ hfirst j

/-- A reduction of floats gives the register the pattern of its last step, and FCSR the flags of all. -/
theorem completes_reduce_float {i : Instr} {s : State} {d : GReg} {q : KReg} {f : Fmt} {tfmt empty empty' : Nat} {first first' : Nat → Nat × Fl}
    {next next' : Nat → Nat → Nat × Fl} (hs : Steady s) (h0 : s.me.vstart = 0) (hf : f.isArithFloat = true) (ht : fcsrNanTrap s.me.fcsr = false)
    (hx : exec i s = reduce d q f tfmt empty first next s) (hempty : empty = empty') (hfirst : ∀ j, first j = first' j)
    (hnext : ∀ u k, next u k = next' u k) : let z := redFold empty' first' next' (s.actLanes q f.width (lanesOf f))
    Completes i s ((s.me.flagged z.2).putG d (BitVec.ofNat 64 z.1)) := by
  obtain rfl := hempty
  obtain rfl : first = first' := funext hfirst
  obtain rfl : next = next' := funext fun u => funext (hnext u)
  intro z
  rw [← extLane_float hf]
  exact completes_reduce hs h0 (.inl ht) hx rfl

theorem reductions_float (s : State) (d : GReg) (q : KReg) (a b : VReg) (f : Fmt) (rm : Rm) (sat : Bool) (hs : Steady s) (h0 : s.me.vstart = 0)
    (hf : f.isArithFloat = true) (ht : fcsrNanTrap s.me.fcsr = false) : let l := s.actLanes q f.width (lanesOf f)
    let x := fun j => decodeF f (lane (s.v a) f.width j)
    let y := fun j => decodeF f (lane (s.v b) f.width j)
    let m := effRm s.me.fcsr rm
    let one := fun j => ((roundF f .rne (x j)).1, (roundF f .rne (x j)).2 ||| (x j).snv)
    let gives := fun (i : Instr) (z : Nat × Fl) => Completes i s ((s.me.flagged z.2).putG d (BitVec.ofNat 64 z.1))
    gives (.vredSum d q a f rm sat) (redFold 0 one (fun u k => fAdd f m (decodeF f u) (x k)) l) ∧
    gives (.vredMin d q a f rm sat) (redFold f.qnan one (fun u k => fMinMax f false (decodeF f u) (x k)) l) ∧
    gives (.vredMax d q a f rm sat) (redFold f.qnan one (fun u k => fMinMax f true (decodeF f u) (x k)) l) ∧
    gives (.vdot d q a b f rm sat) (redFold 0 (fun j => fMul f m (x j) (y j)) (fun u k => fFma f m (x k) (y k) (decodeF f u)) l) := by
  intro l x y m one gives
  have hempty : ∀ big, emptyMinMax f big = f.qnan := fun big => by simp [emptyMinMax, Fmt.isInt_of_isArithFloat hf]
  refine ⟨?sum, ?min, ?max, ?dot⟩
  case sum => exact completes_reduce_float hs h0 hf ht rfl rfl (fun _ => firstLane_float hf _) (fun _ _ => arith2_float hf ..)
  case min => exact completes_reduce_float hs h0 hf ht rfl (hempty false) (fun _ => firstLane_float hf _) (fun _ _ => arith2_float hf ..)
  case max => exact completes_reduce_float hs h0 hf ht rfl (hempty true) (fun _ => firstLane_float hf _) (fun _ _ => arith2_float hf ..)
  case dot => exact completes_reduce_float hs h0 hf ht rfl rfl (fun _ => arith2_float hf ..) (fun _ _ => dotNext_float hf ..)

/-- Settles O25: a reduction is a fold over the active lanes; each integer step keeps the integer that its pattern holds, each float step is one rounding. -/
theorem vectorReductions : Obligations.VectorReductions := by
  intro s d q a b f rm sat hs h0
  exact ⟨reductions_int s d q a b f rm sat hs h0, reductions_float s d q a b f rm sat hs h0⟩

end Sys2Proof.Machine
end

section
/-!
SUPPORT. The number formats (R64-R70): the fields of a pattern, the rounding of a magnitude that needs none, and O22 from it.
-/

namespace Sys2Proof.Machine

/-! ### Fields of a pattern (R64) -/

/-- What the formats of R64 have in common. -/
structure Fmt.Shape (f : Fmt) : Prop where
  width   : f.width = f.frac + f.expBits + 1
  expBits : 2 ≤ f.expBits
  bias    : f.bias = 2 ^ (f.expBits - 1) - 1

theorem Fmt.shape {f : Fmt} (h : f.isFloat = true) : Fmt.Shape f := by
  cases f <;> simp_all [Fmt.isFloat] <;> exact ⟨rfl, by decide, rfl⟩

section
variable {f : Fmt} (hf : Fmt.Shape f)
include hf

/-- The greatest exponent field is one more than twice the bias. -/
theorem Fmt.Shape.emax : (2 : Int) ^ f.expBits - 1 = 2 * f.bias + 1 := by
  obtain ⟨n, hn⟩ := Nat.exists_eq_add_of_le hf.expBits
  rw [hf.bias, hn, show 2 + n - 1 = n + 1 by omega]
  ring

theorem Fmt.Shape.bias_pos : 0 < f.bias := by
  have h : (2 : Int) ^ 1 ≤ 2 ^ (f.expBits - 1) := pow_le_pow_right₀ (by decide) (by have := hf.expBits; omega)
  rw [hf.bias]
  omega

/-- A pattern put together from its sign, its exponent field and its fraction. -/
theorem packF_fields {x : Nat} (hx : x < 2 ^ f.width) :
    packF f ((x >>> (f.width - 1)) % 2 == 1) ((x >>> f.frac) % 2 ^ f.expBits) (x % 2 ^ f.frac) = x := by
  have hw : f.width - 1 = f.frac + f.expBits := by have := hf.width; omega
  have hs : x / 2 ^ (f.width - 1) < 2 := by
    rw [Nat.div_lt_iff_lt_mul (Nat.two_pow_pos _), ← Nat.pow_succ', show (f.width - 1).succ = f.width by have := hf.width; omega]
    exact hx
  have hsplit : x / 2 ^ f.frac / 2 ^ f.expBits = x / 2 ^ (f.width - 1) := by rw [Nat.div_div_eq_div_mul, ← Nat.pow_add, hw]
  have h1 := Nat.div_add_mod x (2 ^ f.frac)
  have h2 := Nat.div_add_mod (x / 2 ^ f.frac) (2 ^ f.expBits)
  have h3 : 2 ^ (f.width - 1) = 2 ^ f.frac * 2 ^ f.expBits := by rw [hw, Nat.pow_add]
  rw [hsplit] at h2
  simp only [packF, Nat.shiftRight_eq_div_pow, Nat.mod_eq_of_lt hs]
  generalize x / 2 ^ (f.width - 1) = t at *
  generalize x / 2 ^ f.frac % 2 ^ f.expBits = e at *
  generalize x % 2 ^ f.frac = r at *
  rw [← h1, ← h2, h3]
  obtain rfl | rfl : t = 0 ∨ t = 1 := by omega
  · simp [Nat.mul_comm]
  · simp
    ring

end

/-! ### Rounding without a remainder (R68-R70) -/

theorem roundTo_exact (mode : Mode) (s : Bool) (m : Nat) {e u : Int} (h : u ≤ e) : roundTo mode s m e u false = (m <<< (e - u).toNat, false) := by
  rw [roundTo, if_neg (Int.not_lt.2 h)]

theorem bitLen_of_bounds {m n : Nat} (h1 : 2 ^ n ≤ m) (h2 : m < 2 ^ (n + 1)) : bitLen m = n + 1 := by
  have hm : m ≠ 0 := by have := Nat.two_pow_pos n; omega
  rw [bitLen, if_neg hm, (Nat.log2_eq_iff hm).2 ⟨h1, h2⟩]

theorem lt_two_pow_bitLen (m : Nat) : m < 2 ^ bitLen m := by
  unfold bitLen
  split
  · next h => simp [h]
  · exact Nat.lt_log2_self

theorem bitLen_le {m n : Nat} (h : m < 2 ^ n) : bitLen m ≤ n := by
  unfold bitLen
  split
  · exact Nat.zero_le n
  · next hm => exact (Nat.log2_lt hm).2 h

theorem bitLen_pos {m : Nat} (h : m ≠ 0) : 0 < bitLen m := by simp [bitLen, h]

/-- A magnitude shifted to a length. -/
theorem shiftLeft_bitLen_lt {m n : Nat} (h : bitLen m ≤ n) : m <<< (n - bitLen m) < 2 ^ n := by
  have hlt : m * 2 ^ (n - bitLen m) < 2 ^ bitLen m * 2 ^ (n - bitLen m) := Nat.mul_lt_mul_of_pos_right (lt_two_pow_bitLen m) (Nat.two_pow_pos _)
  rwa [← Nat.pow_add, Nat.add_sub_cancel' h, ← Nat.shiftLeft_eq] at hlt

/-- A magnitude of no more bits than the format has is rounded once at most, at the unit of the subnormals. -/
theorem roundMag_of_fits {f : Fmt} {m : Nat} {e top : Int} (mode : Mode) (s : Bool) (h0 : m ≠ 0) (hlen : bitLen m ≤ f.frac + 1)
    (htop : top = e + bitLen m - 1) (hmax : top ≤ if f == .f8a then 8 else f.bias)
    (h8 : f = .f8a → top = 8 → m <<< (f.frac + 1 - bitLen m) ≠ 15) : roundMag f mode s m e false =
      if top < 1 - f.bias then
        let r := roundTo mode s m e (1 - f.bias - f.frac) false
        (packF f s 0 0 + r.1, if r.2 then flUF ||| flNX else flNone)
      else (packF f s (top + f.bias).toNat (m <<< (f.frac + 1 - bitLen m) - 2 ^ f.frac), flNone) := by
  have hu : top - f.frac ≤ e := by omega
  have hsh : (e - (top - f.frac)).toNat = f.frac + 1 - bitLen m := by omega
  have hq := (shiftLeft_bitLen_lt hlen).ne
  have hovf : (decide ((if f == .f8a then 8 else f.bias) < top) ||
      (f == .f8a && decide (top = 8) && m <<< (f.frac + 1 - bitLen m) == 15)) = false := by
    rw [Bool.or_eq_false_iff]
    exact ⟨decide_eq_false (Int.not_lt.2 hmax), by simpa using h8⟩
  rw [roundMag, if_neg h0]
  simp only [← htop, roundTo_exact mode s m hu, hsh, hq, decide_false, Bool.false_eq_true, if_false, Bool.not_false, Bool.and_true, hovf]
  split
  · rfl
  · rfl

/-- A subnormal value. -/
theorem roundMag_subnormal {f : Fmt} (hf : Fmt.Shape f) (mode : Mode) (s : Bool) {m : Nat} (h0 : m ≠ 0) (hm : m < 2 ^ f.frac) :
    roundMag f mode s m (1 - f.bias - f.frac) false = (packF f s 0 m, flNone) := by
  have hlen := bitLen_le hm
  have hpos := bitLen_pos h0
  have hbias := hf.bias_pos
  have hlow : 1 - f.bias - f.frac + bitLen m - 1 < 1 - f.bias := by omega
  rw [roundMag_of_fits mode s h0 (by omega) rfl (by split <;> omega) (fun _ _ => by omega), if_pos hlow, roundTo_exact mode s m (Int.le_refl _)]
  simp [packF]

/-- A normal value, whose exponent field is no greater than the format's greatest. -/
theorem roundMag_normal {f : Fmt} (mode : Mode) (s : Bool) {m e : Nat} (h1 : 2 ^ f.frac ≤ m) (h2 : m < 2 ^ (f.frac + 1)) (he : 1 ≤ e)
    (hmax : (e : Int) - f.bias ≤ if f == .f8a then 8 else f.bias) (h8 : f = .f8a → e = 15 → m ≠ 15) :
    roundMag f mode s m (e - f.bias - f.frac) false = (packF f s e (m - 2 ^ f.frac), flNone) := by
  have hlen := bitLen_of_bounds h1 h2
  have h0 : m ≠ 0 := by have := Nat.two_pow_pos f.frac; omega
  have htop : (e : Int) - f.bias = e - f.bias - f.frac + bitLen m - 1 := by omega
  rw [roundMag_of_fits mode s h0 (by omega) htop hmax (fun hf h => ?_), if_neg (by omega)]
  · simp [hlen]
  · simp only [hlen, Nat.sub_self, Nat.shiftLeft_zero]
    subst hf
    exact h8 rfl (by simp only [Fmt.bias] at h; omega)

/-! ### Patterns rounded (R64-R69) -/

/-- The value of a sign, an exponent field and a fraction (R65, R66). -/
def valueOf (f : Fmt) (s : Bool) (e fr : Nat) : FV :=
  if e = 0 then .fin s fr (1 - f.bias - f.frac)
  else if e = 2 ^ f.expBits - 1 && f == .f8a then (if fr = 7 then .nan false else .fin s (8 + fr) (e - f.bias - f.frac))
  else if e = 2 ^ f.expBits - 1 then (if fr = 0 then .inf s else .nan (decide (fr < 2 ^ (f.frac - 1))))
  else .fin s (2 ^ f.frac + fr) (e - f.bias - f.frac)

theorem decodeF_eq_valueOf (f : Fmt) (x : Nat) :
    decodeF f x = valueOf f ((x >>> (f.width - 1)) % 2 == 1) ((x >>> f.frac) % 2 ^ f.expBits) (x % 2 ^ f.frac) := rfl

/-- Rounding the value of fields gives the pattern of the fields. -/
theorem roundF_valueOf {f : Fmt} (hf : Fmt.Shape f) (mode : Mode) (s : Bool) {e fr : Nat} (he : e < 2 ^ f.expBits) (hfr : fr < 2 ^ f.frac)
    (hnan : (valueOf f s e fr).isNaN = false) : roundF f mode (valueOf f s e fr) = (packF f s e fr, flNone) := by
  unfold valueOf at hnan ⊢
  split
  case isTrue h0 =>
    subst h0
    by_cases hz : fr = 0
    · subst hz
      rfl
    · exact roundMag_subnormal hf mode s hz hfr
  case isFalse h0 =>
    rw [if_neg h0] at hnan
    have hnormal : ∀ m, m = 2 ^ f.frac + fr → ((e : Int) - f.bias ≤ if f == .f8a then 8 else f.bias) → (f = .f8a → e = 15 → m ≠ 15) →
        roundF f mode (.fin s m (e - f.bias - f.frac)) = (packF f s e fr, flNone) := fun m hm hmax h8 => by
      rw [roundF, roundMag_normal mode s (by omega) (by rw [Nat.pow_succ]; omega) (by omega) hmax h8, hm, Nat.add_sub_cancel_left]
    split
    case isTrue h8 =>
      simp only [Bool.and_eq_true, decide_eq_true_eq, beq_iff_eq] at h8
      obtain ⟨rfl, rfl⟩ := h8
      have h7 : fr ≠ 7 := fun h => by simp [h] at hnan; cases hnan
      rw [if_neg h7]
      exact hnormal (8 + fr) rfl (by decide) (fun _ _ => by omega)
    case isFalse h8 =>
      rw [if_neg h8] at hnan
      split
      case isTrue hmax =>
        subst hmax
        have hf8 : (f == .f8a) = false := by simpa using h8
        have h0 : fr = 0 := by
          by_contra hne
          simp [hne, FV.isNaN] at hnan
        simp [h0, roundF, infF, hf8]
      case isFalse hmax =>
        have hemax := hf.emax
        have hlt : e + 1 < 2 ^ f.expBits := by omega
        zify at hlt
        refine hnormal _ rfl ?_ (fun h h15 => ?_)
        · split
          · next h =>
            obtain rfl : f = .f8a := by simpa using h
            simp only [Fmt.bias] at hemax ⊢
            omega
          · omega
        · subst h
          exact absurd h15 hmax

/-- Settles O22: a pattern's value has no more bits than its format, so each rounding drops nothing, and the fields go back where they were. -/
theorem roundingIsExactOnValues : Obligations.RoundingIsExactOnValues := by
  intro f mode x hfl hx hnan
  have hf := Fmt.shape hfl
  rw [decodeF_eq_valueOf] at hnan ⊢
  rw [roundF_valueOf hf mode _ (Nat.mod_lt _ (Nat.two_pow_pos _)) (Nat.mod_lt _ (Nat.two_pow_pos _)) hnan, packF_fields hf hx]

end Sys2Proof.Machine
end

section
/-!
SUPPORT. Decoding after encoding (R94-R105), and O58 and O60 from it: the fields of a head and its tail come back from the words that they are put
into, each operand comes back from its field, and so each family's decoder answers the instruction that was encoded.
-/

namespace Sys2Proof

/-! ### Fields of a word put together (R95, R96) -/

theorem field_append_high {v w lo : Nat} (x : BitVec v) (y : BitVec w) (n : Nat) (h : w ≤ lo) : field (x ++ y) lo n = field x (lo - w) n := by
  simp [field, BitVec.extractLsb'_append_eq_ite, Nat.not_lt.2 h]

theorem field_append_low {v w lo n : Nat} (x : BitVec v) (y : BitVec w) (h : lo + n ≤ w) : field (x ++ y) lo n = field y lo n := by
  rw [field, BitVec.extractLsb'_append_eq_of_add_le h]; rfl

theorem field_setWidth {w k lo n : Nat} (x : BitVec w) (h : lo + n ≤ k) : field (x.setWidth k) lo n = field x lo n := by
  simp [field, BitVec.extractLsb'_setWidth_of_le h]

@[simp] theorem field_full {w : Nat} (x : BitVec w) : field x 0 w = x := by simp [field]

theorem field_zero {w n : Nat} (x : BitVec w) : field x 0 n = x.setWidth n := BitVec.eq_of_toNat_eq (by simp [field])

theorem bitsNat_eq_toNat_field {w : Nat} (x : BitVec w) (lo n : Nat) : bitsNat x lo n = (field x lo n).toNat := by
  simp [bitsNat, field]

theorem getElem_of_field {w lo : Nat} {x : BitVec w} {b : Bool} (h : field x lo 1 = BitVec.ofBool b) (hlo : lo < w) : x[lo] = b := by
  simpa [field, BitVec.getLsbD_eq_getElem hlo] using congrArg (fun y => y.getLsbD 0) h

section
variable {k l m n : Nat} (w : BitVec k) (x : BitVec l) (y : BitVec m) (z : BitVec n)

theorem fields_append : field (w ++ x) l k = w ∧ field (w ++ x) 0 l = x :=
  ⟨by simp [field_append_high], by simp [field_append_low]⟩

theorem fields_append3 : field (w ++ x ++ y) (m + l) k = w ∧ field (w ++ x ++ y) m l = x ∧ field (w ++ x ++ y) 0 m = y := by
  refine ⟨?_, ?_, (fields_append _ y).2⟩
  · rw [field_append_high _ _ _ (Nat.le_add_right ..), Nat.add_sub_cancel_left]; exact (fields_append w x).1
  · rw [field_append_high _ _ _ le_rfl, Nat.sub_self]; exact (fields_append w x).2

theorem fields_append4 : field (w ++ x ++ y ++ z) (n + (m + l)) k = w ∧ field (w ++ x ++ y ++ z) (n + m) l = x ∧
    field (w ++ x ++ y ++ z) n m = y ∧ field (w ++ x ++ y ++ z) 0 n = z := by
  obtain ⟨hw, hx, hy⟩ := fields_append3 w x y
  refine ⟨?_, ?_, ?_, (fields_append _ z).2⟩
  · rw [field_append_high _ _ _ (Nat.le_add_right ..), Nat.add_sub_cancel_left, hw]
  · rw [field_append_high _ _ _ (Nat.le_add_right ..), Nat.add_sub_cancel_left, hx]
  · rw [field_append_high _ _ _ le_rfl, Nat.sub_self, hy]

end

/-! ### Heads and tails (R95, R96) -/

/-- What a form carries of the fields: those that it lacks read 0, and the immediate is cut to its width. -/
def Fields.keep (x : Fields) : Form → Fields
  | .none => { x with a := 0, b := 0, f := 0, imm := 0 }
  | .t16 => { x with imm := 0 }
  | .t32 => { x with imm := (x.imm.setWidth 16).setWidth 64 }
  | .t32j => { x with b := 0, f := 0, imm := (x.imm.setWidth 27).setWidth 64 }
  | .t64 => { x with imm := (x.imm.setWidth 48).setWidth 64 }
  | .imm => { x with a := 0, b := 0, f := 0 }

theorem fields_joinHead (x : Fields) :
    field (joinHead x) 10 6 = x.op ∧ field (joinHead x) 8 2 = x.tl ∧ field (joinHead x) 3 5 = x.d ∧ field (joinHead x) 0 3 = x.q :=
  fields_append4 x.op x.tl x.d x.q

theorem splitFields_join (fm : Form) (x : Fields) : splitFields fm (joinHead x) (joinTail fm x) = x.keep fm := by
  obtain ⟨hop, htl, hd, hq⟩ := fields_joinHead x
  cases fm <;> simp only [splitFields, joinTail, Fields.keep, hop, htl, hd, hq, field_setWidth, Nat.reduceAdd, Nat.reduceLeDiff, Fields.mk.injEq,
    true_and, and_true]
  case t16 => exact fields_append3 x.a x.b x.f
  case t32 =>
    obtain ⟨ha, hb, hf, hi⟩ := fields_append4 x.a x.b x.f (x.imm.setWidth 16)
    exact ⟨ha, hb, hf, congrArg _ hi⟩
  case t32j =>
    obtain ⟨ha, hi⟩ := fields_append x.a (x.imm.setWidth 27)
    exact ⟨ha, congrArg _ hi⟩
  case t64 =>
    obtain ⟨ha, hb, hf, hi⟩ := fields_append4 x.a x.b x.f (x.imm.setWidth 48)
    exact ⟨ha, hb, hf, congrArg _ hi⟩

/-! ### From an instruction to its words and back -/

/-- What decodes to an instruction: fields that the encoder gives it, that their form carries, and that the decoder reads back. -/
structure RoundTrip (i : Instr) (x : Fields) (fm : Form) : Prop where
  encodes : encodeFields i = some x
  form    : formOf x.op.toNat x.tl.toNat = some fm
  kept    : x.keep fm = x
  decodes : decodeFields x = some (i, true)

theorem RoundTrip.decode_encode {i : Instr} {x : Fields} {fm : Form} (h : RoundTrip i x fm) (hw : i.wf = true) :
    ∃ hd t n, encode i = some (hd, t, n) ∧ decode hd t = .ok i := by
  refine ⟨joinHead x, joinTail fm x, tailLen x.tl.toNat, by simp only [encode, h.encodes, h.form], ?_⟩
  obtain ⟨hop, htl, -, -⟩ := fields_joinHead x
  simp only [decode, bitsNat_eq_toNat_field, hop, htl, h.form, splitFields_join, h.kept, h.decodes, hw, if_true]

/-- Some form carries the instruction there and back. -/
def Instr.ReadsBack (i : Instr) : Prop := ∃ x fm, RoundTrip i x fm

section
variable {i : Instr} {op : BitVec 6} {d a b : BitVec 5} {q : BitVec 3} {f : BitVec 6}

theorem Instr.ReadsBack.t16 (he : encodeFields i = some (e16 op d q a b f)) (hf : formOf op.toNat 1 = some .t16)
    (hd : decodeFields (e16 op d q a b f) = some (i, true)) : i.ReadsBack :=
  ⟨_, _, he, hf, rfl, hd⟩

theorem Instr.ReadsBack.t32 {n : BitVec 16} (he : encodeFields i = some (e32 op d q a b f n)) (hf : formOf op.toNat 2 = some .t32)
    (hd : decodeFields (e32 op d q a b f n) = some (i, true)) : i.ReadsBack :=
  ⟨_, _, he, hf, by simp [Fields.keep, e32], hd⟩

theorem Instr.ReadsBack.t64 {n : BitVec 48} (he : encodeFields i = some (e64 op d q a b f n)) (hf : formOf op.toNat 3 = some .t64)
    (hd : decodeFields (e64 op d q a b f n) = some (i, true)) : i.ReadsBack :=
  ⟨_, _, he, hf, by simp [Fields.keep, e64], hd⟩

theorem Instr.ReadsBack.t32j {j : BitVec 27} (he : encodeFields i = some (ej d q a j)) (hd : decodeFields (ej d q a j) = some (i, true)) :
    i.ReadsBack :=
  ⟨_, .t32j, he, rfl, by simp [Fields.keep, ej], hd⟩

end

/-! ### Codes and register fields read back -/

@[simp] theorem gOf_fG (r : GReg) : gOf (fG r) = r := rfl
@[simp] theorem kQ_fQ (k : KReg) : kQ (fQ k) = k := rfl
@[simp] theorem vOf_fV (r : Fin 16) : vOf (fV r) = r := by revert r; decide
@[simp] theorem isV_fV (r : Fin 16) : isV (fV r) = true := by revert r; decide
@[simp] theorem kOf_fK (r : KReg) : kOf (fK r) = r := by revert r; decide
@[simp] theorem isK_fK (r : KReg) : isK (fK r) = true := by revert r; decide
@[simp] theorem Fmt.ofCode_code (f : Fmt) : Fmt.ofCode f.code = some f := by cases f <;> rfl
@[simp] theorem Rm.ofCode_code (r : Rm) : Rm.ofCode r.code = some r := by cases r <;> rfl
@[simp] theorem Scope.ofCode_code (s : Scope) : Scope.ofCode s.code = some s := by cases s <;> rfl
@[simp] theorem AOrd.ofCode_code (o : AOrd) : AOrd.ofCode o.code = some o := by cases o <;> rfl
@[simp] theorem Space.ofCode_code (s : Space) : Space.ofCode s.code = s := by cases s <;> rfl
@[simp] theorem QSel.ofCode_code (q : QSel) : QSel.ofCode q.code = some q := by cases q <;> rfl
@[simp] theorem QTgt.ofCode_code (t : QTgt) : QTgt.ofCode t.code = some t := by cases t <;> rfl
@[simp] theorem Csr.ofNum_num (c : Csr) : Csr.ofNum c.num = some c := by cases c <;> rfl

@[simp] theorem IQ.ofCode_code (q : IQ) : IQ.ofCode q.code = q := by
  obtain ⟨s, n⟩ := q
  revert s n; decide

/-! ### Immediates and subfields read back -/

theorem fields_bImm (pos w : BitVec 6) : field (bImm pos w) 12 4 = 0 ∧ field (bImm pos w) 6 6 = w ∧ field (bImm pos w) 0 6 = pos :=
  fields_append3 0 w pos

theorem fields_aImm (col : BitVec 3) (sc : Scope) :
    field (aImm col sc) 6 10 = 0 ∧ field (aImm col sc) 3 3 = col ∧ field (aImm col sc) 0 3 = sc.code :=
  fields_append3 0 col sc.code

theorem fields_aF (o : AOrd) (op : BitVec 3) : field (aF o op) 3 3 = o.code ∧ field (aF o op) 0 3 = op := fields_append o.code op

theorem fields_stF (kind col : BitVec 3) : field (stF kind col) 3 3 = kind ∧ field (stF kind col) 0 3 = col := fields_append kind col

theorem fields_ldxF (x : BitVec 4) : (0#2 ++ x)[5] = false ∧ (0#2 ++ x)[4] = false ∧ field (0#2 ++ x) 0 4 = x := by revert x; decide

theorem fields_stxF (x : BitVec 4) : (2#2 ++ x)[5] = true ∧ (2#2 ++ x)[4] = false ∧ field (2#2 ++ x) 0 4 = x := by revert x; decide

theorem fields_mputImm (n : Fin 4) : field (BitVec.ofNat 16 n.val) 2 14 = 0 ∧ (field (BitVec.ofNat 16 n.val) 0 2).toFin = n := by
  revert n; decide

theorem fields_sImm (n : BitVec 6) (t : Option (BitVec 3)) : field (sImm n t) 10 6 = 0 ∧ field (sImm n t) 4 6 = n ∧
    field (sImm n t) 3 1 = BitVec.ofBool t.isSome ∧ field (sImm n t) 0 3 = t.getD 0 :=
  fields_append4 0 n (BitVec.ofBool t.isSome) (t.getD 0)

theorem fields_vImm (f : Fmt) (rm : Rm) (sat : Bool) (aux : BitVec 8) : field (vImm f rm sat aux) 12 4 = f.code ∧
    field (vImm f rm sat aux) 9 3 = rm.code ∧ field (vImm f rm sat aux) 8 1 = BitVec.ofBool sat ∧ field (vImm f rm sat aux) 0 8 = aux :=
  fields_append4 f.code rm.code (BitVec.ofBool sat) aux

theorem vFields_vImm {x : Fields} {f : Fmt} {rm : Rm} {sat : Bool} {aux : BitVec 8} (h : x.imm = (vImm f rm sat aux).setWidth 64) :
    vFields x = some (f, rm, sat, aux) := by
  obtain ⟨hf, hr, hs, ha⟩ := fields_vImm f rm sat aux
  simp [vFields, h, field_setWidth, hf, hr, getElem_of_field hs, ha]

/-- A T32V form (R100): the family's decoder is given the fields that its immediate holds. -/
theorem Instr.ReadsBack.t32v {i : Instr} {op : BitVec 6} {d a b : BitVec 5} {q : BitVec 3} {fn : BitVec 6} {f : Fmt} {rm : Rm} {sat : Bool}
    {aux : BitVec 8} (k : Fields → Fmt → Rm → Bool → BitVec 8 → Option (Instr × Bool))
    (he : encodeFields i = some (e32 op d q a b fn (vImm f rm sat aux))) (hf : formOf op.toNat 2 = some .t32)
    (hk : decodeFields (e32 op d q a b fn (vImm f rm sat aux)) = decV (e32 op d q a b fn (vImm f rm sat aux)) k)
    (hd : k (e32 op d q a b fn (vImm f rm sat aux)) f rm sat aux = some (i, true)) : i.ReadsBack :=
  .t32 he hf (by rw [hk, decV, vFields_vImm rfl]; exact hd)

/-! ### Every instruction of a core, family by family -/

theorem Instr.readsBack (i : Instr) (hi : i.isCore = true) : i.ReadsBack := by
  cases i
  case nop | done | ret | bkpt => exact ⟨_, .none, rfl, rfl, rfl, rfl⟩
  case add | sub | mul | mulh | div | rem | and | or | xor | andn | shl | shr | sha | rot | min | max | cmpeq | cmpne | cmplt | cmple =>
    exact .t16 rfl rfl (by simp [decodeFields, decRR, e16, okI])
  case clz | ctz | popc | brev => exact .t16 rfl rfl (by simp [decodeFields, decRR, e16, okI, chk])
  case addI16 | subI16 | mulI16 | mulhI16 | divI16 | remI16 | andI16 | orI16 | xorI16 | andnI16 | shlI16 | shrI16 | shaI16 | rotI16 | minI16 | maxI16
      | cmpeqI16 | cmpneI16 | cmpltI16 | cmpleI16 => exact .t32 rfl rfl (by simp [decodeFields, decRI, e32, okI, chk])
  case addI48 | andI48 | orI48 | xorI48 => exact .t64 rfl rfl (by simp [decodeFields, decRL, e64, okI, chk])
  case movi16 | movi32 | movi64 => exact ⟨_, .imm, rfl, rfl, rfl, by simp [decodeFields, decMovi, okI, chk]⟩
  case ext d a pos w | ins d a pos w =>
    obtain ⟨hz, hw, hp⟩ := fields_bImm pos w
    exact .t32 rfl rfl (by simp [decodeFields, decBits, e32, okI, chk, field_setWidth, hz, hw, hp])
  case sel => exact .t32 rfl rfl rfl
  case padd | psub | viewof | isspc | hown => exact .t16 rfl rfl rfl
  case viewset => exact .t16 rfl rfl (by simp [decodeFields, decPtr, e16, okI, chk])
  case paddI16 => exact .t32 rfl rfl (by simp [decodeFields, decPtr, e32, okI, chk])
  case castspc d g sp a =>
    obtain ⟨hg, hs⟩ := fields_append (BitVec.ofBool g) sp.code
    exact .t16 rfl rfl (by simp [decodeFields, decPtr, e16, okI, chk, getElem_of_field hg, ← field_zero, hs])
  case br | bz | bnz | bltz | bgez | call | loop => exact .t32j rfl (by simp [decodeFields, decBr, ej, okI, chk])
  case jmp | callr => exact .t16 rfl rfl rfl
  case ld | ldAcq => exact .t32 rfl rfl (by simp [decodeFields, decLd, e32, okI, chk])
  case ldW | ldAcqW => exact .t64 rfl rfl (by simp [decodeFields, decLd, e64, okI, chk])
  case ldSync | ldSynce => exact .t32 rfl rfl (by simp [decodeFields, decLd, e32, okI, chk, q64])
  case ldSyncW | ldSynceW => exact .t64 rfl rfl (by simp [decodeFields, decLd, e64, okI, chk, q64])
  case st | stRel | stFe => exact .t32 rfl rfl (by simp [decodeFields, decSt, e32, okI, chk, q64, fields_stF])
  case stW | stRelW | stFeW => exact .t64 rfl rfl (by simp [decodeFields, decSt, e64, okI, chk, q64, fields_stF])
  case ldx => exact .t32 rfl rfl (by simp [decodeFields, decExt, e32, okI, chk, fields_ldxF])
  case stx => exact .t32 rfl rfl (by simp [decodeFields, decExt, e32, okI, chk, fields_stxF])
  case aadd d q a b o col sc | aand d q a b o col sc | aor d q a b o col sc | axor d q a b o col sc | amin d q a b o col sc | amax d q a b o col sc
      | aswap d q a b o col sc | acas d q a b o col sc =>
    obtain ⟨hz, hc, hs⟩ := fields_aImm col sc
    exact .t32 rfl rfl (by simp [decodeFields, decAt, e32, okI, chk, field_setWidth, hz, hc, hs, fields_aF])
  case fence m sc =>
    obtain ⟨hz, hs, hm⟩ := fields_append3 (0#5) sc.code m
    exact .t32 rfl rfl (by simp [decodeFields, decFence, e32, okI, chk, field_setWidth, hz, hs, hm])
  case csrrd _ c | csrwr c _ | csrswp _ c _ | csrset _ c _ | csrclr _ c _ =>
    obtain ⟨hz, hc⟩ := fields_append (0#4) c.num
    exact .t32 rfl rfl (by simp [decodeFields, decCsr, e32, okI, chk, field_setWidth, hz, hc])
  case trap | time | featq => exact .t16 rfl rfl rfl
  case trapI16 => exact .t32 rfl rfl (by simp [decodeFields, decSys, e32, okI, chk])
  case migok v => exact .t16 rfl rfl (by cases v <;> rfl)
  case send d q a b n t | senda d q a b n t | sendp d q a b n t | sendl d q a b n t | reply d q b n t =>
    obtain ⟨hz, hn, hs, ht⟩ := fields_sImm n t
    refine .t32 rfl rfl ?_
    cases t <;> simp [decodeFields, decSend, e32, okI, chk, field_setWidth, hz, hn, getElem_of_field hs, ht]
  case msgid | msgpay | requeue => exact .t16 rfl rfl rfl
  case chbind c a role =>
    obtain ⟨hz, hr⟩ := fields_append (0#14) role
    exact .t32 rfl rfl (by simp [decodeFields, decChan, e32, chk, field_setWidth, hz, hr])
  case chadvh | chadvt | chptr => exact .t32 rfl rfl (by simp [decodeFields, decChan, e32, chk])
  case chwaitf | chwaite | chstat => exact .t16 rfl rfl (by simp [decodeFields, decChan, e16, chk])
  case tlook | tset | tclr | tinv => exact .t16 rfl rfl rfl
  case vadd | vsub | vmul | vdiv | vmin | vmax | vabs | vneg | vsqrt | vand | vor | vxor | vshl | vshr | vsha =>
    exact .t32v decVArith rfl rfl rfl (by simp [decVArith, e32, chk])
  case vfma | vfms | vfnma => exact .t32v decVFma rfl rfl rfl (by simp [decVFma, e32, chk])
  case vcvt d k a f t rm sat =>
    obtain ⟨ht, hz⟩ := fields_append t.code (0#4)
    exact .t32v decVCvt rfl rfl rfl (by simp [decVCvt, e32, chk, ht, hz])
  case vcmpEq | vcmpNe | vcmpLt | vcmpLe | vcmpUnord => exact .t32v decVCmp rfl rfl rfl (by simp [decVCmp, e32, chk])
  case vsel | vmov | vbcast | vext | viota => exact .t32v decVMov rfl rfl rfl (by simp [decVMov, e32, chk])
  case vredSum | vredMin | vredMax | vdot => exact .t32v decVRed rfl rfl rfl (by simp [decVRed, e32, chk])
  case vshuf | vrot | vpack | vunpack => exact .t32v decVPerm rfl rfl rfl (by simp [decVPerm, e32, chk])
  case vld | vst | vlds | vsts => exact .t32v decVMem rfl rfl rfl (by simp [decVMem, e32, chk])
  case vgather | vscatter => exact .t32v decVGs rfl rfl rfl (by simp [decVGs, e32, chk])
  case kand | kor | kxor | knot | kpop | kset | kget => exact .t16 rfl rfl (by simp [decodeFields, decMask, e16, chk])
  case vscale d k a f t h =>
    obtain ⟨hh, ht⟩ := fields_append h t.code
    exact .t32v decVQuant rfl rfl rfl (by simp [decVQuant, e32, chk, hh, ht])
  case vquant d k a b f rm t =>
    obtain ⟨hz, ht⟩ := fields_append (0#4) t.code
    exact .t32v decVQuant rfl rfl rfl (by simp [decVQuant, e32, chk, hz, ht])
  case mput n a =>
    obtain ⟨hz, hn⟩ := fields_mputImm n
    exact .t32 rfl rfl (by simp [decodeFields, decMat, e32, okI, chk, field_setWidth, hz, hn])
  case mget _ n => exact .t32 rfl rfl (by fin_cases n <;> rfl)
  case mgang => exact .t32 rfl rfl (by simp [decodeFields, decMat, e32, okI, chk])
  case mwait | mstat | cpreq | cptest | cpwait => exact .t16 rfl rfl rfl
  case lvbind | lvcmp => exact .t32 rfl rfl (by simp [decodeFields, decFront, e32, okI, chk])
  case lvunbind | lvread | lvcommit | lvfreeze | lvthaw | lvstat => exact .t16 rfl rfl rfl
  case rfence mask =>
    obtain ⟨hz, hm⟩ := fields_append (0#8) mask
    exact .t32 rfl rfl (by simp [decodeFields, decWin, e32, okI, chk, field_setWidth, hz, hm])
  case wstat | wseq | rlcrun | rlcnorm | rlcstat | rlcstop => exact .t16 rfl rfl rfl
  -- Every other row is an event.
  all_goals exact absurd hi Bool.false_ne_true

/-- Settles O58: the fields that the encoder gives an instruction come back from its words, and its family's decoder reads each operand off them. -/
theorem encodeDecode : Obligations.EncodeDecode := fun i hi hw =>
  let ⟨_, _, h⟩ := i.readsBack hi
  h.decode_encode hw

theorem decode_of_encode {i : Instr} {h : Head} {t : Word} (hi : i.isCore = true) (hw : i.wf = true)
    (he : (encode i).map (fun w => (w.1, w.2.1)) = some (h, t)) : decode h t = .ok i := by
  obtain ⟨h', t', n, he', hd⟩ := encodeDecode i hi hw
  rw [he'] at he
  cases he
  exact hd

/-- Settles O60: each word is the encoding of its instruction, which decodes by O58. -/
theorem decodeWords : Obligations.DecodeWords := by
  refine ⟨?_, ?_, ?_, ?_, ?_, ?_, ?_, ?_, ?_, ?_, ?_, ?_, ?_, ?_, ?_, ?_, ?_, ?_, ?_, ?_, ?_, ?_⟩ <;> exact decode_of_encode rfl rfl rfl

end Sys2Proof
end

section
/-!
SUPPORT. Control, branches and indirect transfers (R202, R214, R215) with the IPs that they go to (R90, R109), and O7 from it.
-/

namespace Sys2Proof.Machine

/-! ### Transfers of control (R202, R214, R215) -/

section
variable {i : Instr} {s : State} (hs : Steady s)
include hs

theorem completesAt_of_retireTo {ip : Word} (hx : exec i s = .next (s.retireTo ip)) : CompletesAt i s ip s.me :=
  ⟨_, hx, retired_self s ip hs⟩

theorem completesAt_of_setG {ip : Word} {d : GReg} {v : Word} (hx : exec i s = .next ((s.setG d v).retireTo ip)) : CompletesAt i s ip (s.me.putG d v) :=
  ⟨_, hx, retired_setG s ip d v hs⟩

end

/-- A conditional branch is one transfer: to its target, or in sequence (R214). -/
theorem branchIf_eq (c : Bool) (j : BitVec 27) (s : State) :
    branchIf c j s = .next (s.retireTo (if c = true then s.jumpTo j else nextIp s.me.latch.nh s.me.ip)) := by
  cases c <;> rfl

theorem completesAt_of_branchIf {i : Instr} {s : State} {c : Bool} {p : Prop} [Decidable p] {j : BitVec 27} (hs : Steady s)
    (hx : exec i s = branchIf c j s) (hc : c = true ↔ p) :
    CompletesAt i s (if p then branchTarget s.me.ip j else nextIp s.me.latch.nh s.me.ip) s.me := by
  refine completesAt_of_retireTo hs (hx.trans ?_)
  rw [branchIf_eq, State.jumpTo]
  simp only [hc]

theorem controlClauses : Says.ControlForms := by
  intro s d a j hs seq go x
  refine ⟨⟨_, rfl, retired_self s _ hs⟩, completesAt_of_retireTo hs rfl, completesAt_of_retireTo hs rfl, ?_, ?_, ?_, ?_,
    completesAt_of_setG hs rfl, ?_, completesAt_of_retireTo hs rfl, completesAt_of_setG hs rfl⟩
  · exact completesAt_of_branchIf hs rfl beq_iff_eq
  · exact completesAt_of_branchIf hs rfl bne_iff_ne
  · exact completesAt_of_branchIf hs rfl (by simp [BitVec.msb_eq_toInt, x])
  · exact completesAt_of_branchIf hs rfl (by simp [BitVec.msb_eq_toInt, x])
  · refine completesAt_of_setG hs ((branchIf_eq ..).trans ?_)
    simp only [bne_iff_ne, State.jumpTo, State.me_setG, Ctx.putG_ip, Ctx.putG_latch]
    rfl

/-! ### Where a branch and the sequence go (R90, R109) -/

theorem branchTargets : Says.BranchTarget := by
  intro ip j line disp
  have hlow : bitsNat j 0 5 = (j.extractLsb' 0 5).toNat := by simp [bitsNat]
  refine ⟨?_, ?_⟩
  · simp only [branchTarget, hlow]; rfl
  · have hk := (j.extractLsb' 0 5).isLt
    simp only [branchTarget, hlow, BitVec.toNat_ofInt]
    omega

theorem sequentialIp : Says.SequentialIp := by
  intro nh line h hl hh hn
  have hip : (BitVec.ofNat 64 (line * 64 + h)).toNat = line * 64 + h := by
    rw [BitVec.toNat_ofNat]; omega
  refine ⟨fun hlt => ?_, fun hle => ?_⟩
  · rw [nextIp, hip, if_pos (by omega)]
    exact (BitVec.ofNat_add ..).symm
  · rw [nextIp, hip, if_neg (by omega)]
    congr 1
    omega

/-- Settles O7: each form retires to the IP that its rule names, after at most one register write, and the IPs are sums of lines and head indices. -/
theorem controlForms : Obligations.ControlForms := ⟨controlClauses, branchTargets, sequentialIp⟩

end Sys2Proof.Machine
end

section
/-!
SUPPORT. The debug view, breakpoints and faults of decoding (R104, R196, R197), and O47 from it: what an event of the debugger changes, where a fetch
leaves the running context, and the trap that an event of issue takes.
-/

namespace Sys2Proof.Machine

/-! ### The context that a fetch is for (R91) -/

/-- A computation that completes does so with `c` as the running context. -/
def Res.OkAt {α : Type} (c : Nat × Fin 4) : Res α → Prop
  | .ok _ s => s.cur = c
  | .stop _ _ => True

namespace Res.OkAt
variable {α β : Type} {c : Nat × Fin 4} {r r' : Res α}

theorem of_ok {a : α} {u : State} (h : r.OkAt c) (e : r = .ok a u) : u.cur = c := by subst e; exact h

theorem ite {p : Prop} {_ : Decidable p} (h : r.OkAt c) (h' : r'.OkAt c) : (if p then r else r').OkAt c :=
  iteInduction (fun _ => h) (fun _ => h')

theorem bind {f : α → State → Res β} (h : r.OkAt c) (hf : ∀ a s, s.cur = c → (f a s).OkAt c) : (r.bind f).OkAt c := by
  cases r with
  | ok a s => exact hf a s h
  | stop k s => trivial

theorem of_cur {u : State} (h : u.cur = c) (hr : r.OkAt u.cur) : r.OkAt c := h ▸ hr

theorem trapAt {k : Cause} {v : Word} {s : State} : (Machine.trapAt (α := α) k v s).OkAt c := trivial

theorem fetchPoison {p : Word} {s : State} : (Machine.fetchPoison (α := α) p s).OkAt c := trivial

end Res.OkAt

@[simp] theorem State.scrub_cur (s : State) (die k n : Nat) : (s.scrub die k n).cur = s.cur := by
  unfold State.scrub; split <;> simp

@[simp] theorem State.countBlk_cur (s : State) (pa ev : Nat) : (s.countBlk pa ev).cur = s.cur := by
  unfold State.countBlk; split <;> simp

@[simp] theorem State.cacheLine_cur (s : State) (core la : Nat) (l : List Byte) : (s.cacheLine core la l).cur = s.cur := by
  unfold State.cacheLine; dsimp only; split <;> simp

@[simp] theorem State.countWalk_cur (s : State) (p va : Nat) : (s.countWalk p va).cur = s.cur := by
  unfold State.countWalk
  dsimp only
  split
  · rfl
  · exact (Offcore.foldl (fun _ _ => .ite (.count ..) (.refl _)) _ _).cur

@[simp] theorem State.setDirty_cur (s : State) (va : Nat) (t : TlbE) : (s.setDirty va t).cur = s.cur := by
  unfold State.setDirty; split <;> [rfl; split <;> rfl]

theorem State.cached_okAt (s : State) (p : Word) (e : ILine) : (s.cached p e).OkAt s.cur :=
  .ite .fetchPoison (.ite (State.count_cur ..) rfl)

theorem State.fillFrom_okAt (s : State) (p : Word) (la k dest : Nat) : (s.fillFrom p la k dest).OkAt s.cur := by
  unfold State.fillFrom
  dsimp only
  split
  · trivial
  · trivial
  · exact .ite trivial (.ite (.ite .fetchPoison (by simp [Res.OkAt])) (.ite trivial trivial))

theorem State.inboxFetch_okAt (s : State) (p : Word) (la : Nat) (a : Act) : (s.inboxFetch p la a).OkAt s.cur := by
  refine .ite (.ite .fetchPoison (State.scrub_cur ..)) ?_
  split
  · exact s.cached_okAt ..
  · exact s.fillFrom_okAt ..

theorem State.viaTlb_okAt (s : State) (p : Word) (va : Nat) (t : TlbE) (lvl : Nat) (acc : Acc) : (s.viaTlb p va t lvl acc).OkAt s.cur := by
  unfold State.viaTlb
  split
  · trivial
  · show State.cur _ = _
    split <;> simp

theorem State.translate_okAt (s : State) (p : Word) (va : Nat) (acc : Acc) : (s.translate p va acc).OkAt s.cur := by
  unfold State.translate
  split
  · exact s.viaTlb_okAt ..
  · split
    · trivial
    · trivial
    · dsimp only
      split
      · trivial
      · exact .of_cur (State.countWalk_cur s _ va) (State.viaTlb_okAt ..)

theorem State.fetchLine_okAt (s : State) (la : Nat) : (s.fetchLine la).OkAt s.cur := by
  refine .ite (s.inboxFetch_okAt ..) (.ite trivial ((s.translate_okAt ..).bind fun x u hu => .of_cur hu ?_))
  split
  · exact u.cached_okAt ..
  · exact u.fillFrom_okAt ..

theorem State.fetch_okAt (s : State) : s.fetch.OkAt s.cur :=
  .ite .trapAt (.ite .trapAt ((s.fetchLine_okAt _).bind fun _ _ hu => .ite .trapAt (.ite .trapAt hu)))

/-! ### Holds, writes and releases (R196) -/

/-- An event whose whole effect is a change of one context. -/
theorem exec_onCtx {i : Instr} {s : State} {core ctx : Nat} {f : Ctx → Ctx} {y : Ctx} (hx : exec i s = .next (s.onCtx core ctx f))
    (hy : f (s.ctx core ctx) = y) :
    ∃ t, exec i s = .next t ∧ t.ctx core ctx = y ∧ t.mem = s.mem ∧ ∀ k, k ≠ core → t.core k = s.core k :=
  ⟨_, hx, (State.ctx_onCtx_self ..).trans hy, State.onCtx_mem .., fun _ hk => State.core_onCtx_ne _ _ hk⟩

/-- A context with no access of its instruction under way (R196). -/
theorem Ctx.atBoundary_iff (x : Ctx) :
    x.atBoundary = true ↔ x.await ≠ .shipped ∧ (x.st ≠ .running ∨ x.rpend = false ∧ x.rbuf = [] ∧ (x.stall = 0 ∨ x.vstart = 0)) := by
  simp [Ctx.atBoundary, and_assoc]

section
variable {s : State} {core ctx : Nat}

theorem exec_debugHold (hd : s.debugAt core = true) (hb : (s.ctx core ctx).atBoundary = true) :
    exec (.debugHold core ctx) s = .next (s.onCtx core ctx (fun x => { x with hold := true })) :=
  if_pos (by rw [hd, hb]; rfl)

/-- The debugger writes a context that is held or parked and not being shipped. -/
theorem debugWrite_open (hd : s.debugAt core = true) (ha : (s.ctx core ctx).await ≠ .shipped)
    (hs : (s.ctx core ctx).hold = true ∨ (s.ctx core ctx).st = .parked) :
    ¬ (!s.debugAt core || !((s.ctx core ctx).hold || (s.ctx core ctx).st == .parked) || (s.ctx core ctx).await == .shipped) = true := by
  rcases hs with h | h <;> simp [hd, ha, h]

/-! ### Parks and aborts that an event of issue takes (R192, R197) -/

/-- A context that may issue: it runs, is not held, has BUDGET left, and its core issues in the cycle. -/
theorem State.mayIssue_of (hr : (s.ctx core ctx).st = .running) (hh : (s.ctx core ctx).hold = false) (hb : (s.ctx core ctx).budget ≠ 0)
    (hi : s.idle core = false) : s.mayIssue core ctx = true := by
  simp only [State.mayIssue, Ctx.ready, hr, hh, hi, beq_self_eq_true, Bool.not_false, Bool.and_true, beq_eq_false_iff_ne.2 hb, Bool.and_false]

@[simp] theorem State.cur_at (s : State) (core ctx : Nat) : (s.at core ctx).cur = (core, c4 ctx) := rfl

theorem State.ctx_at (s : State) (core ctx : Nat) : (s.at core ctx).ctx core (c4 ctx).val = s.ctx core ctx := State.ctx_c4 s core ctx

theorem State.me_at (s : State) (core ctx : Nat) : (s.at core ctx).me = s.ctx core ctx := State.ctx_at s core ctx

/-- A context parked at a BKPT; `b` after a BKPT instruction (R197). -/
def Ctx.parkedBkpt (x : Ctx) (b : Bool) : Ctx := { x with st := .parked, await := .bkpt b, stall := Stall.fault.code, rcur := 0, rbuf := [] }

@[simp] theorem Ctx.parkedBkpt_ip (x : Ctx) (b : Bool) : (x.parkedBkpt b).ip = x.ip := rfl
@[simp] theorem Ctx.parkedBkpt_g (x : Ctx) (b : Bool) : (x.parkedBkpt b).g = x.g := rfl
@[simp] theorem Ctx.parkedBkpt_trap (x : Ctx) (b : Bool) : (x.parkedBkpt b).trap = x.trap := rfl

/-- A breakpoint's trap writes the trap CSRs and parks its context at its instruction (R197). -/
theorem State.ctx_takeTrap_bkpt (v tip : Word) : (s.takeTrap core ctx (mkTrap .bkpt v) tip).ctx core ctx =
    ((s.ctx core ctx).trapped (mkTrap .bkpt v) tip).parkedBkpt (v == 0) := by
  refine (State.ctx_onCtx_self ..).trans ?_
  rw [State.setTrap, State.ctx_onCtx_self]
  rfl

/-- A trap of kind A aborts the activation of its context (R192). -/
theorem State.ctx_takeTrap_abort {c : Cause} (h : c.kind = .a) (v tip : Word) :
    let y := (s.takeTrap core (c4 ctx).val (mkTrap c v) tip).ctx core ctx
    y.st = .free ∧ y.trap.cause = c.word false ∧ y.trap.tval = v := by
  simp only [State.takeTrap, mkTrap, h]
  rw [← State.ctx_c4, State.ctx_abort]
  exact ⟨rfl, by simp, by simp⟩

theorem exec_bkptRelease {b : Bool} (hp : (s.ctx core ctx).st = .parked) (ha : (s.ctx core ctx).await = .bkpt b) (hr : s.rests core = false) :
    exec (.bkptRelease core ctx) s = .next (s.bkptReturn core ctx (b && !s.debugAt core)) := by
  change execBkptRelease core ctx s = _
  simp only [execBkptRelease, hp, ha, hr, Bool.false_eq_true, if_false]

theorem State.ctx_bkptReturn (skip : Bool) : (s.bkptReturn core ctx skip).ctx core ctx =
    let x := s.ctx core ctx
    { x.resumed with
      ip := if skip = true then nextIp x.latch.nh x.trap.tip else x.trap.tip
      latch := if skip = true then { x.latch with prev := x.trap.tip } else x.latch
      nobp := true } := by
  rw [State.bkptReturn, State.ctx_onCtx_self, State.ctx_resume]
  rfl

theorem exec_breakpointMatch {k : Nat} (hi : s.mayIssue core ctx = true) (hx : (s.ctx core ctx).exitTrap = none)
    (hm : (s.at core ctx).matchBp core (c4 ctx).val = some k) :
    exec (.breakpointMatch core ctx) s =
      .next ((s.at core ctx).takeTrap core (c4 ctx).val (mkTrap .bkpt (BitVec.ofNat 64 k)) (s.ctx core ctx).ip) := by
  change execBreakpointMatch core ctx s = _
  simp only [execBreakpointMatch, State.cur_at, hm, hi, State.me_at, hx, Option.isNone_none, Bool.and_self, if_true]

theorem exec_decodingFault_exitTrap {code : Nat} (hi : s.mayIssue core ctx = true) (hx : (s.ctx core ctx).exitTrap = some code) :
    exec (.decodingFault core ctx) s =
      .next ((s.at core ctx).takeTrap core (c4 ctx).val (mkTrap .rlcTrapExit (BitVec.ofNat 64 code)) (s.ctx core ctx).ip) := by
  change execDecodingFault core ctx s = _
  simp only [execDecodingFault, hi, Bool.not_true, Bool.false_eq_true, if_false, State.me_at, hx, State.cur_at]

theorem exec_decodingFault_decode {f : Fetched} {u : State} {e : DecodeError} (hi : s.mayIssue core ctx = true)
    (hx : (s.ctx core ctx).exitTrap = none) (hm : (s.at core ctx).matchBp core (c4 ctx).val = none) (hf : (s.at core ctx).fetch = .ok f u)
    (hd : decode f.head f.tail = .error e) : exec (.decodingFault core ctx) s =
      .next (u.takeStop (.trap (mkTrap (decodeCause e) (BitVec.ofNat 64 (f.head.toNat + f.tail.toNat % 2 ^ 32 * 2 ^ 16))))) := by
  change execDecodingFault core ctx s = _
  simp only [execDecodingFault, hi, Bool.not_true, Bool.false_eq_true, if_false, State.me_at, hx, State.cur_at, hm, Option.isSome_none, hf, hd]

end

theorem decodeCause_kind (e : DecodeError) : (decodeCause e).kind = .a := by cases e <;> rfl

/-- Settles O47: what the debugger does is one change of a context or of its core's breakpoints; a match parks and a fault of decoding aborts, and a fetch
leaves the context that it is for the running one. -/
theorem debugEvents : Obligations.DebugEvents := by
  intro s core ctx v n on ip tag x w sets
  refine ⟨fun hd ha hb => ?_, fun hd ha hs => ?_, exec_onCtx rfl rfl, exec_onCtx rfl rfl, ?_, fun b hp ha hr => ?_, fun k hm hx hr hh hb hi => ?_,
    fun code hr hh hb hi hx => ?_, fun f s1 e hr hh hb hi hx hm hf hd => ?_⟩
  · exact exec_onCtx (exec_debugHold hd ((Ctx.atBoundary_iff _).2 ⟨ha, hb⟩)) rfl
  · have hw := debugWrite_open hd ha hs
    refine ⟨fun r => exec_onCtx (if_neg hw) rfl, fun r => exec_onCtx (if_neg hw) rfl, fun r => exec_onCtx (if_neg hw) rfl, fun r => ?_⟩
    by_cases hv : viewBad (viewClean w) = true
    · rw [if_pos hv]
      exact ⟨s, (if_neg hw).trans (congrArg _ (if_pos hv)), rfl, rfl, fun _ _ => rfl⟩
    · rw [if_neg hv]
      exact exec_onCtx ((if_neg hw).trans (congrArg _ (if_neg hv))) rfl
  · exact ⟨_, rfl, State.core_onCore_self .., rfl⟩
  · refine ⟨_, exec_bkptRelease hp ha hr, ?_⟩
    rw [State.ctx_bkptReturn]
    exact ⟨rfl, by simp [x], rfl, rfl⟩
  · refine ⟨_, exec_breakpointMatch (State.mayIssue_of hr hh hb hi) hx hm, ?_⟩
    rw [← State.ctx_c4, State.ctx_takeTrap_bkpt, State.ctx_at]
    exact ⟨rfl, by simp [x], by simp [x], by simp [mkTrap], by simp [mkTrap], by simp [x], rfl⟩
  · exact ⟨_, exec_decodingFault_exitTrap (State.mayIssue_of hr hh hb hi) hx, State.ctx_takeTrap_abort rfl _ _⟩
  · have hcur : s1.cur = (core, c4 ctx) := (State.fetch_okAt _).of_ok hf
    refine ⟨_, exec_decodingFault_decode (State.mayIssue_of hr hh hb hi) hx hm hf hd, ?_⟩
    rw [State.takeStop, hcur]
    exact State.ctx_takeTrap_abort (decodeCause_kind e) _ _

end Sys2Proof.Machine
end

section
/-!
SUPPORT. The machine right after reset (R190, R442, R447): O55 and O56.
-/

namespace Sys2Proof.Machine

/-! ### The machine right after reset (R190, R447) -/

theorem CoreSt.ctx_reset (c : Nat) : CoreSt.reset.ctx c = Ctx.reset := by
  simp [CoreSt.ctx, CoreSt.reset, Vector.get_eq_getElem]

/-- The CSRs that R190 lists, at any core and context right after reset. -/
theorem csrGet_reset (n c : Nat) (cur : Nat × Fin 4) (r : Csr) : let s : State := { State.reset with cur := cur }
    (r ∈ [Csr.qlim0, .qlim1, .qlim2, .qlim3, .qlimg] → s.csrGet n c r = 12) ∧ (r = .quant → s.csrGet n c r = 8192) ∧
    (r ∈ [Csr.vstart, .budget, .colour, .migok, .migthresh, .refuse, .guestctx, .xferid, .time, .sampcfg] → s.csrGet n c r = 0) := by
  have hcore : ({ State.reset with cur := cur } : State).core n = CoreSt.reset := rfl
  have htime : ({ State.reset with cur := cur } : State).timeAt n = 0 := rfl
  refine ⟨fun h => ?_, fun h => ?_, fun h => ?_⟩
  · fin_cases h <;> rfl
  · subst h; rfl
  · fin_cases h <;> simp only [State.csrGet, hcore, htime, CoreSt.ctx_reset] <;> rfl

/-- Settles O55: the tables of the reset state are empty, so each core and context reads as its reset value. -/
theorem resetState : Obligations.ResetState :=
  ⟨rfl, rfl, rfl, fun _ => rfl, fun _ c => congrArg Ctx.st (CoreSt.ctx_reset c), fun n c r => csrGet_reset n c.val (n, c) r⟩

/-- Settles O56. -/
theorem resetInv : Obligations.ResetInv := Memory.reset_wf

end Sys2Proof.Machine
end

section
/-!
SUPPORT. Local memory (R129, R146, R177, R216, R218, R224): O9, with what a store leaves byte by byte, and a load that refutes O8.
-/

namespace Sys2Proof.Machine

/-! ### A load over a lane's store (R156, R216) -/

/-- A pending store of context 1 whose address is the key of the first byte of core 0's scratchpad. -/
def scratchStore : LaneE := ⟨1, 1, 0, 0, 0, .plain, localKey 0 0 1 0, 0, 8, 0, 0, false, false, [], false, 0, 0⟩

/-- Context 0 of core 0 with a pointer to its scratchpad in g1, and that store in the core's lanes. -/
def scratchLaneState : State :=
  (State.reset.onCore 0 (fun k => { k with lanes := [scratchStore] })).onMe (fun x => x.putG 1 0x0FFF100000000000)

theorem decodeAddr_scratchLaneState : scratchLaneState.decodeAddr (ptrOff (scratchLaneState.g 1) ((0 : BitVec 16).signExtend 64)) 8 .load =
    .ok (.loc (localKey 0 0 1 0)) := rfl

/-- The load of that word, evaluated: it retires, and the lane's store names context 0 as one that has read it. -/
theorem exec_ld_scratchLaneState : ∃ t, exec (.ld 2 ⟨false, 3⟩ 1 0) scratchLaneState = .next t ∧ (t.core 0).lanes = [{ scratchStore with seen := [0] }] :=
  ⟨_, rfl, by decide +kernel⟩

/-- Refutes O8: where a lane of the core holds another context's store at the key of the word, the load notes its reader in that store (`State.see`, R156),
so that not everything else of the core is as before. The statement ranges over all states, also those with a local key in a lane, where the machine itself
puts none. -/
theorem not_localLoads : ¬ Obligations.LocalLoads := by
  rintro ⟨h, -⟩
  obtain ⟨m, ⟨t, hx, hr⟩, -⟩ := h scratchLaneState 2 1 ⟨false, 3⟩ 0 0 (.ld 2 ⟨false, 3⟩ 1 0) _ (localKey 0 0 1 0) (by decide +kernel) (.inl ⟨.inl rfl, rfl⟩)
    (by decide +kernel) decodeAddr_scratchLaneState (by decide +kernel) (by decide +kernel)
  obtain ⟨u, hu, hl⟩ := exec_ld_scratchLaneState
  obtain rfl : t = u := by rw [hx] at hu; injection hu
  have hside : (t.core 0).lanes = (scratchLaneState.core 0).lanes := (congrArg CoreSt.lanes hr.core : _)
  rw [hl] at hside
  exact absurd hside (by decide +kernel)

/-! ### The bytes of a store (R3, R218) -/

/-- A byte of a little-endian list. -/
theorem getD_leBytes {n i : Nat} (h : i < n) (v : Nat) : (leBytes n v).getD i 0 = BitVec.ofNat 8 (v >>> (8 * i)) := by
  induction n generalizing i v with
  | zero => omega
  | succ n ih =>
    cases i with
    | zero => rfl
    | succ i =>
      rw [leBytes, List.getD_cons_succ, ih (by omega), show 8 * (i + 1) = 8 + 8 * i by ring, Nat.shiftRight_add, Nat.shiftRight_eq_div_pow v 8]

theorem szOf_eq (q : IQ) : szOf q = 8 * (szOf q / 8) := by
  simp [szOf]

/-- The bytes of the pattern that an instruction stores are the register's. -/
theorem getD_leBytes_patOf (q : IQ) (x : Word) {i : Nat} (h : i < szOf q / 8) :
    (leBytes (szOf q / 8) (patOf q x)).getD i 0 = x.extractLsb' (8 * i) 8 := by
  have hs := szOf_eq q
  rw [getD_leBytes h]
  refine BitVec.eq_of_getLsbD_eq fun j hj => ?_
  have hlt : 8 * i + j < szOf q := by omega
  rw [BitVec.getLsbD_ofNat, BitVec.getLsbD_extractLsb', Nat.testBit_shiftRight, patOf, Nat.testBit_mod_two_pow]
  simp [hlt, BitVec.getLsbD]

/-- What a byte reads as after a store of a register. -/
theorem Memory.byte_storeFe_patOf {m : Memory} (hm : m.wf = true) (k : Nat) (q : IQ) (x : Word) (fe : Bool) (j : Nat) :
    (m.storeFe k (szOf q / 8) (patOf q x) fe).byte j = if k ≤ j ∧ j < k + szOf q / 8 then x.extractLsb' (8 * (j - k)) 8 else m.byte j := by
  rw [Memory.byte_storeFe, Memory.write, Memory.byte_setBytes _ _ _ hm, leBytes_length]
  split
  next h => exact getD_leBytes_patOf q x (by omega)
  next => rfl

/-- What a full-empty bit reads as after a store (R146). -/
theorem Memory.isFull_storeFe (m : Memory) (k n v : Nat) (fe : Bool) (j : Nat) :
    (m.storeFe k n v fe).isFull j = if fe = true ∧ wordOf j = wordOf k then !m.isPending j else m.isFull j := by
  have hfull : (m.store k n v).isFull j = m.isFull j := by simp [Memory.isFull]
  have hpend : (m.store k n v).isPending j = m.isPending j := by simp [Memory.isPending]
  cases fe with
  | false => simpa [Memory.storeFe] using hfull
  | true => simp only [Memory.storeFe, if_true, Memory.isFull_setFull, hfull, hpend, true_and]

/-! ### Accesses that leave cores, interfaces and homes -/

/-- No core, no interface and no home has changed. -/
structure Unmoved (s t : State) : Prop where
  cores : t.cores = s.cores
  eps   : t.eps = s.eps
  homes : t.homes = s.homes
  cur   : t.cur = s.cur
  time  : t.time = s.time

namespace Unmoved
variable {s t u : State}

theorem refl (s : State) : Unmoved s s := ⟨rfl, rfl, rfl, rfl, rfl⟩
theorem trans (h : Unmoved s t) (g : Unmoved t u) : Unmoved s u :=
  ⟨g.cores.trans h.cores, g.eps.trans h.eps, g.homes.trans h.homes, g.cur.trans h.cur, g.time.trans h.time⟩

theorem onMem (s : State) (f : Memory → Memory) : Unmoved s (s.onMem f) := ⟨rfl, rfl, rfl, rfl, rfl⟩

theorem noteWrite (s : State) (core born k size new : Nat) (fe : Bool) : Unmoved s (s.noteWrite core born k size new fe) := by
  obtain ⟨l, hl⟩ := State.noteWrite_rest s core born k size new fe
  rw [hl]
  exact ⟨rfl, rfl, rfl, rfl, rfl⟩

theorem noteTurn (s : State) (o : Option Nat) (core ctx : Nat) : Unmoved s (s.noteTurn o core ctx) := by
  cases o <;> exact ⟨rfl, rfl, rfl, rfl, rfl⟩

theorem core (h : Unmoved s t) (n : Nat) : t.core n = s.core n := by simp only [State.core, h.cores]
theorem ctx (h : Unmoved s t) (n c : Nat) : t.ctx n c = s.ctx n c := by simp only [State.ctx, h.core]
theorem me (h : Unmoved s t) : t.me = s.me := by simp only [State.me, h.cur, h.ctx]
theorem steady (h : Unmoved s t) (hs : Steady s) : Steady t := by simpa only [Steady, h.me] using hs

/-- What retires after such an access retires from before it. -/
theorem retired {ip : Word} {r : Ctx} {m : Memory} (h : Unmoved s t) (hr : Retired t u ip r m) : Retired s u ip r m where
  ip := hr.ip
  regs := hr.regs
  mem := hr.mem
  peers c hc := by rw [← h.cur, hr.peers c (by rwa [h.cur]), h.ctx]
  core := by rw [← h.cur, hr.core, h.core]
  cores n hn := by rw [hr.cores n (by rwa [h.cur]), h.core]
  eps := hr.eps.trans h.eps
  homes := hr.homes.trans h.homes
  cur := hr.cur.trans h.cur
  time := hr.time.trans h.time

/-- An instruction retires after such an access, with nothing written of its context. -/
theorem retire (h : Unmoved s t) (hs : Steady s) : Retired s t.retire (nextIp s.me.latch.nh s.me.ip) s.me t.mem := by
  rw [retire_eq s t (by rw [h.me]) (by rw [h.me]), ← h.me]
  exact h.retired (retired_self t _ (h.steady hs))

end Unmoved

/-! ### Stores to a local memory (R177, R218, R224) -/

section
variable {s : State} {k size val : Nat} {col : BitVec 3} {kind : StKind}

theorem State.localStore_unmoved (fe : Bool) : Unmoved s (s.localStore k size val fe) ∧ (s.localStore k size val fe).mem = s.mem.storeFe k size val fe := by
  obtain ⟨l, hl⟩ := State.noteWrite_rest s s.cur.1 s.myCore.retired k size val fe
  exact ⟨(Unmoved.noteWrite ..).trans (.onMem ..), by rw [State.localStore, hl]; rfl⟩

theorem State.mem_noteTurn (s : State) (o : Option Nat) (core ctx : Nat) : (s.noteTurn o core ctx).mem = s.mem := by
  cases o <;> rfl

/-- R224 puts a store behind or before what its memory has done in the cycle. -/
def State.feWaits (s : State) (kind : StKind) (k : Nat) : Prop :=
  kind = .fe ∧ (s.takenNow k = true ∨ s.inTurn (unitOf k) s.cur.1 s.cur.2.val = false)

/-- A store that nothing holds up is performed at once. -/
theorem State.writeLocal_performs (hl : if kind = .plain then s.laneBusy col = false else s.lanesMine = false) (hw : ¬ s.feWaits kind k) :
    ∃ u, s.writeLocal k size val col kind = .ok () u ∧ Unmoved s u ∧ u.mem = s.mem.storeFe k size val (kind == .fe) := by
  cases kind with
  | fe =>
    have hgo : (s.takenNow k || !s.inTurn (unitOf k) s.cur.1 s.cur.2.val) = false := by simpa [State.feWaits] using hw
    have hl : s.lanesMine = false := hl
    obtain ⟨hstore, hmem⟩ := State.localStore_unmoved (s := s) (k := k) (size := size) (val := val) true
    exact ⟨(s.localStore k size val true).noteTurn (unitOf k) s.cur.1 s.cur.2.val, by simp [State.writeLocal, hl, hgo], hstore.trans (.noteTurn ..),
      (State.mem_noteTurn ..).trans hmem⟩
  | plain =>
    have hl : s.laneBusy col = false := hl
    exact ⟨_, by simp [State.writeLocal, hl], State.localStore_unmoved false⟩
  | rel =>
    have hl : s.lanesMine = false := hl
    exact ⟨_, by simp [State.writeLocal, hl], State.localStore_unmoved false⟩

/-- An ST.FE that has to wait for the next cycle. -/
theorem State.writeLocal_waits (hl : if kind = .plain then s.laneBusy col = false else s.lanesMine = false) (hw : s.feWaits kind k) :
    s.writeLocal k size val col kind = .stop (.wait .memory) s := by
  obtain ⟨rfl, hw⟩ := hw
  have hgo : (s.takenNow k || !s.inTurn (unitOf k) s.cur.1 s.cur.2.val) = true := by simpa using hw
  simp [State.writeLocal, hgo]

/-- A store of a context of which no posted store has failed goes to the local memory that its address decodes to. -/
theorem storeFrom_local {q : IQ} {a b : GReg} {off : Word} (hf : kind = .plain ∨ s.me.failed = [])
    (hd : s.decodeAddr (ptrOff (s.g a) off) (szOf q / 8) (if kind = .fe then .stfe else .store) = .ok (.loc k)) :
    storeFrom q a b col off kind s = run (s.writeLocal k (szOf q / 8) (patOf q (s.g b)) col kind) := by
  have hcheck : (if kind = .plain then .ok () s else s.failCheck) = Res.ok () s := by
    split
    · rfl
    · rw [State.failCheck, hf.resolve_left ‹_›]
  simp only [storeFrom, hcheck, Res.bind, State.writeMem, hd]

end

/-- Settles O9: a store that nothing holds up writes memory alone, read back byte by byte, and one that waits changes its context's stall reason alone. -/
theorem localStores : Obligations.LocalStores := by
  intro s q sg a b col o16 o48 i kind n o k hs hinv hi hd hl waits
  obtain ⟨q', hx, hn⟩ : ∃ q', exec i s = storeFrom q' a b col o kind s ∧ n = szOf q' / 8 := by
    rcases hi with ⟨rfl, rfl, rfl, rfl⟩ | ⟨rfl, rfl, rfl, rfl⟩ | ⟨rfl, rfl, rfl, rfl⟩ | ⟨rfl, rfl, rfl, rfl⟩ | ⟨rfl, rfl, rfl, rfl⟩ | ⟨rfl, rfl, rfl, rfl⟩
    · exact ⟨q, rfl, rfl⟩
    · exact ⟨q, rfl, rfl⟩
    · exact ⟨q, rfl, rfl⟩
    · exact ⟨q, rfl, rfl⟩
    · exact ⟨⟨sg, 3⟩, rfl, by simp [szOf]⟩
    · exact ⟨⟨sg, 3⟩, rfl, by simp [szOf]⟩
  subst hn
  have hf : kind = .plain ∨ s.me.failed = [] := by
    split at hl
    · exact .inl ‹_›
    · exact .inr hl.2
  have hl' : if kind = .plain then s.laneBusy col = false else s.lanesMine = false := by
    split at hl <;> simp [*]
  rw [hx, storeFrom_local hf hd]
  refine ⟨fun hw => ?_, fun hw => ?_⟩
  · obtain ⟨u, hu, hmoved, hmem⟩ := State.writeLocal_performs (size := szOf q' / 8) (val := patOf q' (s.g b)) hl' hw
    have hr := hmoved.retire hs
    rw [hu]
    refine ⟨u.retire, rfl, by rwa [hr.mem], fun j => ?_, fun j => ?_⟩
    · rw [hr.mem, hmem, Memory.byte_storeFe_patOf hinv]
    · rw [hr.mem, hmem, Memory.isFull_storeFe]
      simp
  · rw [State.writeLocal_waits hl' hw]
    exact ⟨_, rfl, by simp [State.takeStop, State.waitAt]⟩

end Sys2Proof.Machine
end

section
/-!
SUPPORT. O34: the colours of a mask, the drop records of a context, and the leaf that WSTAT and WSEQ see (R137, R384, R385).
-/

namespace Sys2Proof.Machine

/-! ### The colours of a mask (R384) -/

theorem mem_coloursWith {m : BitVec 8} {f : Nat → Bool} {c : Nat} : c ∈ coloursWith m f ↔ (c < 8 ∧ m.getLsbD c = true) ∧ f c = true := by
  simp [coloursWith, upTo, and_assoc]

theorem coloursWith_eq_nil {m : BitVec 8} {f : Nat → Bool} : coloursWith m f = [] ↔ ∀ c, c < 8 ∧ m.getLsbD c = true → f c = false := by
  simp only [List.eq_nil_iff_forall_not_mem, mem_coloursWith, not_and, Bool.not_eq_true]

/-- The lowest of them comes first. -/
theorem coloursWith_eq_cons {m : BitVec 8} {f : Nat → Bool} {c : Nat} (hc : c < 8 ∧ m.getLsbD c = true) (hf : f c = true)
    (hlow : ∀ j < c, j < 8 ∧ m.getLsbD j = true → f j = false) : ∃ t, coloursWith m f = c :: t := by
  have hhead : (coloursWith m f).head? = some c := by
    rw [coloursWith, List.head?_filter, upTo, List.find?_range_eq_some]
    refine ⟨by simp [hc.2, hf], by simpa using hc.1, fun j hj => ?_⟩
    cases hm : m.getLsbD j with
    | false => simp
    | true => simp [hlow j hj ⟨by omega, hm⟩]
  exact ⟨_, List.eq_cons_of_mem_head? hhead⟩

/-! ### Parks (R47) -/

/-- The running context once it has parked with nothing of an answer in hand. -/
theorem State.me_takeStop_park (s : State) (a : Await) : (s.takeStop (.park a)).me = { s.me with
    issued := true, st := .parked, await := a, stall := a.stall.code, rcur := 0,
    rbuf := match a with
      | .syncEmpty _ | .lodge => s.me.rbuf
      | .none | .channelEmpty _ | .channelFull _ _ | .xfer _ | .clasp _ | .phase _ _ | .rfence | .pageFault _ _ | .migrate _ | .shipped | .quantum
      | .bkpt _ => [] } := by
  refine (State.ctx_onCtx_self ..).trans ?_
  rw [State.ctx_noteIssue] <;> rfl

/-! ### RFENCE (R384, R386) -/

theorem Ctx.drop_clearDrops (x : Ctx) (l : List Nat) {c : Nat} (hc : c < 8) : (x.clearDrops l).drop c = if c ∈ l then none else x.drop c := by
  simp [Ctx.drop, Ctx.clearDrops, Vector.get_eq_getElem, Nat.mod_eq_of_lt hc]

@[simp] theorem Ctx.drop_trapped (x : Ctx) (t : TrapInfo) (tip : Word) (c : Nat) : (x.trapped t tip).drop c = x.drop c := rfl
@[simp] theorem Ctx.drop_freed (x : Ctx) (c : Nat) : x.freed.drop c = x.drop c := rfl
@[simp] theorem Ctx.drop_noteAbort (x : Ctx) (c : Nat) : x.noteAbort.drop c = x.drop c := by
  unfold Ctx.noteAbort; split <;> rfl

section
variable {s : State} {mask : BitVec 8}

theorem exec_rfence_waits {c : Nat} (hc : c < 8 ∧ mask.getLsbD c = true) (ho : get8 s.me.wout c ≠ 0) :
    exec (.rfence mask) s = .next (s.takeStop (.park .rfence)) := by
  have hne : coloursWith mask (fun c => get8 s.me.wout c != 0) ≠ [] := List.ne_nil_of_mem (mem_coloursWith.2 ⟨hc, by simpa using ho⟩)
  show execRfence mask s = _
  simp [execRfence, hne, run, runWith]

/-- With no store outstanding RFENCE looks at the drop records alone. -/
theorem exec_rfence (ho : ∀ c, c < 8 ∧ mask.getLsbD c = true → get8 s.me.wout c = 0) :
    exec (.rfence mask) s = run (match coloursWith mask (fun c => (s.me.drop c).isSome) with
      | [] => .ok () s
      | c :: t => trapAt .windowBroken ((s.me.drop c).getD 0) (s.onMe (fun x => x.clearDrops (c :: t)))) := by
  have hnil : coloursWith mask (fun c => get8 s.me.wout c != 0) = [] := coloursWith_eq_nil.2 fun c hc => by simpa using ho c hc
  show execRfence mask s = _
  simp only [execRfence, hnil]
  rfl

/-- A dropped store of the lowest such colour is reported, and the covered records are cleared. -/
theorem exec_rfence_breaks {c : Nat} {w : Word} (ho : ∀ c, c < 8 ∧ mask.getLsbD c = true → get8 s.me.wout c = 0) (hc : c < 8 ∧ mask.getLsbD c = true)
    (hw : s.me.drop c = some w) (hlow : ∀ j < c, j < 8 ∧ mask.getLsbD j = true → s.me.drop j = none) :
    exec (.rfence mask) s = .next ((s.onMe (fun x => x.clearDrops (coloursWith mask (fun c => (s.me.drop c).isSome)))).takeStop
      (.trap (mkTrap .windowBroken w))) := by
  obtain ⟨t, ht⟩ := coloursWith_eq_cons (f := fun c => (s.me.drop c).isSome) hc (by simp [hw]) (fun j hj hcov => by simp [hlow j hj hcov])
  rw [exec_rfence ho, ht]
  simp only [hw]
  rfl

/-- The records of the covered colours are cleared, and no other. -/
theorem Ctx.drop_clearDrops_covered (x : Ctx) {j : Nat} (hj : j < 8) :
    (x.clearDrops (coloursWith mask (fun c => (x.drop c).isSome))).drop j = if mask.getLsbD j = true then none else x.drop j := by
  rw [Ctx.drop_clearDrops _ _ hj]
  simp only [mem_coloursWith, hj, true_and]
  cases mask.getLsbD j <;> cases x.drop j <;> simp

end

/-! ### WSTAT and WSEQ (R385) -/

/-- A core stores nothing to a receive page (R137). -/
theorem State.checkAttr_store_rxw (s : State) (p lvl : Nat) {e : Word} (h : pteRxw e = true) : s.checkAttr p lvl e .store ≠ none := by
  unfold State.checkAttr
  dsimp only
  split
  · simp
  · split <;> simp [h]

theorem pteRxw_or_w (e : Word) : pteRxw (e ||| 8) = pteRxw e := by
  simp [pteRxw]

/-- The leaf behind a pointer, through a translation that the context holds. -/
theorem State.probe_hit {s : State} {p : Word} {x : TlbE} (hl : isLocal p = false) (hx : s.me.tlbHit (vaOf p) = some x) :
    s.probe p = if (s.checkAttr (s.pOf s.cur.1) 4 (x.pte ||| 8) .store).isSome then trapAt .pageProt p s else .ok x.pte s := by
  simp only [State.probe, hl, hx]
  rfl

/-- Settles O34: RFENCE is decided by the lowest covered colour with a store outstanding or dropped, and the leaf that WSTAT and WSEQ see by one check. -/
theorem windowForms : Obligations.WindowForms := by
  intro s d a mask x covered out
  refine ⟨fun hs hout hdrop => ?_, fun ⟨c, hc, ho⟩ => ?_, fun hout c w hc hw hlow => ?_, fun hl hx hbad i hi => ?_, fun hs hl hx hok => ?_⟩
  · have hnil : coloursWith mask (fun c => (s.me.drop c).isSome) = [] := coloursWith_eq_nil.2 fun c hc => by simp [hdrop c hc]
    refine ⟨s.retire, ?_, (Unmoved.refl s).retire hs⟩
    rw [exec_rfence (fun c hc => by_contra fun h => hout ⟨c, hc, h⟩), hnil]
    rfl
  · refine ⟨_, exec_rfence_waits hc ho, ?_⟩
    rw [State.me_takeStop_park]
    exact ⟨rfl, rfl, rfl, rfl, rfl⟩
  · refine ⟨_, exec_rfence_breaks (fun c hc => by_contra fun h => hout ⟨c, hc, h⟩) hc hw hlow, ?_⟩
    rw [State.me_takeStop_abort rfl, State.me_onMe]
    refine ⟨rfl, by simp [mkTrap], by simp [mkTrap], fun j hj => ?_⟩
    rw [Ctx.drop_freed, Ctx.drop_noteAbort, Ctx.drop_trapped]
    exact Ctx.drop_clearDrops_covered s.me hj
  · have hfail : s.checkAttr (s.pOf s.cur.1) 4 (x.pte ||| 8) .store ≠ none := hbad.elim (fun h => State.checkAttr_store_rxw _ _ _ (by rwa [pteRxw_or_w])) id
    have hprobe : s.probe (s.g a) = trapAt .pageProt (s.g a) s := by rw [State.probe_hit hl hx, if_pos (Option.isSome_iff_ne_none.2 hfail)]
    have hexec : exec i s = .next (s.takeStop (.trap (mkTrap .pageProt (s.g a)))) := by
      simp only [List.mem_cons, List.not_mem_nil, or_false] at hi
      rcases hi with rfl | rfl
      · show execWstat d a s = _
        rw [execWstat, hprobe]; rfl
      · show execWseq d a s = _
        rw [execWseq, hprobe]; rfl
    refine ⟨_, hexec, ?_⟩
    rw [State.me_takeStop_abort rfl]
    exact ⟨rfl, by simp [mkTrap], by simp [mkTrap]⟩
  · have hprobe : s.probe (s.g a) = .ok x.pte s := by rw [State.probe_hit hl hx, hok]; rfl
    refine ⟨gives_of_setG hs ?_, gives_of_setG hs ?_⟩
    · show execWseq d a s = _
      rw [execWseq, hprobe]; rfl
    · show execWstat d a s = _
      rw [execWstat, hprobe]; rfl

end Sys2Proof.Machine
end

section
/-!
SUPPORT. EXTENT-BOUNDS and the trap ring (R220, R422): a record that waits and is longer than its slot, which refutes O11.
-/

namespace Sys2Proof.Machine

/-- A partition in host-assisted disposition with one record slot at byte 65,536, and a record of nine words that waits for it. -/
def longRecordPart : Part :=
  { Part.reset with trapHost := true, trRing := ⟨65536, true, 0, 0, 0⟩
                    recs := [⟨List.replicate 9 1, 0, false, false, 0, 0, 0, 0⟩] }

/-- The machine right after reset with that partition. -/
def longRecordState : State := { State.reset with parts := [(0, longRecordPart)] }

theorem outsideRings_behind_longRecordState : OutsideRings longRecordState (65536 + 64) := by
  unfold OutsideRings
  decide +kernel

/-- A load of an extent that no task declares, evaluated: the record that waited is flushed, and its ninth word lies beyond the ring. -/
theorem exec_ldx_longRecordState : ∃ t, exec (.ldx 2 ⟨false, 3⟩ 0 1 0) longRecordState = .next t ∧ t.mem.byte (65536 + 64) = 1 :=
  ⟨_, rfl, by decide +kernel⟩

/-- Refutes O11, by its clause on EXTENT-BOUNDS (R220): the record of that trap flushes the records that wait before it (R422), and nothing in the
statement bounds how long one is. A waiting record of nine words writes the word behind its ring. The machine itself makes records of eight words alone
(`recordWords`, `continuations`); the statement ranges over all states. -/
theorem not_extentForms : ¬ Obligations.ExtentForms := by
  rintro ⟨-, h⟩
  obtain ⟨t, hx, -, -, -, -, -, hmem⟩ := h longRecordState 2 1 0 ⟨false, 3⟩ 0 0 (.ldx 2 ⟨false, 3⟩ 0 1 0) (.inl (by decide +kernel)) (by decide +kernel)
  obtain ⟨u, hu, hb⟩ := exec_ldx_longRecordState
  obtain rfl : t = u := by rw [hx] at hu; injection hu
  have hj := hmem (by decide +kernel) _ outsideRings_behind_longRecordState
  rw [hb] at hj
  exact absurd hj (by decide +kernel)

end Sys2Proof.Machine
end

section
/-!
SUPPORT. The service of page faults (R152, R420) and the responses of PRI (R421): O43.
-/

namespace Sys2Proof.Machine

/-! ### The faults of a partition -/

/-- A partition with only those of its faults that `keep` accepts. -/
def Part.withFaults (keep : PFault → Bool) (P : Part) : Part := { P with faults := P.faults.filter keep }

/-- A partition of which the host has been asked for a fault's page. -/
def Part.askedFor (f : PFault) (P : Part) : Part := { P with faults := P.faults.map (fun g => if g == f then { g with asked := true } else g) }

/-- A change of a partition that keeps its dies and its mode leaves the mode of every core. -/
theorem State.detAt_onPart {s : State} {p : Nat} (f : Part → Part) (hd : ∀ P, (f P).dies = P.dies) (hm : ∀ P, (f P).det = P.det) (n : Nat) :
    (s.onPart p f).detAt n = s.detAt n := by
  simp only [State.detAt, State.pOf_onPart s p hd]
  unfold State.onPart State.part
  cases h : AMap.find s.parts p with
  | none => rfl
  | some P =>
    by_cases hp : s.pOf n = p
    · simp [hp, hm, AMap.get_of_find h]
    · simp [AMap.get_set_ne _ _ _ hp]

theorem State.rests_congr {s t : State} (h : t.pkg = s.pkg) (n : Nat) : t.rests n = s.rests n := by
  simp only [State.rests, State.pairOf, State.turnOf, h]

section
variable (s : State) (p : Nat)

theorem State.find_pruneFaults {P : Part} (hp : AMap.find s.parts p = some P) :
    AMap.find (s.pruneFaults p).parts p = some (P.withFaults (fun f => !s.staleFault f)) := State.find_onPart hp _

@[simp] theorem State.pruneFaults_pkg : (s.pruneFaults p).pkg = s.pkg := State.onPart_pkg ..
@[simp] theorem State.pruneFaults_time : (s.pruneFaults p).time = s.time := State.onPart_time ..

variable {s p}

/-- What is due is a fault of the partition. -/
theorem State.mem_of_dueFault {die : Nat} {f : PFault} (h : s.dueFault p die = some f) : f ∈ (s.part p).faults := List.mem_of_find?_eq_some h

/-- A fault of the partition is one of those that its service serves. -/
theorem State.mem_sameFaults {f : PFault} (h : f ∈ (s.part p).faults) : f ∈ s.sameFaults p f := by
  simp [State.sameFaults, h]

theorem exec_pageFaultService {die : Nat} {P : Part} {f : PFault} (hk : s.partKey die = p) (hp : AMap.find s.parts p = some P)
    (hf : (s.pruneFaults p).dueFault p die = some f) :
    exec (.pageFaultService die) s = .next (if P.pfHost then (s.pruneFaults p).askHost p f else (s.pruneFaults p).serveFault p f) := by
  show execPageFaultService die s = _
  simp only [execPageFaultService, hk, hf, State.part_of_find (State.find_pruneFaults s p hp)]
  exact (apply_ite Host.Outcome.next (P.pfHost = true) _ _).symm

/-! ### Asking the host (R421) -/

theorem State.askHost_eq {f : PFault} {n : Nat} (hroom : s.pkg.pri.length < s.pkg.priAlloc)
    (hfree : (List.range 512).find? (fun t => (AMap.find s.pkg.pri t).isNone) = some n) :
    s.askHost p f = (s.onPkg (fun g => { g with pri := AMap.set g.pri n ⟨p, f.core, f.ctx, f.va, f.write, s.time⟩ })).onPart p (Part.askedFor f) := by
  have hpri : s.freePri = some n := by rw [State.freePri, if_neg (by omega)]; exact hfree
  rw [State.askHost, hpri]
  rfl

theorem Part.mem_askedFor {P : Part} {f : PFault} (h : f ∈ P.faults) : { f with asked := true } ∈ (P.askedFor f).faults :=
  List.mem_map.mpr ⟨f, h, by simp⟩

/-! ### Waking what waited (R420) -/

/-- Contexts that wake change the cores alone. -/
theorem State.wakeFault_rest (f : PFault) : ∃ cs, s.wakeFault f = { s with cores := cs } := by
  unfold State.wakeFault
  split
  · exact ⟨s.cores, rfl⟩
  · exact ⟨_, rfl⟩

/-- A context that runs. -/
def Ctx.runs (x : Ctx) : Prop := x.st = .running ∧ x.await = .none

theorem State.runs_wakeFault_self {f : PFault} (hd : s.detAt f.core = false) (hr : s.rests f.core = false) :
    ((s.wakeFault f).ctx f.core f.ctx).runs := by
  simp only [State.wakeFault, hd, hr, Bool.or_self, Bool.false_eq_true, if_false, State.ctx_resume]
  exact ⟨rfl, rfl⟩

/-- A context that runs still runs when another one wakes. -/
theorem State.runs_wakeFault {n c : Nat} (f : PFault) (h : (s.ctx n c).runs) : ((s.wakeFault f).ctx n c).runs := by
  unfold State.wakeFault
  split
  next => exact h
  next =>
    by_cases hs : n = f.core ∧ c4 c = c4 f.ctx
    · obtain ⟨rfl, hc⟩ := hs
      have hctx : ∀ t : State, t.ctx f.core c = t.ctx f.core f.ctx := fun t => by simp only [State.ctx, CoreSt.ctx, hc]
      rw [hctx, State.ctx_resume]
      exact ⟨rfl, rfl⟩
    · rwa [State.resume, State.ctx_onCtx_ne _ _ hs]

theorem State.wakeFaults_rest (l : List PFault) : ∀ s : State, ∃ cs, l.foldl (fun s f => s.wakeFault f) s = { s with cores := cs } := by
  induction l with
  | nil => exact fun s => ⟨s.cores, rfl⟩
  | cons g t ih =>
    intro s
    obtain ⟨cs, h1⟩ := s.wakeFault_rest g
    obtain ⟨ds, h2⟩ := ih (s.wakeFault g)
    exact ⟨ds, by rw [List.foldl_cons, h2, h1]⟩

theorem State.runs_wakeFaults {n c : Nat} (l : List PFault) : ∀ s : State, (s.ctx n c).runs → ((l.foldl (fun s f => s.wakeFault f) s).ctx n c).runs := by
  induction l with
  | nil => exact fun _ h => h
  | cons g t ih => exact fun s h => ih _ (State.runs_wakeFault g h)

/-- Each fault of the list wakes its context where the core is neither in deterministic mode nor resting. -/
theorem State.runs_wakeFaults_of_mem {f : PFault} (l : List PFault) : ∀ s : State, f ∈ l → s.detAt f.core = false → s.rests f.core = false →
    ((l.foldl (fun s f => s.wakeFault f) s).ctx f.core f.ctx).runs := by
  induction l with
  | nil => exact fun _ h => absurd h (List.not_mem_nil)
  | cons g t ih =>
    intro s hm hd hr
    rcases List.mem_cons.mp hm with rfl | ht
    · exact State.runs_wakeFaults t _ (State.runs_wakeFault_self hd hr)
    · obtain ⟨cs, h1⟩ := s.wakeFault_rest g
      exact ih (s.wakeFault g) ht (by rw [h1]; exact hd) (by rw [h1]; exact hr)

theorem State.served_rest (l : List PFault) : ∃ cs, s.served p l = { s.onPart p (Part.withFaults (fun f => !l.contains f)) with cores := cs } :=
  State.wakeFaults_rest l _

theorem State.pkg_served (l : List PFault) : (s.served p l).pkg = s.pkg := by
  obtain ⟨cs, h⟩ := State.served_rest (s := s) (p := p) l
  rw [h]
  exact State.onPart_pkg ..

theorem State.mem_served (l : List PFault) : (s.served p l).mem = s.mem := by
  obtain ⟨cs, h⟩ := State.served_rest (s := s) (p := p) l
  rw [h]
  exact State.onPart_mem ..

theorem State.find_served {P : Part} (hp : AMap.find s.parts p = some P) (l : List PFault) :
    AMap.find (s.served p l).parts p = some (P.withFaults (fun f => !l.contains f)) := by
  obtain ⟨cs, h⟩ := State.served_rest (s := s) (p := p) l
  rw [h]
  exact State.find_onPart hp _

/-- The context of a fault that has been served runs again. -/
theorem State.runs_served {f : PFault} {l : List PFault} (hf : f ∈ l) (hd : s.detAt f.core = false) (hr : s.rests f.core = false) :
    ((s.served p l).ctx f.core f.ctx).runs :=
  State.runs_wakeFaults_of_mem l (s.onPart p (Part.withFaults (fun f => !l.contains f))) hf
    ((State.detAt_onPart (Part.withFaults _) (fun _ => rfl) (fun _ => rfl) _).trans hd)
    ((State.rests_congr (State.onPart_pkg ..) _).trans hr)

/-! ### A fault whose page is mapped nowhere (R195) -/

/-- The context of the fault is free, with PAGE-PROT in its trap CSRs. -/
theorem State.ctx_abortFault (f : PFault) : let x := (s.abortFault p f .pageProt).ctx f.core f.ctx
    x.st = .free ∧ x.trap.tval = BitVec.ofNat 64 f.va ∧
      x.trap.cause = Cause.pageProt.word ((s.ctx f.core f.ctx).trap.cause.extractLsb' 12 4 == 0) := by
  have hx : (s.onPart p (fun P => { P with faults := P.faults.filter (fun g => g != f) })).ctx f.core f.ctx = s.ctx f.core f.ctx := by
    simp only [State.ctx, State.core, State.onPart_cores]
  have hb : ((s.ctx f.core f.ctx).trap.cause.extractLsb' 12 4 == 0) = (bitsNat (s.ctx f.core f.ctx).trap.cause 12 4 == 0) := by
    rw [Bool.eq_iff_iff, beq_iff_eq, beq_iff_eq, ← BitVec.toNat_inj]
    rfl
  simp only [State.abortFault, State.ctx_abort, hx, hb, Ctx.freed_trap, Ctx.noteAbort_trap, Ctx.trapped_trap]
  exact ⟨rfl, trivial, rfl⟩

/-! ### Responses (R421) -/

theorem exec_prgResponse {n : BitVec 9} {c : PrgCode} {q : Pri} (hq : AMap.find s.pkg.pri n.toNat = some q) :
    exec (.prgResponse n c) s = .next ((s.freeTag n.toNat).applyPrg q c) := by
  show execPrgResponse n c s = _
  simp only [execPrgResponse, hq]

/-- A time-out is a Failure. -/
theorem exec_priTimeout {n : BitVec 9} {q : Pri} (hq : AMap.find s.pkg.pri n.toNat = some q) (hdue : q.since + 2 ^ 31 ≤ s.time) :
    exec (.priTimeout n) s = exec (.prgResponse n .failure) s := by
  rw [exec_prgResponse hq]
  show execPriTimeout n s = _
  simp only [execPriTimeout, hq, if_neg (Nat.not_lt.mpr hdue)]

theorem State.find_freeTag (n : Nat) : AMap.find (s.freeTag n).pkg.pri n = none := AMap.find_del_self ..

/-- A response for a fault of which nothing waits does nothing. -/
theorem State.applyPrg_none {q : Pri} (hc : q.core ≠ 4096) (h : s.askedFault q = none) (c : PrgCode) : s.applyPrg q c = s := by
  simp only [State.applyPrg, if_neg hc, h]

/-- A success serves the faults of the page. -/
theorem State.applyPrg_success {q : Pri} {f : PFault} (hc : q.core ≠ 4096) (h : s.askedFault q = some f) (hs : s.staleFault f = false) :
    s.applyPrg q .success = (s.pruneFaults q.part).served q.part ((s.pruneFaults q.part).sameFaults q.part f) := by
  simp only [State.applyPrg, if_neg hc, h, hs, Bool.false_eq_true, if_false]

/-- A success touches nothing of the package. -/
theorem State.pkg_applyPrg_success (q : Pri) : (s.applyPrg q .success).pkg = s.pkg := by
  by_cases hc : q.core = 4096
  · simp only [State.applyPrg, if_pos hc]
  · cases hf : s.askedFault q with
    | none => rw [State.applyPrg_none hc hf]
    | some f =>
      cases hs : s.staleFault f with
      | true => simp only [State.applyPrg, if_neg hc, hf, hs, if_true, State.pruneFaults_pkg]
      | false => rw [State.applyPrg_success hc hf hs, State.pkg_served, State.pruneFaults_pkg]

/-- An answer to firmware's own request that is no success is a refusal. -/
theorem State.applyPrg_own {q : Pri} {c : PrgCode} (hc : q.core = 4096) (hn : c ≠ .success) : s.applyPrg q c = s.refusedOwn q := by
  cases c with
  | success => exact absurd rfl hn
  | invalid => exact if_pos hc
  | failure => exact if_pos hc

/-- A success for a fault that waits leaves none of its page's faults in the partition. -/
theorem exec_prgResponse_serves {n : BitVec 9} {q : Pri} {P : Part} {g : PFault} (hq : AMap.find s.pkg.pri n.toNat = some q)
    (hp : AMap.find s.parts q.part = some P) (hc : q.core ≠ 4096) (hg : s.askedFault q = some g) (hs : s.staleFault g = false) :
    ∃ t P', exec (.prgResponse n .success) s = .next t ∧ AMap.find t.parts q.part = some P' ∧ g ∉ P'.faults := by
  have hp1 : AMap.find ((s.freeTag n.toNat).pruneFaults q.part).parts q.part = some (P.withFaults (fun f => !s.staleFault f)) :=
    State.find_pruneFaults (s.freeTag n.toNat) q.part hp
  have hgP : g ∈ P.faults := State.part_of_find hp ▸ List.mem_of_find?_eq_some hg
  have hgm : g ∈ (((s.freeTag n.toNat).pruneFaults q.part).part q.part).faults := by
    rw [State.part_of_find hp1]
    exact List.mem_filter.mpr ⟨hgP, by simp [hs]⟩
  have hx := exec_prgResponse (c := .success) hq
  rw [State.applyPrg_success (s := s.freeTag n.toNat) hc hg hs] at hx
  exact ⟨_, _, hx, State.find_served hp1 _, by simp [Part.withFaults, State.mem_sameFaults hgm]⟩

/-- A refusal of the page that the LAUNCH in hand waits for stops its queue with HOST-FAULT (R408). -/
theorem State.applyPrg_stops {q : Pri} {c : PrgCode} {k : Packet} {a : Nat} {s1 : State} (hc : q.core = 4096) (hx : q.ctx = 0) (hn : c ≠ .success)
    (hch : s.chosen q.part 1 = some k) (hask : s.launchTry q.part k = .ask a s1) (hpage : a / 4096 = q.va / 4096) :
    s.applyPrg q c = s.packetFail q.part k.q .hostFault := by
  simp only [State.applyPrg_own hc hn, State.refusedOwn, if_pos hx, hch, hask, samePage, hpage, beq_self_eq_true, if_true]

/-- A refusal stops no other packet. -/
theorem State.applyPrg_keeps {q : Pri} {c : PrgCode} (hc : q.core = 4096) (hx : q.ctx = 0) (hn : c ≠ .success) (hch : s.chosen q.part 1 = none) :
    s.applyPrg q c = s := by
  simp only [State.applyPrg_own hc hn, State.refusedOwn, if_pos hx, hch]

theorem State.chosen_none {kind : Nat} {P : Part} {k : Packet} (hp : AMap.find s.parts p = some P) (hk : P.packet = some k)
    (hkind : pkKind k.words ≠ kind) : s.chosen p kind = none := by
  simp only [State.chosen, State.part_of_find hp, hk, if_neg hkind]

@[simp] theorem State.packetFail_pkg (q : Nat) (e : QErr) : (s.packetFail p q e).pkg = s.pkg := by simp [State.packetFail, State.msi]

end

/-- Settles O43: a service's cases are those of `serveFault` and `askHost`, a response's those of `applyPrg`. -/
theorem pageFaultEvents : Obligations.PageFaultEvents := by
  unfold Obligations.PageFaultEvents
  intro s die p P f hk hp s0 need
  have hp0 : AMap.find s0.parts p = some (P.withFaults (fun f => !s.staleFault f)) := State.find_pruneFaults s p hp
  refine ⟨fun hf => ?_, fun n c => ⟨fun hn => ?_, fun q hq => ⟨fun hc hor => ?_, fun g hc hqp hg hs => ?_, fun hdue => ?_, fun hc => ?_,
    fun k hc hx hqp hpk hn => ?_⟩⟩⟩
  · have hx := exec_pageFaultService hk hp hf
    have hmem : f ∈ (s0.part p).faults := State.mem_of_dueFault hf
    refine ⟨fun n hh hroom hfree => ?_, fun s1 P1 hh hin hp1 => ?_, fun hh hin => ?_, fun hh hin => ?_⟩
    · rw [if_pos hh, State.askHost_eq (by simpa using hroom) (by simpa using hfree)] at hx
      rw [State.part_of_find hp0] at hmem
      refine ⟨_, _, hx, ?_, State.find_onPart (s := State.onPkg s0 _) hp0 _, Part.mem_askedFor hmem⟩
      simp [State.onPkg, AMap.find_set]
    · have hserve : s0.serveFault p f = s1.served p (s0.sameFaults p f) := by simp only [State.serveFault, need, hin]
      rw [hh, if_neg Bool.false_ne_true, hserve] at hx
      exact ⟨_, _, hx, State.find_served hp1 _, rfl, State.mem_served _, fun _ => State.runs_served (State.mem_sameFaults hmem)⟩
    · have hserve : s0.serveFault p f = s0.abortFault p f .pageProt := by simp only [State.serveFault, need, hin]
      rw [hh, if_neg Bool.false_ne_true, hserve] at hx
      exact ⟨_, hx, State.ctx_abortFault f⟩
    · have hserve : s0.serveFault p f = s0 := by simp only [State.serveFault, need, hin]
      rwa [hh, if_neg Bool.false_ne_true, hserve] at hx
  · show execPrgResponse n c s = _
    simp only [execPrgResponse, hn]
  · refine ⟨_, exec_prgResponse hq, ?_⟩
    rcases hor with hnone | rfl
    · rw [State.applyPrg_none hc (s := s.freeTag n.toNat) hnone, State.find_freeTag]
    · rw [State.pkg_applyPrg_success, State.find_freeTag]
  · subst hqp
    exact exec_prgResponse_serves hq hp hc hg hs
  · refine ⟨exec_priTimeout hq hdue, fun hc hnone => ⟨_, (exec_priTimeout hq hdue).trans (exec_prgResponse hq), ?_⟩⟩
    rw [State.applyPrg_none hc (s := s.freeTag n.toNat) hnone, State.find_freeTag]
  · have happ : (s.freeTag n.toNat).applyPrg q .success = s.freeTag n.toNat := by simp only [State.applyPrg, if_pos hc]
    exact ⟨_, (exec_prgResponse hq).trans (congrArg _ happ), State.find_freeTag n.toNat, rfl, rfl⟩
  · subst hqp
    refine ⟨fun a s1 hkind hask hpage => ?_, fun hkind => ?_⟩
    · have happ := State.applyPrg_stops hc hx hn (State.chosen_of (s := s.freeTag n.toNat) hp hpk hkind) hask hpage
      obtain ⟨Q, hQ, hnone, herr⟩ := State.find_packetFail (s := s.freeTag n.toNat) (q := k.q) hp .hostFault
      exact ⟨_, Q, (exec_prgResponse hq).trans (congrArg _ happ), by rw [State.packetFail_pkg, State.find_freeTag], hQ, hnone, herr⟩
    · have happ := State.applyPrg_keeps hc hx hn (State.chosen_none (s := s.freeTag n.toNat) hp hpk hkind)
      exact ⟨_, (exec_prgResponse hq).trans (congrArg _ happ), State.find_freeTag n.toNat, rfl⟩

end Sys2Proof.Machine
end

section
/-!
SUPPORT. The homes (R150, R159, R260-R263): O49, with what a home performs, and that counts and corrected errors leave what a reader sees.
-/

namespace Sys2Proof.Machine

/-! ### What a reader sees -/

section
variable {s t : State}

/-- Partitions with the same plans, as a recording. -/
theorem Recorded.of_plans (h : plansOf t.parts = plansOf s.parts) : Recorded s { s with parts := t.parts } := ⟨rfl, id, h⟩

theorem State.pOf_congr_plans (h : plansOf t.parts = plansOf s.parts) (n : Nat) : t.pOf n = s.pOf n := (Recorded.of_plans h).pOf n
theorem State.detAt_congr_plans (h : plansOf t.parts = plansOf s.parts) (n : Nat) : t.detAt n = s.detAt n := (Recorded.of_plans h).detAt n
theorem State.part_congr_plans (h : plansOf t.parts = plansOf s.parts) (p : Nat) : (t.part p).plan = (s.part p).plan := (Recorded.of_plans h).part_plan p
theorem State.dies_congr_plans (h : plansOf t.parts = plansOf s.parts) (p : Nat) : (t.part p).dies = (s.part p).dies := (Recorded.of_plans h).dies p

theorem State.hasMoved_congr (h : plansOf t.parts = plansOf s.parts) (core : Nat) (va : Word) : t.hasMoved core va = s.hasMoved core va := by
  have he : (t.part (s.pOf core)).evicted = (s.part (s.pOf core)).evicted := (congrArg Part.evicted (State.part_congr_plans h _) : _)
  simp only [State.hasMoved, State.pOf_congr_plans h, he]

theorem walkAt_congr {m m' : Memory} (h : ∀ j, m'.byte j = m.byte j) (p dies va : Nat) (n : Nat) :
    ∀ lvl slot, walkAt m' p dies va n lvl slot = walkAt m p dies va n lvl slot := by
  induction n with
  | zero => intro lvl slot; simp only [walkAt, Memory.read_congr h]
  | succ n ih => intro lvl slot; simp only [walkAt, Memory.read_congr h, ih]

theorem State.lanesOf_congr (h : t.cores = s.cores) (ep : Nat) : t.lanesOf ep = s.lanesOf ep := by
  simp only [State.lanesOf, State.core, h]

theorem State.landed_congr (h : t.cores = s.cores) (core lane : Nat) : (t.landed core lane).cores = (s.landed core lane).cores := by
  simp only [State.landed, State.lanesOf_congr h, State.onCore, State.setCore, State.core, h, apply_ite State.cores]

theorem State.see_congr (h : t.cores = s.cores) (core ctx pa size : Nat) : (t.see core ctx pa size).cores = (s.see core ctx pa size).cores := by
  simp only [State.see, State.lanesOf_congr h, State.onCore, State.setCore, State.core, h, apply_ite State.cores]

theorem State.noteSync_congr (h : t.cores = s.cores) (hp : plansOf t.parts = plansOf s.parts) (core : Nat) :
    (t.noteSync core).cores = (s.noteSync core).cores := by
  simp only [State.noteSync, State.detAt_congr_plans hp, State.onCore, State.setCore, State.core, h, apply_ite State.cores]

/-- Nothing that a read at a home looks at has changed: cores, the writes of the quantum, bytes, and what of the partitions no count changes. -/
structure Seen (s t : State) : Prop where
  cores : t.cores = s.cores
  wr    : t.wr = s.wr
  byte  : ∀ j, t.mem.byte j = s.mem.byte j
  plans : plansOf t.parts = plansOf s.parts

namespace Seen

theorem of_corrected (h : Corrected s t) : Seen s t := ⟨h.cores, by rw [h.rest], h.byte, h.plans⟩
theorem trans {u : State} (h : Seen s t) (g : Seen t u) : Seen s u :=
  ⟨g.cores.trans h.cores, g.wr.trans h.wr, fun j => (g.byte j).trans (h.byte j), g.plans.trans h.plans⟩

variable (h : Seen s t)
include h

theorem read (k n : Nat) : t.mem.read k n = s.mem.read k n := Memory.read_congr h.byte k n
theorem core (n : Nat) : t.core n = s.core n := by simp only [State.core, h.cores]

theorem walk (p va : Nat) : t.walk p va = s.walk p va := by
  have hr : (t.part p).root = (s.part p).root := (congrArg Part.root (State.part_congr_plans h.plans p) : _)
  simp only [State.walk, State.dies_congr_plans h.plans, hr, walkAt_congr h.byte]

theorem keysOf (src pa : Nat) (va : Word) : t.keysOf src pa va = s.keysOf src pa va := by
  simp only [State.keysOf, State.pOf_congr_plans h.plans, State.dies_congr_plans h.plans, h.walk]

theorem later (core : Nat) (w : QWrite) : t.later core w = s.later core w := by simp only [State.later, h.core]

theorem hidden (core k n : Nat) : t.hidden core k n = s.hidden core k n := by
  simp only [State.hidden, State.detAt_congr_plans h.plans, h.core, h.wr, h.later]

theorem byteFor (core k : Nat) : t.byteFor core k = s.byteFor core k := by
  simp only [State.byteFor, h.wr, h.later, h.byte]

theorem readFor (core k n : Nat) : t.readFor core k n = s.readFor core k n := by
  simp only [State.readFor, h.hidden, h.byteFor, h.read]

theorem blockFor (src pa size : Nat) : t.blockFor src pa size = s.blockFor src pa size := by
  simp only [State.blockFor, State.lanesOf_congr h.cores, h.readFor]

theorem see (core ctx pa size : Nat) : (t.see core ctx pa size).cores = (s.see core ctx pa size).cores := State.see_congr h.cores ..
theorem landed (core lane : Nat) : (t.landed core lane).cores = (s.landed core lane).cores := State.landed_congr h.cores ..
theorem noteSync (core : Nat) : (t.noteSync core).cores = (s.noteSync core).cores := State.noteSync_congr h.cores h.plans core

end Seen

/-! ### A home's answer -/

/-- `t` is `u` after the answer `v` of an interface to a request, with memory `m` and cores `cs`. -/
structure Answers (u t : State) (ep dst num : Nat) (v : Rsp) (m : Memory) (cs : AMap CoreSt) : Prop where
  inj1   : (t.ep ep).inj1 = (u.ep ep).inj1 ++ rspFlits dst ep num v
  ready  : (t.ep ep).ready = (u.ep ep).ready
  expect : (t.ep ep).expect = (u.ep ep).expect
  homes  : t.homes = u.homes
  mem    : t.mem = m
  cores  : t.cores = cs

/-- What is done before the answer leaves interfaces and homes. -/
theorem Answers.respond {u w : State} (he : w.eps = u.eps) (hh : w.homes = u.homes) (ep dst num : Nat) (v : Rsp) :
    Answers u (w.respond ep dst num v) ep dst num v w.mem w.cores := by
  have hep : w.ep ep = u.ep ep := by simp only [State.ep, he]
  obtain ⟨hr, hi⟩ := State.ep_respond w ep dst num v
  refine ⟨by rw [hi, hep], by rw [hr, hep], ?_, hh, rfl, rfl⟩
  simp [State.respond, State.sendRsp, hep]

theorem Answers.home {u t : State} {ep dst num : Nat} {v : Rsp} {m : Memory} {cs : AMap CoreSt} (h : Answers u t ep dst num v m cs) (n : Nat) :
    t.home n = u.home n := by simp only [State.home, h.homes]

theorem State.reply_remote {num : Nat} (hn : num < 32) (h src : Nat) (b : ReqBody) (v : Rsp) : s.reply h src num b v = s.respond (4096 + h) src num v := by
  rw [State.reply, if_neg (by omega)]

theorem State.see_rest (s : State) (core ctx pa size : Nat) : ∃ l, s.see core ctx pa size = { s with cores := l } := by
  unfold State.see
  split
  · exact ⟨_, rfl⟩
  · exact ⟨s.cores, rfl⟩

theorem State.noteSync_rest (s : State) (core : Nat) : ∃ l, s.noteSync core = { s with cores := l } := by
  unfold State.noteSync
  split
  · exact ⟨_, rfl⟩
  · exact ⟨s.cores, rfl⟩

theorem State.noteTurn_rest (s : State) (o : Option Nat) (core ctx : Nat) : ∃ l, s.noteTurn o core ctx = { s with lastAt := l } := by
  cases o
  · exact ⟨s.lastAt, rfl⟩
  · exact ⟨_, rfl⟩

/-- A write finds its page where it was. -/
theorem State.redirty_still {src : Nat} {va : Word} (h : s.hasMoved src va = false) : s.redirty src va = s := by
  simp only [State.redirty, h, Bool.false_eq_true, if_false]

end

/-! ### Requests performed (R260, R261) -/

section
variable {s : State} {h src num : Nat}

/-- A read of poisoned bytes fails (R150). -/
theorem State.readAtHome_poisoned (hn : num < 32) {pa size : Nat} (hp : s.mem.poisoned pa size = true) (b : ReqBody) (m : RMode) (ctx : Nat) (va : Word) :
    Answers s (s.readAtHome h src num b m ctx pa size va) (4096 + h) src num (.plain .fault Cause.eccUncorrected.code) s.mem s.cores := by
  simp only [State.readAtHome, hp, if_true, State.reply_remote hn]
  exact .respond rfl rfl ..

/-- The memory that a read leaves: the errors that it finds are corrected, and a SYNCE leaves its word pending. -/
def State.readLeaves (s : State) (m : RMode) (src pa size : Nat) (va : Word) : Memory :=
  if m = .synce then (s.keysOf src pa va).foldl (fun m k => m.setPending k true) (s.mem.scrub pa size) else s.mem.scrub pa size

/-- The block that answers a read. -/
def State.readGives (s : State) (m : RMode) (src pa size : Nat) : List Byte :=
  if m = .sync ∨ m = .synce then s.mem.bytes (64 * blockOf pa) 64 else s.blockFor src pa size

/-- The cores that a read leaves: one past another context's store is noted in it. -/
def State.readNotes (s : State) (m : RMode) (src ctx pa size : Nat) : AMap CoreSt :=
  if m = .sync ∨ m = .synce then s.cores else (s.see src ctx pa size).cores

theorem State.readAtHome_sound (hn : num < 32) {pa size : Nat} (hp : s.mem.poisoned pa size = false) (b : ReqBody) (m : RMode) (ctx : Nat) (va : Word) :
    Answers s (s.readAtHome h src num b m ctx pa size va) (4096 + h) src num (.block (s.readGives m src pa size)) (s.readLeaves m src pa size va)
      (s.readNotes m src ctx pa size) := by
  have hc := Corrected.scrub s (if h < 8 then h else dieOf src) pa size
  have hm := State.mem_scrub s (if h < 8 then h else dieOf src) pa size
  simp only [State.readAtHome, hp, Bool.false_eq_true, if_false, State.reply_remote hn]
  generalize s.scrub (if h < 8 then h else dieOf src) pa size = u at hc hm
  have hv := Seen.of_corrected hc
  have hh : u.homes = s.homes := by rw [hc.rest]
  have hpend : (u.pend src pa va).mem = (s.keysOf src pa va).foldl (fun m k => m.setPending k true) (s.mem.scrub pa size) := by
    rw [← hv.keysOf, ← hm]; rfl
  by_cases hsync : m = .sync ∨ m = .synce
  · rw [if_pos hsync, State.readGives, if_pos hsync, State.readNotes, if_pos hsync, State.readLeaves, ← hpend, ← hm, ← hc.cores]
    split
    · exact .respond (w := u.pend src pa va) hc.eps hh ..
    · exact .respond hc.eps hh ..
  · obtain ⟨l, hl⟩ := State.see_rest u src ctx pa size
    have hne : m ≠ .synce := fun hs => hsync (.inr hs)
    have hcs : (u.see src ctx pa size).cores = (s.see src ctx pa size).cores := hv.see ..
    have hmem : (u.see src ctx pa size).mem = s.mem.scrub pa size := by rw [hl]; exact hm
    simp only [if_neg hsync, if_neg hne, State.readGives, State.readNotes, State.readLeaves, ← hcs, ← hmem]
    exact .respond (by rw [hl]; exact hc.eps) (by rw [hl]; exact hh) ..

/-- What counts leave of a read's answer and of what it leaves. -/
theorem Seen.readGives {s t : State} (hv : Seen s t) (hm : t.mem = s.mem) (m : RMode) (src pa size : Nat) : t.readGives m src pa size = s.readGives m src pa size := by
  simp only [State.readGives, hm, hv.blockFor]

theorem Seen.readLeaves {s t : State} (hv : Seen s t) (hm : t.mem = s.mem) (m : RMode) (src pa size : Nat) (va : Word) :
    t.readLeaves m src pa size va = s.readLeaves m src pa size va := by
  simp only [State.readLeaves, hm, hv.keysOf]

theorem Seen.readNotes {s t : State} (hv : Seen s t) (m : RMode) (src ctx pa size : Nat) : t.readNotes m src ctx pa size = s.readNotes m src ctx pa size := by
  simp only [State.readNotes, hv.cores, hv.see]

/-- A plain, SYNC, SYNCE or FE read (R217, R261). -/
theorem State.homeDo_read {m : RMode} (hm : m = .plain ∨ m = .sync ∨ m = .synce ∨ m = .fe) (sg : Bool) (ctx pa size : Nat) (va : Word) :
    s.homeDo h src num (.rld m sg ctx pa size va) = s.readAtHome h src num (.rld m sg ctx pa size va) m ctx pa size va := by
  rcases hm with rfl | rfl | rfl | rfl <;> rfl

/-- CONFIRM empties the word (R261). -/
theorem State.homeDo_confirm (sg : Bool) (ctx pa size : Nat) (va : Word) :
    Answers s (s.homeDo h src num (.rld .confirm sg ctx pa size va)) (4096 + h) src num .ok
      ((s.keysOf src pa va).foldl (fun m k => (m.setPending k false).setEmpty k) s.mem) s.cores :=
  .respond (u := s) (w := s.emptied src pa va) rfl rfl ..

/-- RETURN keeps the word full (R261). -/
theorem State.homeDo_ret (sg : Bool) (ctx pa size : Nat) (va : Word) :
    Answers s (s.homeDo h src num (.rld .ret sg ctx pa size va)) (4096 + h) src num .ok
      ((s.keysOf src pa va).foldl (fun m k => (m.setPending k false).setFull k) s.mem) s.cores :=
  .respond (u := s) (w := s.refilled src pa va) rfl rfl ..

/-- The turn of a write or an atomic noted, where it is one that counts (R159, R224). -/
theorem State.turned_rest (on : Bool) (o : Option Nat) (ctx : Nat) :
    ∃ l, (if on then s.noteTurn o src ctx else s) = { s with lastAt := l } := by
  cases on with
  | false => exact ⟨s.lastAt, rfl⟩
  | true => exact State.noteTurn_rest s o src ctx

/-- A write stores its bytes (R260). -/
theorem State.homeDo_write {va : Word} (hmv : s.hasMoved src va = false) (fe : Bool) (ctx pa size val col id : Nat) (sgn : Bool) :
    Answers s (s.homeDo h src num (.rst fe 0 ctx pa size val col va id sgn)) (4096 + h) src num .ok (s.mem.storeFe pa size val fe)
      (s.landed src id).cores := by
  obtain ⟨l, hl⟩ := State.turned_rest (s := s) (src := src) fe (unitOf pa) ctx
  have hst : ({ s with lastAt := l } : State).redirty src va = { s with lastAt := l } := State.redirty_still hmv
  obtain ⟨w, hw⟩ := State.noteWrite_rest ({ s with lastAt := l } : State) src (s.bornOf src id) pa size val fe
  let u : State := { s with mem := s.mem.storeFe pa size val fe, lastAt := l, wr := w }
  have hdo : s.homeDo h src num (.rst fe 0 ctx pa size val col va id sgn) = (u.landed src id).respond (4096 + h) src num .ok := by
    simp only [State.homeDo, hl, hst, if_true]
    rw [hw]
    rfl
  obtain ⟨cs, hcs⟩ := State.landed_rest u src id
  have hmem : (u.landed src id).mem = s.mem.storeFe pa size val fe := by rw [hcs]
  have hcores : (u.landed src id).cores = (s.landed src id).cores := State.landed_congr (s := s) (t := u) rfl ..
  rw [hdo, ← hmem, ← hcores]
  exact .respond (by rw [hcs]) (by rw [hcs]) ..

/-- An atomic gives the old value and stores the new one (R159, R260). -/
theorem State.homeDo_atomic {va : Word} {pa size : Nat} (hmv : s.hasMoved src va = false) (hp : s.mem.poisoned pa size = false) (op : Nat) (sgn : Bool)
    (ctx opnd cmp : Nat) :
    Answers s (s.homeDo h src num (.rat op sgn 0 ctx pa size opnd cmp va)) (4096 + h) src num (.data (s.mem.read pa size))
      ((s.mem.scrub pa size).atomic pa size op sgn opnd cmp).2 (s.noteSync src).cores := by
  have hc := Corrected.scrub s (if h < 8 then h else dieOf src) pa size
  have hm := State.mem_scrub s (if h < 8 then h else dieOf src) pa size
  simp only [State.homeDo, hp, Bool.false_eq_true, if_false, if_true]
  generalize s.scrub (if h < 8 then h else dieOf src) pa size = u at hc hm
  obtain ⟨l, hl⟩ := State.noteTurn_rest u (unitOf pa) src ctx
  obtain ⟨cs, hcs⟩ := State.noteSync_rest (u.noteTurn (unitOf pa) src ctx) src
  have hcores : cs = (s.noteSync src).cores := by
    have h1 : ((u.noteTurn (unitOf pa) src ctx).noteSync src).cores = (s.noteSync src).cores :=
      State.noteSync_congr (by rw [hl]; exact hc.cores) (by rw [hl]; exact hc.plans) src
    rwa [hcs] at h1
  have hst : ({ u with lastAt := l, cores := cs } : State).redirty src va = { u with lastAt := l, cores := cs } :=
    State.redirty_still ((State.hasMoved_congr hc.plans ..).trans hmv)
  have hh : u.homes = s.homes := by rw [hc.rest]
  rw [hcs, hl, ← hcores]
  simp only [Memory.atomic, Memory.read_scrub]
  cases atomicNew op sgn (8 * size) (s.mem.read pa size) opnd cmp with
  | none =>
    rw [← hm]
    exact .respond (w := { u with lastAt := l, cores := cs }) hc.eps hh ..
  | some v =>
    simp only [hst]
    obtain ⟨w, hw⟩ := State.noteWrite_rest ({ u with lastAt := l, cores := cs } : State) src (s.core src).retired pa size v false
    rw [hw, ← hm]
    exact .respond (w := { u with lastAt := l, cores := cs, wr := w, mem := u.mem.store pa size v }) hc.eps hh ..

end

/-! ### A request taken and performed (R255, R260) -/

/-- The blocks of a request counted: a recording that leaves memory. -/
theorem State.homeCount_counts (s : State) (h : Nat) (b : ReqBody) : Corrected s (s.homeCount h b) ∧ (s.homeCount h b).mem = s.mem := by
  have h0 : Corrected s s ∧ s.mem = s.mem := ⟨.refl s, rfl⟩
  have h1 : ∀ (u : State) ev, Corrected s u ∧ u.mem = s.mem → Corrected s (u.count h ev 1) ∧ (u.count h ev 1).mem = s.mem :=
    fun u ev hu => ⟨hu.1.trans (.count ..), by rw [State.count_mem, hu.2]⟩
  unfold State.homeCount
  split
  · split
    · exact h1 _ _ h0
    · exact h0
  · split
    · exact h1 _ _ h0
    · exact h0
  · split
    · dsimp only
      split
      · exact h1 _ _ (h1 _ _ h0)
      · exact h1 _ _ h0
    · exact h0
  all_goals exact h0

/-- A home's state when it performs a request: the request taken, its blocks counted, a fresh value drawn for the device of a second tier. -/
def State.admitted (s : State) (h : Nat) (r : InReq) (left : List InReq) (b : ReqBody) : State :=
  ((if secondTier r.body.addr.1 then s.tick else s).took (4096 + h) r left).homeCount h b

/-- A request taken, with the fresh value that its device draws (R262). -/
theorem State.drawn_rest (s : State) (r : InReq) (ep : Nat) (left : List InReq) :
    ∃ n, (if secondTier r.body.addr.1 then s.tick else s).took ep r left = { s.took ep r left with fresh := n } := by
  cases secondTier r.body.addr.1
  · exact ⟨s.fresh, rfl⟩
  · exact ⟨s.fresh + 1, rfl⟩

/-- What admission leaves. -/
theorem State.admitted_spec (s : State) (h : Nat) (r : InReq) (left : List InReq) (b : ReqBody) : let u := s.admitted h r left b
    Seen s u ∧ u.mem = s.mem ∧ u.homes = s.homes ∧ u.ep (4096 + h) = (s.took (4096 + h) r left).ep (4096 + h) := by
  obtain ⟨n, hn⟩ := s.drawn_rest r (4096 + h) left
  obtain ⟨hc, hm⟩ := State.homeCount_counts { s.took (4096 + h) r left with fresh := n } h b
  have hu : s.admitted h r left b = State.homeCount { s.took (4096 + h) r left with fresh := n } h b := by rw [State.admitted, hn]
  rw [hu]
  refine ⟨Seen.trans (t := { s.took (4096 + h) r left with fresh := n }) ⟨rfl, rfl, fun _ => rfl, rfl⟩ (.of_corrected hc), hm, by rw [hc.rest]; rfl, ?_⟩
  simp only [State.ep, hc.eps]

/-- The interface of a home has taken the request `r` and answered it with `v`. -/
def TakenAndAnswered (s t : State) (h : Nat) (r : InReq) (left : List InReq) (v : Rsp) : Prop :=
  (t.ep (4096 + h)).inj1 = (s.ep (4096 + h)).inj1 ++ rspFlits r.src (4096 + h) r.num v ∧
    AMap.get 0 (t.ep (4096 + h)).expect r.src = (r.num + 1) % 32 ∧ (t.ep (4096 + h)).ready = left

/-- A request that a home can perform now, where none waits, is taken and answered. -/
theorem State.homeServe_performs {s : State} {h : Nat} {r : InReq} {left : List InReq} {b : ReqBody} {v : Rsp} {m : Memory} {cs : AMap CoreSt}
    (hplan : s.homePlan h r.src r.body = .perform b) (hearly : s.tooEarly r.src b = false) (hcame : s.justCame r = false) (hw : (s.home h).wait = [])
    (ha : Answers (s.admitted h r left b) ((s.admitted h r left b).homeDo h r.src r.num b) (4096 + h) r.src r.num v m cs) :
    TakenAndAnswered s (s.homeServe h r left) h r left v ∧ (s.homeServe h r left).mem = m ∧ (s.homeServe h r left).cores = cs := by
  obtain ⟨-, -, hh, he⟩ := s.admitted_spec h r left b
  have hserve : s.homeServe h r left = ((s.admitted h r left b).homeDo h r.src r.num b).serveAll h := by
    simp only [State.homeServe, hplan, hearly, hcame, Bool.or_self, Bool.false_eq_true, if_false, State.admitted]
  rw [hserve, State.serveAll_none (by rw [ha.home, State.home, hh]; exact hw), TakenAndAnswered, ha.inj1, ha.expect, ha.ready, he]
  simp [State.took, ha.mem, ha.cores]

/-! ### What a home performs is the request that has come (R260, R262) -/

theorem State.homePlan_perform {s : State} {h src : Nat} {b b' : ReqBody} (hp : s.homePlan h src b = .perform b') : ∃ pa, b' = b.setPa pa := by
  simp only [State.homePlan] at hp
  split at hp
  next => cases hp
  next pa _ =>
    split at hp
    next => cases hp
    next =>
      split at hp
      next => cases hp
      next =>
        cases hp
        exact ⟨pa, rfl⟩

/-- A read performed is a read of the same mode that has come. -/
theorem ReqBody.of_setPa_rld {b : ReqBody} {k pa : Nat} {m : RMode} {sg : Bool} {c size : Nat} {va : Word} (hb : ReqBody.rld m sg c pa size va = b.setPa k) :
    ∃ k', b = .rld m sg c k' size va := by
  cases b with
  | rld m' sg' c' k' size' va' =>
    cases hb
    exact ⟨k', rfl⟩
  | _ => cases hb

/-- A write performed is a write that has come. -/
theorem ReqBody.of_setPa_rst {b : ReqBody} {k pa rp : Nat} {fe sgn : Bool} {c size val col id : Nat} {va : Word}
    (hb : ReqBody.rst fe rp c pa size val col va id sgn = b.setPa k) : ∃ k', b = .rst fe rp c k' size val col va id sgn := by
  cases b with
  | rst fe' rp' c' k' size' val' col' va' id' sgn' =>
    cases hb
    exact ⟨k', rfl⟩
  | _ => cases hb

/-- Such a read comes in turn at once. -/
theorem State.justCame_read {s : State} {h : Nat} {r : InReq} {m : RMode} {sg : Bool} {c pa size : Nat} {va : Word}
    (hp : s.homePlan h r.src r.body = .perform (.rld m sg c pa size va)) : s.justCame r = false ∧ ∃ k, r.body = .rld m sg c k size va := by
  obtain ⟨k, hk⟩ := State.homePlan_perform hp
  obtain ⟨k', hb⟩ := ReqBody.of_setPa_rld hk
  exact ⟨by simp [State.justCame, hb], k', hb⟩

theorem Endp.due_accepts {e : Endp} {p : InReq → Bool} {r : InReq} {left : List InReq} (hd : e.due p = some (r, left)) : p r = true :=
  (Bool.and_eq_true .. ▸ takeFirst_accepts hd).2

/-- Of the reads that are asked for none is a CANCEL, a CONFIRM or a RETURN. -/
theorem InReq.mode_of_asks {r : InReq} {m : RMode} {sg : Bool} {c k size : Nat} {va : Word} (ha : r.asks = true) (hb : r.body = .rld m sg c k size va) :
    m = .plain ∨ m = .sync ∨ m = .synce ∨ m = .fe := by
  simp only [InReq.asks, hb, Bool.and_eq_true, Bool.or_eq_true, beq_iff_eq] at ha
  tauto

/-! ### Requests that wait, and CANCEL (R261) -/

/-- What is done between taking a request and answering it leaves the interface as it was when the request was taken. -/
theorem State.takenAndAnswered {s u : State} {h : Nat} {r : InReq} {left : List InReq} (he : u.eps = (s.took (4096 + h) r left).eps) (v : Rsp) :
    TakenAndAnswered s (u.respond (4096 + h) r.src r.num v) h r left v := by
  obtain ⟨hr, hi⟩ := State.ep_answered v he
  have hu : u.ep (4096 + h) = (s.took (4096 + h) r left).ep (4096 + h) := by simp only [State.ep, he]
  refine ⟨hi, ?_, hr⟩
  simp [State.respond, State.sendRsp, hu, State.took]

/-- The park of a requester changes the cores alone. -/
theorem State.stayPark_rest (s : State) (core : Nat) (b : ReqBody) (reason : Nat) : ∃ cs, s.stayPark core b reason = { s with cores := cs } := by
  have hite : ∀ (c : Bool) (n x : Nat) (f : Ctx → Ctx), ∃ cs, (if c then s.onCtx n x f else s) = { s with cores := cs } := fun c n x f => by
    cases c
    · exact ⟨s.cores, rfl⟩
    · exact ⟨_, rfl⟩
  unfold State.stayPark
  dsimp only
  split
  iterate 5 exact hite ..
  all_goals exact ⟨s.cores, rfl⟩

theorem State.stayAt_rest (s : State) (h : Nat) (l : Lodged) (reason : Nat) : ∃ cs, s.stayAt h l reason = { s with cores := cs } := by
  unfold State.stayAt
  split
  · exact ⟨s.cores, rfl⟩
  · split
    · exact State.stayPark_rest ..
    · split
      · exact State.stayPark_rest ..
      · exact ⟨s.cores, rfl⟩

/-- A home with one more request in its wait list. -/
def Home.join (l : Lodged) (x : Home) : Home := { x with wait := x.wait ++ [l] }

theorem State.joinWait_rest (s : State) (h src num : Nat) (b : ReqBody) :
    ∃ cs, s.joinWait h src num b = { s.onHome h (Home.join ⟨src, num, b, s.time, s.time⟩) with cores := cs } :=
  State.stayAt_rest ..

/-- A request that has to wait joins the list, where that has room. -/
theorem State.homeServe_waits {s : State} {h : Nat} {r : InReq} {left : List InReq} {b : ReqBody} (hplan : s.homePlan h r.src r.body = .wait b)
    (hroom : (s.home h).wait.length < 64) : let t := s.homeServe h r left
    (t.home h).wait = (s.home h).wait ++ [⟨r.src, r.num, b, s.time, s.time⟩] ∧ t.mem = s.mem := by
  obtain ⟨n, hn⟩ := s.drawn_rest r (4096 + h) left
  obtain ⟨cs, hcs⟩ := State.joinWait_rest { s.took (4096 + h) r left with fresh := n } h r.src r.num b
  have hserve : s.homeServe h r left = State.joinWait { s.took (4096 + h) r left with fresh := n } h r.src r.num b := by
    simp only [State.homeServe, hplan, if_neg (Nat.not_le.mpr hroom), hn]
  rw [hserve, hcs]
  exact ⟨congrArg Home.wait (State.home_onHome (s.took (4096 + h) r left) h (Home.join ⟨r.src, r.num, b, s.time, s.time⟩)), rfl⟩

/-- A home once a CANCEL has taken the reads that it names away. -/
def Home.cancel (src : Nat) (b : ReqBody) (x : Home) : Home :=
  { x with wait := x.wait.filter (fun l => !l.cancelled src b), lodge := x.lodge.filter (fun l => !l.cancelled src b) }

theorem State.homeCancel_eq {s : State} {h src num : Nat} {b : ReqBody} (hw : (s.home h).wait.filter (fun l => !l.cancelled src b) = []) :
    s.homeCancel h src num b = (s.onHome h (Home.cancel src b)).respond (4096 + h) src num
      (.data (if ((s.home h).wait ++ (s.home h).lodge).all (fun l => !l.cancelled src b) then 0 else 1)) := by
  have hhit : ((s.home h).wait ++ (s.home h).lodge).any (fun l => l.cancelled src b) =
      !((s.home h).wait ++ (s.home h).lodge).all (fun l => !l.cancelled src b) := by
    rw [List.all_eq_not_any_not]
    simp
  have hserve : ∀ v, ((s.onHome h (Home.cancel src b)).respond (4096 + h) src num v).serveAll h =
      (s.onHome h (Home.cancel src b)).respond (4096 + h) src num v := fun v => by
    refine State.serveAll_none ?_
    show ((s.onHome h (Home.cancel src b)).home h).wait = []
    rw [State.home_onHome]
    exact hw
  have hc : s.homeCancel h src num b = ((s.onHome h (Home.cancel src b)).respond (4096 + h) src num
      (.data (if ((s.home h).wait ++ (s.home h).lodge).any (fun l => l.cancelled src b) then 1 else 0))).serveAll h := rfl
  rw [hc, hserve, hhit]
  cases ((s.home h).wait ++ (s.home h).lodge).all (fun l => !l.cancelled src b) <;> rfl

/-! ### The events of a home -/

section
variable {s : State} {h : Nat} {r : InReq} {left : List InReq}

theorem exec_remoteRead (hd : (s.ep (4096 + h)).due InReq.asks = some (r, left)) : exec (.remoteRead h) s = .next (s.homeServe h r left) := by
  show execRemoteRead h s = _
  simp only [execRemoteRead, hd]

theorem exec_remoteWrite (hd : (s.ep (4096 + h)).due (fun r => r.body.sort == .write) = some (r, left)) :
    exec (.remoteWrite h) s = .next (s.homeServe h r left) := by
  show execRemoteWrite h s = _
  simp only [execRemoteWrite, hd]

theorem exec_remoteAtomic (hd : (s.ep (4096 + h)).due (fun r => r.body.sort == .atomic) = some (r, left)) :
    exec (.remoteAtomic h) s = .next (s.homeServe h r left) := by
  show execRemoteAtomic h s = _
  simp only [execRemoteAtomic, hd]

theorem exec_synceConfirm (hd : (s.ep (4096 + h)).due (InReq.isMode .confirm) = some (r, left)) :
    exec (.synceConfirm h) s = .next (s.homeServe h r left) := by
  show execSynceConfirm h s = _
  simp only [execSynceConfirm, hd]

theorem exec_synceReturn (hd : (s.ep (4096 + h)).due (InReq.isMode .ret) = some (r, left)) :
    exec (.synceReturn h) s = .next (s.homeServe h r left) := by
  show execSynceReturn h s = _
  simp only [execSynceReturn, hd]

theorem exec_waitCancel (hd : (s.ep (4096 + h)).due (InReq.isMode .cancel) = some (r, left)) :
    exec (.waitCancel h) s = .next ((s.took (4096 + h) r left).homeCancel h r.src r.num r.body) := by
  show execWaitCancel h s = _
  simp only [execWaitCancel, hd]

/-- A read of poisoned bytes fails, and nothing else changes (R150). -/
theorem State.homeServe_read_poisoned {m : RMode} {sg : Bool} {c pa size : Nat} {va : Word} (hn : r.num < 32) (hw : (s.home h).wait = [])
    (hasks : r.asks = true) (hplan : s.homePlan h r.src r.body = .perform (.rld m sg c pa size va)) (hp : s.mem.poisoned pa size = true) :
    let t := s.homeServe h r left
    TakenAndAnswered s t h r left (.plain .fault Cause.eccUncorrected.code) ∧ t.mem = s.mem ∧ t.cores = s.cores := by
  obtain ⟨hv, hm, -, -⟩ := s.admitted_spec h r left (.rld m sg c pa size va)
  obtain ⟨hcame, k, hb⟩ := State.justCame_read hplan
  have ha := State.readAtHome_poisoned (h := h) (src := r.src) hn (by rwa [← hm] at hp) (.rld m sg c pa size va) m c va
  rw [← State.homeDo_read (InReq.mode_of_asks hasks hb), hm, hv.cores] at ha
  exact State.homeServe_performs hplan rfl hcame hw ha

/-- A read of sound bytes is answered with its block (R217, R261). -/
theorem State.homeServe_read_sound {m : RMode} {sg : Bool} {c pa size : Nat} {va : Word} (hn : r.num < 32) (hw : (s.home h).wait = [])
    (hasks : r.asks = true) (hplan : s.homePlan h r.src r.body = .perform (.rld m sg c pa size va)) (hp : s.mem.poisoned pa size = false) :
    let t := s.homeServe h r left
    TakenAndAnswered s t h r left (.block (s.readGives m r.src pa size)) ∧ t.mem = s.readLeaves m r.src pa size va ∧
      t.cores = s.readNotes m r.src c pa size := by
  obtain ⟨hv, hm, -, -⟩ := s.admitted_spec h r left (.rld m sg c pa size va)
  obtain ⟨hcame, k, hb⟩ := State.justCame_read hplan
  have ha := State.readAtHome_sound (h := h) (src := r.src) hn (by rwa [← hm] at hp) (.rld m sg c pa size va) m c va
  rw [← State.homeDo_read (InReq.mode_of_asks hasks hb), hv.readGives hm, hv.readLeaves hm, hv.readNotes] at ha
  exact State.homeServe_performs hplan rfl hcame hw ha

/-- A write stores its bytes (R260). -/
theorem State.homeServe_write {fe sgn : Bool} {c pa size val col id : Nat} {va : Word} (hw : (s.home h).wait = []) (hmv : s.hasMoved r.src va = false)
    (hplan : s.homePlan h r.src r.body = .perform (.rst fe 0 c pa size val col va id sgn))
    (hearly : s.tooEarly r.src (.rst fe 0 c pa size val col va id sgn) = false) (hsince : fe = true → r.since ≠ s.time) : let t := s.homeServe h r left
    TakenAndAnswered s t h r left .ok ∧ t.mem = s.mem.storeFe pa size val fe ∧ t.cores = (s.landed r.src id).cores := by
  obtain ⟨hv, hm, -, -⟩ := s.admitted_spec h r left (.rst fe 0 c pa size val col va id sgn)
  obtain ⟨k, hk⟩ := State.homePlan_perform hplan
  obtain ⟨k', hb⟩ := ReqBody.of_setPa_rst hk
  have hcame : s.justCame r = false := by
    simp only [State.justCame, hb, Bool.and_eq_false_iff, beq_eq_false_iff_ne]
    cases fe with
    | false => exact .inr rfl
    | true => exact .inl (hsince rfl)
  have ha := State.homeDo_write (h := h) (num := r.num) ((State.hasMoved_congr hv.plans ..).trans hmv) fe c pa size val col id sgn
  rw [hm, hv.landed] at ha
  exact State.homeServe_performs hplan hearly hcame hw ha

/-- An atomic gives the old value and stores the new one (R159, R260). -/
theorem State.homeServe_atomic {op c pa size opnd cmp : Nat} {sgn : Bool} {va : Word} (hw : (s.home h).wait = []) (hmv : s.hasMoved r.src va = false)
    (hplan : s.homePlan h r.src r.body = .perform (.rat op sgn 0 c pa size opnd cmp va))
    (hearly : s.tooEarly r.src (.rat op sgn 0 c pa size opnd cmp va) = false) (hsince : r.since ≠ s.time) (hp : s.mem.poisoned pa size = false) :
    let t := s.homeServe h r left
    TakenAndAnswered s t h r left (.data (s.mem.read pa size)) ∧ t.mem = ((s.mem.scrub pa size).atomic pa size op sgn opnd cmp).2 ∧
      t.cores = (s.noteSync r.src).cores := by
  obtain ⟨hv, hm, -, -⟩ := s.admitted_spec h r left (.rat op sgn 0 c pa size opnd cmp va)
  have hcame : s.justCame r = false := by simp [State.justCame, hsince]
  have ha := State.homeDo_atomic (h := h) (num := r.num) ((State.hasMoved_congr hv.plans ..).trans hmv) (by rwa [← hm] at hp) op sgn c opnd cmp
  rw [hm, hv.noteSync] at ha
  exact State.homeServe_performs hplan hearly hcame hw ha

/-- CONFIRM empties the pending word (R261). -/
theorem State.homeServe_confirm {sg : Bool} {c pa size : Nat} {va : Word} (hw : (s.home h).wait = [])
    (hplan : s.homePlan h r.src r.body = .perform (.rld .confirm sg c pa size va)) : let t := s.homeServe h r left
    TakenAndAnswered s t h r left .ok ∧ t.mem = (s.keysOf r.src pa va).foldl (fun m k => (m.setPending k false).setEmpty k) s.mem ∧ t.cores = s.cores := by
  obtain ⟨hv, hm, -, -⟩ := s.admitted_spec h r left (.rld .confirm sg c pa size va)
  have ha := State.homeDo_confirm (s := s.admitted h r left (.rld .confirm sg c pa size va)) (h := h) (src := r.src) (num := r.num) sg c pa size va
  rw [hm, hv.keysOf, hv.cores] at ha
  exact State.homeServe_performs hplan rfl (State.justCame_read hplan).1 hw ha

/-- RETURN keeps the pending word full (R261). -/
theorem State.homeServe_ret {sg : Bool} {c pa size : Nat} {va : Word} (hw : (s.home h).wait = [])
    (hplan : s.homePlan h r.src r.body = .perform (.rld .ret sg c pa size va)) : let t := s.homeServe h r left
    TakenAndAnswered s t h r left .ok ∧ t.mem = (s.keysOf r.src pa va).foldl (fun m k => (m.setPending k false).setFull k) s.mem ∧ t.cores = s.cores := by
  obtain ⟨hv, hm, -, -⟩ := s.admitted_spec h r left (.rld .ret sg c pa size va)
  have ha := State.homeDo_ret (s := s.admitted h r left (.rld .ret sg c pa size va)) (h := h) (src := r.src) (num := r.num) sg c pa size va
  rw [hm, hv.keysOf, hv.cores] at ha
  exact State.homeServe_performs hplan rfl (State.justCame_read hplan).1 hw ha

end

/-- The requests of the homes (R159, R260, R261). -/
theorem homeRequests : Says.HomeRequests := by
  unfold Says.HomeRequests
  intro s h r left hn e answers
  refine ⟨fun hw => ⟨fun m sg c pa size va hdue hplan => ⟨fun hp => ?_, fun hp => ?_⟩, fun fe c pa size val col va id sgn hdue hmv hplan hearly hcame => ?_,
    fun op sgn c pa size opnd cmp va hdue hmv hplan hearly hcame hp => ?_, fun sg c pa size va hdue hplan => ?_, fun sg c pa size va hdue hplan => ?_⟩,
    fun b hdue hplan hroom => ?_, ?_⟩
  · exact ⟨_, exec_remoteRead hdue, State.homeServe_read_poisoned hn hw (Endp.due_accepts hdue) hplan hp⟩
  · obtain ⟨hans, hmem, hc⟩ := State.homeServe_read_sound (left := left) hn hw (Endp.due_accepts hdue) hplan hp
    refine ⟨_, exec_remoteRead hdue, ?_, hmem⟩
    simp only [State.readGives, State.readNotes] at hans hc
    split
    next hs => exact ⟨by rwa [if_pos hs] at hans, by rwa [if_pos hs] at hc⟩
    next hs => exact ⟨by rwa [if_neg hs] at hans, by rwa [if_neg hs] at hc⟩
  · exact ⟨_, exec_remoteWrite hdue, State.homeServe_write hw hmv hplan hearly hcame⟩
  · exact ⟨_, exec_remoteAtomic hdue, State.homeServe_atomic hw hmv hplan hearly hcame hp⟩
  · obtain ⟨hans, hmem, hc⟩ := State.homeServe_confirm (left := left) hw hplan
    exact ⟨_, exec_synceConfirm hdue, hans, hc, hmem⟩
  · obtain ⟨hans, hmem, hc⟩ := State.homeServe_ret (left := left) hw hplan
    exact ⟨_, exec_synceReturn hdue, hans, hc, hmem⟩
  · exact ⟨_, exec_remoteRead hdue, State.homeServe_waits hplan hroom⟩
  · intro others hdue hw
    have hhome := State.home_onHome (s.took (4096 + h) r left) h (Home.cancel r.src r.body)
    refine ⟨_, exec_waitCancel hdue, ?_⟩
    rw [State.homeCancel_eq (s := s.took (4096 + h) r left) hw]
    exact ⟨(congrArg Home.wait hhome).trans hw, congrArg Home.lodge hhome, rfl, rfl, State.takenAndAnswered rfl _⟩

/-! ### The lodge and its notices (R262, R263) -/

/-- A home with a lodge. -/
def Home.withLodge (rest : List Lodged) (x : Home) : Home := { x with lodge := rest }

/-- A home of a compute die serves the oldest entry of its own lodge. -/
theorem exec_lodgeService {s : State} {h : Nat} {l : Lodged} {rest : List Lodged} {sg : Bool} {c pa0 size : Nat} {va : Word} (hh : h < 16)
    (hl : (s.home h).lodge = l :: rest) (hb : l.body = .rld .plain sg c pa0 size va) :
    exec (.lodgeService h) s = .next ((s.onHome h (Home.withLodge rest)).servePage h l) := by
  show execLodgeService h s = _
  simp only [execLodgeService, State.lodgeDo, if_pos hh, hl, State.serveLodged, hb]
  rfl

/-- A lodged plain read whose page stands is performed there, where no request waits at the home. -/
theorem State.servePage_reads {s : State} {h : Nat} {l : Lodged} {sg : Bool} {c pa0 size pa : Nat} {va : Word} (hn : l.num < 32)
    (hw : (s.home h).wait = []) (hb : l.body = .rld .plain sg c pa0 size va) (hre : s.retranslate l.src pa0 va = some pa)
    (htier : secondTier pa = false) (hp : s.mem.poisoned pa size = false) : let t := s.servePage h l
    t.homes = s.homes ∧ (t.ep (4096 + h)).inj1 = (s.ep (4096 + h)).inj1 ++ rspFlits l.src (4096 + h) l.num (.block (s.blockFor l.src pa size)) ∧
      t.mem = s.mem.scrub pa size := by
  obtain ⟨hc, hm⟩ := State.homeCount_counts s h (.rld .plain sg c pa size va)
  have hserve : s.servePage h l = ((s.homeCount h (.rld .plain sg c pa size va)).homeDo h l.src l.num (.rld .plain sg c pa size va)).serveAll h := by
    simp [State.servePage, hb, ReqBody.addr, hre, ReqBody.setPa, State.deviceDown, htier, hw, ReqBody.blocked]
  have ha := State.readAtHome_sound (h := h) (src := l.src) hn (by rwa [← hm] at hp) (.rld .plain sg c pa size va) .plain c va
  have hhomes := ha.homes.trans (by rw [hc.rest] : (s.homeCount h (.rld .plain sg c pa size va)).homes = s.homes)
  have hep : (s.homeCount h (.rld .plain sg c pa size va)).ep (4096 + h) = s.ep (4096 + h) := by simp only [State.ep, hc.eps]
  rw [hserve, State.homeDo_read (.inl rfl), State.serveAll_none (by rw [State.home, hhomes]; exact hw)]
  refine ⟨hhomes, ?_, ?_⟩
  · rw [ha.inj1, hep, State.readGives, if_neg (by simp), (Seen.of_corrected hc).blockFor]
  · rw [ha.mem, State.readLeaves, if_neg (by simp), hm]

theorem stayed_due {now : Nat} {l : Lodged} (hdue : l.told + 4096 ≤ now) : stayed now [l] = [{ l with told := now }] := by
  simp [stayed, Nat.not_lt.mpr hdue]

/-- A home whose entries start their period again. -/
def Home.stayedAt (now : Nat) (x : Home) : Home := { x with wait := stayed now x.wait, lodge := stayed now x.lodge }

theorem exec_stayNoticeSend (s : State) (h : Nat) : exec (.stayNoticeSend h) s =
    .next (((s.home h).wait.foldl (fun s l => s.stay h l 1) ((s.home h).lodge.foldl (fun s l => s.stay h l 0) s)).onHome h (Home.stayedAt s.time)) := rfl

/-- The notice for an entry (R263). -/
def Lodged.notice (l : Lodged) (h why : Nat) : Flit :=
  mkFlit (mkHdr (epNum l.src) (epNum (4096 + l.engine h)) 12 l.num 0 0) (wordsBytes [BitVec.ofNat 64 why]) (.stay why)

/-- An interface with one more flit to send as a response. -/
def Endp.put (f : Flit) (e : Endp) : Endp := { e with inj1 := e.inj1 ++ [f] }

/-- A notice given for the one entry of a home whose period is over (R263). -/
theorem State.stay_noticed {s : State} {h : Nat} {l : Lodged} (hn : l.num < 32) (hdue : l.told + 4096 ≤ s.time) (why : Nat) :
    let t := (s.stay h l why).onHome h (Home.stayedAt s.time)
    (t.ep (4096 + l.engine h)).inj1 = (s.ep (4096 + l.engine h)).inj1 ++ [l.notice h why] ∧ t.home h = (s.home h).stayedAt s.time ∧ t.mem = s.mem := by
  have hstay : s.stay h l why = s.onEp (4096 + l.engine h) (Endp.put (l.notice h why)) := by
    rw [State.stay, if_neg (by simp [Nat.not_lt.mpr hdue, Nat.not_le.mpr hn])]
    rfl
  rw [hstay]
  exact ⟨congrArg Endp.inj1 (State.ep_onEp_self s _ (Endp.put (l.notice h why))), State.home_onHome .., rfl⟩

/-- Service of the lodge, and stay notices (R262, R263). -/
theorem lodgeEvents : Says.LodgeEvents := by
  unfold Says.LodgeEvents
  intro s h l rest hn e g notice
  refine ⟨fun sg c pa0 size va pa hh hl hw hb hre htier hp => ?_, fun hdue => ⟨fun hl hw => ?_, fun hl hw => ?_⟩⟩
  · have hhome := State.home_onHome s h (Home.withLodge rest)
    obtain ⟨ht, hi, hm⟩ := State.servePage_reads (s := s.onHome h (Home.withLodge rest)) hn (by rw [hhome]; exact hw) hb hre htier hp
    refine ⟨_, exec_lodgeService hh hl hb, ?_, hi, hm⟩
    rw [State.home, ht]
    exact congrArg Home.lodge hhome
  · have hx := exec_stayNoticeSend s h
    rw [hl, hw] at hx
    obtain ⟨hi, hh, hm⟩ := State.stay_noticed (h := h) hn hdue 0
    exact ⟨_, hx, hi, by rw [List.foldl_nil, List.foldl_cons, List.foldl_nil, hh, Home.stayedAt, hl, stayed_due hdue], hm⟩
  · have hx := exec_stayNoticeSend s h
    rw [hl, hw] at hx
    obtain ⟨hi, hh, hm⟩ := State.stay_noticed (h := h) hn hdue 1
    exact ⟨_, hx, hi, by rw [List.foldl_nil, List.foldl_cons, List.foldl_nil, hh, Home.stayedAt, hw, stayed_due hdue], hm⟩

/-- Settles O49: a home's requests by what `homeDo` does with each, its lodge and its notices. -/
theorem homeEvents : Obligations.HomeEvents := ⟨homeRequests, lodgeEvents⟩

end Sys2Proof.Machine
end

section
/-!
SUPPORT. Atomics on a local memory (R159, R221, R222) and FENCE (R162, R223), and O10 and O12 from them: what they note of the core's view of a quantum,
where they wait, and what an atomic leaves in memory.
-/

namespace Sys2Proof.Machine

/-! ### Effects that leave a core but for what it sees of the quantum (log 58) -/

/-- No context, no interface and no home has changed, nor of the cores more than what the running one sees of the quantum. -/
structure Synced (s t : State) : Prop where
  ctx   : ∀ n c, t.ctx n c = s.ctx n c
  side  : (t.core s.cur.1).side = (s.core s.cur.1).side
  cores : ∀ n, n ≠ s.cur.1 → t.core n = s.core n
  eps   : t.eps = s.eps
  homes : t.homes = s.homes
  cur   : t.cur = s.cur
  time  : t.time = s.time

namespace Synced
variable {s t u : State}

theorem of_unmoved (h : Unmoved s t) : Synced s t := ⟨h.ctx, by rw [h.core], fun n _ => h.core n, h.eps, h.homes, h.cur, h.time⟩

theorem refl (s : State) : Synced s s := of_unmoved (.refl s)

theorem trans (h : Synced s t) (g : Synced t u) : Synced s u where
  ctx n c := (g.ctx n c).trans (h.ctx n c)
  side := by rw [← h.side, ← h.cur]; exact g.side
  cores n hn := (g.cores n (by rwa [h.cur])).trans (h.cores n hn)
  eps := g.eps.trans h.eps
  homes := g.homes.trans h.homes
  cur := g.cur.trans h.cur
  time := g.time.trans h.time

/-- The running core sees from now on what the others have written in the quantum. -/
theorem noteSync (s : State) : Synced s (s.noteSync s.cur.1) := by
  unfold State.noteSync
  split
  · refine ⟨fun n c => ?_, by simp [CoreSt.side], fun n hn => State.core_onCore_ne _ _ hn, rfl, rfl, rfl, rfl⟩
    by_cases hn : n = s.cur.1
    · subst hn; simp [State.ctx, CoreSt.ctx]
    · simp [State.ctx, State.core_onCore_ne _ _ hn]
  · exact refl s

theorem me (h : Synced s t) : t.me = s.me := by simp only [State.me, h.cur, h.ctx]
theorem steady (h : Synced s t) (hs : Steady s) : Steady t := by simpa only [Steady, h.me] using hs

/-- What retires after such an effect retires from before it. -/
theorem retired {ip : Word} {r : Ctx} {m : Memory} (h : Synced s t) (hr : Retired t u ip r m) : Retired s u ip r m where
  ip := hr.ip
  regs := hr.regs
  mem := hr.mem
  peers c hc := by rw [← h.cur, hr.peers c (by rwa [h.cur]), h.ctx]
  core := by rw [← h.side, ← h.cur]; exact hr.core
  cores n hn := by rw [hr.cores n (by rwa [h.cur]), h.cores n hn]
  eps := hr.eps.trans h.eps
  homes := hr.homes.trans h.homes
  cur := hr.cur.trans h.cur
  time := hr.time.trans h.time

/-- An instruction retires after such an effect, with nothing written of its context. -/
theorem retire (h : Synced s t) (hs : Steady s) : Retired s t.retire (nextIp s.me.latch.nh s.me.ip) s.me t.mem := by
  rw [retire_eq s t (by rw [h.me]) (by rw [h.me]), ← h.me]
  exact h.retired (retired_self t _ (h.steady hs))

/-- An instruction retires after such an effect with a value in a register. -/
theorem retire_setG (h : Synced s t) (hs : Steady s) (d : GReg) (v : Word) :
    Retired s (t.setG d v).retire (nextIp s.me.latch.nh s.me.ip) (s.me.putG d v) t.mem := by
  rw [retire_eq s (t.setG d v) (by simp [h.me]) (by simp [h.me]), ← h.me]
  exact h.retired (retired_setG t _ d v (h.steady hs))

end Synced

theorem Unmoved.scrub (s : State) (die k n : Nat) : Unmoved s (s.scrub die k n) := by
  have hc := Corrected.scrub s die k n
  exact ⟨hc.cores, hc.eps, by rw [hc.rest], by rw [hc.rest], by rw [hc.rest]⟩

/-- An instruction that waits without parking leaves its IP, its registers and memory (R57). -/
theorem waits_of_stop {i : Instr} {s : State} {r : Stall} (hx : exec i s = run (.stop (.wait r) s)) :
    ∃ t, exec i s = .next t ∧ t.me.ip = s.me.ip ∧ t.me.st = s.me.st ∧ t.me.g = s.me.g ∧ t.mem = s.mem :=
  ⟨_, hx, by simp [State.takeStop, State.waitAt]⟩

/-! ### FENCE (R162, R223) -/

section
variable {s : State} {mask : BitVec 8} {sc : Scope}

/-- With no failed store to report, FENCE waits for the stores in the lanes, at SYS for the window stores, or completes. -/
theorem exec_fence (hf : scopeDrains sc = true → s.me.failed = []) : exec (.fence mask sc) s = run
    (if scopeDrains sc && s.maskBusy mask then .stop (.wait .fence) s
     else if sc = .sys && s.windowBusy mask then .stop (.wait .fence) s
     else .ok () (if sc = .ctx then s else s.noteSync s.cur.1)) := by
  have hcheck : (if scopeDrains sc then s.failCheckMask mask else .ok () s) = Res.ok () s := by
    split
    next hsc => rw [State.failCheckMask, hf hsc]; rfl
    next => rfl
  show execFence mask sc s = _
  rw [execFence, hcheck]
  rfl

end

theorem fenceCompletes : Says.FenceCompletes := by
  intro s mask sc hs hl hw
  have hdrain : scopeDrains sc = true → s.maskBusy mask = false ∧ s.me.failed = [] := by
    rcases hl with rfl | rfl | h
    · simp [scopeDrains]
    · simp [scopeDrains]
    · exact fun _ => h
  have hlanes : (scopeDrains sc && s.maskBusy mask) = false := by
    cases hsc : scopeDrains sc with
    | false => rfl
    | true => simpa using (hdrain hsc).1
  have hwin : (sc = .sys && s.windowBusy mask) = false := by
    by_cases hsc : sc = .sys <;> simp [hsc, hw]
  have hsync : Synced s (if sc = .ctx then s else s.noteSync s.cur.1) := by
    split
    · exact .refl s
    · exact .noteSync s
  have hmem : (if sc = .ctx then s else s.noteSync s.cur.1).mem = s.mem := by
    obtain ⟨l, hl⟩ := State.noteSync_rest s s.cur.1
    split
    · rfl
    · rw [hl]
  refine ⟨_, ?_, hmem ▸ hsync.retire hs⟩
  rw [exec_fence (fun h => (hdrain h).2), hlanes, hwin]
  rfl

theorem fenceWaits : Says.FenceWaits := by
  intro s mask sc hsc hf hb
  have hdrains : scopeDrains sc = true := by
    rcases hsc with rfl | rfl | rfl | rfl <;> rfl
  refine waits_of_stop (r := .fence) ?_
  rw [exec_fence (fun _ => hf), hdrains, hb]
  rfl

/-- Settles O12: FENCE is decided by the stores that its scope waits for, and where it completes it only notes what its core sees of the quantum. -/
theorem fenceForms : Obligations.FenceForms := ⟨fenceCompletes, fenceWaits⟩

/-! ### The value and the memory of an atomic (R221) -/

theorem leNat_lt (l : List Byte) : leNat l < 256 ^ l.length := by
  induction l with
  | nil => simp [leNat]
  | cons b t ih =>
    have hb := b.isLt
    rw [leNat, List.length_cons, Nat.pow_succ]
    omega

theorem Memory.read_lt (m : Memory) (k n : Nat) : m.read k n < 256 ^ n := by
  have h := leNat_lt (m.bytes k n)
  rwa [Memory.bytes_length] at h

/-- The value that an atomic leaves, also where ACAS fails, is that of R221. -/
theorem getD_atomicNew (q : IQ) (op old b c : Nat) : (atomicNew op q.sgn (szOf q) old b c).getD old = atomicResult q op old b c := by
  match op with
  | 0 | 1 | 2 | 3 | 6 => rfl
  | 4 | 5 => simp only [atomicNew, atomicResult, Option.getD_some, ← Int.not_lt, ite_not]
  | op + 7 =>
    show (if old = c then some b else none).getD old = if old = c then b else old
    split <;> rfl

/-- It fits its location. -/
theorem atomicResult_lt (q : IQ) (op : Nat) {old b : Nat} (c : Nat) (ho : old < 2 ^ szOf q) (hb : b < 2 ^ szOf q) : atomicResult q op old b c < 2 ^ szOf q := by
  match op with
  | 0 => exact Nat.mod_lt _ (Nat.two_pow_pos _)
  | 1 => exact Nat.and_lt_two_pow _ hb
  | 2 => exact Nat.or_lt_two_pow ho hb
  | 3 => exact Nat.xor_lt_two_pow ho hb
  | 6 => exact hb
  | 4 | 5 | op + 7 => exact iteInduction (motive := (· < 2 ^ szOf q)) (fun _ => hb) (fun _ => ho)

/-- An atomic as one store of its new value, or of none. -/
theorem Memory.atomic_snd (m : Memory) (pa size op : Nat) (sgn : Bool) (b c : Nat) : (m.atomic pa size op sgn b c).2 =
    (atomicNew op sgn (8 * size) (m.read pa size) b c).elim m (m.store pa size) := by
  simp only [Memory.atomic]
  cases atomicNew op sgn (8 * size) (m.read pa size) b c <;> rfl

section
variable {m : Memory} (hm : m.wf = true) (pa op : Nat)

theorem Memory.atomic_fst (size : Nat) (sgn : Bool) (b c : Nat) : (m.atomic pa size op sgn b c).1 = m.read pa size := by
  simp only [Memory.atomic]
  cases atomicNew op sgn (8 * size) (m.read pa size) b c <;> rfl

theorem Memory.full_atomic (size : Nat) (sgn : Bool) (b c : Nat) : (m.atomic pa size op sgn b c).2.full = m.full := by
  rw [Memory.atomic_snd]
  cases atomicNew op sgn (8 * size) (m.read pa size) b c with
  | none => rfl
  | some v => exact Memory.full_store ..

include hm

/-- Bytes outside the location are as before. -/
theorem Memory.byte_atomic_ne {size j : Nat} (hj : ¬ (pa ≤ j ∧ j < pa + size)) (sgn : Bool) (b c : Nat) :
    (m.atomic pa size op sgn b c).2.byte j = m.byte j := by
  rw [Memory.atomic_snd]
  cases atomicNew op sgn (8 * size) (m.read pa size) b c with
  | none => rfl
  | some v =>
    show (m.store pa size v).byte j = _
    rw [Memory.byte_store, Memory.write, Memory.byte_setBytes _ _ _ hm, leBytes_length, if_neg hj]

/-- The location reads as R221 says. -/
theorem Memory.read_atomic (q : IQ) {b : Nat} (hb : b < 2 ^ szOf q) (c : Nat) :
    (m.atomic pa (szOf q / 8) op q.sgn b c).2.read pa (szOf q / 8) = atomicResult q op (m.read pa (szOf q / 8)) b c := by
  have hpow : 256 ^ (szOf q / 8) = 2 ^ szOf q := by
    rw [show 256 = 2 ^ 8 from rfl, ← Nat.pow_mul, ← szOf_eq]
  have hlt := atomicResult_lt q op c (hpow ▸ m.read_lt pa (szOf q / 8)) hb
  rw [Memory.atomic_snd, ← szOf_eq]
  rw [← getD_atomicNew] at hlt ⊢
  cases hn : atomicNew op q.sgn (szOf q) (m.read pa (szOf q / 8)) b c with
  | none => rfl
  | some v =>
    rw [hn, Option.getD_some] at hlt
    show (m.store pa (szOf q / 8) v).read pa (szOf q / 8) = v
    rw [Memory.read_store _ _ _ hm, hpow, Nat.mod_eq_of_lt hlt]

end

/-! ### An atomic at a local memory (R159, R177, R222) -/

section
variable {s : State} {p : Word} {k : Nat} {acc : Acc} {o : AOp} {col : BitVec 3} {rel : Bool}

/-- The keys of the local memories lie above physical memory (log 3). -/
theorem le_of_decodeAddr_loc {size : Nat} (hd : s.decodeAddr p size acc = .ok (.loc k)) : 2 ^ 52 ≤ k := by
  have hkey : ∀ core ctx sp off, 2 ^ 52 ≤ localKey core ctx sp off := fun core ctx sp off => by
    unfold localKey scratchKey clusKey inboxKey
    split <;> omega
  unfold State.decodeAddr at hd
  dsimp only at hd
  split at hd
  · repeat' split at hd
    all_goals cases hd
    exact hkey ..
  · split at hd <;> cases hd

/-- No remote request comes first at a local memory, which no stack's home serves. -/
theorem State.remoteFirst_local (hk : 2 ^ 52 ≤ k) (core ctx : Nat) : s.remoteFirst (unitOf k) core ctx = false := by
  unfold unitOf
  rw [if_neg (by omega)]
  split
  · have hu : ¬ 0x1000 + (k - 2 ^ 53) / 2 ^ 22 < 8 := by omega
    simp only [State.remoteFirst, hu, decide_false, Bool.false_and]
  · rw [if_neg (by omega)]
    rfl

/-- An atomic that no earlier store and no answer in hand holds up goes to the local memory that its address decodes to. -/
theorem State.atomicMem_local (hb : s.me.rbuf = []) (hrel : rel = true → s.lanesMine = false ∧ s.me.failed = [])
    (hd : s.decodeAddr p o.size .atomic = .ok (.loc k)) (hl : s.laneBusy col = false) : s.atomicMem p o col rel = s.atomicDirect p k o := by
  have hrelease : (if rel then s.release .memory else .ok () s) = Res.ok () s := by
    split
    next h => exact State.release_ok (hrel h).1 (hrel h).2
    next => rfl
  simp only [State.atomicMem, hb, List.getElem?_nil, hrelease, Res.bind, hd, hl, Bool.false_eq_true, if_false]

/-- Out of its turn it waits for the next cycle (R159). -/
theorem State.atomicDirect_waits (ht : s.inTurn (unitOf k) s.cur.1 s.cur.2.val = false) : s.atomicDirect p k o = .stop (.wait .memory) s := by
  simp [State.atomicDirect, ht]

/-- `u` is `s` after an atomic on the `n` bytes at `k`, which leaves `v` there: no other byte and no full-empty bit has changed. -/
structure Updated (s u : State) (k n v : Nat) : Prop where
  synced : Synced s u
  read   : u.mem.read k n = v
  frame  : ∀ j, ¬ (k ≤ j ∧ j < k + n) → u.mem.byte j = s.mem.byte j
  full   : u.mem.full = s.mem.full

/-- In its turn it is performed: it gives the old value and leaves that of R221. -/
theorem State.atomicDirect_performs {q : IQ} {op b c : Nat} (hinv : s.Inv) (hk : 2 ^ 52 ≤ k) (ht : s.inTurn (unitOf k) s.cur.1 s.cur.2.val = true)
    (hp : s.mem.poisoned k (szOf q / 8) = false) (hb : b < 2 ^ szOf q) :
    ∃ u, s.atomicDirect p k ⟨op, q.sgn, szOf q / 8, b, c⟩ = .ok (s.mem.read k (szOf q / 8)) u ∧
      Updated s u k (szOf q / 8) (atomicResult q op (s.mem.read k (szOf q / 8)) b c) := by
  let m := (s.mem.atomic k (szOf q / 8) op q.sgn b c).2
  let w := s.noteWrite s.cur.1 s.myCore.retired k (szOf q / 8) (m.read k (szOf q / 8)) false
  let v := ((w.noteSync s.cur.1).scrub (dieOf s.cur.1) k (szOf q / 8)).onMem (fun m' => { m with corr := m'.corr.filter (m.corr.contains ·) })
  let u := v.noteTurn (unitOf k) s.cur.1 s.cur.2.val
  have hw : Unmoved s w := .noteWrite ..
  have hsync : Synced s (w.noteSync s.cur.1) := (Synced.of_unmoved hw).trans (hw.cur ▸ .noteSync w)
  have hu : Unmoved (w.noteSync s.cur.1) u := ((Unmoved.scrub ..).trans (.onMem ..)).trans (.noteTurn ..)
  have hmem : u.mem = v.mem := State.mem_noteTurn ..
  have hbyte : ∀ j, u.mem.byte j = m.byte j := fun j => by rw [hmem]; rfl
  refine ⟨u, ?_, ⟨hsync.trans (.of_unmoved hu), ?_, fun j hj => ?_, ?_⟩⟩
  · rw [State.atomicDirect, ht, State.remoteFirst_local hk, hp, ← Memory.atomic_fst k op (szOf q / 8) q.sgn b c]
    rfl
  · rw [Memory.read_congr hbyte]
    exact Memory.read_atomic hinv k op q hb c
  · rw [hbyte]
    exact Memory.byte_atomic_ne hinv k op hj ..
  · rw [hmem]
    exact Memory.full_atomic k op ..

end

/-- Settles O10: in its turn an atomic is one change of its location in memory, of which R221 gives the value; out of it, it waits. -/
theorem localAtomics : Obligations.LocalAtomics := by
  intro s d a b q o col sc i op k hs hinv hi hd hl hrel hp hb n old
  have hatomic := State.atomicMem_local (p := s.g a) (o := ⟨op, q.sgn, n, patOf q (s.g b), patOf q (s.g d)⟩) hb hrel hd hl
  have hx : exec i s = run ((s.atomicDirect (s.g a) k ⟨op, q.sgn, n, patOf q (s.g b), patOf q (s.g d)⟩).bind fun v u => .ok () (u.setG d (extR q v))) := by
    simp only [List.mem_cons, List.not_mem_nil, or_false, Prod.mk.injEq] at hi
    rw [← hatomic]
    rcases hi with ⟨rfl, rfl⟩ | ⟨rfl, rfl⟩ | ⟨rfl, rfl⟩ | ⟨rfl, rfl⟩ | ⟨rfl, rfl⟩ | ⟨rfl, rfl⟩ | ⟨rfl, rfl⟩ | ⟨rfl, rfl⟩ <;> rfl
  have hread : ∀ m : Memory, leNat ((List.range n).map (fun j => m.byte (k + j))) = m.read k n := fun m => by rw [Memory.read, Memory.bytes_eq]
  have hold : old = s.mem.read k n := hread s.mem
  refine ⟨fun ht => ?_, fun ht => waits_of_stop (hx.trans (by rw [State.atomicDirect_waits ht]; rfl))⟩
  obtain ⟨u, hu, hsync, hval, hframe, hfull⟩ := State.atomicDirect_performs (p := s.g a) (op := op) (b := patOf q (s.g b)) (c := patOf q (s.g d)) hinv
    (le_of_decodeAddr_loc hd) ht hp (Nat.mod_lt (s.g b).toNat (Nat.two_pow_pos _))
  have hr := hsync.retire_setG hs d (extR q old)
  refine ⟨(u.setG d (extR q old)).retire, ?_, by rwa [hr.mem], ?_, ?_, ?_⟩
  · rw [hx, hu, hold]
    rfl
  · rw [hread, hr.mem, hold]
    exact hval
  · rwa [hr.mem]
  · rwa [hr.mem]

end Sys2Proof.Machine
end

section
/-!
SUPPORT. Channels (R236, R238, R453), and O18 from it: what their instructions do with the words of a descriptor, and an advance as one atomic, or as one entry
of what the core leaves for the quantum's end.
-/

namespace Sys2Proof.Machine

/-- A channel instruction goes on with a valid handle that has the role (R236). -/
theorem State.handle_ok {s : State} {c : CReg} {role : BitVec 2} (hv : (s.c c).valid = true) (hr : (s.c c).role &&& role = role) :
    s.handle c role = .ok (s.c c) s := by
  simp [State.handle, hv, hr]

/-- A context that parks at its instruction keeps its IP and its registers (R47). -/
theorem parks_of_stop {i : Instr} {s : State} {a : Await} (hx : exec i s = run (.stop (.park a) s)) :
    ∃ t, exec i s = .next t ∧ t.me.st = .parked ∧ t.me.await = a ∧ t.me.ip = s.me.ip ∧ t.me.g = s.me.g :=
  ⟨_, hx, by rw [State.me_takeStop_park]; exact ⟨rfl, rfl, rfl, rfl⟩⟩

/-! ### Binding, waiting and reading (R236, R238) -/

/-- CHBIND of an aligned descriptor whose first two words can be read. -/
theorem chbind_completes {s : State} {c : CReg} {a : GReg} {role : BitVec 2} {w0 w1 : Word} (hs : Steady s) (ha : (s.g a).toNat % 32 = 0)
    (h0 : s.descWord (s.g a) 0 = .ok w0 s) (h1 : s.descWord (s.g a) 8 = .ok w1 s) :
    Completes (.chbind c a role) s (s.me.putC c ⟨true, role, s.g a, w0, w1.extractLsb' 4 4, w1.extractLsb' 0 4⟩) := by
  let h : Chan := ⟨true, role, s.g a, w0, w1.extractLsb' 4 4, w1.extractLsb' 0 4⟩
  refine ⟨(s.setC c h).retire, ?_, ?_⟩
  · show execChbind c a role s = _
    simp only [execChbind, ha, bne_self_eq_false, Bool.false_eq_true, if_false, h0, h1, Res.bind]
    rfl
  · rw [retire_eq s _ (by rw [State.me_setC]; rfl) (by rw [State.me_setC]; rfl)]
    exact retired_onMe s _ (fun x => x.putC c h) hs

section
variable {s : State} {d b : GReg} {c : CReg} {hd tl : Word} (hs : Steady s) (hv : (s.c c).valid = true)

include hs hv in
/-- CHPTR gives the pointer of a slot. -/
theorem chptr_gives (off : BitVec 16) : Gives (.chptr d c b off) s d (ptrOff (s.c c).base
    (BitVec.ofNat 64 ((s.g b + off.signExtend 64).toNat % 2 ^ (s.c c).slotlog.toNat * 2 ^ ((s.c c).szlog.toNat + 3)))) := by
  refine gives_of_setG hs ?_
  show execChptr d c b off s = _
  rw [execChptr, State.handle_ok (role := 0) hv BitVec.and_zero]
  rfl

variable (hh : s.descWord (s.c c).desc 16 = .ok hd s) (ht : s.descWord (s.c c).desc 24 = .ok tl s)
include hv hh ht

include hs in
/-- CHSTAT gives the fill. -/
theorem chstat_gives : Gives (.chstat d c) s d (tl - hd) := by
  refine gives_of_setG hs ?_
  show execChstat d c s = _
  simp only [execChstat, State.handle_ok (role := 0) hv BitVec.and_zero, Res.bind, hh, ht]
  rfl

/-- CHWAITF reads both words, and parks where they are equal. -/
theorem exec_chwaitf (hr : (s.c c).role &&& 2 = 2) : exec (.chwaitf d c) s =
    run (if tl - hd = 0 then .stop (.park (.channelEmpty (s.c c).desc)) s else .ok () (s.setG d hd)) := by
  show execChwaitf d c s = _
  simp only [execChwaitf, State.handle_ok hv hr, Res.bind, hh, ht]

/-- CHWAITE reads both words, and parks where every slot is filled. -/
theorem exec_chwaite (hr : (s.c c).role &&& 1 = 1) : exec (.chwaite d c) s =
    run (if 2 ^ (s.c c).slotlog.toNat ≤ (tl - hd).toNat then .stop (.park (.channelFull (s.c c).desc (2 ^ (s.c c).slotlog.toNat))) s
      else .ok () (s.setG d tl)) := by
  show execChwaite d c s = _
  simp only [execChwaite, State.handle_ok hv hr, Res.bind, hh, ht]

end

theorem channelReads : Says.ChannelForms := by
  intro s d a b c role off h w0 w1 hd tl hs p
  refine ⟨fun ha h0 h1 => chbind_completes hs ha h0 h1, ?_⟩
  rintro rfl hv hh ht
  refine ⟨chstat_gives hs hv hh ht, chptr_gives hs hv off, fun hr hne => ?_, fun hr hlt => ?_, fun hr heq => ?_, fun hr hle => ?_⟩
  · refine gives_of_setG hs ?_
    rw [exec_chwaitf hv hh ht hr, if_neg (sub_ne_zero.2 hne)]
    rfl
  · refine gives_of_setG hs ?_
    rw [exec_chwaite hv hh ht hr, if_neg (Nat.not_le.2 hlt)]
    rfl
  · refine parks_of_stop ?_
    rw [exec_chwaitf hv hh ht hr, if_pos (sub_eq_zero.2 heq)]
  · refine parks_of_stop ?_
    rw [exec_chwaite hv hh ht hr, if_pos hle]

/-! ### Advances (R238, R453) -/

/-- CHADVH and CHADVT of a valid handle with the role advance their word of the descriptor. -/
theorem exec_chadv {s : State} {c : CReg} {n : BitVec 16} {i : Instr} {off : Nat} (hv : (s.c c).valid = true)
    (hi : (i = .chadvh c n ∧ off = 16 ∧ (s.c c).role &&& 2 = 2) ∨ (i = .chadvt c n ∧ off = 24 ∧ (s.c c).role &&& 1 = 1)) :
    exec i s = run (s.chAdvance (ptrOff (s.c c).desc (BitVec.ofNat 64 off)) n.toNat) := by
  rcases hi with ⟨rfl, rfl, hr⟩ | ⟨rfl, rfl, hr⟩
  · show execChadvh c n s = _
    rw [execChadvh, State.handle_ok hv hr]
    rfl
  · show execChadvt c n s = _
    rw [execChadvt, State.handle_ok hv hr]
    rfl

/-- A context with no store pending has none of a colour pending. -/
theorem State.laneBusy_of_lanesMine {s : State} (h : s.lanesMine = false) (col : BitVec 3) : s.laneBusy col = false := by
  simp only [State.lanesMine, State.laneBusy, List.any_eq_false, Bool.or_eq_true, Bool.and_eq_true, not_or] at h ⊢
  exact fun e he => ⟨fun hc => (h e he).1 hc.1, (h e he).2⟩

theorem channelAdvances : Says.ChannelAdvances := by
  intro s c n i k off hs hinv hdet hi hv hd hl hf hp hb ht
  let p := ptrOff (s.c c).desc (BitVec.ofNat 64 off)
  let o : AOp := ⟨0, false, 8, n.toNat, 0⟩
  have hatomic := State.atomicMem_local (o := o) (rel := true) hb (fun _ => ⟨hl, hf⟩) hd (State.laneBusy_of_lanesMine hl s.me.colour)
  obtain ⟨u, hu, hsync, hval, hframe, -⟩ : ∃ u, s.atomicDirect p k o = .ok (s.mem.read k 8) u ∧ Updated s u k 8 ((s.mem.read k 8 + n.toNat) % 2 ^ 64) :=
    State.atomicDirect_performs (q := ⟨false, 3⟩) (op := 0) (c := 0) hinv (le_of_decodeAddr_loc hd) ht hp (Nat.lt_of_lt_of_le n.isLt (by decide))
  have hr := hsync.retire hs
  refine ⟨u.retire, ?_, by rwa [hr.mem], ?_, by rwa [hr.mem]⟩
  · rw [exec_chadv hv hi, State.chAdvance, hdet, if_neg Bool.false_ne_true, hatomic, hu]
    rfl
  · rw [hr.mem, hval]
    refine BitVec.eq_of_toNat_eq ?_
    simp

theorem channelAdvanceDeferred : Says.ChannelAdvanceDeferred := by
  intro s c n i k off hs hdet hi hv hd hl hf
  let p := ptrOff (s.c c).desc (BitVec.ofNat 64 off)
  let a : Adv := ⟨s.cur.2.val, s.me.serial, s.me.msgId, s.me.tag, s.me.colour, k, p, n.toNat⟩
  let u := s.onMyCore (fun k => { k with advs := k.advs ++ [a] })
  have hx : s.chAdvance p n.toNat = .ok () u := by
    simp only [State.chAdvance, hdet, if_true, State.release_ok hl hf, Res.bind, p, hd]
    rfl
  have hme : u.me = s.me := by simp [u, State.me, State.ctx, State.onMyCore, CoreSt.ctx]
  have hr := retired_self u (nextIp s.me.latch.nh s.me.ip) (by simpa only [Steady, hme] using hs)
  rw [← retire_eq s u (by rw [hme]) (by rw [hme])] at hr
  have hadvs : (u.retire.core u.cur.1).advs = (u.core u.cur.1).advs := (congrArg CoreSt.advs hr.core : _)
  refine ⟨u.retire, by rw [exec_chadv hv hi, hx]; rfl, hr.mem, ?_, hr.ip, ?_⟩
  · rw [← hme]
    exact (congrArg Ctx.g hr.regs : _)
  · rw [State.myCore, hr.cur, hadvs]
    simp [u, State.onMyCore, a, State.myCore, p]

/-- Settles O18: with the words of a descriptor read each instruction is one register write, one binding or one park, and an advance is one addition in
memory, at once or kept on the core for the quantum's end. -/
theorem channelForms : Obligations.ChannelForms := ⟨channelReads, channelAdvances, channelAdvanceDeferred⟩

end Sys2Proof.Machine
end

section
/-!
SUPPORT. What an abort leaves of its core and its partition (R46), the fields that a CSR is read from (R183-R190), and O13 from them: a write form of a CSR
writes one field of the context or the core before it retires, or raises PRIV and aborts.
-/

namespace Sys2Proof.Machine

/-! ### What an abort leaves (R46) -/

/-- A core but for its contexts, its transfer board and its inbox. -/
def CoreSt.fixed (k : CoreSt) : CoreSt := k.house.sansInbox

/-- No core has changed but in its contexts, its board and its inbox. -/
structure CoresFixed (s t : State) : Prop where
  cores  : ∀ n, (t.core n).fixed = (s.core n).fixed
  cur    : t.cur = s.cur
  time   : t.time = s.time
  layout : SameLayout s t

theorem Housed.coresFixed {s t : State} (h : Housed s t) : CoresFixed s t :=
  ⟨fun n => (congrArg CoreSt.sansInbox (h.cores n) : _), h.cur, h.time, h.layout⟩

theorem Inboxed.coresFixed {s t : State} (h : Inboxed s t) : CoresFixed s t :=
  ⟨fun n => (congrArg CoreSt.house (h.cores n) : _), h.cur, h.time, h.layout⟩

namespace CoresFixed
variable {s t u : State}

theorem trans (h : CoresFixed s t) (g : CoresFixed t u) : CoresFixed s u :=
  ⟨fun n => (g.cores n).trans (h.cores n), g.cur.trans h.cur, g.time.trans h.time, h.layout.trans g.layout⟩

theorem timeAt (h : CoresFixed s t) (n : Nat) : t.timeAt n = s.timeAt n := by
  have hquant : (t.core n).quant = (s.core n).quant := (congrArg CoreSt.quant (h.cores n) : _)
  have hretired : (t.core n).retired = (s.core n).retired := (congrArg CoreSt.retired (h.cores n) : _)
  simp only [State.timeAt, h.layout.pOf, h.layout.det, h.layout.quanta, hquant, hretired, h.time]

theorem abort (s : State) (n c : Nat) (t : TrapInfo) (tip : Word) : CoresFixed s (s.abort n c t tip) := by
  obtain ⟨u, v, hu, rfl, hv⟩ := State.abort_eq s n c t tip
  exact ((Housed.onCtx s n c _).trans hu.housed).coresFixed.trans
    ((Inboxed.returnMsg ..).coresFixed.trans (((Housed.onCtx ..).trans (Housed.freeCtx ..)).trans hv.housed).coresFixed)

/-- A trap of kind A leaves as much. -/
theorem takeStop_abort (s : State) {t : TrapInfo} (h : t.cause.kind = .a) : CoresFixed s (s.takeStop (.trap t)) := by
  rw [State.takeStop_abort h]
  exact (Housed.onCtx s s.cur.1 s.cur.2.val (fun x => { x with issued := true })).coresFixed.trans (abort ..)

/-- What holds of the fixed part of the running core. -/
theorem myCore (h : CoresFixed s t) : t.myCore.fixed = s.myCore.fixed := by
  rw [State.myCore, h.cur]
  exact h.cores _

end CoresFixed

/-! ### Where a CSR is read (R183) -/

/-- The fields of a context that CSRs other than BUDGET, FEATREQ and the trap CSRs are read from. -/
def Ctx.csrs (x : Ctx) : Ctx :=
  { Ctx.reset with vstart := x.vstart, fcsr := x.fcsr, colour := x.colour, migok := x.migok, migthresh := x.migthresh, refuse := x.refuse
                   xferid := x.xferid, tasksel := x.tasksel, extsel := x.extsel }

/-- The fields of a core that CSRs are read from. -/
def CoreSt.csrs (k : CoreSt) : CoreSt :=
  { CoreSt.reset with tasks := k.tasks, featmask := k.featmask, qlim := k.qlim, guest := k.guest, quant := k.quant, sampcfg := k.sampcfg
                      stage := k.stage }

@[simp] theorem Ctx.csrs_putG (x : Ctx) (d : GReg) (v : Word) : (x.putG d v).csrs = x.csrs := by unfold Ctx.putG; split <;> rfl
@[simp] theorem Ctx.getG_moved (x : Ctx) (det : Bool) (ip : Word) (r : GReg) : (x.moved det ip).getG r = x.getG r := rfl
@[simp] theorem Ctx.csrs_moved (x : Ctx) (det : Bool) (ip : Word) : (x.moved det ip).csrs = x.csrs := rfl
@[simp] theorem Ctx.budget_putG (x : Ctx) (d : GReg) (v : Word) : (x.putG d v).budget = x.budget := by unfold Ctx.putG; split <;> rfl

/-- An abort leaves them, and BUDGET. -/
theorem State.csrs_takeStop_abort {s : State} {t : TrapInfo} (h : t.cause.kind = .a) :
    (s.takeStop (.trap t)).me.csrs = s.me.csrs ∧ (s.takeStop (.trap t)).me.budget = s.me.budget := by
  rw [State.me_takeStop_abort h, Ctx.noteAbort]
  split <;> exact ⟨rfl, rfl⟩

/-- The CSRs that a trap writes, and FEATREQ, which names the task of the activation that runs. -/
def trapCsrs : List Csr := [.cause, .tval, .tip, .tmsg, .telem, .ttile, .tfmt, .featreq]

theorem csrPriv_of_mem_trapCsrs : ∀ c ∈ trapCsrs, csrPriv c = true := by decide

/-- A CSR reads as before where the fields that it is read from are as before. -/
theorem State.csr_congr {s t : State} {c : Csr} (hc : c ∉ trapCsrs) (hcur : t.cur = s.cur) (hlay : SameLayout s t)
    (hk : t.myCore.csrs = s.myCore.csrs) (hx : t.me.csrs = s.me.csrs) (hb : c = .budget → t.me.budget = s.me.budget)
    (ht : c = .time → t.timeAt s.cur.1 = s.timeAt s.cur.1) : t.csr c = s.csr c := by
  simp only [CoreSt.csrs, State.myCore, hcur, CoreSt.mk.injEq, true_and, and_true] at hk
  simp only [Ctx.csrs, State.me, State.ctx, hcur, Ctx.mk.injEq, true_and, and_true] at hx
  simp only [State.me, State.ctx, hcur] at hb
  obtain ⟨htasks, hqlim, hguest, hfeat, hstage, hsamp, hquant⟩ := hk
  obtain ⟨hvstart, hfcsr, hcolour, hmigok, hmigthresh, hrefuse, hxferid, htasksel, hextsel⟩ := hx
  cases c
  case cause | tval | tip | tmsg | telem | ttile | tfmt | featreq => exact absurd (by decide) hc
  case budget => rw [State.csr, hcur]; exact hb rfl
  case time => rw [State.csr, hcur]; exact congrArg (BitVec.ofNat 64) (ht rfl)
  case coord => simp only [State.csr, State.csrGet, State.coord, hcur, hlay.lnum, hstage]
  all_goals simp only [State.csr, State.csrGet, CoreSt.task, CoreSt.lim, hcur, htasks, hqlim, hguest, hfeat, hsamp, hquant, hvstart, hfcsr,
    hcolour, hmigok, hmigthresh, hrefuse, hxferid, htasksel, hextsel]

/-! ### The write forms (R225, R226) -/

/-- The write forms, each with the value that it writes and the register that takes the old one. -/
theorem exec_csrWrite {s : State} {d a : GReg} {c : Csr} {i : Instr} {v : Word} {e : GReg}
    (h : (i = .csrwr c a ∧ v = s.g a ∧ e = 0) ∨ (i = .csrswp d c a ∧ v = s.g a ∧ e = d) ∨
      (i = .csrset d c a ∧ v = s.csr c ||| s.g a ∧ e = d) ∨ (i = .csrclr d c a ∧ v = s.csr c &&& ~~~(s.g a) ∧ e = d)) :
    exec i s = csrModify e c v s := by
  rcases h with ⟨rfl, rfl, rfl⟩ | ⟨rfl, rfl, rfl⟩ | ⟨rfl, rfl, rfl⟩ | ⟨rfl, rfl, rfl⟩ <;> rfl

/-- A context with one of its CSRs written field by field (R226). -/
def Ctx.withCsr (x : Ctx) (c : Csr) (v : Word) : Ctx :=
  match c with
  | .vstart => { x with vstart := v.setWidth 7 }
  | .fcsr => { x with fcsr := fcsrWrite x.fcsr v }
  | .budget => { x with budget := if v.toNat < x.budget.toNat then v else x.budget }
  | .colour => { x with colour := v.setWidth 3 }
  | .migok => { x with migok := v.getLsbD 0 }
  | .migthresh => { x with migthresh := v.setWidth 16 }
  | .refuse => { x with refuse := v }
  | .tasksel => { x with tasksel := v.setWidth 3 }
  | .extsel => { x with extsel := v.setWidth 4 }
  | .qlim0 | .qlim1 | .qlim2 | .qlim3 | .qlimg | .cause | .tval | .tip | .tmsg | .telem | .ttile | .tfmt | .coord | .featmask | .featreq
  | .guestctx | .xferid | .time | .quant | .taskbase | .tasklim | .taskgen | .extbase | .extlen | .sampcfg => x

section
variable (x : Ctx) (c : Csr) (v : Word)

@[simp] theorem Ctx.withCsr_ip : (x.withCsr c v).ip = x.ip := by cases c <;> rfl
@[simp] theorem Ctx.withCsr_latch : (x.withCsr c v).latch = x.latch := by cases c <;> rfl
@[simp] theorem Ctx.withCsr_step1 : (x.withCsr c v).step1 = x.step1 := by cases c <;> rfl
@[simp] theorem Ctx.withCsr_getG (r : GReg) : (x.withCsr c v).getG r = x.getG r := by cases c <;> rfl

end

/-- A write permits no migration where none was, unless it sets MIGOK. -/
theorem Ctx.migok_withCsr {x : Ctx} {c : Csr} {v : Word} (hx : x.migok = false) (hc : c = .migok → v.getLsbD 0 = false) :
    (x.withCsr c v).migok = false := by
  cases c
  case migok => exact hc rfl
  all_goals exact hx

/-- A queue limit written leaves the contexts. -/
@[simp] theorem CoreSt.ctx_setLim (k : CoreSt) (q c : Nat) (v : Word) : (k.setLim q v).ctx c = k.ctx c := by
  unfold CoreSt.setLim; split <;> rfl

section
variable (s : State) (c : Csr) (v : Word)

@[simp] theorem State.setCsr_cur : (s.setCsr c v).cur = s.cur := by cases c <;> rfl
@[simp] theorem State.setCsr_mem : (s.setCsr c v).mem = s.mem := by cases c <;> rfl
theorem State.setCsr_parts : (s.setCsr c v).parts = s.parts := by cases c <;> rfl

/-- The running context after a write of a CSR. -/
@[simp] theorem State.me_setCsr : (s.setCsr c v).me = s.me.withCsr c v := by
  cases c
  case qlim0 | qlim1 | qlim2 | qlim3 | qlimg => simp [State.setCsr, State.csrPut, State.me, State.ctx, Ctx.withCsr]
  case vstart | fcsr | budget | colour | migok | migthresh | refuse | tasksel | extsel => exact (State.me_onMe s _).trans rfl
  all_goals rfl

end

/-! ### The value written (R186, R190, R226) -/

/-- The low bits of a word, widened again. -/
theorem setWidth_setWidth_eq_and (v : Word) {n : Nat} (hn : n ≤ 64) : (v.setWidth n).setWidth 64 = v &&& BitVec.ofNat 64 (2 ^ n - 1) := by
  refine BitVec.eq_of_toNat_eq ?_
  have hp : 2 ^ n ≤ 2 ^ 64 := Nat.pow_le_pow_right (by decide) hn
  have hv : v.toNat % 2 ^ n < 2 ^ 64 := (Nat.mod_lt _ (Nat.two_pow_pos n)).trans_le hp
  rw [BitVec.toNat_and, BitVec.toNat_ofNat, BitVec.toNat_setWidth, BitVec.toNat_setWidth, Nat.mod_eq_of_lt (by omega : 2 ^ n - 1 < 2 ^ 64),
    Nat.and_two_pow_sub_one_eq_mod, Nat.mod_eq_of_lt hv]

theorem setWidth_fcsrWrite (old : BitVec 9) (v : Word) : (fcsrWrite old v).setWidth 64 = csrWritten .fcsr (old.setWidth 64) v := by
  have hfrm : fcsrFrm (v.setWidth 9) = (v >>> 5 &&& 7).toNat := by
    have hand : (v >>> 5 &&& 7).toNat = v.toNat >>> 5 % 8 := by
      rw [BitVec.toNat_and, BitVec.toNat_ushiftRight]
      exact Nat.and_two_pow_sub_one_eq_mod _ 3
    rw [hand, fcsrFrm, BitVec.toNat_setWidth, Nat.shiftRight_eq_div_pow, Nat.shiftRight_eq_div_pow]
    omega
  rw [fcsrWrite, csrWritten, hfrm]
  split
  · rw [BitVec.setWidth_or, BitVec.setWidth_and, BitVec.setWidth_and, setWidth_setWidth_eq_and v (by decide), BitVec.and_assoc]
    rfl
  · exact setWidth_setWidth_eq_and v (by decide)

/-- A queue limit after its write (R190). -/
theorem CoreSt.lim_setLim (k : CoreSt) {q : Nat} (v : Word) :
    BitVec.ofNat 64 ((k.setLim q v).lim q) = if 60 < (v &&& 0x3F).toNat then BitVec.ofNat 64 (k.lim q) else v &&& 0x3F := by
  have hv : (v &&& 0x3F).toNat = v.toNat % 64 := Nat.and_two_pow_sub_one_eq_mod v.toNat 6
  rw [hv, CoreSt.setLim]
  split
  · rfl
  · refine BitVec.eq_of_toNat_eq ?_
    rw [hv]
    simp [CoreSt.lim, Vector.get_eq_getElem]
    omega

/-- A CSR that is not P, after a write. -/
theorem State.csr_setCsr {s : State} {c : Csr} (hc : csrPriv c = false) (v : Word) : (s.setCsr c v).csr c = csrWritten c (s.csr c) v := by
  have hme := State.me_setCsr s c v
  cases c
  case cause | tval | tip | tmsg | telem | ttile | tfmt | featmask | featreq | guestctx | quant | taskbase | tasklim | taskgen | extbase
      | extlen | sampcfg => exact absurd hc (by decide)
  case coord | xferid | time => rfl
  case qlim0 | qlim1 | qlim2 | qlim3 | qlimg =>
    refine Eq.trans (congrArg (fun k : CoreSt => BitVec.ofNat 64 (k.lim _)) (State.core_onCore_self s s.cur.1 _)) (CoreSt.lim_setLim _ v)
  case vstart => exact (congrArg (fun x : Ctx => x.vstart.setWidth 64) hme).trans (setWidth_setWidth_eq_and v (by decide))
  case colour => exact (congrArg (fun x : Ctx => x.colour.setWidth 64) hme).trans (setWidth_setWidth_eq_and v (by decide))
  case migthresh => exact (congrArg (fun x : Ctx => x.migthresh.setWidth 64) hme).trans (setWidth_setWidth_eq_and v (by decide))
  case tasksel => exact (congrArg (fun x : Ctx => x.tasksel.setWidth 64) hme).trans (setWidth_setWidth_eq_and v (by decide))
  case extsel => exact (congrArg (fun x : Ctx => x.extsel.setWidth 64) hme).trans (setWidth_setWidth_eq_and v (by decide))
  case fcsr => exact (congrArg (fun x : Ctx => x.fcsr.setWidth 64) hme).trans (setWidth_fcsrWrite ..)
  case budget => exact congrArg Ctx.budget hme
  case refuse => exact congrArg Ctx.refuse hme
  case migok =>
    refine (congrArg (fun x : Ctx => if x.migok then (1 : Word) else 0) hme).trans ?_
    show (if v.getLsbD 0 then (1 : Word) else 0) = v &&& 1
    refine Eq.trans ?_ BitVec.and_one_eq_setWidth_ofBool_getLsbD.symm
    cases v.getLsbD 0 <;> rfl

/-! ### Retiring after a write -/

/-- TIME outside deterministic mode is not changed by what retires (R59). -/
theorem State.timeAt_advance (s : State) (ip : Word) {n : Nat} (h : s.detAt n = false) : (s.advance ip).timeAt n = s.timeAt n := by
  have hlay := State.advance_layout s ip
  have ht := hlay.detAt n
  rw [State.detAt, hlay.pOf, h] at ht
  rw [State.detAt] at h
  simp only [State.timeAt, hlay.pOf, ht, h, Bool.false_eq_true, if_false, State.advance_time]

/-- A CSR reads after a retirement as it was written. -/
theorem State.csr_advance_setG (s : State) (d : GReg) (v ip : Word) {c : Csr} (hc : csrPriv c = false)
    (hdet : c = .budget ∨ c = .time → s.detAt s.cur.1 = false) : ((s.setG d v).advance ip).csr c = s.csr c := by
  have hlay : SameLayout s (s.setG d v) := .of_parts rfl
  refine State.csr_congr ?_ (by simp) (hlay.trans (State.advance_layout ..)) ?_ (by simp) (fun hb => ?_) (fun ht => ?_)
  · exact fun hm => Bool.false_ne_true (hc.symm.trans (csrPriv_of_mem_trapCsrs c hm))
  · have hside : (s.setG d v).myCore.side = s.myCore.side := by simp [State.myCore, State.setG, State.onMe, State.onCtx]
    rw [State.myCore, State.advance_cur]
    exact (congrArg CoreSt.csrs ((State.advance_side (s.setG d v) ip).trans hside) : _)
  · have hd : (s.setG d v).detAt s.cur.1 = false := (hlay.detAt _).trans (hdet (.inl hb))
    simp [Ctx.moved, hd]
  · rw [State.timeAt_advance _ _ ((hlay.detAt _).trans (hdet (.inr ht)))]
    exact (Housed.onCtx s s.cur.1 s.cur.2.val (fun x => x.putG d v)).timeAt _

/-- A context but for its general registers, the CSRs that a write form may write, and what a retirement sets. -/
def Ctx.unwritten (x : Ctx) : Ctx :=
  { x.arch with g := Vector.replicate 32 0, vstart := 0, fcsr := 0, colour := 0, migok := false, migthresh := 0, refuse := 0, tasksel := 0
                extsel := 0 }

theorem Ctx.unwritten_moved (x : Ctx) (det : Bool) (ip : Word) : (x.moved det ip).unwritten = x.unwritten := rfl
theorem Ctx.unwritten_withCsr (x : Ctx) (c : Csr) (v : Word) : (x.withCsr c v).unwritten = x.unwritten := by cases c <;> rfl
theorem Ctx.unwritten_putG (x : Ctx) (d : GReg) (v : Word) : (x.putG d v).unwritten = x.unwritten := by unfold Ctx.putG; split <;> rfl

/-- Contexts that agree but for what is written. -/
theorem Ctx.eq_of_unwritten {x y : Ctx} (h : x.unwritten = y.unwritten) :
    x.st = y.st ∧ x.v = y.v ∧ x.k = y.k ∧ x.c = y.c ∧ x.view = y.view ∧ x.trap = y.trap :=
  ⟨(congrArg Ctx.st h : _), (congrArg Ctx.v h : _), (congrArg Ctx.k h : _), (congrArg Ctx.c h : _), (congrArg Ctx.view h : _),
    (congrArg Ctx.trap h : _)⟩

/-- The state from which a write form retires: the CSR written, and its old value in a register. -/
def State.csrSwapped (s : State) (c : Csr) (v : Word) (e : GReg) : State := (s.setCsr c v).setG e (s.csr c)

section
variable {s : State} {c : Csr} {v : Word} {e : GReg}

theorem State.me_csrSwapped : (s.csrSwapped c v e).me = (s.me.withCsr c v).putG e (s.csr c) := by
  rw [State.csrSwapped, State.me_setG, State.me_setCsr]

/-- A write form retires by advancing: it begins no migration, unless it sets MIGOK. -/
theorem State.retire_csrSwapped (hs : Steady s) (hmig : c = .migok → v.getLsbD 0 = false) :
    (s.csrSwapped c v e).retire = (s.csrSwapped c v e).advance (nextIp s.me.latch.nh s.me.ip) := by
  have hu : Steady (s.csrSwapped c v e) := by
    rw [Steady, State.me_csrSwapped, Ctx.putG_step1, Ctx.putG_migok, Ctx.withCsr_step1]
    exact ⟨hs.1, Ctx.migok_withCsr hs.2 hmig⟩
  rw [retire_eq s _ (by simp [State.me_csrSwapped]) (by simp [State.me_csrSwapped]), State.retireTo_eq _ _ hu]

end

theorem csrReads : Says.CsrReads := fun _ _ _ hs => gives_of_setG hs rfl

theorem csrWrites : Says.CsrWrites := by
  intro s d a c i v e hs hc hi hdet hmig
  let ip := nextIp s.me.latch.nh s.me.ip
  have hx : exec i s = .next ((s.csrSwapped c v e).advance ip) := by
    rw [exec_csrWrite hi, csrModify, hc, if_neg Bool.false_ne_true]
    exact congrArg Host.Outcome.next (State.retire_csrSwapped hs hmig)
  obtain ⟨det, hme⟩ : ∃ det, ((s.csrSwapped c v e).advance ip).me = ((s.me.withCsr c v).putG e (s.csr c)).moved det ip :=
    ⟨_, by rw [State.advance_me, State.me_csrSwapped]⟩
  have hrest : ((s.csrSwapped c v e).advance ip).me.unwritten = s.me.unwritten := by
    rw [hme, Ctx.unwritten_moved, Ctx.unwritten_putG, Ctx.unwritten_withCsr]
  obtain ⟨hst, hv, hk, hch, hview, htrap⟩ := Ctx.eq_of_unwritten hrest
  have hlay : SameLayout s (s.setCsr c v) := .of_parts (State.setCsr_parts ..)
  refine ⟨_, hx, ?_, fun r => ?_, by rw [hme]; rfl, hst, hv, hk, hch, hview, htrap, ?_⟩
  · rw [State.csrSwapped, State.csr_advance_setG _ _ _ _ hc (fun h => by rw [hlay.detAt, State.setCsr_cur]; exact hdet h), State.csr_setCsr hc]
  · rw [State.g, hme, Ctx.getG_moved, Ctx.getG_putG, Ctx.withCsr_getG, State.g]
  · rw [State.advance_mem, State.csrSwapped, State.setG_mem, State.setCsr_mem]

/-! ### PRIV (R184) -/

theorem csrPrivTraps : Says.CsrPrivTraps := by
  intro s d a c i hc hi
  have hx : exec i s = .next (s.takeStop (.trap (mkTrap .priv s.me.latch.tval))) := by
    rcases hi with rfl | rfl | rfl | rfl <;> exact if_pos hc
  have hk : CoresFixed s (s.takeStop (.trap (mkTrap .priv s.me.latch.tval))) := .takeStop_abort s rfl
  obtain ⟨hst, hcause, htval, -, -, -, hg, -⟩ := State.takeStop_abort_regs (s := s) (t := mkTrap .priv s.me.latch.tval) rfl
  obtain ⟨hcsrs, hbudget⟩ := State.csrs_takeStop_abort (s := s) (t := mkTrap .priv s.me.latch.tval) rfl
  refine ⟨_, hx, hst, hcause, htval, by rw [State.me_takeStop_abort rfl]; simp, hg, (congrArg CoreSt.tasks hk.myCore : _), fun c' hc' => ?_⟩
  exact State.csr_congr hc' hk.cur hk.layout (congrArg CoreSt.csrs hk.myCore : _) hcsrs (fun _ => hbudget) (fun _ => hk.timeAt _)

/-- Settles O13: a CSR is a field of the context or of the core, or comes from the layout of its partition; a write form sets that field before it
retires, and PRIV aborts, which leaves all of them. -/
theorem csrForms : Obligations.CsrForms := ⟨csrReads, csrWrites, csrPrivTraps⟩

end Sys2Proof.Machine
end

section
/-!
SUPPORT. The tag table (R240, R241), and O19 from it: its instructions write a register and the table of the running core, and nothing else of it.
-/

namespace Sys2Proof.Machine

/-! ### Entries (R145) -/

theorem AMap.get_del_self {α : Type} (d : α) (m : AMap α) (k : Nat) : AMap.get d (AMap.del m k) k = d := by
  rw [get_eq_find, AMap.find_del_self]; rfl

theorem AMap.get_del_ne {α : Type} (d : α) (m : AMap α) {j k : Nat} (h : j ≠ k) : AMap.get d (AMap.del m k) j = AMap.get d m j := by
  induction m with
  | nil => rfl
  | cons e t ih =>
    obtain ⟨i, v⟩ := e
    by_cases hi : i = k
    · subst hi
      simpa [AMap.del, AMap.get, h] using ih
    · by_cases hj : j = i
      · simp [AMap.del, AMap.get, hi, hj]
      · simpa [AMap.del, AMap.get, hi, hj] using ih

theorem granuleOf_lt (w : Word) : granuleOf w < 2 ^ 51 := Nat.mod_lt _ (by decide)

/-- An entry written for a granule is valid and names it. -/
theorem tagValid_entry (w : Word) : tagValid (BitVec.ofNat 64 (2 ^ 63 + granuleOf w * 512)) = true := by
  have hlow : granuleOf w * 512 < 2 ^ 63 := by have := granuleOf_lt w; omega
  rw [tagValid, BitVec.getLsbD_ofNat, Nat.testBit_two_pow_add_eq, Nat.testBit_lt_two_pow hlow]
  rfl

theorem granuleOf_entry (w : Word) : granuleOf (BitVec.ofNat 64 (2 ^ 63 + granuleOf w * 512)) = granuleOf w := by
  have hg := granuleOf_lt w
  generalize granuleOf w = g at hg
  rw [granuleOf, bitsNat, BitVec.toNat_ofNat, Nat.shiftRight_eq_div_pow]
  omega

/-! ### Writes of the table (R240) -/

theorem Ctx.getG_arch (x : Ctx) (r : GReg) : x.arch.getG r = x.getG r := rfl

/-- The table of the running core changed. -/
def State.onTags (s : State) (f : AMap Word → AMap Word) : State := s.onMyCore (fun k => { k with tags := f k.tags })

/-- An instruction that changes the table and writes a register retires in sequence and leaves the other registers and memory. -/
theorem writes_tags {i : Instr} {s : State} {d : GReg} {f : AMap Word → AMap Word} {v : Word} (hs : Steady s)
    (hx : exec i s = retired ((s.onTags f).setG d v)) : ∃ t, exec i s = .next t ∧ t.g d = (if d = 0 then 0 else v) ∧
      (∀ r, r ≠ d → t.g r = s.g r) ∧ t.mem = s.mem ∧ t.me.ip = nextIp s.me.latch.nh s.me.ip ∧ t.myCore.tags = f s.myCore.tags := by
  have hme : (s.onTags f).me = s.me := by simp [State.onTags, State.me, State.ctx, State.onMyCore, CoreSt.ctx]
  have hr := retired_setG (s.onTags f) (nextIp s.me.latch.nh s.me.ip) d v (by rwa [Steady, hme])
  rw [← retire_eq s _ (by simp [hme]) (by simp [hme]), hme] at hr
  have hg : ∀ r, ((s.onTags f).setG d v).retire.g r = (s.me.putG d v).getG r := fun r => by
    rw [State.g, ← Ctx.getG_arch, hr.regs, Ctx.getG_arch]
  refine ⟨_, hx, ?_, fun r hne => ?_, hr.mem, hr.ip, ?_⟩
  · rw [hg, Ctx.getG_putG, if_pos rfl]
  · rw [hg, Ctx.getG_putG, if_neg hne, State.g]
  · have htags : (((s.onTags f).setG d v).retire.core (s.onTags f).cur.1).tags = (s.onTags f).myCore.tags := (congrArg CoreSt.tags hr.core : _)
    rw [State.myCore, hr.cur, htags]
    simp [State.onTags, State.onMyCore, State.myCore]

section
variable {s : State} {d a b : GReg} (hs : Steady s)
include hs

/-- TLOOK gives the slot of a granule's entry, or 0xFFFF. -/
theorem tlook_gives : Gives (.tlook d a) s d (BitVec.ofNat 64 ((s.myCore.tagOf (granuleOf (s.g a))).getD 0xFFFF)) := gives_of_setG hs rfl

/-- TSET of a granule that has an entry gives its slot. -/
theorem tset_present {n : Nat} (ht : s.myCore.tagOf (granuleOf (s.g a)) = some n) (hb : (s.g b).toNat < 384) :
    Gives (.tset d a b) s d (BitVec.ofNat 64 n) := by
  refine gives_of_setG hs ?_
  show execTset d a b s = _
  simp only [execTset, tagSlots, Nat.not_le.2 hb, if_false, ht]

end

theorem exec_tset_absent {s : State} {d a b : GReg} (ht : s.myCore.tagOf (granuleOf (s.g a)) = none) (hb : (s.g b).toNat < 384) :
    exec (.tset d a b) s =
      retired ((s.onTags (fun m => AMap.set m (s.g b).toNat (BitVec.ofNat 64 (2 ^ 63 + granuleOf (s.g a) * 512)))).setG d 0xFFFF) := by
  show execTset d a b s = _
  simp only [execTset, tagSlots, Nat.not_le.2 hb, if_false, ht]
  rfl

theorem exec_tclr {s : State} {d a : GReg} (ha : (s.g a).toNat < 384) :
    exec (.tclr d a) s = retired ((s.onTags (fun m => AMap.del m (s.g a).toNat)).setG d (s.myCore.tagEntry (s.g a).toNat)) := by
  show execTclr d a s = _
  simp only [execTclr, tagSlots, Nat.not_le.2 ha, if_false]
  rfl

theorem exec_tinv (s : State) (d a b : GReg) : exec (.tinv d a b) s =
    retired ((s.onTags (fun m => if s.g b = 0 then [] else m.filter (fun e => !tagHit (s.g a) (s.g b) e.2))).setG d
      (BitVec.ofNat 64 (s.myCore.tags.filter (fun e => tagHit (s.g a) (s.g b) e.2)).length)) := rfl

/-- TINV of a range leaves the entries that it does not meet, and none where the length is 0. -/
theorem tinv_clears {s : State} {d a b : GReg} (hs : Steady s) : ∃ t, exec (.tinv d a b) s = .next t ∧ (∀ r, r ≠ d → t.g r = s.g r) ∧
    t.mem = s.mem ∧ t.me.ip = nextIp s.me.latch.nh s.me.ip ∧ (∀ e ∈ t.myCore.tags, tagHit (s.g a) (s.g b) e.2 = false) ∧
    (∀ e ∈ s.myCore.tags, tagHit (s.g a) (s.g b) e.2 = false → s.g b ≠ 0 → e ∈ t.myCore.tags) ∧
    (∀ e ∈ t.myCore.tags, e ∈ s.myCore.tags) ∧ (s.g b = 0 → ∀ j, t.myCore.tagEntry j = 0) ∧
    t.g d = (if d = 0 then 0 else BitVec.ofNat 64 (s.myCore.tags.filter (fun e => tagHit (s.g a) (s.g b) e.2)).length) := by
  obtain ⟨t, hx, hd, hr, hmem, hip, htags⟩ := writes_tags hs (exec_tinv s d a b)
  by_cases hb : s.g b = 0
  · rw [if_pos hb] at htags
    refine ⟨t, hx, hr, hmem, hip, by simp [htags], fun _ _ _ hne => absurd hb hne, by simp [htags], fun _ j => ?_, hd⟩
    rw [CoreSt.tagEntry, htags, AMap.get_nil]
  · rw [if_neg hb] at htags
    have hmem_tags : ∀ e, e ∈ t.myCore.tags ↔ e ∈ s.myCore.tags ∧ tagHit (s.g a) (s.g b) e.2 = false := fun e => by
      rw [htags, List.mem_filter, Bool.not_eq_true']
    exact ⟨t, hx, hr, hmem, hip, fun e he => ((hmem_tags e).1 he).2, fun e he hmiss _ => (hmem_tags e).2 ⟨he, hmiss⟩,
      fun e he => ((hmem_tags e).1 he).1, fun h0 => absurd h0 hb, hd⟩

theorem tagAccesses : Says.TagForms := by
  intro s d a b hs g n m hit
  refine ⟨fun t ht => ⟨?_, fun hb => tset_present hs ht hb⟩, fun ht => ⟨?_, fun hb => ?_⟩, fun ha => ?_, ?_⟩
  · have h := tlook_gives (d := d) (a := a) hs
    rwa [ht] at h
  · have h := tlook_gives (d := d) (a := a) hs
    rwa [ht] at h
  · obtain ⟨t, hx, hd, hr, hmem, hip, htags⟩ := writes_tags hs (exec_tset_absent (d := d) ht hb)
    have hentry : ∀ j, t.myCore.tagEntry j = AMap.get 0 (AMap.set s.myCore.tags n (BitVec.ofNat 64 (2 ^ 63 + g * 512))) j :=
      fun j => by rw [CoreSt.tagEntry, htags]
    refine ⟨t, hx, hd, hr, hmem, hip, ?_, ?_, fun j hj => ?_⟩
    · rw [hentry, AMap.get_set_self, tagValid_entry]
    · rw [hentry, AMap.get_set_self, granuleOf_entry]
    · rw [hentry, AMap.get_set_ne _ _ _ hj, CoreSt.tagEntry]
  · obtain ⟨t, hx, hd, hr, hmem, hip, htags⟩ := writes_tags hs (exec_tclr (d := d) ha)
    refine ⟨t, hx, hd, hr, hmem, hip, ?_, fun j hj => ?_⟩
    · rw [CoreSt.tagEntry, htags, AMap.get_del_self]
    · rw [CoreSt.tagEntry, htags, AMap.get_del_ne _ _ hj, CoreSt.tagEntry]
  · exact tinv_clears hs

/-! ### TAG-SLOT-BAD (R241) -/

theorem tagSlotTraps : Says.TagSlotBad := by
  intro s d a b i v hi hv
  have hx : exec i s = .next (s.takeStop (.trap (mkTrap .tagSlotBad v))) := by
    rcases hi with ⟨rfl, rfl⟩ | ⟨rfl, rfl⟩ <;> exact if_pos hv
  have hk : CoresFixed s (s.takeStop (.trap (mkTrap .tagSlotBad v))) := .takeStop_abort s rfl
  obtain ⟨hst, hcause, htval, -, -, -, hg, -⟩ := State.takeStop_abort_regs (s := s) (t := mkTrap .tagSlotBad v) rfl
  exact ⟨_, hx, hst, hcause, htval, (congrArg CoreSt.tags hk.myCore : _), hg⟩

/-- Settles O19: each instruction is one write of a register with one change of the table, or the abort that leaves the table. -/
theorem tagForms : Obligations.TagForms := ⟨tagAccesses, tagSlotTraps⟩

end Sys2Proof.Machine
end

section
/-!
SUPPORT. Integer arithmetic, MOVI and the bit fields (R199, R203-R207): an instruction delivers one integer in D, and O1, O2 and O3 from it.
-/

namespace Sys2Proof.Machine

/-! ### Results and operands (R199, R204) -/

theorem givesInt_of_setInt {i : Instr} {s : State} {d : GReg} {q : IQ} {y : Int} (hs : Steady s) (hx : exec i s = setInt d q y s) :
    GivesInt i s d q y := gives_of_setG hs hx

theorem szOf_pos (q : IQ) : 0 < szOf q := Nat.mul_pos (by decide) (Nat.two_pow_pos _)

/-- Results that agree in their low bits are delivered alike. -/
theorem extR_add_two_pow (q : IQ) (y : Int) : extR q (y + 2 ^ szOf q) = extR q y := by
  simp only [extR, wrapN, Int.add_emod_right]

theorem aluCmpne_eq (q : IQ) (a b : Word) : aluCmpne q a b = if opnd q a ≠ opnd q b then 1 else 0 := by
  rw [aluCmpne, ite_not]

/-! ### Register and immediate forms (R203, R204) -/

/-- Settles O1: each form is one delivery, of the value that R204 names. -/
theorem integerRegisterForms : Obligations.IntegerRegisterForms := by
  intro s d a b q hs x y n k
  have given {i : Instr} {v : Int} (hx : exec i s = setInt d q v s) : GivesInt i s d q v := givesInt_of_setInt hs hx
  exact ⟨given rfl, given rfl, given rfl, given rfl, given rfl, given rfl, given rfl, given rfl, given rfl, given rfl, given rfl, given rfl,
    given rfl, given rfl, given rfl, given (congrArg (setInt d q · s) (aluCmpne_eq ..)), given rfl, given rfl⟩

theorem integerImmediate16Forms : Says.IntegerImmediate16Forms := by
  intro s d a q i hs x y n k
  have given {i : Instr} {v : Int} (hx : exec i s = setInt d q v s) : GivesInt i s d q v := givesInt_of_setInt hs hx
  exact ⟨given rfl, given rfl, given rfl, given rfl, given rfl, given rfl, given rfl, given rfl, given rfl, given rfl, given rfl, given rfl,
    given rfl, given rfl, given rfl, given (congrArg (setInt d q · s) (aluCmpne_eq ..)), given rfl, given rfl⟩

/-! ### Counts of bits (R204) -/

theorem patOf_lt (q : IQ) (x : Word) : patOf q x < 2 ^ szOf q := Nat.mod_lt _ (Nat.two_pow_pos _)

theorem two_pow_bitLen_sub_one_le {m : Nat} (h : bitLen m ≠ 0) : 2 ^ (bitLen m - 1) ≤ m := by
  have hm : m ≠ 0 := fun h0 => h (by simp [bitLen, h0])
  rw [bitLen, if_neg hm, Nat.add_sub_cancel]
  exact Nat.log2_self_le hm

/-- CLZ counts the places above the highest 1 bit. -/
theorem leadingZeros {m n : Nat} (h : m < 2 ^ n) : n - bitLen m ≤ n ∧ m < 2 ^ (n - (n - bitLen m)) ∧
    (n - bitLen m < n → 2 ^ (n - (n - bitLen m) - 1) ≤ m) := by
  have hlen := bitLen_le h
  rw [Nat.sub_sub_self hlen]
  exact ⟨Nat.sub_le .., lt_two_pow_bitLen m, fun hlt => two_pow_bitLen_sub_one_le (by omega)⟩

/-- CTZ is the place of the lowest 1 bit, or the width. -/
theorem trailingZeros (m n : Nat) : let c := ((upTo n).find? (fun i => m.testBit i)).getD n
    c ≤ n ∧ (∀ j < c, m.testBit j = false) ∧ (c < n → m.testBit c = true) := by
  intro c
  cases hf : (upTo n).find? (fun i => m.testBit i) with
  | none =>
    have hc : c = n := by simp [c, hf]
    have hnone : ∀ j < n, m.testBit j = false := by simpa [upTo] using hf
    exact ⟨hc.le, fun j hj => hnone j (hc ▸ hj), fun hlt => absurd hc hlt.ne⟩
  | some i =>
    have hc : c = i := by simp [c, hf]
    obtain ⟨hi, hlt, hlow⟩ := List.find?_range_eq_some.1 hf
    rw [hc]
    exact ⟨(List.mem_range.1 hlt).le, fun j hj => by simpa using hlow j hj, fun _ => hi⟩

/-- The low `n` bits of a number in reverse order. -/
def revBits (m : Nat) : Nat → Nat
  | 0 => 0
  | n + 1 => Nat.bit (m.testBit n) (revBits m n)

theorem revBits_lt (m n : Nat) : revBits m n < 2 ^ n := by
  induction n with
  | zero => exact Nat.one_pos
  | succ n ih => exact Nat.bit_lt_two_pow_succ_iff.2 ih

theorem testBit_revBits (m : Nat) {n j : Nat} (h : j < n) : (revBits m n).testBit j = m.testBit (n - 1 - j) := by
  induction n generalizing j with
  | zero => exact absurd h (Nat.not_lt_zero j)
  | succ n ih =>
    cases j with
    | zero => exact Nat.testBit_bit_zero ..
    | succ j =>
      rw [revBits, Nat.testBit_bit_succ, ih (Nat.lt_of_succ_lt_succ h)]
      congr 1
      omega

/-- BREV adds each bit's mirrored power: after `k` of `n` places the sum is the reverse of the low `k` bits, above the places to come. -/
theorem sumNat_mirrored (m : Nat) {k n : Nat} (h : k ≤ n) :
    sumNat ((upTo k).map (fun i => if m.testBit i then 2 ^ (n - 1 - i) else 0)) = 2 ^ (n - k) * revBits m k := by
  induction k with
  | zero => rfl
  | succ k ih =>
    have hpow : 2 ^ (n - k) = 2 ^ (n - (k + 1)) * 2 := by rw [← Nat.pow_succ]; congr 1; omega
    have hexp : n - 1 - k = n - (k + 1) := by omega
    have hsum : sumNat ((upTo (k + 1)).map (fun i => if m.testBit i then 2 ^ (n - 1 - i) else 0)) =
        sumNat ((upTo k).map (fun i => if m.testBit i then 2 ^ (n - 1 - i) else 0)) + if m.testBit k then 2 ^ (n - 1 - k) else 0 := by
      simp [sumNat, upTo, List.range_succ]
    rw [hsum, ih (by omega), revBits, Nat.bit_val, hpow, hexp]
    cases m.testBit k <;> simp [Nat.mul_add, Nat.mul_assoc]

theorem aluBrev_eq (q : IQ) (a : Word) : aluBrev q a = (revBits (patOf q a) (szOf q) : Nat) := by
  rw [aluBrev, sumNat_mirrored _ le_rfl, Nat.sub_self, Nat.pow_zero, Nat.one_mul]

/-! ### Bit fields (R207) -/

/-- The bits of a word with a field replaced. -/
theorem getLsbD_setField (x : Word) {lo n : Nat} (h : lo + n ≤ 64) (v : Nat) {j : Nat} (hj : j < 64) :
    (setField x lo n v).getLsbD j = if lo ≤ j ∧ j < lo + n then v.testBit (j - lo) else x.getLsbD j := by
  have hmask : (2 ^ n - 1) <<< lo < 2 ^ 64 := by
    have : 2 ^ n * 2 ^ lo ≤ 2 ^ 64 := by rw [← Nat.pow_add]; exact Nat.pow_le_pow_right (by decide) (by omega)
    have := Nat.two_pow_pos n
    have := Nat.two_pow_pos lo
    rw [Nat.shiftLeft_eq, Nat.sub_mul]
    omega
  have hkeep : 2 ^ 64 - 1 - (2 ^ n - 1) <<< lo = 2 ^ 64 - ((2 ^ n - 1) <<< lo + 1) := by omega
  simp only [setField, BitVec.getLsbD_ofNat, hj, Nat.testBit_or, Nat.testBit_and, hkeep, Nat.testBit_two_pow_sub_succ hmask,
    Nat.testBit_shiftLeft, Nat.testBit_two_pow_sub_one, Nat.testBit_mod_two_pow, BitVec.testBit_toNat]
  by_cases hlo : lo ≤ j
  · by_cases hhi : j < lo + n
    · have : j - lo < n := by omega
      simp [hlo, hhi, this]
    · have : ¬ j - lo < n := by omega
      simp [hlo, hhi, this]
  · simp [hlo]

/-! ### The other forms (R203, R204, R206, R207) -/

theorem integerOtherForms : Says.IntegerOtherForms := by
  intro s d a b q i i16 i32 i64 pos w hs hw x y m
  have given {i : Instr} {v : Int} (hx : exec i s = setInt d q v s) : GivesInt i s d q v := givesInt_of_setInt hs hx
  have gives {i : Instr} {v : Word} (hx : exec i s = retired (s.setG d v)) : Gives i s d v := gives_of_setG hs hx
  refine ⟨given rfl, given rfl, given rfl, given rfl, gives rfl, gives rfl, gives rfl, ?ext, ?ins, ?sel, ?clz, ?ctz, given rfl, ?brev⟩
  case ext =>
    rw [← Nat.shiftRight_eq_div_pow]
    exact gives rfl
  case ins =>
    refine ⟨_, gives rfl, fun j hj => ?_⟩
    rw [getLsbD_setField _ (by omega) _ hj]
    rfl
  case sel =>
    rw [ite_not]
    exact gives rfl
  case clz => exact ⟨_, given rfl, leadingZeros (patOf_lt q x)⟩
  case ctz => exact ⟨_, given rfl, trailingZeros (patOf q x) (szOf q)⟩
  case brev => exact ⟨_, given (congrArg (setInt d q · s) (aluBrev_eq q x)), revBits_lt .., fun j hj => testBit_revBits _ hj⟩

/-- Settles O2: as O1, with the counts of bits, BREV as a reversal and INS bit by bit. -/
theorem integerImmediateForms : Obligations.IntegerImmediateForms := ⟨integerImmediate16Forms, integerOtherForms⟩

/-! ### DIV and REM (R205) -/

theorem divLike_of_zero {q : IQ} {y : Word} (h : opnd q y = 0) (f : IQ → Word → Word → Int) (d : GReg) (x : Word) (s : State) :
    divLike f d q x y s = .next (s.takeStop (.trap (mkTrap .intDivzero x))) := if_pos h

theorem divLike_of_ne_zero {q : IQ} {y : Word} (h : opnd q y ≠ 0) (f : IQ → Word → Word → Int) (d : GReg) (x : Word) (s : State) :
    divLike f d q x y s = setInt d q (f q x y) s := if_neg h

/-- The quotient of the most negative number by -1 wraps to it (R205). -/
theorem extR_neg_two_pow (q : IQ) : extR q (2 ^ (szOf q - 1)) = extR q (-2 ^ (szOf q - 1)) := by
  obtain ⟨n, hn⟩ : ∃ n, szOf q = n + 1 := ⟨szOf q - 1, (Nat.sub_add_cancel (szOf_pos q)).symm⟩
  rw [← extR_add_two_pow q (-2 ^ (szOf q - 1)), hn, Nat.add_sub_cancel, pow_succ]
  congr 1
  omega

/-- Settles O3: both forms of DIV and of REM are one shared form, which traps on a divisor of 0 and else delivers. -/
theorem divideEdges : Obligations.DivideEdges := by
  intro s d a b q i div rem y hi x
  obtain ⟨hdiv, hrem⟩ : exec div s = divLike aluDiv d q (s.g a) y s ∧ exec rem s = divLike aluRem d q (s.g a) y s := by
    rcases hi with ⟨rfl, rfl, rfl⟩ | ⟨rfl, rfl, rfl⟩ <;> exact ⟨rfl, rfl⟩
  have quotient (hs : Steady s) (hy : opnd q y ≠ 0) : GivesInt div s d q (x.tdiv (opnd q y)) :=
    givesInt_of_setInt hs (hdiv.trans (divLike_of_ne_zero hy ..))
  have remainder (hs : Steady s) (hy : opnd q y ≠ 0) : GivesInt rem s d q (x.tmod (opnd q y)) :=
    givesInt_of_setInt hs (hrem.trans (divLike_of_ne_zero hy ..))
  refine ⟨fun hy op hop => ?trap, fun hs _ hx hy => ?wraps, fun hs hy => ?truncates⟩
  case trap =>
    have hstop : exec op s = .next (s.takeStop (.trap (mkTrap .intDivzero (s.g a)))) := by
      rcases hop with rfl | rfl
      · exact hdiv.trans (divLike_of_zero hy ..)
      · exact hrem.trans (divLike_of_zero hy ..)
    obtain ⟨hst, hcause, htval, -, -, -, hg, -⟩ := State.takeStop_abort_regs (s := s) (t := mkTrap .intDivzero (s.g a)) rfl
    exact ⟨_, hstop, hst, htval, hcause, by simp [State.me_takeStop_abort (s := s) (t := mkTrap .intDivzero (s.g a)) rfl], hg⟩
  case wraps =>
    have hne : opnd q y ≠ 0 := by rw [hy]; decide
    have hq := quotient hs hne
    have hr := remainder hs hne
    rw [hy, hx, Int.tdiv_neg, Int.tdiv_one, neg_neg, GivesInt, extR_neg_two_pow] at hq
    rw [hy, Int.tmod_neg, Int.tmod_one] at hr
    exact ⟨hq, hr⟩
  case truncates =>
    refine ⟨quotient hs hy, ?_⟩
    rw [← Int.tmod_def]
    exact remainder hs hy

end Sys2Proof.Machine
end

section
/-!
SUPPORT. Pointers, spaces and views (R128-R130, R209-R213): the fields of a pointer as arithmetic on its address, and O4, O5 and O6 from it.
-/

namespace Sys2Proof.Machine

/-! ### Pointer arithmetic (R209) -/

/-- An offset is added to the address within 60 bits and the view is kept. -/
theorem ptrOff_eq_append (p o : Word) : ptrOff p o = p.extractLsb' 60 4 ++ (p.extractLsb' 0 60 + o.extractLsb' 0 60) := by
  have hsum : p.extractLsb' 0 60 + o.extractLsb' 0 60 = BitVec.ofNat 60 (vaOf p + o.toNat) :=
    BitVec.eq_of_toNat_eq (by simp [vaOf])
  refine BitVec.eq_of_getLsbD_eq fun j hj => ?_
  rw [ptrOff, getLsbD_setField _ (by decide) _ hj, hsum, BitVec.getLsbD_append, BitVec.getLsbD_ofNat, BitVec.getLsbD_extractLsb']
  by_cases h : j < 60
  · simp [h, Nat.testBit_mod_two_pow, -Nat.reducePow]
  · have h4 : j - 60 < 4 := by omega
    have h60 : 60 + (j - 60) = j := by omega
    simp [h, h4, h60]

/-- The distance of two addresses is their difference within 60 bits, with its sign. -/
theorem ptrDiff_eq_sub (a b : Word) : ptrDiff a b = (a.extractLsb' 0 60 - b.extractLsb' 0 60).signExtend 64 := by
  have hdiff : BitVec.ofInt 60 ((vaOf a : Int) - vaOf b) = a.extractLsb' 0 60 - b.extractLsb' 0 60 := by
    refine BitVec.eq_of_toNat_eq ?_
    rw [BitVec.toNat_ofInt, BitVec.toNat_sub]
    simp only [vaOf, BitVec.extractLsb'_toNat, Nat.shiftRight_zero]
    omega
  rw [ptrDiff, sext64, hdiff]

/-- The view that a pointer selects, with VIEW0 as 0 (R77, R131). -/
theorem State.viewOf_eq (s : State) (p : Word) :
    s.viewOf p = if p.extractLsb' 60 4 = 0 then 0 else s.me.view.get (p.extractLsb' 60 4).toFin := by
  have hzero : (p.extractLsb' 60 4).toFin = (0 : Fin 16) ↔ p.extractLsb' 60 4 = 0 := BitVec.toFin_inj (y := (0 : BitVec 4))
  rw [State.viewOf, Ctx.getView, field]
  simp only [hzero]

theorem gives_of_setG_eq {i : Instr} {s : State} {d : GReg} {v w : Word} (hs : Steady s) (hv : v = w) (hx : exec i s = retired (s.setG d v)) :
    Gives i s d w := hv ▸ gives_of_setG hs hx

theorem pointerArithmetic : Says.PointerForms := fun s _ _ _ _ hs =>
  ⟨gives_of_setG_eq hs (ptrOff_eq_append ..) rfl, gives_of_setG_eq hs (ptrOff_eq_append ..) rfl, gives_of_setG_eq hs (ptrDiff_eq_sub ..) rfl,
    gives_of_setG_eq hs (s.viewOf_eq _) rfl⟩

/-! ### Fields of a pointer (R128, R129) -/

/-- A field of a pointer is one of its address. -/
theorem bitsNat_eq_vaOf (p : Word) {lo n : Nat} (h : lo + n ≤ 60) : bitsNat p lo n = vaOf p / 2 ^ lo % 2 ^ n := by
  have hdvd : 2 ^ (lo + n) ∣ 2 ^ 60 := Nat.pow_dvd_pow 2 h
  rw [bitsNat, vaOf, Nat.shiftRight_eq_div_pow, ← Nat.mod_mul_right_div_self, ← Nat.mod_mul_right_div_self, ← Nat.pow_add,
    Nat.mod_mod_of_dvd _ hdvd]

theorem isLocal_eq (p : Word) : isLocal p = decide (vaOf p / 2 ^ 48 = 0xFFF) := by
  have hva : vaOf p < 2 ^ 60 := Nat.mod_lt _ (by decide)
  rw [isLocal, bitsNat_eq_vaOf p (by decide), Nat.mod_eq_of_lt (by omega)]
  rfl

theorem spaceOf_eq (p : Word) : spaceOf p = vaOf p / 2 ^ 44 % 16 := bitsNat_eq_vaOf p (by decide)

theorem isspc_eq (p : Word) : isspc p = if vaOf p / 2 ^ 48 ≠ 0xFFF then 0
    else if vaOf p / 2 ^ 44 % 16 > 3 ∨ (vaOf p / 2 ^ 44 % 16 = 2 ∧ vaOf p / 2 ^ 40 % 16 ≠ 0) then 7 else vaOf p / 2 ^ 44 % 16 + 1 := by
  rw [isspc, isLocal_eq, spaceOf_eq, bitsNat_eq_vaOf p (by decide)]
  simp

/-- Settles O4: ISSPC compares fields of the address alone, so it delivers in every case. -/
theorem isspcClassifies : Obligations.IsspcClassifies := by
  intro s d a hs va
  refine gives_of_setG_eq hs ?_ rfl
  rw [isspc_eq, apply_ite (BitVec.ofNat 64), apply_ite (BitVec.ofNat 64)]
  rfl

/-! ### Launch owners (R213) -/

/-- The hash of R213, folded on the word of 48 bits. -/
theorem hownHash_vaOf (p : Word) : let h0 := p.extractLsb' 12 48
    let h1 := h0 ^^^ (h0 >>> 12)
    let h2 := h1 ^^^ (h1 >>> 24)
    hownHash (vaOf p) = (h2 ^^^ (h2 >>> 36)).toNat := by
  intro h0 h1 h2
  have hbits : vaOf p / 2 ^ 12 % 2 ^ 48 = h0.toNat := by
    rw [← bitsNat_eq_vaOf p (by decide)]
    exact (BitVec.extractLsb'_toNat ..).symm
  rw [hownHash, hbits]
  simp only [h2, h1, BitVec.toNat_xor, BitVec.toNat_ushiftRight]

theorem State.coreRange_eq (s : State) (core : Nat) : s.coreRange core =
    (if (s.part (s.pOf core)).det then 0 else 512 * s.pOf core,
      if (s.part (s.pOf core)).det then (s.part (s.pOf core)).shape else 512 * (s.part (s.pOf core)).dies) := by
  rw [State.coreRange]
  split <;> rfl

/-- Settles O5: HOWN delivers the hash, taken into the core range. -/
theorem hownHashOwner : Obligations.HownHash := by
  intro s d a hs h0 h1 h2 h3 p n b
  have howner : hownIn (s.coreRange s.cur.1).1 (s.coreRange s.cur.1).2 (vaOf (s.g a)) = b + h3.toNat % n := by
    rw [hownIn, hownHash_vaOf, State.coreRange_eq]
  exact gives_of_setG_eq hs (congrArg (BitVec.ofNat 64) howner) rfl

/-! ### Generic pointers (R212) -/

/-- The fields of a local pointer made of a space's code and what lies below it. -/
theorem localPtr_fields {p : Word} {sp low : Nat} (hsp : sp < 4) (hlow : low < 2 ^ 44)
    (hp : p = BitVec.ofNat 64 (0xFFF * 2 ^ 48 + sp * 2 ^ 44 + low)) : vaOf p = p.toNat ∧ isLocal p = true ∧ spaceOf p = sp ∧
      ∀ lo n, lo + n ≤ 44 → bitsNat p lo n = low / 2 ^ lo % 2 ^ n := by
  have hnat : p.toNat = 0xFFF * 2 ^ 48 + sp * 2 ^ 44 + low := by
    rw [hp, BitVec.toNat_ofNat, Nat.mod_eq_of_lt (by omega)]
  have hva : vaOf p = p.toNat := by rw [vaOf, hnat, Nat.mod_eq_of_lt (by omega)]
  refine ⟨hva, ?isLocal, ?space, fun lo n h => ?low⟩
  case isLocal =>
    rw [isLocal_eq, hva, hnat]
    exact decide_eq_true (by omega)
  case space =>
    rw [spaceOf_eq, hva, hnat]
    omega
  case low =>
    obtain ⟨k, hk⟩ : 2 ^ (lo + n) ∣ 2 ^ 44 := Nat.pow_dvd_pow 2 h
    have hsplit : 0xFFF * 2 ^ 48 + sp * 2 ^ 44 + low = low + 2 ^ (lo + n) * (k * (0xFFF * 2 ^ 4 + sp)) := by
      rw [← Nat.mul_assoc, ← hk]
      omega
    rw [bitsNat_eq_vaOf p (by omega), hva, hnat, hsplit, ← Nat.mod_mul_right_div_self, ← Nat.pow_add, Nat.add_mul_mod_self_left,
      Nat.pow_add, Nat.mod_mul_right_div_self]

/-- What lies below the space's code in a generic pointer: the running context's own number and the offset (R129). -/
def State.ownOffset (s : State) (off : Nat) : Space → Nat
  | .priv => s.lnum s.cur.1 % 4096 * 2 ^ 32 + s.cur.2.val * 2 ^ 30 + off % 2 ^ 30
  | .clus => s.lnum s.cur.1 / 16 % 256 * 2 ^ 32 + off % 2 ^ 32
  | .scratch | .inbox => s.lnum s.cur.1 % 4096 * 2 ^ 32 + off % 2 ^ 32

theorem State.genericPtr_eq (s : State) (sp : Space) (off : Nat) :
    s.genericPtr sp.code.toNat off = BitVec.ofNat 64 (0xFFF * 2 ^ 48 + sp.code.toNat * 2 ^ 44 + s.ownOffset off sp) := by
  cases sp <;> rfl

theorem State.ownOffset_lt (s : State) (off : Nat) (sp : Space) : s.ownOffset off sp < 2 ^ 44 := by
  have hc := s.cur.2.isLt
  cases sp <;> simp only [State.ownOffset] <;> omega

theorem State.lnum_le (s : State) (core : Nat) : s.lnum core ≤ core := by
  rw [State.lnum]
  split
  · exact Nat.sub_le ..
  · exact le_rfl

/-- A pointer with the running context's own number below its space's code has the running context as its owner. -/
theorem ownerOf_of_bits {s : State} {sp : Space} {off : Nat} {p : Word} (hcore : s.cur.1 < 4096)
    (hbits : ∀ lo n, lo + n ≤ 44 → bitsNat p lo n = s.ownOffset off sp / 2 ^ lo % 2 ^ n) :
    ownerOf sp.code.toNat p = s.accessor sp.code.toNat := by
  have hl := (s.lnum_le s.cur.1).trans_lt hcore
  have hc := s.cur.2.isLt
  cases sp with
  | priv =>
    show bitsNat p 32 12 * 4 + bitsNat p 30 2 = s.lnum s.cur.1 * 4 + s.cur.2.val
    rw [hbits 32 12 (by decide), hbits 30 2 (by decide), State.ownOffset]
    omega
  | clus =>
    show bitsNat p 32 8 = s.lnum s.cur.1 / 16
    rw [hbits 32 8 (by decide), State.ownOffset]
    omega
  | scratch | inbox =>
    show bitsNat p 32 12 = s.lnum s.cur.1
    rw [hbits 32 12 (by decide), State.ownOffset]
    omega

/-- The width of an offset in a space (R129). -/
def offWidth (sp : Space) : Nat := if sp = .priv then 30 else 32

theorem offsetOf_code (sp : Space) (p : Word) : offsetOf sp.code.toNat p = bitsNat p 0 (offWidth sp) := by cases sp <;> rfl

theorem offWidth_le (sp : Space) : 0 + offWidth sp ≤ 44 := by cases sp <;> decide

theorem State.ownOffset_mod (s : State) (off : Nat) (sp : Space) : s.ownOffset off sp % 2 ^ offWidth sp = off % 2 ^ offWidth sp := by
  cases sp <;> simp only [State.ownOffset, offWidth, reduceCtorEq, if_true, if_false] <;> omega

/-- The cluster space has no number in the bits above its owner (R129). -/
theorem clusBits_zero {s : State} {off : Nat} {p : Word}
    (hbits : ∀ lo n, lo + n ≤ 44 → bitsNat p lo n = s.ownOffset off .clus / 2 ^ lo % 2 ^ n) : bitsNat p 40 4 = 0 := by
  rw [hbits 40 4 (by decide), State.ownOffset]
  omega

theorem castToOffset_eq {s : State} {sp : Space} {p : Word} (hl : isLocal p = true) (hsp : spaceOf p = sp.code.toNat)
    (hown : ownerOf sp.code.toNat p = s.accessor sp.code.toNat) (hclus : sp = .clus → bitsNat p 40 4 = 0) :
    s.castToOffset sp.code.toNat p = BitVec.ofNat 64 (offsetOf sp.code.toNat p) := by
  have hfield : sp.code.toNat ≠ 2 ∨ bitsNat p 40 4 = 0 := by
    cases sp with
    | clus => exact .inr (hclus rfl)
    | priv | scratch | inbox => exact .inl (by decide)
  rw [State.castToOffset, if_pos]
  simpa [hl, hsp, hown] using hfield

/-- A pointer of another space or owner has no offset in the running context's space (R212). -/
theorem castToOffset_foreign {s : State} {n : Nat} {p : Word}
    (h : isLocal p = false ∨ spaceOf p ≠ n ∨ ownerOf n p ≠ s.accessor n) : s.castToOffset n p = 0xFFFFFFFFFFFFFFFF := by
  refine if_neg fun hall => ?_
  simp only [Bool.and_eq_true, beq_iff_eq] at hall
  obtain ⟨⟨⟨hl, hsp⟩, hown⟩, -⟩ := hall
  rcases h with h | h | h
  · simp [h] at hl
  · exact h hsp
  · exact h hown

theorem castspcRoundTrip : Says.CastspcRoundTrip := by
  intro s d a sp hs hcore w
  refine ⟨⟨s.genericPtr sp.code.toNat (s.g a).toNat, gives_of_setG hs rfl, ?_⟩, fun h => ?_⟩
  · obtain ⟨hva, hl, hsp, hbits⟩ := localPtr_fields sp.code.isLt (s.ownOffset_lt (s.g a).toNat sp) (s.genericPtr_eq sp (s.g a).toNat)
    have hoff : offsetOf sp.code.toNat (s.genericPtr sp.code.toNat (s.g a).toNat) = (s.g a).toNat % 2 ^ offWidth sp := by
      rw [offsetOf_code, hbits 0 _ (offWidth_le sp), Nat.pow_zero, Nat.div_one, State.ownOffset_mod]
    refine ⟨hva, hl, hsp, (congrArg (offsetOf · _) hsp).trans hoff, ?_⟩
    rw [castToOffset_eq hl hsp (ownerOf_of_bits hcore hbits) (by rintro rfl; exact clusBits_zero hbits), hoff]
    rfl
  · exact gives_of_setG_eq hs (castToOffset_foreign h) rfl

/-! ### Views (R77, R78, R210) -/

theorem bitsNat_eq_iff {w : Nat} (x : BitVec w) (lo n : Nat) (c : BitVec n) : bitsNat x lo n = c.toNat ↔ x.extractLsb' lo n = c := by
  rw [bitsNat_eq_toNat_field, BitVec.toNat_inj]
  rfl

/-- What no view holds, field by field (R78). -/
theorem viewBad_iff (v : Word) : viewBad v = true ↔ v.extractLsb' 0 4 = 0xF ∨ v.extractLsb' 4 2 = 3 ∨ v.extractLsb' 9 7 ≠ 0 ∨
    (v.extractLsb' 4 2 ≠ 0 ∧ Fmt.ofCode (v.extractLsb' 0 4) ∉ [some .s8, some .f16, some .w16, some .f8a, some .f8b, some .o4]) := by
  simp only [viewBad, Bool.or_eq_true, Bool.and_eq_true, bne_iff_ne, beq_iff_eq, or_assoc]
  refine or_congr (bitsNat_eq_iff v 0 4 0xF) (or_congr (bitsNat_eq_iff v 4 2 3) (or_congr (bitsNat_eq_iff v 9 7 0).not
    (and_congr (bitsNat_eq_iff v 4 2 0).not ?format)))
  rw [field]
  generalize Fmt.ofCode (v.extractLsb' 0 4) = o
  cases o with
  | none => decide
  | some f => cases f <;> decide

@[simp] theorem Ctx.noteAbort_view (x : Ctx) : x.noteAbort.view = x.view := by unfold Ctx.noteAbort; split <;> rfl
@[simp] theorem Ctx.freed_view (x : Ctx) : x.freed.view = x.view := rfl
@[simp] theorem Ctx.trapped_view (x : Ctx) (t : TrapInfo) (tip : Word) : (x.trapped t tip).view = x.view := rfl

theorem viewsetForms : Says.ViewsetForms := by
  intro s n a hs v bad
  refine ⟨fun hgood => ?writes, fun hbad => ?traps⟩
  case writes =>
    have hx : exec (.viewset n a) s = retired (s.onMe (fun x => x.putView n v)) := if_neg (fun h => hgood ((viewBad_iff v).1 h))
    refine ⟨_, hx, ?_⟩
    rw [retire_eq s _ (by simp) (by simp)]
    exact retired_onMe s _ (fun x => x.putView n v) (by simpa using hs)
  case traps =>
    have hx : exec (.viewset n a) s = .next (s.takeStop (.trap (mkTrap .illegalOp s.me.latch.tval))) := if_pos ((viewBad_iff v).2 hbad)
    obtain ⟨hst, hcause, -⟩ := State.takeStop_abort_regs (s := s) (t := mkTrap .illegalOp s.me.latch.tval) rfl
    refine ⟨_, hx, hst, hcause, ?_⟩
    simp [State.me_takeStop_abort (s := s) (t := mkTrap .illegalOp s.me.latch.tval) rfl]

/-- Settles O6: arithmetic on 60 bits, generic pointers by their fields, and VIEWSET by what no view holds. -/
theorem pointerForms : Obligations.PointerForms := ⟨pointerArithmetic, castspcRoundTrip, viewsetForms⟩

end Sys2Proof.Machine
end

section
/-!
SUPPORT. System instructions and the reads of the triggering message (R51, R228, R233), and O16 from it: each instruction is one register write or one
change of the running context's MIGOK.
-/

namespace Sys2Proof.Machine

/-! ### An instruction that changes its context alone (R90) -/

/-- An instruction that changes its context, but not what decides how it retires, completes. -/
theorem completes_of_onMe {i : Instr} {s : State} {f : Ctx → Ctx} (hs : Steady s) (hx : exec i s = retired (s.onMe f)) (hf : s.me.Onward (f s.me)) :
    Completes i s (f s.me) := by
  refine ⟨_, hx, ?_⟩
  rw [retire_eq s _ (by rw [State.me_onMe, hf.latch]) (by rw [State.me_onMe, hf.ip])]
  exact retired_onMe s _ f ⟨hf.step1.trans hs.1, hf.migok.trans hs.2⟩

/-! ### The migration test (R51) -/

/-- A context but for the fields that the migration test sets where it parks the context or resets a count. -/
def Ctx.untested (x : Ctx) : Ctx :=
  { x with st := .running, await := .none, stall := 0, rcur := 0, rbuf := [], remote := Vector.replicate 8 0 }

theorem State.migTest_mem (s : State) (core ctx : Nat) : (s.migTest core ctx).mem = s.mem := by
  unfold State.migTest
  dsimp only
  split
  · split <;> rfl
  · rfl

/-- The migration test changes the state of the running context and its remote counts alone. -/
theorem State.untested_migTest (s : State) : (s.migTest s.cur.1 s.cur.2.val).me.untested = s.me.untested := by
  unfold State.migTest
  dsimp only
  split
  · split <;> exact (congrArg Ctx.untested (State.me_onMe s _)).trans rfl
  · rfl

/-! ### MIGOK (R228) -/

/-- MIGOK retires by the migration test, for which the write already counts (R51, R228). -/
theorem exec_migok {s : State} (hs : Steady s) (v : Bool) : let u := s.onMe (fun x => { x with migok := v })
    exec (.migok v) s = .next ((u.advance (nextIp s.me.latch.nh s.me.ip)).migTest s.cur.1 s.cur.2.val) := by
  intro u
  have hme : u.me = { s.me with migok := v } := State.me_onMe s _
  have hstep : (u.advance (nextIp s.me.latch.nh s.me.ip)).me.step1 = false := by
    rw [State.advance_me, Ctx.moved_step1, hme]
    exact hs.1
  refine congrArg Host.Outcome.next ?_
  show u.retire = _
  rw [retire_eq s u (by rw [hme]) (by rw [hme]), State.retireTo, hstep, if_neg Bool.false_ne_true]
  rfl

/-- Whether or not a migration begins, MIGOK writes its CSR, moves the IP and leaves the general registers and memory. -/
theorem migok_writes {s : State} (hs : Steady s) (v : Bool) : ∃ t, exec (.migok v) s = .next t ∧ t.me.migok = v ∧
    t.me.ip = nextIp s.me.latch.nh s.me.ip ∧ t.me.g = s.me.g ∧ t.mem = s.mem := by
  let u := s.onMe (fun x => { x with migok := v })
  let w := u.advance (nextIp s.me.latch.nh s.me.ip)
  have hcur : w.cur = s.cur := State.advance_cur ..
  have hw : w.me = ({ s.me with migok := v } : Ctx).moved (u.detAt u.cur.1) (nextIp s.me.latch.nh s.me.ip) := by
    rw [State.advance_me, State.me_onMe]
  have htest : (w.migTest s.cur.1 s.cur.2.val).me.untested = w.me.untested := by
    rw [← hcur]
    exact State.untested_migTest w
  rw [hw] at htest
  exact ⟨_, exec_migok hs v, (congrArg Ctx.migok htest : _), (congrArg Ctx.ip htest : _), (congrArg Ctx.g htest : _),
    (State.migTest_mem ..).trans (State.advance_mem ..)⟩

theorem systemInstructions : Says.SystemForms := fun _ _ _ v hs =>
  ⟨gives_of_setG hs rfl, gives_of_setG hs rfl, completes_of_onMe (f := fun x => { x with migok := false }) hs rfl ⟨rfl, rfl, rfl, hs.2.symm⟩,
    migok_writes hs v⟩

/-! ### The triggering message (R33, R42, R233) -/

/-- The payload start with the fixed fields of a generic inbox pointer as one number. -/
theorem State.payStart_add (s : State) (m : Act) (i : Nat) : s.payStart m + i =
    0x0FFF300000000000 + s.lnum m.core % 4096 * 2 ^ 32 + 512 * m.m.slot + (if m.m.msg.env.kind = 2 then 8 else 48) + i := by
  rw [State.payStart, payOffset, ← Nat.add_assoc (_ + _)]
  rfl

theorem messageReads : Says.MessageReads := by
  intro s d a hs m e
  refine ⟨gives_of_setG hs rfl, ?_⟩
  rw [← State.payStart_add s m]
  exact gives_of_setG hs rfl

/-- Settles O16: TIME, FEATQ, MSGID and MSGPAY are one register write each, and the migration test that may follow MIGOK leaves what it has written. -/
theorem systemForms : Obligations.SystemForms := ⟨systemInstructions, messageReads⟩

end Sys2Proof.Machine
end

section
/-!
SUPPORT. What bring-up and the election of the first leader leave (R418, R419, R427, R450), and O36 from it. Firmware cores are changed one at a time, so
a run over a list of them is described once, by what it does to a core of the list and to one outside it.
-/

namespace Sys2Proof.Machine

/-! ### Firmware cores changed in turn -/

theorem State.fw_onFw (s : State) (n : Nat) (f : FwCore → FwCore) (m : Nat) : (s.onFw n f).fw m = if m = n then f (s.fw n) else s.fw m := by
  simp [State.fw, State.onFw, AMap.get_set]

section
variable {F : State → Nat → State} {f : State → Nat → FwCore → FwCore} (hF : ∀ u m, (F u m).fws = (u.onFw m (f u m)).fws)
include hF

/-- What `F` does at a core to that core and to the others. -/
theorem State.fw_step (u : State) (k m : Nat) : (F u k).fw m = if m = k then f u k (u.fw k) else u.fw m := by
  rw [State.fw, hF, ← State.fw, State.fw_onFw]

theorem State.fw_foldl_of_notMem {l : List Nat} {m : Nat} (h : m ∉ l) (s : State) : (l.foldl F s).fw m = s.fw m := by
  induction l generalizing s with
  | nil => rfl
  | cons k t ih =>
    obtain ⟨hk, ht⟩ := not_or.1 (mt List.mem_cons.2 h)
    rw [List.foldl_cons, ih ht, State.fw_step hF, if_neg hk]

/-- What every write of a core establishes holds of each core of the list. -/
theorem State.fw_foldl_of_mem {P : FwCore → Prop} {l : List Nat} {m : Nat} (hP : ∀ u x, P (f u m x)) (h : m ∈ l) (s : State) : P ((l.foldl F s).fw m) := by
  induction l generalizing s with
  | nil => cases h
  | cons k t ih =>
    by_cases ht : m ∈ t
    · exact ih ht _
    · obtain rfl : m = k := (List.mem_cons.1 h).resolve_right ht
      rw [List.foldl_cons, State.fw_foldl_of_notMem hF ht, State.fw_step hF, if_pos rfl]
      exact hP ..

/-- What every write of a core keeps stays as it was. -/
theorem State.fw_foldl_keeps {α : Type} {π : FwCore → α} (hπ : ∀ u m x, π (f u m x) = π x) (l : List Nat) (s : State) (m : Nat) :
    π ((l.foldl F s).fw m) = π (s.fw m) := by
  induction l generalizing s with
  | nil => rfl
  | cons k t ih =>
    rw [List.foldl_cons, ih, State.fw_step hF]
    split
    · next hk => rw [hk, hπ]
    · rfl

end

/-- A run of writes of firmware cores changes nothing else. -/
theorem State.foldl_onFw_rest (f : State → Nat → FwCore → FwCore) (l : List Nat) (s : State) :
    ∃ fs, l.foldl (fun u m => u.onFw m (f u m)) s = { s with fws := fs } := by
  induction l generalizing s with
  | nil => exact ⟨s.fws, rfl⟩
  | cons k t ih =>
    obtain ⟨fs, h⟩ := ih (s.onFw k (f s k))
    exact ⟨fs, h⟩

/-! ### Leases lost (R195, R348, R419) -/

/-- `t` is `s` after fronts have been frozen and records of it written. -/
structure Frozen (s t : State) : Prop where
  rest   : t = { s with mem := t.mem, fronts := t.fronts, parts := t.parts }
  layout : SameLayout s t

namespace Frozen
variable {s t u : State}

theorem refl (s : State) : Frozen s s := ⟨rfl, .refl s⟩
theorem trans (h : Frozen s t) (g : Frozen t u) : Frozen s u := ⟨by rw [g.rest, h.rest], h.layout.trans g.layout⟩

theorem of_recorded (h : Recorded s t) : Frozen s t := ⟨by rw [h.rest], .of_recorded h⟩

theorem ite {c : Prop} {_ : Decidable c} (ht : Frozen s t) (hu : Frozen s u) : Frozen s (if c then t else u) := by
  split
  · exact ht
  · exact hu

theorem foldl {α : Type} {f : State → α → State} (hf : ∀ s a, Frozen s (f s a)) (l : List α) (s : State) : Frozen s (l.foldl f s) := by
  induction l generalizing s with
  | nil => exact refl s
  | cons a t ih => exact (hf s a).trans (ih _)

/-- The package changed after it rather than before. -/
theorem onPkg (h : Frozen s t) (f : Pkg → Pkg) : Frozen (s.onPkg f) (t.onPkg f) :=
  ⟨by rw [h.rest]; rfl, ⟨h.layout.bares⟩⟩

theorem setFront (s : State) (p tag num : Nat) (st : FrontSt) : Frozen s (s.setFront p tag num st) := ⟨rfl, .of_parts rfl⟩

theorem freezeFront (s : State) (p tag num : Nat) : Frozen s (s.freezeFront p tag num) :=
  (ite (setFront ..) (refl s)).trans
    (ite ((setFront ..).trans (of_recorded ((Recorded.recordE ..).trans (Recorded.event ..)))) (refl _))

theorem leaseFreeze (s : State) (die : Nat) : Frozen s (s.leaseFreeze die) := by
  refine ite ⟨?_, .onPart _ _ _ (fun _ => rfl)⟩ (foldl (fun _ _ => freezeFront ..) _ _)
  unfold State.onPart
  split <;> rfl

theorem parts_nil (h : Frozen s t) (hs : s.parts = []) : t.parts = [] := by
  have := h.layout.bares
  rw [hs] at this
  exact List.map_eq_nil_iff.1 this

end Frozen

/-- A firmware core that finds itself in a group of fewer than six. -/
def FwCore.lose (g : BitVec 10) (f : FwCore) : FwCore := { f with group := g, lost := true, leader := false, votes := [], asks := [] }

/-- The entry of a lost lease in firmware's log, where there is no partition (R419, R422; log 32). -/
def lostEntry (n : Nat) (g : BitVec 10) : List Word := [BitVec.ofNat 64 n, Cause.leaseLost.word false, g.setWidth 64]

theorem State.reportLost_of_parts {s : State} (h : s.parts ≠ []) (n : Nat) (g : BitVec 10) : Frozen s (s.reportLost n g) := by
  unfold State.reportLost
  rw [if_neg (by simpa using h)]
  exact .ite (.of_recorded ((Recorded.recordE ..).trans (Recorded.msi ..)))
    (.foldl (fun _ _ => .of_recorded ((Recorded.recordX ..).trans (Recorded.msi ..))) _ _)

theorem State.reportLost_of_nil {s : State} (h : s.parts = []) (n : Nat) (g : BitVec 10) :
    s.reportLost n g = s.onPkg (fun k => { k with fwlog := k.fwlog ++ [lostEntry n g] }) := by
  unfold State.reportLost
  rw [if_pos (by simp [h])]
  rfl

/-- The fronts of a firmware core's own die freeze. -/
theorem Frozen.ownDie (s : State) (n : Nat) : Frozen s (if n < 8 then s.leaseFreeze n else s) := ite (leaseFreeze ..) (refl s)

/-- A lease lost: the firmware core says so, its die's fronts freeze, and it is recorded or logged. -/
theorem State.loseLease_rest (s : State) (n : Nat) (g : BitVec 10) :
    ∃ l, Frozen ((s.onFw n (FwCore.lose g)).onPkg (fun k => { k with fwlog := l })) (s.loseLease n g) := by
  unfold State.loseLease
  have hfr := Frozen.ownDie (s.onFw n (FwCore.lose g)) n
  dsimp only
  split
  · exact ⟨s.pkg.fwlog, .refl _⟩
  · by_cases hp : (if n < 8 then (s.onFw n (FwCore.lose g)).leaseFreeze n else s.onFw n (FwCore.lose g)).parts = []
    · refine ⟨s.pkg.fwlog ++ [lostEntry n g], ?_⟩
      have h := hfr.onPkg (fun k => { k with fwlog := k.fwlog ++ [lostEntry n g] })
      rw [← State.reportLost_of_nil hp] at h
      exact h
    · exact ⟨s.pkg.fwlog, hfr.trans (State.reportLost_of_parts hp ..)⟩

theorem State.loseLease_fws (s : State) (n : Nat) (g : BitVec 10) : (s.loseLease n g).fws = (s.onFw n (FwCore.lose g)).fws := by
  obtain ⟨l, h⟩ := s.loseLease_rest n g
  rw [h.rest]
  rfl

/-- Before there is a partition, a first lost lease is one entry in firmware's log. -/
theorem State.loseLease_of_nil {s : State} {n : Nat} (hp : s.parts = []) (hl : (s.fw n).lost = false) (g : BitVec 10) :
    (s.loseLease n g).parts = [] ∧ (s.loseLease n g).pkg.fwlog = s.pkg.fwlog ++ [lostEntry n g] := by
  have hfr := Frozen.ownDie (s.onFw n (FwCore.lose g)) n
  have hnil := hfr.parts_nil hp
  have heq : s.loseLease n g = (if n < 8 then (s.onFw n (FwCore.lose g)).leaseFreeze n else s.onFw n (FwCore.lose g)).reportLost n g :=
    if_neg (by simp [hl])
  rw [heq, State.reportLost_of_nil hnil]
  refine ⟨hnil, ?_⟩
  rw [hfr.rest]
  rfl

/-- Firmware cores lose their leases in turn, each with the group that it is in. -/
def State.loseAll (s : State) (l : List Nat) : State := l.foldl (fun s m => s.loseLease m (s.fw m).group) s

section
variable (s : State) {l : List Nat} {m : Nat}

theorem State.fw_loseAll_of_notMem (h : m ∉ l) : (s.loseAll l).fw m = s.fw m :=
  State.fw_foldl_of_notMem (f := fun u m => FwCore.lose (u.fw m).group) (fun u m => u.loseLease_fws m _) h s

theorem State.fw_loseAll_of_mem (h : m ∈ l) : ((s.loseAll l).fw m).lost = true ∧ ((s.loseAll l).fw m).leader = false :=
  State.fw_foldl_of_mem (f := fun u m => FwCore.lose (u.fw m).group) (P := fun x => x.lost = true ∧ x.leader = false)
    (fun u m => u.loseLease_fws m _) (fun _ _ => ⟨rfl, rfl⟩) h s

/-- Leases lost leave the layout of the partitions and the fences. -/
theorem State.loseAll_layout (l : List Nat) : SameLayout s (s.loseAll l) ∧ (s.loseAll l).fences = s.fences :=
  List.foldlRecOn (motive := fun t => SameLayout s t ∧ t.fences = s.fences) l _ ⟨.refl s, rfl⟩ (fun t ⟨hl, hf⟩ m _ => by
    obtain ⟨k, h⟩ := t.loseLease_rest m (t.fw m).group
    exact ⟨hl.trans ⟨h.layout.bares⟩, by rw [h.rest]; exact hf⟩)

variable {s}

theorem State.loseAll_of_nil (hp : s.parts = []) (hd : l.Nodup) (hl : ∀ m ∈ l, (s.fw m).lost = false) :
    (s.loseAll l).parts = [] ∧ (s.loseAll l).pkg.fwlog = s.pkg.fwlog ++ l.map (fun m => lostEntry m (s.fw m).group) := by
  induction l generalizing s with
  | nil => exact ⟨hp, (List.append_nil _).symm⟩
  | cons k t ih =>
    obtain ⟨hk, ht⟩ := List.nodup_cons.1 hd
    obtain ⟨hnil, hlog⟩ := State.loseLease_of_nil hp (hl k (List.mem_cons_self ..)) (s.fw k).group
    have hfw : ∀ m ∈ t, (s.loseLease k (s.fw k).group).fw m = s.fw m := fun m hm => by
      rw [State.fw, State.loseLease_fws, ← State.fw, State.fw_onFw, if_neg (fun h : m = k => hk (h ▸ hm))]
    obtain ⟨hnil', hlog'⟩ := ih hnil ht (fun m hm => by rw [hfw m hm]; exact hl m (List.mem_cons_of_mem _ hm))
    refine ⟨hnil', hlog'.trans ?_⟩
    rw [hlog, List.append_assoc]
    exact congrArg (s.pkg.fwlog ++ lostEntry k (s.fw k).group :: ·) (List.map_congr_left fun m hm => by rw [hfw m hm])

end

/-! ### What bring-up leaves (R450) -/

/-- `t` is `s` after firmware cores have changed, partitions been made and leases been reported lost. -/
structure Raised (s t : State) : Prop where
  rest  : t = { s with mem := t.mem, cores := t.cores, fences := t.fences, fronts := t.fronts, links := t.links, parts := t.parts, fws := t.fws
                       fresh := t.fresh, pkg := { s.pkg with fwlog := t.pkg.fwlog } }
  links : s.links = [] → t.links = []

namespace Raised
variable {s t u : State}

theorem refl (s : State) : Raised s s := ⟨rfl, id⟩
theorem trans (h : Raised s t) (g : Raised t u) : Raised s u := ⟨by rw [g.rest, h.rest], g.links ∘ h.links⟩

theorem foldl {α : Type} {f : State → α → State} (hf : ∀ s a, Raised s (f s a)) (l : List α) (s : State) : Raised s (l.foldl f s) := by
  induction l generalizing s with
  | nil => exact refl s
  | cons a t ih => exact (hf s a).trans (ih _)

theorem of_frozen (h : Frozen s t) : Raised s t := ⟨by rw [h.rest], fun hs => by rw [h.rest]; exact hs⟩

theorem onFws (s : State) (fs : AMap FwCore) : Raised s { s with fws := fs } := ⟨rfl, id⟩

theorem dropExchanges (s : State) : Raised s s.dropExchanges := ⟨rfl, fun h => by simp [State.dropExchanges, h, AMap.mapVals]⟩

theorem configure (s : State) (l : List (Nat × Nat)) (g : List (Nat × Nat × Nat)) : Raised s (s.configure l g) := by
  rw [State.configure_eq]
  refine Raised.trans (t := { s with parts := s.parts.filter (staysIn l g) }) ⟨rfl, id⟩ ?_
  exact (foldl (fun u q => (⟨rfl, id⟩ : Raised u (u.create q _))) _ _).trans ⟨rfl, id⟩

theorem settle (s : State) : Raised s s.settle := by
  unfold State.settle
  split
  · exact configure ..
  · exact refl s

theorem loseAll (s : State) (l : List Nat) : Raised s (s.loseAll l) :=
  foldl (fun u m => by
    obtain ⟨k, h⟩ := u.loseLease_rest m (u.fw m).group
    exact Raised.trans (t := (u.onFw m (FwCore.lose (u.fw m).group)).onPkg (fun g => { g with fwlog := k })) ⟨rfl, id⟩ (of_frozen h)) l s

end Raised

/-! ### The first partitions (R22, R450) -/

theorem State.of_mem_bootParts {s : State} {q : Nat × Nat} (h : q ∈ s.bootParts) : legalPart q = true ∧ ∀ d ∈ diesOf q, s.usable d = true := by
  let ok := fun (l : List (Nat × Nat)) => ∀ q ∈ l, legalPart q = true ∧ ∀ d ∈ diesOf q, s.usable d = true
  refine List.foldlRecOn (motive := ok) [8, 4, 2, 1] _ (fun _ h => absurd h List.not_mem_nil) (fun l hl n hn => ?_) q h
  refine List.foldlRecOn (motive := ok) _ _ hl (fun l hl i hi q hq => ?_)
  dsimp only at hq
  split at hq
  · next hall =>
    rcases List.mem_append.1 hq with hq | hq
    · exact hl q hq
    · obtain rfl := List.mem_singleton.1 hq
      refine ⟨?_, fun d hd => (Bool.and_eq_true_iff.1 (List.all_eq_true.1 hall d hd)).1⟩
      have hi : i < 8 / n := List.mem_range.1 hi
      have hfit : n * i + n ≤ 8 := by
        have := Nat.mul_le_of_le_div n (i + 1) 8 hi
        rw [Nat.add_mul, Nat.mul_comm i] at this
        omega
      have hsize : [1, 2, 4, 8].contains n = true := by
        simp only [List.mem_cons, List.not_mem_nil, or_false] at hn
        rcases hn with rfl | rfl | rfl | rfl <;> rfl
      simp only [legalPart, hsize, Nat.mul_mod_right, hfit, beq_self_eq_true, decide_true, Bool.and_self]
  · exact hl q hq

/-! ### The election (R418, R419, R450) -/

/-- The firmware cores that a core reaches at bring-up and that reach it, with the core itself (log 68). -/
def State.meets (s : State) (n : Nat) : List Nat :=
  (upTo 10).filter (fun m => m == n || ((s.fw n).known.getLsbD m && (s.fw m).known.getLsbD n))

/-- Every firmware core begins epoch 1 with the cores that it knows. -/
def State.grouped (s : State) : State :=
  (upTo 10).foldl (fun s n => s.onFw n (fun f => { FwCore.reset with epoch := 1, voted := 1, group := f.known })) s

theorem FwCore.known_of_group {f g : FwCore} (h : g.group = f.known) : g.known = f.known := by
  have hne : f.known ≠ 0 := by
    unfold FwCore.known
    split
    · decide
    · assumption
  rw [FwCore.known, h, if_neg hne]

theorem State.fw_grouped (s : State) {m : Nat} (hm : m < 10) :
    s.grouped.fw m = { FwCore.reset with epoch := 1, voted := 1, group := (s.fw m).known } := by
  let f := fun (_ : State) (_ : Nat) (x : FwCore) => ({ FwCore.reset with epoch := 1, voted := 1, group := x.known } : FwCore)
  have hknown : (s.grouped.fw m).known = (s.fw m).known :=
    State.fw_foldl_keeps (f := f) (π := FwCore.known) (fun _ _ => rfl) (fun _ _ _ => FwCore.known_of_group rfl) _ s m
  obtain ⟨hform, hgroup⟩ := State.fw_foldl_of_mem (f := f)
    (P := fun x => x = { FwCore.reset with epoch := 1, voted := 1, group := x.group } ∧ x.known = x.group)
    (fun _ _ => rfl) (fun _ _ => ⟨rfl, FwCore.known_of_group rfl⟩) (List.mem_range.2 hm) s
  rw [← hknown]
  exact hform.trans (by rw [← hgroup]; rfl)

theorem State.grouped_rest (s : State) : ∃ fs, s.grouped = { s with fws := fs } := State.foldl_onFw_rest _ _ s

theorem State.reach_grouped (s : State) {n : Nat} (hn : n < 10) : s.grouped.reach n = s.meets n :=
  List.filter_congr fun m hm => by rw [s.fw_grouped hn, s.fw_grouped (List.mem_range.1 hm)]

theorem State.self_mem_reach (s : State) {n : Nat} (hn : n < 10) : n ∈ s.reach n :=
  List.mem_filter.2 ⟨List.mem_range.2 hn, by simp⟩

/-- A member of a group under a new leader. -/
def FwCore.follow (host : Bool) (e : Nat) (f : FwCore) : FwCore := { f with host := host, epoch := e, asks := [], votes := [] }

/-- A firmware core with a lease that its leader has renewed. -/
def FwCore.renewed (now : Nat) (leads : Bool) (f : FwCore) : FwCore := { f with expiry := now + leaseTime, lost := false, leader := leads }

/-- The members of a group take up its leader's epoch, each with the cores that it reached before. -/
def State.follow (s : State) (n : Nat) (host : Bool) : State :=
  (s.reach n).foldl (fun s m => s.onFw m (FwCore.follow host (s.fw n).epoch)) s.dropExchanges

theorem State.lead_eq (s : State) (n : Nat) (host : Bool) : s.lead n host = ((s.follow n host).renew n).settle := rfl

theorem State.reach_follow (s : State) (n : Nat) (host : Bool) : (s.follow n host).reach n = s.reach n := by
  have hg : ∀ m, ((s.follow n host).fw m).group = (s.fw m).group := fun m =>
    State.fw_foldl_keeps (f := fun u _ => FwCore.follow host (u.fw n).epoch) (π := FwCore.group)
      (fun _ _ => rfl) (fun _ _ _ => rfl) _ s.dropExchanges m
  simp only [State.reach, hg]

theorem State.epoch_follow (s : State) (n : Nat) (host : Bool) : ((s.follow n host).fw n).epoch = (s.fw n).epoch :=
  List.foldlRecOn (motive := fun u : State => (u.fw n).epoch = (s.fw n).epoch) _ _ rfl (fun u hu m _ => by
    rw [State.fw_onFw]
    split
    · exact hu
    · exact hu)

theorem State.renew_follow_rest (s : State) (n : Nat) (host : Bool) : ∃ fs, (s.follow n host).renew n = { s.dropExchanges with fws := fs } := by
  obtain ⟨fs, h⟩ := State.foldl_onFw_rest (fun u _ => FwCore.follow host (u.fw n).epoch) (s.reach n) s.dropExchanges
  obtain ⟨fs', h'⟩ := State.foldl_onFw_rest (fun u m => FwCore.renewed u.time (decide (m = n)))
    ((s.follow n host).reach n) (s.follow n host)
  have hfollow : s.follow n host = { s.dropExchanges with fws := fs } := h
  exact ⟨fs', h'.trans (by rw [hfollow])⟩

theorem State.settle_fws (s : State) : s.settle.fws = s.fws := by
  unfold State.settle
  split
  · rw [State.configure_eq]
    exact List.foldlRecOn (motive := fun t : State => t.fws = s.fws) _ _ rfl (fun _ h _ _ => h)
  · rfl

/-- A leader has the leases of the cores that it reaches, and changes no other firmware core. -/
theorem State.fw_lead (s : State) (n : Nat) (host : Bool) {m : Nat} :
    (m ∈ s.reach n → ((s.lead n host).fw m).lost = false ∧ ((s.lead n host).fw m).leader = decide (m = n)) ∧
      (m ∉ s.reach n → (s.lead n host).fw m = s.fw m) ∧ ((s.lead n host).fw n).epoch = (s.fw n).epoch := by
  let f := fun (u : State) (m : Nat) => FwCore.renewed u.time (decide (m = n))
  have hfw : ∀ m, (s.lead n host).fw m = ((s.follow n host).renew n).fw m := fun m => by
    rw [State.lead_eq, State.fw, State.settle_fws, ← State.fw]
  simp only [hfw]
  refine ⟨fun hm => ?_, fun hm => ?_, ?_⟩
  · exact State.fw_foldl_of_mem (f := f) (P := fun x => x.lost = false ∧ x.leader = decide (m = n)) (fun _ _ => rfl) (fun _ _ => ⟨rfl, rfl⟩)
      (s.reach_follow n host ▸ hm) _
  · have hrenew := State.fw_foldl_of_notMem (F := fun u m => u.onFw m (f u m)) (fun _ _ => rfl) (s.reach_follow n host ▸ hm) (s.follow n host)
    exact hrenew.trans (State.fw_foldl_of_notMem (f := fun u _ => FwCore.follow host (u.fw n).epoch)
      (fun _ _ => rfl) hm s.dropExchanges)
  · exact (State.fw_foldl_keeps (f := f) (π := FwCore.epoch) (fun _ _ => rfl) (fun _ _ _ => rfl) _ _ n).trans (s.epoch_follow n host)

/-- Whether a firmware core leads after the election of step 5, and which then: the first that reaches a majority. -/
theorem State.elect_cases (s : State) :
    (∃ n < 10, 6 ≤ (s.meets n).length ∧ (∀ m < n, (s.meets m).length < 6) ∧
      s.elect = (s.grouped.lead n false).loseAll ((upTo 10).filter (fun m => !(s.meets n).contains m))) ∨
    (∀ n < 10, (s.meets n).length < 6) ∧ s.elect = s.grouped.loseAll (upTo 10) := by
  have heq : s.elect = match (upTo 10).find? (fun n => decide (6 ≤ (s.grouped.reach n).length)) with
    | some n => (s.grouped.lead n false).loseAll ((upTo 10).filter (fun m => !(s.grouped.reach n).contains m))
    | none => s.grouped.loseAll (upTo 10) := rfl
  cases hf : (upTo 10).find? (fun n => decide (6 ≤ (s.grouped.reach n).length)) with
  | some n =>
    obtain ⟨hmaj, hn, hfirst⟩ := List.find?_range_eq_some.1 hf
    have hn : n < 10 := List.mem_range.1 hn
    refine .inl ⟨n, hn, ?_, fun m hm => ?_, ?_⟩
    · simpa [s.reach_grouped hn] using hmaj
    · simpa [s.reach_grouped (hm.trans hn)] using hfirst m hm
    · rw [heq, hf]
      simp only [s.reach_grouped hn]
  | none =>
    refine .inr ⟨fun n hn => ?_, by rw [heq, hf]⟩
    simpa [s.reach_grouped hn] using List.find?_eq_none.1 hf n (List.mem_range.2 hn)

/-- What the election leaves of the firmware cores, by the cores that each of them reaches. -/
def Elected (meets : Nat → List Nat) (t : State) : Prop :=
  (∀ n < 10, 6 ≤ (meets n).length → (∀ m < n, (meets m).length < 6) → (t.fw n).leader = true ∧ (t.fw n).epoch = 1 ∧
    (∀ m < 10, m ≠ n → (t.fw m).leader = false) ∧ ∀ m < 10, ((t.fw m).lost = true ↔ m ∉ meets n)) ∧
  ((∀ n < 10, (meets n).length < 6) → ∀ m < 10, (t.fw m).lost = true ∧ (t.fw m).leader = false)

/-- The first core of a majority leads the cores that it reaches, and those outside its group lose their leases. -/
theorem State.fw_led (s : State) {n : Nat} (hn : n < 10) :
    let t := (s.grouped.lead n false).loseAll ((upTo 10).filter (fun m => !(s.meets n).contains m))
    (t.fw n).leader = true ∧ (t.fw n).epoch = 1 ∧ (∀ m < 10, m ≠ n → (t.fw m).leader = false) ∧
      ∀ m < 10, ((t.fw m).lost = true ↔ m ∉ s.meets n) := by
  intro t
  have hin : ∀ m ∈ s.meets n, t.fw m = (s.grouped.lead n false).fw m ∧ (t.fw m).lost = false ∧ (t.fw m).leader = decide (m = n) := fun m hm => by
    have hsame : t.fw m = (s.grouped.lead n false).fw m := State.fw_loseAll_of_notMem _ (by simp [hm])
    exact ⟨hsame, by rw [hsame]; exact (s.grouped.fw_lead n false).1 (s.reach_grouped hn ▸ hm)⟩
  have hout : ∀ m < 10, m ∉ s.meets n → (t.fw m).lost = true ∧ (t.fw m).leader = false := fun m hm hmem =>
    State.fw_loseAll_of_mem _ (List.mem_filter.2 ⟨List.mem_range.2 hm, by simpa using hmem⟩)
  obtain ⟨hsame, -, hleads⟩ := hin n (s.reach_grouped hn ▸ s.grouped.self_mem_reach hn)
  refine ⟨by simpa using hleads, ?_, fun m hm hne => ?_, fun m hm => ⟨fun hl hmem => ?_, fun hmem => (hout m hm hmem).1⟩⟩
  · rw [hsame, (s.grouped.fw_lead n false (m := n)).2.2, s.fw_grouped hn]
  · by_cases hmem : m ∈ s.meets n
    · simpa [hne] using (hin m hmem).2.2
    · exact (hout m hm hmem).2
  · rw [(hin m hmem).2.1] at hl
    cases hl

theorem State.elect_elected (s : State) : Elected s.meets s.elect := by
  rcases s.elect_cases with ⟨k, hk, hmaj, hfirst, heq⟩ | ⟨hno, heq⟩
  · refine ⟨fun n hn hn6 hnfirst => ?_, fun hno => absurd hmaj (Nat.not_le.2 (hno k hk))⟩
    obtain rfl : n = k := by
      rcases Nat.lt_trichotomy n k with h | h | h
      · exact absurd hn6 (Nat.not_le.2 (hfirst n h))
      · exact h
      · exact absurd hmaj (Nat.not_le.2 (hnfirst k h))
    rw [heq]
    exact s.fw_led hn
  · refine ⟨fun n hn h6 => absurd h6 (Nat.not_le.2 (hno n hn)), fun _ m hm => ?_⟩
    rw [heq]
    exact State.fw_loseAll_of_mem _ (List.mem_range.2 hm)

theorem Raised.elect (s : State) : Raised s s.elect := by
  have hgrouped : Raised s s.grouped := by
    obtain ⟨fs, h⟩ := s.grouped_rest
    rw [h]
    exact onFws s fs
  rcases s.elect_cases with ⟨n, -, -, -, heq⟩ | ⟨-, heq⟩
  · obtain ⟨fs, h⟩ := s.grouped.renew_follow_rest n false
    have hlead : Raised s.grouped (s.grouped.lead n false) := by
      rw [State.lead_eq, h]
      exact ((dropExchanges _).trans (onFws _ fs)).trans (settle _)
    rw [heq]
    exact (hgrouped.trans hlead).trans (loseAll ..)
  · rw [heq]
    exact hgrouped.trans (loseAll ..)

/-! ### The partitions after the election (R22, R246, R450) -/

theorem SameLayout.of_mem {s t : State} (h : SameLayout s t) {e : Nat × Part} (he : e ∈ t.parts) : ∃ e' ∈ s.parts, e'.1 = e.1 ∧ e'.2.dies = e.2.dies := by
  have hview : (e.1, e.2.bare) ∈ baresOf s.parts := h.bares ▸ List.mem_map_of_mem he
  obtain ⟨e', he', heq⟩ := List.mem_map.1 hview
  obtain ⟨hk, hb⟩ := Prod.mk.inj heq
  exact ⟨e', he', hk, (congrArg Part.dies hb : _)⟩

theorem SameLayout.fenced {s t : State} (h : SameLayout s t) : t.fenced = s.fenced := by simp only [State.fenced, h.partKey]

/-- A leader of a module without a partition makes the first ones. -/
theorem State.lead_of_nil {s : State} (hp : s.parts = []) (n : Nat) (host : Bool) :
    ∃ v : State, v.pkg = s.pkg ∧ s.lead n host = v.configure v.bootParts [] := by
  obtain ⟨fs, h⟩ := s.renew_follow_rest n host
  refine ⟨{ s.dropExchanges with fws := fs }, rfl, ?_⟩
  rw [State.lead_eq, h]
  exact if_pos (List.isEmpty_iff.2 hp)

/-- Of a module without a partition: with a leader its partitions are legal, of usable dies and fenced, and without one there is none, and every
firmware core has its entry in firmware's log. -/
theorem State.elect_parts {s : State} (hp : s.parts = []) :
    (∀ e ∈ s.elect.parts, legalPart (e.1, e.2.dies) = true ∧ ∀ d ∈ diesOf (e.1, e.2.dies), s.usable d = true) ∧
    (∀ n < 10, 6 ≤ (s.meets n).length → s.elect.fences = s.elect.fenced) ∧
    ((∀ n < 10, (s.meets n).length < 6) → s.elect.parts = [] ∧
      s.elect.pkg.fwlog = s.pkg.fwlog ++ (List.range 10).map (fun m => lostEntry m (s.fw m).known)) := by
  obtain ⟨fs, hg⟩ := s.grouped_rest
  have hgp : s.grouped.parts = [] := by rw [hg]; exact hp
  rcases s.elect_cases with ⟨n, hn, hmaj, -, heq⟩ | ⟨hno, heq⟩
  · obtain ⟨v, hv, hlead⟩ := State.lead_of_nil hgp n false
    obtain ⟨hlay, hfences⟩ := (s.grouped.lead n false).loseAll_layout ((upTo 10).filter (fun m => !(s.meets n).contains m))
    rw [← heq, hlead] at hlay hfences
    refine ⟨fun e he => ?_, fun _ _ _ => ?_, fun hno => absurd hmaj (Nat.not_le.2 (hno n hn))⟩
    · obtain ⟨e', he', hk, hd⟩ := hlay.of_mem he
      have hboot := State.of_mem_bootParts (State.configure_no_other he')
      rw [hk, hd] at hboot
      have hus : ∀ d, v.usable d = s.usable d := fun d => by rw [State.usable, hv, hg]; rfl
      simpa only [hus] using hboot
    · rw [hfences, hlay.fenced]
      exact State.configure_fences ..
  · have hlost : ∀ m ∈ upTo 10, (s.grouped.fw m).lost = false := fun m hm => by rw [s.fw_grouped (List.mem_range.1 hm)]; rfl
    obtain ⟨hnil, hlog⟩ := State.loseAll_of_nil (l := upTo 10) hgp List.nodup_range hlost
    refine ⟨fun e he => ?_, fun n hn h6 => absurd h6 (Nat.not_le.2 (hno n hn)), fun _ => ⟨heq ▸ hnil, ?_⟩⟩
    · rw [heq, hnil] at he
      cases he
    · rw [heq, hlog, show s.grouped.pkg = s.pkg by rw [hg]]
      exact congrArg (s.pkg.fwlog ++ ·) (List.map_congr_left fun m hm => by rw [s.fw_grouped (List.mem_range.1 hm)])

/-! ### The image run (R427, R450) -/

/-- The machine with a checked image: step 4 of R450. -/
def State.imaged (s : State) (i : FwImage) (b : Boot) : State :=
  s.onPkg (fun g => { g with
    boot := b, fwDigest := Config.sha512 i.body
    fwlog := g.fwlog ++ ((upTo 8).filter (fun d => !s.usable d)).map (fun d => [BitVec.ofNat 64 d]) })

theorem State.bringUp_eq (s : State) (i : FwImage) (b : Boot) : s.bringUp i b = (s.imaged i b).elect := rfl

theorem Raised.bringUp (s : State) (i : FwImage) (b : Boot) : Raised (s.imaged i b) (s.bringUp i b) := Raised.elect _

/-- An image that runs has been measured, and its firmware cores have elected. -/
theorem State.bringUp_up (s : State) (i : FwImage) (b : Boot) :
    (s.bringUp i b).pkg.boot = b ∧ (s.bringUp i b).pkg.fwDigest = Config.sha512 i.body ∧ Elected s.meets (s.bringUp i b) := by
  refine ⟨?_, ?_, (s.imaged i b).elect_elected⟩ <;> rw [(Raised.bringUp s i b).rest] <;> rfl

/-! ### Reset (R427, R447) -/

theorem State.fw_inReset (s : State) (bad : BitVec 8) (n : Nat) : (s.inReset bad).fw n = { FwCore.reset with group := (s.fw n).group } := by
  have hfind := AMap.find_mapVals (fun _ (f : FwCore) => { FwCore.reset with group := f.group }) s.fws n
  rw [State.fw, get_eq_find]
  refine (congrArg (Option.getD · FwCore.reset) hfind).trans ?_
  rw [State.fw, get_eq_find]
  cases AMap.find s.fws n <;> rfl

theorem State.meets_inReset (s : State) (bad : BitVec 8) : (s.inReset bad).meets = s.meets := by
  funext n
  simp only [State.meets, State.fw_inReset]
  rfl

/-- A reset with an image in flash that passes its check runs it. -/
theorem exec_moduleReset_good {s : State} {i : FwImage} (hf : s.pkg.flash = some i) (hc : s.bootCheck i = true) (bad : BitVec 8) :
    exec (.moduleReset bad) s = .next ((s.inReset bad).bringUp i .running) := by
  have hf' : (s.inReset bad).pkg.flash = some i := hf
  have hc' : (s.inReset bad).bootCheck i = true := hc
  show execModuleReset bad s = _
  simp only [execModuleReset, hf', hc', if_true]

/-- A reset with none ends in recovery. -/
theorem exec_moduleReset_bad {s : State} (hc : ∀ i, s.pkg.flash = some i → s.bootCheck i ≠ true) (bad : BitVec 8) :
    exec (.moduleReset bad) s = .next ((s.inReset bad).onPkg (fun g => { g with boot := .recovery })) := by
  show execModuleReset bad s = _
  cases hf : s.pkg.flash with
  | none =>
    have hf' : (s.inReset bad).pkg.flash = none := hf
    simp only [execModuleReset, hf']
  | some i =>
    have hf' : (s.inReset bad).pkg.flash = some i := hf
    have hc' : ¬ (s.inReset bad).bootCheck i = true := hc i hf
    simp only [execModuleReset, hf', if_neg hc']

/-- What a reset has left where bring-up begins stands when its image runs. -/
theorem State.resetUp_rest (s : State) (bad : BitVec 8) (i : FwImage) :
    let t := (s.inReset bad).bringUp i .running
    t.pkg.flash = s.pkg.flash ∧ t.pkg.fwVersion = s.pkg.fwVersion ∧ t.pkg.badDies = bad ∧ t.time = 0 ∧ t.eps = [] ∧ t.routers = [] ∧ t.homes = [] ∧
      t.rings = [] ∧ t.rlcs = [] ∧ t.links = [] := by
  intro t
  have hr : Raised ((s.inReset bad).imaged i .running) t := .bringUp ..
  have hl : t.links = [] := hr.links rfl
  rw [hr.rest] at hl ⊢
  exact ⟨rfl, rfl, rfl, rfl, rfl, rfl, rfl, rfl, rfl, hl⟩

/-- The partitions and firmware's log after a reset whose image runs. -/
theorem State.resetUp_parts (s : State) (bad : BitVec 8) (i : FwImage) :
    let t := (s.inReset bad).bringUp i .running
    (∀ e ∈ t.parts, legalPart (e.1, e.2.dies) = true ∧ ∀ d ∈ diesOf (e.1, e.2.dies), bad.getLsbD d = false) ∧
    (∀ n < 10, 6 ≤ (s.meets n).length → t.fences = t.fenced) ∧
    ((∀ n < 10, (s.meets n).length < 6) → t.parts = [] ∧
      t.pkg.fwlog = ((List.range 8).filter (fun d => bad.getLsbD d)).map (fun d => [BitVec.ofNat 64 d]) ++
        (List.range 10).map (fun m => lostEntry m (s.fw m).known)) := by
  intro t
  let u := (s.inReset bad).imaged i .running
  have hmeets : u.meets = s.meets := s.meets_inReset bad
  have hknown : ∀ m, (u.fw m).known = (s.fw m).known := fun m => by
    show ((s.inReset bad).fw m).known = _
    rw [s.fw_inReset bad]
    rfl
  have husable : ∀ d, u.usable d = !bad.getLsbD d := fun _ => rfl
  have hlog : u.pkg.fwlog = ((List.range 8).filter (fun d => bad.getLsbD d)).map (fun d => [BitVec.ofNat 64 d]) := by
    show [] ++ ((upTo 8).filter (fun d => !!bad.getLsbD d)).map _ = _
    simp only [Bool.not_not, List.nil_append]
    rfl
  obtain ⟨hlegal, hfences, hnone⟩ := State.elect_parts (s := u) rfl
  rw [hmeets] at hfences hnone
  simp only [husable, Bool.not_eq_true'] at hlegal
  simp only [hknown, hlog] at hnone
  exact ⟨hlegal, hfences, hnone⟩

/-- In recovery an image that passes its check is run from SRAM, and any other is ignored. -/
theorem exec_recoveryImageWrite_eq (s : State) (i : FwImage) :
    exec (.recoveryImageWrite i) s = .next (if s.pkg.boot = .recovery ∧ s.bootCheck i = true then s.bringUp i .sram else s) := by
  show execRecoveryImageWrite i s = _
  unfold execRecoveryImageWrite
  simp only [Bool.and_eq_true, beq_iff_eq]
  split <;> rfl

/-- Settles O36: bring-up is a measured image and then an election, whose firmware cores are described one by one; its partitions are those of step 8. -/
theorem bootEvents : Obligations.BootEvents := by
  intro s bad img ok known meets up
  refine ⟨?_, ?_, fun hb => ?_, fun hb => ?_⟩
  · have hup : ∀ i, up ((s.inReset bad).bringUp i .running) i .running := fun i => by
      have h := (s.inReset bad).bringUp_up i .running
      rw [s.meets_inReset bad] at h
      exact h
    cases hf : s.pkg.flash with
    | none =>
      have hrec := exec_moduleReset_bad (s := s) (fun i hi => by rw [hf] at hi; cases hi) bad
      exact ⟨_, hrec, hf, rfl, rfl, rfl, rfl, rfl, rfl, rfl, rfl, rfl, rfl, rfl, rfl, rfl⟩
    | some i =>
      by_cases hc : s.bootCheck i = true
      · obtain ⟨hflash, hver, hbad, htime, heps, hrouters, hhomes, hrings, hrlcs, hlinks⟩ := s.resetUp_rest bad i
        refine ⟨_, exec_moduleReset_good hf hc bad, hflash.trans hf, hver, hbad, htime, heps, hrouters, hhomes, hrings, hrlcs, hlinks, ?_⟩
        dsimp only
        rw [if_pos hc]
        exact ⟨hup i, s.resetUp_parts bad i⟩
      · have hrec := exec_moduleReset_bad (s := s) (fun j hj => by rw [hf] at hj; cases hj; exact hc) bad
        refine ⟨_, hrec, hf, rfl, rfl, rfl, rfl, rfl, rfl, rfl, rfl, rfl, ?_⟩
        dsimp only
        rw [if_neg hc]
        exact ⟨rfl, rfl, rfl, rfl⟩
  · refine ⟨_, exec_recoveryImageWrite_eq s img, ?_⟩
    split
    · have hr := Raised.bringUp s img .sram
      refine ⟨s.bringUp_up img .sram, by rw [hr.rest]; rfl, by rw [hr.rest]; rfl, fun n hn hp => ?_⟩
      obtain ⟨-, hfences, -⟩ := State.elect_parts (s := s.imaged img .sram) hp
      exact hfences n hn
    · rfl
  · have hx : exec (.flashRewrite img ok) s = .next (s.onPkg (fun g => { g with flash := if ok then some img else none })) :=
      if_pos (beq_iff_eq.2 hb)
    exact ⟨_, hx, rfl, rfl, rfl, rfl, rfl⟩
  · exact if_neg (fun h => hb (beq_iff_eq.1 h))

end Sys2Proof.Machine
end

section
/-!
SUPPORT. One turn of a router on a plane (R246, R248, R250, R258), the sinks of poison and throttle, and the responses, NACKs, stay notices and time-outs
that reach a request at its interface (R255-R257, R263), and O48 from them.
-/

namespace Sys2Proof.Machine

/-! ### A router and its planes -/

theorem State.router_onRouter (s : State) (n : Nat) (f : Router → Router) (m : Nat) :
    (s.onRouter n f).router m = if m = n then f (s.router n) else s.router m := by
  simp [State.router, State.onRouter, AMap.get_set]

/-- The flits that arrive at a router on a plane in the next cycle. -/
def Router.coming (x : Router) (rsp : Bool) : List Flit := if rsp then x.nx1 else x.nx0

@[simp] theorem Router.ins_begin (x : Router) (rsp : Bool) : (x.begin rsp).ins rsp = [] := by cases rsp <;> rfl
@[simp] theorem Router.moved_begin (x : Router) (rsp : Bool) : (x.begin rsp).moved rsp = true := by cases rsp <;> rfl
@[simp] theorem Router.coming_begin (x : Router) (rsp : Bool) : (x.begin rsp).coming rsp = x.coming rsp := by cases rsp <;> rfl
@[simp] theorem Router.ins_push (x : Router) (rsp : Bool) (f : Flit) : (x.push rsp f).ins rsp = x.ins rsp := by cases rsp <;> rfl
@[simp] theorem Router.moved_push (x : Router) (rsp : Bool) (f : Flit) : (x.push rsp f).moved rsp = x.moved rsp := by cases rsp <;> rfl
@[simp] theorem Router.coming_push (x : Router) (rsp : Bool) (f : Flit) : (x.push rsp f).coming rsp = x.coming rsp ++ [f] := by cases rsp <;> rfl

/-- A router that has begun its turn on a plane. -/
def State.begun (s : State) (r : Nat) (rsp : Bool) : State := s.onRouter r (fun x => x.begin rsp)

theorem State.router_begun (s : State) (r : Nat) (rsp : Bool) : (s.begun r rsp).router r = (s.router r).begin rsp := by
  rw [State.begun, State.router_onRouter, if_pos rfl]

theorem State.coming_begun (s : State) (r : Nat) (rsp : Bool) (n : Nat) : ((s.begun r rsp).router n).coming rsp = (s.router n).coming rsp := by
  rw [State.begun, State.router_onRouter]
  split
  · next h => rw [h, Router.coming_begin]
  · rfl

/-! ### What the way of a flit depends on (R247) -/

section
variable {s t : State} (hp : t.parts = s.parts)
include hp

theorem State.srcRouter_congr (a b : Nat) : t.srcRouter a b = s.srcRouter a b := by
  simp only [State.srcRouter, State.diesAt, State.part, State.partKey, hp]

theorem State.readyAt_congr {r : Nat} {rsp : Bool} (hi : ∀ n, (t.ep n).inj rsp = (s.ep n).inj rsp) (loc : Bool) :
    t.readyAt r rsp loc = s.readyAt r rsp loc := by
  simp only [State.readyAt, hi, State.srcRouter_congr hp]

end

theorem State.injector_eq_none {s : State} {r : Nat} {rsp loc : Bool} : s.injector r rsp loc = none ↔ s.readyAt r rsp loc = [] := by
  unfold State.injector
  cases s.readyAt r rsp loc <;> simp

/-- A port with nothing ready injects nothing. -/
theorem State.inject_of_none {s : State} {r : Nat} {rsp loc : Bool} (h : s.injector r rsp loc = none) (p : Ports) : s.inject r rsp loc p = (s, p) := by
  simp only [State.inject, h]

/-- A router has nothing ready at its ports on a plane. -/
def State.Quiet (s : State) (r : Nat) (rsp : Bool) : Prop := ∀ loc, s.injector r rsp loc = none

theorem State.Quiet.congr {s t : State} {r : Nat} {rsp : Bool} (h : s.Quiet r rsp) (hp : t.parts = s.parts)
    (hi : ∀ n, (t.ep n).inj rsp = (s.ep n).inj rsp) : t.Quiet r rsp := fun loc => by
  rw [State.injector_eq_none, State.readyAt_congr hp hi, ← State.injector_eq_none]
  exact h loc

/-! ### A turn with one flit (R246) -/

/-- The ports of a router at the start of its turn. -/
def Ports.free : Ports := ⟨[], false, false, []⟩

section
variable {s : State} {r : Nat} {rsp : Bool} {f : Flit}

theorem State.routeOnce_of_ins (hmoved : (s.router r).moved rsp = false) (hins : (s.router r).ins rsp = [f]) : s.routeOnce r rsp = s.routeCycle r rsp := by
  simp [State.routeOnce, hmoved, hins]

/-- A flit with a good header is placed, and where it has found its place and nothing is injected the turn is over. -/
theorem State.routeCycle_good (hins : (s.router r).ins rsp = [f]) (hgood : hdrBad f.hdr = false) {u : State} {p : Ports}
    (hplace : (s.begun r rsp).placeFlit r rsp Ports.free f = (u, p)) (hleft : p.left = []) (hq : u.Quiet r rsp) : s.routeCycle r rsp = u := by
  have hsort : sortBy older [f] = [f] := rfl
  change (s.onRouter r (fun x => x.begin rsp)).placeFlit r rsp ⟨[], false, false, []⟩ f = (u, p) at hplace
  simp [State.routeCycle, hins, hgood, hsort, hplace, State.inject_of_none (hq _), hleft]

/-- A flit of the response plane with a bad header joins the requests as poison (R258). -/
theorem State.routeCycle_bad (hins : (s.router r).ins true = [f]) (hbad : hdrBad f.hdr = true) (hq : s.Quiet r true) :
    s.routeCycle r true = (s.begun r true).onRouter r (fun x => x.poison [{ f with hdr := poisoned r f.hdr }]) := by
  have hq' : ((s.begun r true).onRouter r (fun x => x.poison [{ f with hdr := poisoned r f.hdr }])).Quiet r true := hq.congr rfl (fun _ => rfl)
  have hinj := fun loc => State.inject_of_none (hq' loc)
  simp only [State.begun] at hinj ⊢
  simp [State.routeCycle, hins, hbad, sortBy, hinj]

/-- A flit that is not at its destination router takes the link picked. -/
theorem State.placeFlit_hops {p : Ports} {d : Dir} (hne : s.dstRouter (hSrc f.hdr) (hDst f.hdr) ≠ r)
    (hpick : s.pick r p.used (s.dstRouter (hSrc f.hdr) (hDst f.hdr)) = some d) :
    s.placeFlit r rsp p f = (s.hop r rsp d f, { p with used := d :: p.used }) := by
  simp [State.placeFlit, hne, hpick]

/-- A flit at its destination router takes its port, where that is free. -/
theorem State.placeFlit_ejects (hr : s.dstRouter (hSrc f.hdr) (hDst f.hdr) = r) :
    ∃ p : Ports, p.left = [] ∧ s.placeFlit r rsp Ports.free f = (s.eject f, p) := by
  simp only [State.placeFlit, hr, Ports.free, ite_self, Bool.not_false, decide_true, Bool.and_self, if_true]
  exact ⟨_, (apply_ite Ports.left ..).trans (ite_self []), rfl⟩

theorem State.hop_sends (d : Dir) : let t := (s.begun r rsp).hop r rsp d f
    (t.router (d.next r)).coming rsp = (s.router (d.next r)).coming rsp ++ [{ f with hdr := hopped f.hdr }] ∧ (t.router r).ins rsp = [] ∧
      (t.router r).moved rsp = true := by
  intro t
  have hnext : (t.router (d.next r)).coming rsp = (s.router (d.next r)).coming rsp ++ [{ f with hdr := hopped f.hdr }] := by
    show (((s.begun r rsp).onRouter _ _).router _).coming rsp = _
    rw [State.router_onRouter, if_pos rfl, Router.coming_push, State.coming_begun]
  have hself : (t.router r).ins rsp = ((s.router r).begin rsp).ins rsp ∧ (t.router r).moved rsp = ((s.router r).begin rsp).moved rsp := by
    show (((s.begun r rsp).onRouter _ _).router _).ins rsp = _ ∧ (((s.begun r rsp).onRouter _ _).router _).moved rsp = _
    rw [State.router_onRouter]
    split
    · next h => rw [← h, Router.ins_push, Router.moved_push, State.router_begun]; exact ⟨rfl, rfl⟩
    · rw [State.router_begun]; exact ⟨rfl, rfl⟩
  exact ⟨hnext, hself.1.trans (Router.ins_begin ..), hself.2.trans (Router.moved_begin ..)⟩

end

/-! ### Ejection (R250, R255) -/

/-- An interface with one more arrival on the response plane. -/
def Endp.arrive (x : InRsp) (e : Endp) : Endp := { e with rsps := e.rsps ++ [x] }

theorem State.gather_new {s : State} {n : Nat} {h : Word} {b : FlitBody} (hroom : (s.ep n).rsps.length < 16)
    (hnew : ∀ x ∈ (s.ep n).rsps, ¬ (x.src = hSrc h ∧ x.num = hSeq h / 8)) :
    s.gather n h b = s.onEp n (Endp.arrive ⟨hSrc h, hSeq h / 8, bitsNat h 12 3, [hSeq h % 8], b⟩) := by
  have hany : (s.ep n).rsps.any (fun x => x.src == hSrc h && x.num == hSeq h / 8 && x.body == b && decide (x.got.length ≤ x.mlen)) = false := by
    refine List.any_eq_false.2 fun x hx h' => hnew x hx ?_
    simp only [Bool.and_eq_true, beq_iff_eq] at h'
    exact h'.1.1
  simp only [State.gather, hany, Bool.false_eq_true, if_false, if_neg (Nat.not_le.2 hroom)]
  rfl

theorem State.eject_rsp {s : State} {f : Flit} {v : Rsp} (hk : hKind f.hdr ≠ 15) (hb : f.body = .rsp v) :
    s.eject f = if f.crcOk then s.gather (hDst f.hdr) f.hdr (.rsp v) else s := by
  simp only [State.eject, if_neg hk, hb]

theorem State.inj_onEp {s : State} {n : Nat} {f : Endp → Endp} {rsp : Bool} (hf : ∀ e, (f e).inj rsp = e.inj rsp) (m : Nat) :
    ((s.onEp n f).ep m).inj rsp = (s.ep m).inj rsp := by
  simp only [State.ep, State.onEp, AMap.get_set]
  split
  · next h => rw [hf, h]
  · rfl

/-! ### Poison and throttle (R248, R258) -/

theorem State.ep_nack (s : State) (die dst kind num idx : Nat) : (s.nack die dst kind num idx).ep (4096 + 0x40 + die) =
    { s.ep (4096 + 0x40 + die) with inj1 := (s.ep (4096 + 0x40 + die)).inj1 ++ [mkFlit (mkHdr (epNum dst) (0x40 + die) kind num idx 0) [] .nack] } :=
  State.ep_onEp_self ..

/-- A die controller's oldest POISON header draws a NACK for the core that it names, and one for the engine that it may name. -/
theorem execPoisonSink_nacks {s : State} {r : Nat} {h : Word} {rest : List Word} (hp : (s.ep (4096 + 0x40 + r)).poison = h :: rest) :
    ∃ t n, execPoisonSink r s = .next t ∧ (t.ep (4096 + 0x40 + r)).poison = rest ∧ (t.ep (4096 + 0x40 + r)).inj1 = (s.ep (4096 + 0x40 + r)).inj1 ++
      mkFlit (mkHdr (epNum (bitsNat h 40 12)) (0x40 + r) 13 (hSeq h / 8) (hSeq h % 8) 0) [] .nack :: n := by
  let u := (s.onEp (4096 + 0x40 + r) (fun e => { e with poison := rest })).recordE (s.partKey r) r .flitHeader h 0
  have hu : u.ep (4096 + 0x40 + r) = { s.ep (4096 + 0x40 + r) with poison := rest } := by
    rw [State.ep, (Recorded.recordE ..).eps, ← State.ep, State.ep_onEp_self]
  unfold execPoisonSink
  rw [hp]
  dsimp only
  split
  · refine ⟨_, [], rfl, ?_, ?_⟩ <;> rw [State.ep_nack, hu]
  · let nacke := mkFlit (mkHdr (epNum (4096 + bitsNat h 40 12)) (0x40 + r) 14 (hSeq h / 8) (hSeq h % 8) 0) [] .nack
    refine ⟨_, [nacke], rfl, ?_, ?_⟩
    · rw [State.ep_nack, State.ep_nack, hu]
    · rw [State.ep_nack, State.ep_nack, hu]
      exact List.append_assoc ..

/-- A router asserts throttle for an interface, unless it asserts it already. -/
def Router.throttleFor (rsp : Bool) (n : Nat) (x : Router) : Router := if (x.thr rsp).isSome then x else x.setThr rsp (some n)

theorem Router.throttleFor_asserts (rsp : Bool) (n : Nat) (x : Router) : ((x.throttleFor rsp n).thr rsp).isSome = true ∧
    (x.throttleFor rsp n).in0 = x.in0 ∧ (x.throttleFor rsp n).in1 = x.in1 := by
  unfold Router.throttleFor
  split
  · next h => exact ⟨h, rfl, rfl⟩
  · cases rsp <;> exact ⟨rfl, rfl, rfl⟩

theorem execThrottle_asserts {s : State} {r n : Nat} {rsp : Bool} (hn : n ∈ portEps r true) (hw : 128 ≤ (s.ep n).waited rsp) :
    ∃ m, execThrottle r rsp s = .next (s.onRouter r (Router.throttleFor rsp m)) := by
  unfold execThrottle
  cases hf : (portEps r true).find? (fun ep => decide (128 ≤ (s.ep ep).waited rsp)) with
  | some m => exact ⟨m, rfl⟩
  | none => exact absurd (decide_eq_true hw) (List.find?_eq_none.1 hf n hn)

theorem routerEvents : Says.RouterEvents := by
  intro s r rsp f _
  refine ⟨fun hmoved hloc hatt hins => ?_, fun h rest _ hp => execPoisonSink_nacks hp, fun n hn hw => ?_⟩
  · have hq : s.Quiet r rsp := fun loc => by cases loc <;> assumption
    have hturn : exec (.flitRoute r rsp) s = .next (s.routeCycle r rsp) := congrArg Host.Outcome.next (State.routeOnce_of_ins hmoved hins)
    refine ⟨fun d hgood hne hpick => ?_, fun v hgood hr hk hb hroom hnew => ?_, fun hbad hrsp hdone => ?_⟩
    · have hcycle : s.routeCycle r rsp = (s.begun r rsp).hop r rsp d f :=
        State.routeCycle_good hins hgood (State.placeFlit_hops (s := s.begun r rsp) hne hpick) rfl (hq.congr rfl (fun _ => rfl))
      obtain ⟨hnext, hnone, hdone⟩ := State.hop_sends (s := s) (r := r) (rsp := rsp) (f := f) d
      exact ⟨_, hturn.trans (congrArg _ hcycle), hnext, hnone, hdone, rfl, rfl⟩
    · obtain ⟨p, hleft, hplace⟩ := State.placeFlit_ejects (s := s.begun r rsp) (rsp := rsp) hr
      rw [State.eject_rsp hk hb] at hplace
      have hnone : ((s.begun r rsp).router r).ins rsp = [] := by rw [State.router_begun, Router.ins_begin]
      cases hcrc : f.crcOk with
      | true =>
        rw [hcrc, if_pos rfl, State.gather_new (s := s.begun r rsp) hroom hnew] at hplace
        have hcycle := State.routeCycle_good hins hgood hplace hleft (hq.congr rfl (State.inj_onEp (fun _ => by cases rsp <;> rfl)))
        refine ⟨_, hturn.trans (congrArg _ hcycle), hnone, rfl, fun _ => ?_, (nomatch ·)⟩
        rw [State.ep_onEp_self]
        rfl
      | false =>
        rw [hcrc, if_neg Bool.false_ne_true] at hplace
        have hcycle := State.routeCycle_good hins hgood hplace hleft (hq.congr rfl (fun _ => rfl))
        exact ⟨_, hturn.trans (congrArg _ hcycle), hnone, rfl, (nomatch ·), fun _ => rfl⟩
    · subst hrsp
      refine ⟨_, hturn.trans (congrArg _ (State.routeCycle_bad hins hbad hq)), ?_, ?_, rfl, rfl⟩ <;>
        rw [State.router_onRouter, if_pos rfl, State.router_begun] <;> simp [Router.poison, Router.begin, hdone]
  · obtain ⟨m, hx⟩ := execThrottle_asserts hn hw
    refine ⟨_, hx, ?_⟩
    rw [State.router_onRouter, if_pos rfl]
    obtain ⟨hthr, hin0, hin1⟩ := Router.throttleFor_asserts rsp m (s.router r)
    exact ⟨hthr, hin0, hin1, rfl, rfl⟩

/-! ### What arrives at an interface (R255, R256) -/

/-- An interface without its oldest arrival on the response plane. -/
def Endp.leaving (rest : List InRsp) (e : Endp) : Endp := { e with rsps := rest }

/-- The oldest arrival, where it is whole and of the kind looked for. -/
theorem takeRsp_head {p : FlitBody → Bool} {e : Endp} {x : InRsp} {rest : List InRsp} (hr : e.rsps = x :: rest) (hp : p x.body = true)
    (hg : x.got.length = x.mlen + 1) : takeRsp p e = some (x, e.leaving rest) := by
  simp [takeRsp, hr, takeFirst, hp, hg, Endp.leaving]

/-- The request of a number to a destination, among those that an interface keeps. -/
def OutReq.named (dest num : Nat) (x : OutReq) : Bool := x.dest == dest && x.num == num

/-- A request whose timer starts again. -/
def OutReq.restart (now : Nat) (o : OutReq) : OutReq := { o with timer := now, resends := 0 }

section
variable {s : State} {n mlen : Nat} {got : List Nat} {rest : List InRsp} {o : OutReq} {b : FlitBody}
  (hg : got.length = mlen + 1) (hr : (s.ep n).rsps = ⟨o.dest, o.num, mlen, got, b⟩ :: rest)
include hg hr

theorem exec_responseReceive_whole {v : Rsp} (hb : b = .rsp v) (ho : (s.ep n).out.find? (OutReq.named o.dest o.num) = some o) :
    exec (.responseReceive n) s = .next ((s.onEp n (Endp.leaving rest)).gotRsp n o v) := by
  subst hb
  have ho' : ((s.ep n).leaving rest).out.find? (fun x => x.dest == o.dest && x.num == o.num) = some o := ho
  show execResponseReceive n s = _
  unfold execResponseReceive
  rw [takeRsp_head hr rfl hg]
  simp only [ho']
  rfl

theorem exec_nackReceive_whole (hb : b = .nack) (ho : (s.ep n).out.filter (fun x => x.num == o.num) = [o]) :
    exec (.nackReceive n) s = .next ((s.onEp n (Endp.leaving rest)).resend n o) := by
  subst hb
  have ho' : ((s.ep n).leaving rest).out.filter (fun x => x.num == o.num) = [o] := ho
  show execNackReceive n s = _
  unfold execNackReceive
  rw [takeRsp_head hr rfl hg]
  simp only [ho']
  rfl

theorem exec_stayNoticeReceive_whole {why : Nat} (hb : b = .stay why) (ho : (s.ep n).out.find? (OutReq.named o.dest o.num) = some o) :
    exec (.stayNoticeReceive n) s = .next (((s.onEp n (Endp.leaving rest)).onOut n o.dest o.num
      (OutReq.restart s.time)).stayHere n o why) := by
  subst hb
  have ho' : ((s.ep n).leaving rest).out.find? (fun x => x.dest == o.dest && x.num == o.num) = some o := ho
  show execStayNoticeReceive n s = _
  unfold execStayNoticeReceive
  rw [takeRsp_head hr rfl hg]
  simp only [ho']
  rfl

end

/-! ### Requests kept and changed (R256, R257) -/

/-- A request that a BUSY has answered, with its back-off (log 56). -/
def OutReq.backOff (now : Nat) (k0 : Bool) (o : OutReq) : OutReq :=
  { o with
    busy := if k0 then o.busy else o.busy + 1, backoff := some (now + if k0 then 64 else min 4096 (64 * 2 ^ o.busy)), timer := now, resends := 0 }

theorem State.gotRsp_held {s : State} {n : Nat} {o : OutReq} {v : Rsp} (h : v.st = .held) :
    s.gotRsp n o v = s.onOut n o.dest o.num (OutReq.restart s.time) := by
  simp only [State.gotRsp, h]
  rfl

theorem State.gotRsp_busy {s : State} {n : Nat} {o : OutReq} {v : Rsp} (h : v.st = .busy) :
    s.gotRsp n o v = s.onOut n o.dest o.num (OutReq.backOff s.time v.k0) := by
  simp only [State.gotRsp, h]
  rfl

theorem State.gotRsp_final {s : State} {n : Nat} {o : OutReq} {v : Rsp} (h : v.st = .done ∨ v.st = .fault) : s.gotRsp n o v = s.finalRsp n o v := by
  rcases h with h | h <;> simp only [State.gotRsp, h]

/-- A kept request that is changed is found under its number as before. -/
theorem State.find_onOut {s : State} {n : Nat} {o : OutReq} {f : OutReq → OutReq} (hf : ∀ x, (f x).dest = x.dest ∧ (f x).num = x.num)
    (ho : (s.ep n).out.find? (OutReq.named o.dest o.num) = some o) :
    ((s.onOut n o.dest o.num f).ep n).out.find? (OutReq.named o.dest o.num) = some (f o) := by
  have hsame : OutReq.named o.dest o.num ∘ (fun x => if x.dest == o.dest && x.num == o.num then f x else x) = OutReq.named o.dest o.num := by
    funext x
    obtain ⟨hd, hn⟩ := hf x
    simp only [Function.comp_apply]
    split
    · simp only [OutReq.named, hd, hn]
    · rfl
  rw [State.onOut, State.ep_onEp_self]
  simp only [List.find?_map, hsame, ho, Option.map_some, beq_self_eq_true, Bool.and_self, if_true]

theorem State.onOut_rsps (s : State) (n dest num : Nat) (f : OutReq → OutReq) : ((s.onOut n dest num f).ep n).rsps = (s.ep n).rsps := by
  rw [State.onOut, State.ep_onEp_self]

theorem State.resend_inj0 (s : State) (n : Nat) (o : OutReq) :
    ((s.resend n o).ep n).inj0 = (s.ep n).inj0 ++ reqFlits o.dest n o.kind o.num o.body ∧ ((s.resend n o).ep n).rsps = (s.ep n).rsps := by
  rw [State.resend, State.ep_count, State.ep_onEp_self]
  exact ⟨rfl, rfl⟩

theorem State.resend_frame (s : State) (n : Nat) (o : OutReq) : (s.resend n o).mem = s.mem ∧ (s.resend n o).cores = s.cores :=
  ⟨State.count_mem .., State.count_cores ..⟩

/-! ### The answer of a read (R256) -/

/-- A read whose answer its context waits for. -/
structure OutReq.Reads (o : OutReq) (s : State) (n : Nat) (m : RMode) (sg : Bool) (ctx pa size : Nat) (va : Word) : Prop where
  core : n < 4096
  use  : o.use = .reply
  body : o.body = .rld m sg ctx pa size va
  mode : m ∈ [RMode.plain, .sync, .synce, .fe]
  pend : (s.ctx n ctx).rpend = true

theorem OutReq.Reads.congr {o : OutReq} {s t : State} {n : Nat} {m : RMode} {sg : Bool} {ctx pa size : Nat} {va : Word}
    (h : o.Reads s n m sg ctx pa size va) (hc : t.ctx n ctx = s.ctx n ctx) : o.Reads t n m sg ctx pa size va :=
  ⟨h.core, h.use, h.body, h.mode, by rw [hc]; exact h.pend⟩

/-- An interface that keeps a request no longer, and has nothing in its backlog. -/
def Endp.ended (dest num : Nat) (e : Endp) : Endp := { e with out := e.out.filter (fun x => !(x.dest == dest && x.num == num)), backlog := [] }

section
variable {s : State} {n : Nat} {o : OutReq} {m : RMode} {sg : Bool} {ctx pa size : Nat} {va : Word}

theorem State.finalRsp_read (h : o.Reads s n m sg ctx pa size va) (hb : (s.ep n).backlog = []) (v : Rsp) :
    s.finalRsp n o v = (s.onEp n (Endp.ended o.dest o.num)).answerCtx n ctx (v.ans (o.dest - 4096) o.body) := by
  obtain ⟨hcore, huse, hbody, hmode, -⟩ := h
  have hdrain : s.onEp n (fun e =>
      let e' : Endp := { e with out := e.out.filter (fun x => !(x.dest == o.dest && x.num == o.num)) }
      Endp.drain n s.time e'.backlog e') = s.onEp n (Endp.ended o.dest o.num) := by
    simp only [State.onEp, hb]
    rfl
  simp only [List.mem_cons, List.not_mem_nil, or_false] at hmode
  unfold State.finalRsp
  rw [hdrain, hbody]
  rcases hmode with rfl | rfl | rfl | rfl <;> simp only [hcore, if_true, State.readDone, huse, hbody]

/-- The request of a read has ended and its context has the answer. -/
theorem State.finalRsp_answers (h : o.Reads s n m sg ctx pa size va) (hb : (s.ep n).backlog = []) (v : Rsp) : let t := s.finalRsp n o v
    (t.ep n).rsps = (s.ep n).rsps ∧ (t.ep n).out = (s.ep n).out.filter (fun x => !(x.dest == o.dest && x.num == o.num)) ∧
      (t.ctx n ctx).rbuf = (s.ctx n ctx).rbuf ++ [v.ans (o.dest - 4096) o.body] ∧ (t.ctx n ctx).rpend = false ∧ t.mem = s.mem := by
  intro t
  have ht : t = (s.onEp n (Endp.ended o.dest o.num)).answerCtx n ctx (v.ans (o.dest - 4096) o.body) := State.finalRsp_read h hb v
  have hep : t.ep n = (s.ep n).ended o.dest o.num := by
    rw [ht]
    exact State.ep_onEp_self ..
  have hctx : t.ctx n ctx = { s.ctx n ctx with rbuf := (s.ctx n ctx).rbuf ++ [v.ans (o.dest - 4096) o.body], rpend := false } := by
    rw [ht, State.answerCtx, State.ctx_onCtx_self]
    exact if_pos h.pend
  rw [hep, hctx]
  exact ⟨rfl, rfl, rfl, rfl, by rw [ht]; rfl⟩

/-- A stay notice parks the context of a read (R47, R263). -/
theorem State.stayHere_parks (h : o.Reads s n m sg ctx pa size va) (hrun : (s.ctx n ctx).st = .running) (why : Nat) : let t := s.stayHere n o why
    (t.ctx n ctx).st = .parked ∧ (t.ctx n ctx).await = (if why = 0 then .lodge else .syncEmpty va) := by
  obtain ⟨hcore, huse, hbody, hmode, hpend⟩ := h
  simp only [List.mem_cons, List.not_mem_nil, or_false] at hmode
  have hhere : s.stayHere n o why = s.stayPark n (.rld m sg ctx pa size va) why := by simp [State.stayHere, huse, hcore, hbody]
  rw [hhere]
  rcases hmode with rfl | rfl | rfl | rfl <;> simp [State.stayPark, hrun, hpend]

end

theorem State.stayHere_rest (s : State) (n : Nat) (o : OutReq) (why : Nat) : ∃ cs, s.stayHere n o why = { s with cores := cs } := by
  unfold State.stayHere
  split
  · exact s.stayPark_rest ..
  · exact ⟨s.cores, rfl⟩

/-! ### Time-outs (R257) -/

section
variable {s : State} {n : Nat} {o : OutReq} (ho : (s.ep n).out.find? (OutReq.named o.dest o.num) = some o)
include ho

theorem exec_retxTimeout_due (hb : o.backoff = none) (ht : o.timer + Config.retx ≤ s.time) : exec (.retxTimeout n o.dest o.num) s =
    .next (if o.isRemote && 16 ≤ o.resends then s.finalRsp n o (Rsp.plain .fault Cause.remoteFault.code) else s.resend n o) := by
  have ho' : (s.ep n).out.find? (fun x => x.dest == o.dest && x.num == o.num) = some o := ho
  have hdue : ¬ (o.backoff.isSome = true ∨ s.time < o.timer + Config.retx) := by simp [hb, ht]
  show execRetxTimeout n o.dest o.num s = _
  unfold execRetxTimeout
  rw [ho']
  simp only [Bool.or_eq_true, decide_eq_true_eq, hdue, if_false]
  split <;> rfl

theorem exec_busyBackoff_due {u : Nat} (hb : o.backoff = some u) (hu : u ≤ s.time) :
    exec (.busyBackoff n o.dest o.num) s = .next (s.resend n o) := by
  have ho' : (s.ep n).out.find? (fun x => x.dest == o.dest && x.num == o.num) = some o := ho
  show execBusyBackoff n o.dest o.num s = _
  unfold execBusyBackoff
  rw [ho']
  simp only [hb, if_neg (Nat.not_lt.2 hu)]

end

theorem responseEvents : Says.ResponseEvents := by
  intro s n dest num mlen got rest o m sg ctx pa size va e read comes ended again ho
  obtain ⟨rfl, rfl⟩ : o.dest = dest ∧ o.num = num := by simpa using List.find?_some ho
  let u := s.onEp n (Endp.leaving rest)
  have hu : u.ep n = e.leaving rest := State.ep_onEp_self ..
  have hou : (u.ep n).out.find? (OutReq.named o.dest o.num) = some o := by rw [hu]; exact ho
  have hread : read → o.Reads s n m sg ctx pa size va := fun ⟨hcore, huse, hbody, hmode, _, hpend⟩ => ⟨hcore, huse, hbody, hmode, hpend⟩
  refine ⟨fun v ⟨hg, hr⟩ => ⟨fun hst hrd hb => ?_, fun hst => ?_, fun hst => ?_⟩, fun ⟨hg, hr⟩ hf => ?_, fun why ⟨hg, hr⟩ => ?_,
    fun hb ht => ⟨fun hre => ?_, fun hrd hrem hres hbl => ?_⟩, fun w hw hle => ?_⟩
  · have hx := exec_responseReceive_whole hg hr rfl ho
    rw [State.gotRsp_final hst] at hx
    have hans := State.finalRsp_answers (s := u) ((hread hrd).congr rfl) (by rw [hu]; exact hb) v
    rw [hu] at hans
    exact ⟨_, hx, hans⟩
  · have hx := exec_responseReceive_whole hg hr rfl ho
    rw [State.gotRsp_held hst] at hx
    exact ⟨_, _, hx, (u.onOut_rsps ..).trans (congrArg Endp.rsps hu), State.find_onOut (fun _ => ⟨rfl, rfl⟩) hou, rfl, rfl, rfl⟩
  · have hx := exec_responseReceive_whole hg hr rfl ho
    rw [State.gotRsp_busy hst] at hx
    exact ⟨_, _, hx, (u.onOut_rsps ..).trans (congrArg Endp.rsps hu), State.find_onOut (fun _ => ⟨rfl, rfl⟩) hou, rfl, rfl, rfl⟩
  · have hx := exec_nackReceive_whole hg hr rfl hf
    obtain ⟨hinj, hrsps⟩ := u.resend_inj0 n o
    rw [hu] at hinj hrsps
    exact ⟨_, hx, hrsps, hinj, (u.resend_frame n o).1, (u.resend_frame n o).2⟩
  · let w := u.onOut n o.dest o.num (OutReq.restart s.time)
    obtain ⟨cs, hcs⟩ := w.stayHere_rest n o why
    have hep : (w.stayHere n o why).ep n = w.ep n := by rw [hcs]; rfl
    refine ⟨_, OutReq.restart s.time o, exec_stayNoticeReceive_whole hg hr rfl ho, ?_, ?_, rfl, rfl, ?_, fun hrd hrun => ?_⟩
    · exact (congrArg Endp.rsps hep).trans ((u.onOut_rsps ..).trans (congrArg Endp.rsps hu))
    · exact (congrArg (fun x : Endp => x.out.find? _) hep).trans (State.find_onOut (fun _ => ⟨rfl, rfl⟩) hou)
    · show (w.stayHere n o why).mem = s.mem
      rw [hcs]
      rfl
    · exact State.stayHere_parks (s := w) ((hread hrd).congr rfl) hrun why
  · have hx := exec_retxTimeout_due ho hb ht
    rw [if_neg (by rcases hre with h | h <;> simp [h])] at hx
    exact ⟨_, hx, (s.resend_inj0 n o).1, s.resend_frame n o⟩
  · have hx := exec_retxTimeout_due ho hb ht
    rw [if_pos (by simp [hrem, hres])] at hx
    obtain ⟨-, hout, hbuf, -, -⟩ := State.finalRsp_answers (hread hrd) hbl (Rsp.plain .fault Cause.remoteFault.code)
    exact ⟨_, hx, hout, hbuf⟩
  · exact ⟨_, exec_busyBackoff_due ho hw hle, (s.resend_inj0 n o).1, s.resend_frame n o⟩

/-- Settles O48: a turn of a router is the placing of its one flit, and what a response, a NACK, a stay notice or a time-out does to the request that it names
is one change of the interface that keeps it. -/
theorem fabricEvents : Obligations.FabricEvents := ⟨routerEvents, responseEvents⟩

end Sys2Proof.Machine
end

section
/-!
SUPPORT. Vector integer lanes, masks and comparisons (R271, R277, R278, R281, R289), and O20, O24 and O26 from it; the serial comparison of levels (R356)
and O32.
-/

namespace Sys2Proof.Machine

/-! ### Integer lanes (R277, R278) -/

/-- What an instruction gives its lanes depends on the result patterns only up to the width. -/
theorem givesLanes_congr {i : Instr} {s : State} {d : VReg} {q : KReg} {f : Fmt} {r r' : Nat → Nat × Fl} (h : GivesLanes i s d q f r)
    (hv : ∀ j, (r j).1 % 2 ^ f.width = (r' j).1 % 2 ^ f.width) (hfl : ∀ j, (r j).2 = (r' j).2) : GivesLanes i s d q f r' := by
  obtain ⟨v, hc, hl⟩ := h
  refine ⟨v, by simpa only [hfl] using hc, fun j hj => ?_⟩
  rw [hl j hj, hv]

theorem delivered_of_mem {f : Fmt} {y : Int} (h1 : f.imin ≤ y) (h2 : y ≤ f.imax) (sat : Bool) : delivered f sat y = wrapI f y := by
  cases sat
  · rfl
  · simp only [delivered, if_true, min_eq_right h2, max_eq_right h1]
    rfl

/-- Integer division as R278 states it. -/
theorem intDiv_eq_delivered (f : Fmt) (sat : Bool) (x y : Int) :
    intDiv f sat x y = delivered f sat (if y = 0 then (if f.signed = true ∧ x < 0 then f.imin else f.imax) else x.tdiv y) := by
  have hle := Fmt.imin_le_imax f
  by_cases hy : y = 0
  · have hend : (if !f.signed then f.imax else if 0 ≤ x then f.imax else f.imin) = if f.signed = true ∧ x < 0 then f.imin else f.imax := by
      cases f.signed
      · rfl
      · rcases lt_or_ge x 0 with hx | hx
        · simp [hx, hx.not_ge]
        · simp [hx, hx.not_gt]
    simp only [intDiv, hy, if_true, hend]
    rw [delivered_of_mem (by split <;> omega) (by split <;> omega)]
  · simp only [intDiv, hy, if_false, intRes_eq_delivered]

section
variable {i : Instr} {s : State} {d : VReg} {q : KReg} {a b : VReg} {f : Fmt} (hs : Steady s) (h0 : s.me.vstart = 0) (hi : f.isInt = true)
include hs h0 hi

/-- A two-source operation on integer lanes gives what its integer meaning delivers. -/
theorem givesLanes_arith2_int {bf : Nat} {fl : FV → FV → Nat × Fl} {int : Int → Int → Nat} {res : Nat → Nat}
    (hx : exec i s = laneOp d q a b f bf (arith2 f fl int) s)
    (hr : ∀ j, int (decodeI f (lane (s.v a) f.width j)) (decodeI f (lane (s.v b) f.width j)) = res j) : GivesLanes i s d q f (fun j => (res j, 0)) :=
  givesLanes_laneOp hs h0 (.inr (isNaNPat_of_isInt hi)) hx fun j => by rw [arith2_int hi, hr]; rfl

/-- A bitwise operation gives the pattern that it computes. -/
theorem givesLanes_laneBit {bf : Nat} {op : Nat → Nat → Nat} {res : Nat → Nat} (hx : exec i s = laneOp d q a b f bf (laneBit f op) s)
    (hr : ∀ j, op (lane (s.v a) f.width j) (lane (s.v b) f.width j) = res j) : GivesLanes i s d q f (fun j => (res j, 0)) :=
  givesLanes_congr (givesLanes_laneOp hs h0 (.inr (isNaNPat_of_isInt hi)) hx fun _ => rfl) (fun j => by simp [laneBit, hr]) (fun _ => rfl)

end

/-- Settles O20: each instruction is a lane operation whose integer meaning is the delivered value of the table, or a bitwise one. -/
theorem vectorIntegerForms : Obligations.VectorIntegerForms := by
  intro s d a b q f rm sat hs h0 hi w p r x y k int bits
  refine ⟨?add, ?sub, ?mul, ?div, ?min, ?max, ?abs, ?neg, ?and, ?or, ?xor, ?shl, ?shr, ?sha⟩
  case add => exact givesLanes_arith2_int hs h0 hi rfl (fun _ => intRes_eq_delivered ..)
  case sub => exact givesLanes_arith2_int hs h0 hi rfl (fun _ => intRes_eq_delivered ..)
  case mul => exact givesLanes_arith2_int hs h0 hi rfl (fun _ => intRes_eq_delivered ..)
  case div => exact givesLanes_arith2_int hs h0 hi rfl (fun _ => intDiv_eq_delivered ..)
  case min => exact givesLanes_arith2_int hs h0 hi rfl (fun j => congrArg (wrapI f) (min_def (x j) (y j)).symm)
  case max => exact givesLanes_arith2_int hs h0 hi rfl (fun j => congrArg (wrapI f) (max_def (x j) (y j)).symm)
  case abs => exact givesLanes_arith2_int hs h0 hi rfl (fun _ => intRes_eq_delivered ..)
  case neg => exact givesLanes_arith2_int hs h0 hi rfl (fun _ => intRes_eq_delivered ..)
  case and => exact givesLanes_laneBit hs h0 hi rfl (fun _ => rfl)
  case or => exact givesLanes_laneBit hs h0 hi rfl (fun _ => rfl)
  case xor => exact givesLanes_laneBit hs h0 hi rfl (fun _ => rfl)
  case shl => exact givesLanes_laneBit hs h0 hi rfl (fun _ => rfl)
  case shr => exact givesLanes_laneBit hs h0 hi rfl (fun _ => rfl)
  case sha => exact givesLanes_laneBit hs h0 hi rfl (fun _ => rfl)

/-! ### Masks (R271, R289) -/

theorem State.k_zero (s : State) : s.k 0 = 0xFFFFFFFF := rfl

theorem getLsbD_k_zero (s : State) {n : Nat} (h : n < 32) : (s.k 0).getLsbD n = true := by
  have hall : ∀ m : Fin 32, (0xFFFFFFFF : BitVec 32).getLsbD m.val = true := by decide
  exact hall ⟨n, h⟩

theorem maskGovernsLanes : Says.MaskGovernsLanes := by
  intro s q f j hf hj
  have hw : f.width = 8 ∨ f.width = 16 ∨ f.width = 32 ∨ f.width = 64 := by cases f <;> simp_all [Fmt.width]
  unfold lanesOf at hj ⊢
  unfold State.act State.active
  rcases hw with h | h | h | h <;> rw [h] at hj ⊢
  · rw [if_neg (by decide)]
    exact ⟨rfl, getLsbD_k_zero s (by omega), fun _ => congrArg _ (by omega), by omega, by omega⟩
  · rw [if_neg (by decide)]
    exact ⟨rfl, getLsbD_k_zero s (by omega), by omega, fun _ => congrArg _ (by omega), by omega⟩
  · rw [if_neg (by decide)]
    exact ⟨rfl, getLsbD_k_zero s (by omega), by omega, by omega, fun _ => congrArg _ (by omega)⟩
  · rw [if_pos rfl]
    exact ⟨rfl, getLsbD_k_zero s (by omega), by omega, by omega, fun _ => rfl⟩

theorem Ctx.onward_putK (x : Ctx) (fl : Fl) (d : KReg) (v : BitVec 32) : x.Onward ((x.flagged fl).putK d v) :=
  ⟨Ctx.putK_ip .., Ctx.putK_latch .., Ctx.putK_step1 .., Ctx.putK_migok ..⟩

/-- An instruction that sets flags and writes a mask register completes. -/
theorem completes_of_setK {i : Instr} {s : State} {fl : Fl} {d : KReg} {v : BitVec 32} (hs : Steady s)
    (hx : exec i s = retired ((s.flags fl).setK d v)) : Completes i s ((s.me.flagged fl).putK d v) :=
  completes_of_flags (P := s.parts) (f := fun x => x.putK d v) hs hx (Ctx.onward_putK ..)

theorem completes_maskOp {i : Instr} {s : State} {d : KReg} {v : BitVec 32} (hs : Steady s) (h0 : s.me.vstart = 0)
    (hx : exec i s = maskOp d v s) : Completes i s (s.me.putK d v) := by
  rw [maskOp, vecRun_zero h0, State.setK, ← State.flags_zero_onMe] at hx
  have h := completes_of_setK hs hx
  rwa [Ctx.flagged_zero] at h

theorem maskOps : Says.MaskForms := fun _ _ _ _ _ hs h0 =>
  ⟨completes_maskOp hs h0 rfl, completes_maskOp hs h0 rfl, completes_maskOp hs h0 rfl, completes_maskOp hs h0 rfl, completes_maskOp hs h0 rfl,
    gives_of_setG hs (vecRun_zero h0 _), gives_of_setG hs (vecRun_zero h0 _)⟩

/-- Settles O26: the bit that governs a lane by its width, and the mask operations, each a write of one register. -/
theorem maskForms : Obligations.MaskForms := ⟨maskGovernsLanes, maskOps⟩

/-! ### Comparisons (R281) -/

theorem sumNat_eq_sum (l : List Nat) : sumNat l = l.sum := List.sum_eq_foldl.symm

/-- The bits below `n` that `p` accepts, as a number: below `2 ^ n`, and bit by bit. -/
theorem testBit_sum_of_bits (p : Nat → Bool) (n : Nat) : let z := sumNat (((upTo n).filter p).map (2 ^ ·))
    z < 2 ^ n ∧ ∀ j, z.testBit j = (decide (j < n) && p j) := by
  induction n with
  | zero => simp [upTo, sumNat]
  | succ n ih =>
    obtain ⟨hlt, hbit⟩ := ih
    by_cases hp : p n = true
    · have hz : sumNat (((upTo (n + 1)).filter p).map (2 ^ ·)) = 2 ^ n + sumNat (((upTo n).filter p).map (2 ^ ·)) := by
        simp [upTo, List.range_succ, List.filter_append, hp, sumNat_eq_sum, Nat.add_comm]
      intro z
      refine ⟨by have := Nat.pow_succ 2 n; omega, fun j => ?_⟩
      change (sumNat (((upTo (n + 1)).filter p).map (2 ^ ·))).testBit j = _
      rw [hz]
      rcases lt_trichotomy j n with hj | rfl | hj
      · rw [Nat.testBit_two_pow_add_gt hj, hbit]
        simp [hj, hj.trans (Nat.lt_succ_self n)]
      · rw [Nat.testBit_two_pow_add_eq, hbit]
        simp [hp]
      · rw [Nat.testBit_lt_two_pow]
        · simp [Nat.not_lt.2 hj]
        · have : 2 ^ (n + 1) ≤ 2 ^ j := pow_le_pow_right₀ (by decide) hj
          have := Nat.pow_succ 2 n
          omega
    · have hz : sumNat (((upTo (n + 1)).filter p).map (2 ^ ·)) = sumNat (((upTo n).filter p).map (2 ^ ·)) := by
        simp [upTo, List.range_succ, List.filter_append, hp]
      simp only [hz]
      refine ⟨by have := Nat.pow_succ 2 n; omega, fun j => ?_⟩
      rw [hbit]
      rcases lt_trichotomy j n with hj | rfl | hj
      · simp [hj, hj.trans (Nat.lt_succ_self n)]
      · simp [hp]
      · simp [Nat.not_lt.2 hj, Nat.not_lt.2 hj.le]

/-- The mask that a comparison writes, bit by bit. -/
theorem getLsbD_cmpMask (s : State) (q : KReg) (w n : Nat) (p : Nat → Bool) {j : Nat} (hj : j < 32) :
    (BitVec.ofNat 32 (sumNat (((s.actLanes q w n).filter p).map (2 ^ ·)))).getLsbD j = (decide (j < n) && s.act q w j && p j) := by
  obtain ⟨-, hbit⟩ := testBit_sum_of_bits (fun i => s.act q w i && p i) n
  rw [BitVec.getLsbD_ofNat, State.actLanes, List.filter_filter]
  simp only [Bool.and_comm (p _)]
  simp [hbit, hj, Bool.and_assoc]

theorem FV.snv_ne_none_iff (u : FV) : (u.snv != flNone) = true ↔ u = .nan true := by
  cases u with
  | nan b => cases b <;> decide
  | inf _ => simp [FV.snv]
  | fin _ _ _ => simp [FV.snv]

/-- Settles O24: VCMP writes the mask of its active lanes that hold, with NV where one of them is bad. -/
theorem vectorCompares : Obligations.VectorCompares := by
  intro s d q a b f i hold quiet hs h0 _ hi x y bad
  have hx : exec i s = vcmp d q a b f (!quiet) hold s := by
    rcases hi with ⟨rfl, rfl, rfl⟩ | ⟨rfl, rfl, rfl⟩ | ⟨rfl, rfl, rfl⟩ | ⟨rfl, rfl, rfl⟩ | ⟨rfl, rfl, rfl⟩ <;> rfl
  have hbad : ∀ j, ((x j).snv != flNone || (y j).snv != flNone || (!quiet && ((x j).isNaN || (y j).isNaN))) = true ↔ bad j := fun j => by
    simp only [bad, Bool.or_eq_true, FV.snv_ne_none_iff, Bool.and_eq_true, Bool.not_eq_true', or_assoc]
  rw [vcmp, vecRun_zero h0] at hx
  have hc := completes_of_setK hs hx
  refine ⟨_, _, hc, fun j hj => getLsbD_cmpMask s q f.width (lanesOf f) (fun j => hold (x j) (y j)) hj, fun ⟨j, hj, ha, hb⟩ => ?_, fun hno => ?_⟩
  · rw [if_pos]
    exact List.any_eq_true.2 ⟨j, (s.mem_actLanes ..).2 ⟨hj, ha⟩, (hbad j).2 hb⟩
  · rw [if_neg]
    · rfl
    · intro h
      obtain ⟨j, hm, hb⟩ := List.any_eq_true.1 h
      obtain ⟨hj, ha⟩ := (s.mem_actLanes ..).1 hm
      exact hno j hj ha ((hbad j).1 hb)

/-! ### Levels (R356) -/

theorem gives_lvcmp {s : State} (hs : Steady s) (d a b : GReg) (off : BitVec 16) : let x : BitVec 32 := (s.g a).setWidth 32
    let y : BitVec 32 := (s.g b).setWidth 32 + off.signExtend 32
    Gives (.lvcmp d a b off) s d (if (x - y).toNat < 2 ^ 31 then 1 else 0) :=
  gives_of_setG hs (congrArg (fun v => retired (s.setG d v)) (by simp [serialGE]))

/-- Settles O32: LVCMP writes the serial comparison, and its examples are that comparison of the two levels. -/
theorem levelComparison : Obligations.LevelComparison := by
  refine ⟨fun s d a b off hs => gives_lvcmp hs d a b off, fun s hs h2 h10 => ?_, by decide +kernel⟩
  have hge := gives_lvcmp hs 9 2 10
  have hlt := gives_lvcmp hs 9 10 2
  simp only [h2, h10] at hge hlt
  exact ⟨hge 0, hlt 0, hge 4, hge 5⟩

end Sys2Proof.Machine
end

section
/-!
SUPPORT. Power tokens and thermal throttling (R442-R445), and O53 from them; SPDM answers and link keys (R425, R426), and O39 from them.
-/

namespace Sys2Proof.Machine

/-! ### Allotments (R442) -/

/-- The shares of 8,000 tokens by activity, each rounded down: less than one token of each is lost. -/
theorem shares_bounds {t : Nat} (ht : 0 < t) (u : List Nat) : let q := (u.map (fun x => 8000 * x / t)).sum
    t * q ≤ 8000 * u.sum ∧ 8000 * u.sum ≤ t * (q + u.length) := by
  induction u with
  | nil => exact ⟨Nat.le_refl _, Nat.zero_le _⟩
  | cons x u ih =>
    obtain ⟨hle, hge⟩ := ih
    have hx : t * (8000 * x / t) ≤ 8000 * x := Nat.mul_div_le ..
    have hx' : 8000 * x < t * (8000 * x / t) + t := Nat.lt_mul_div_succ _ ht
    simp only [List.map_cons, List.sum_cons, List.length_cons, Nat.mul_add, Nat.mul_one] at *
    omega

/-- One token more for each of the first `left` of eight dies. -/
theorem sum_of_rest {left : Nat} (h : left ≤ 8) : ((List.range 8).map (fun d => if d < left then 1 else 0)).sum = left := by
  interval_cases left <;> rfl

theorem map_getD_range (a : List Nat) : (List.range a.length).map (fun d => a.getD d 0) = a := by
  refine List.ext_getElem (by simp) fun i hi hi' => ?_
  simp [List.getElem?_eq_getElem hi']

/-- The allotments: one for each of eight dies, none below 1,000, 16,000 together. -/
theorem allotOf_spec {u : List Nat} (hu : u.length = 8) :
    (allotOf u).length = 8 ∧ (∀ a ∈ allotOf u, 1000 ≤ a) ∧ (allotOf u).sum = 16000 := by
  unfold allotOf
  rw [sumNat_eq_sum]
  dsimp only
  split
  · exact ⟨rfl, by decide, rfl⟩
  · next ht =>
    let a := u.map (fun x => 1000 + 8000 * x / u.sum)
    have ha : a.length = 8 := by simp [a, hu]
    have hsum : a.sum = 8000 + (u.map (fun x => 8000 * x / u.sum)).sum := by
      simp [a, List.sum_map_add, hu]
    obtain ⟨hle, hge⟩ := shares_bounds (Nat.pos_of_ne_zero ht) u
    have hmost : (u.map (fun x => 8000 * x / u.sum)).sum ≤ 8000 :=
      Nat.le_of_mul_le_mul_left (by rwa [Nat.mul_comm u.sum 8000]) (Nat.pos_of_ne_zero ht)
    have hleast : 8000 ≤ (u.map (fun x => 8000 * x / u.sum)).sum + 8 :=
      Nat.le_of_mul_le_mul_left (by rwa [Nat.mul_comm u.sum 8000, ← hu]) (Nat.pos_of_ne_zero ht)
    refine ⟨by simp [upTo], fun x hx => ?_, ?_⟩
    · obtain ⟨d, hd, rfl⟩ := List.mem_map.1 hx
      have hd : d < a.length := by rw [ha]; exact List.mem_range.1 hd
      have hget : 1000 ≤ a.getD d 0 := by
        rw [List.getD_eq_getElem _ _ hd]
        simp [a]
      exact hget.trans (Nat.le_add_right ..)
    · rw [List.sum_map_add, upTo, sumNat_eq_sum]
      change ((List.range 8).map (fun d => a.getD d 0)).sum + ((List.range 8).map (fun d => if d < 16000 - a.sum then 1 else 0)).sum = _
      rw [sum_of_rest (by omega), ← ha, map_getD_range]
      omega

/-! ### Throttling (R445) -/

theorem exec_thermalSample_hot {s : State} {n flux : Nat} (hf : 250 < flux) : ∃ t, exec (.thermalSample n flux) s = .next t ∧ t.cores = s.cores ∧
    t.pkg.hot = if s.pkg.hot.contains n then s.pkg.hot else sIns n s.pkg.hot := by
  have hcool : ¬ flux ≤ 240 := by omega
  change ∃ t, execThermalSample n flux s = .next t ∧ _
  unfold execThermalSample
  cases hc : s.pkg.hot.contains n with
  | true => simp [hcool]
  | false =>
    simp only [hf, decide_true, Bool.not_false, Bool.and_self, if_true]
    split
    · exact ⟨_, rfl, by rw [(Recorded.log ..).cores]; rfl, by rw [(Recorded.log ..).pkg]; rfl⟩
    · exact ⟨_, rfl, rfl, rfl⟩

theorem exec_thermalSample_cool {s : State} {n flux : Nat} (hf : flux ≤ 240) :
    exec (.thermalSample n flux) s = .next (s.onPkg (fun g => { g with hot := sDel n g.hot })) := by
  have hhot : ¬ 250 < flux := by omega
  change execThermalSample n flux s = _
  simp [execThermalSample, hhot, hf]

/-- One bit of a die set in a set of dies. -/
theorem getLsbD_or_die (x : BitVec 8) {die : Nat} (h : die < 8) (d : Nat) :
    (x ||| BitVec.ofNat 8 (2 ^ die)).getLsbD d = (x.getLsbD d || decide (d = die)) := by
  rw [BitVec.getLsbD_or, BitVec.getLsbD_ofNat, Nat.testBit_two_pow]
  by_cases hd : d = die
  · simp [hd, h]
  · simp [hd, Ne.symm hd]

/-- Settles O53: the allotments are shares of the activity rounded down, with what is left given out one by one; the other events write the package alone. -/
theorem powerEvents : Obligations.PowerEvents := by
  intro s die n flux l
  refine ⟨fun hdue => ?_, fun hdie => ?_, fun hhost hidle hmin hsum => ?_, fun hflux => ?_, fun hflux => ?_⟩
  · have hx : exec .tokenReallot s = .next ((s.onPkg (fun g => { g with
        used := (upTo 8).map (fun d => s.activity d), allot := if g.powerHost then g.allot else allotOf ((upTo 8).map (fun d => s.activity d))
        outTok := 0, tokenAt := s.time })).tick) := if_neg (Nat.not_lt.2 hdue)
    refine ⟨_, hx, rfl, rfl, rfl, rfl, fun h => if_pos h, fun h => ?_⟩
    have hallot : ∀ u, (if s.pkg.powerHost then s.pkg.allot else allotOf u) = allotOf u := fun u => if_neg (by simp [h])
    have hspec := allotOf_spec (u := (upTo 8).map (fun d => s.activity d)) (by simp [upTo])
    rw [← hallot] at hspec
    exact hspec
  · refine ⟨_, rfl, ?_, fun d hd => ?_, rfl, rfl⟩
    · exact (getLsbD_or_die _ hdie die).trans (by simp)
    · exact (getLsbD_or_die _ hdie d).trans (by simp [hd])
  · refine ⟨_, if_pos ?_, rfl, rfl, rfl⟩
    simpa [hhost, hidle, sumNat_eq_sum, hsum] using hmin
  · obtain ⟨t, hx, hcores, hhot⟩ := exec_thermalSample_hot (s := s) (n := n) hflux
    refine ⟨t, hx, ?_, fun m hm => ?_, hcores⟩
    · rw [hhot]
      split
      · next h => simpa using h
      · exact (mem_sIns ..).2 (.inl rfl)
    · rw [hhot]
      split
      · exact hm
      · exact (mem_sIns ..).2 (.inr hm)
  · refine ⟨_, exec_thermalSample_cool hflux, fun h => ((mem_sDel ..).1 h).2 rfl, fun m hm => ?_, rfl⟩
    exact (mem_sDel ..).trans (and_iff_left hm)

/-! ### Link keys (R381, R425) -/

/-- A link with nothing to send is left as it is, but for the time from which it waits for an acknowledgement (R383). -/
theorem State.pump_idle {s : State} {n : Nat} (h : (s.link n).sendq = []) :
    s.pump n = s.onLink n (fun l => { l with ackAt := if l.replay.isEmpty then s.time else l.ackAt }) := by
  have hp : Link.pump (s.link n).sendq (s.link n) = s.link n := by
    rw [h, Link.pump, ← h]
  unfold State.pump
  simp only [hp, Bool.and_not_self, Bool.false_eq_true, if_false]
  rfl

theorem State.link_onLink (s : State) (n m : Nat) (f : Link → Link) : (s.onLink n f).link m = if m = n then f (s.link n) else s.link m := by
  simp [State.link, State.onLink, AMap.get_set]

/-- A direction of an idle link changed. -/
theorem State.onDir_idle {s : State} {n : Nat} (h : (s.link n).sendq = []) (tx : Bool) (f : LinkDir → LinkDir) :
    ((s.onDir n tx f).link n).tx = (if tx then f (s.link n).tx else (s.link n).tx) ∧
      ((s.onDir n tx f).link n).rx = (if tx then (s.link n).rx else f (s.link n).rx) ∧
      ((s.onDir n tx f).link n).exchTx = (s.link n).exchTx ∧ ((s.onDir n tx f).link n).exchRx = (s.link n).exchRx := by
  unfold State.onDir
  rw [State.pump_idle (by rw [State.link_onLink, if_pos rfl]; cases tx <;> exact h)]
  simp only [State.link_onLink, if_true]
  cases tx <;> exact ⟨rfl, rfl, rfl, rfl⟩

section
variable {s : State} {n : Nat} (hl : s.hasLeader = true)
include hl

/-- The end of an exchange on an idle link installs the derived key in its direction. -/
theorem exec_keyExchangeComplete {tx : Bool} {secret : BitVec 256} (hq : (s.link n).sendq = [])
    (hex : (if tx then (s.link n).exchTx else (s.link n).exchRx) = true) : let k : KeySlot := ⟨Config.deriveKey secret, Config.deriveSalt secret, 0⟩
    ∃ t, exec (.keyExchangeComplete n tx secret) s = .next t ∧ (if tx then (t.link n).exchTx else (t.link n).exchRx) = false ∧
      (t.link n).tx = (if tx then (s.link n).tx.install k else (s.link n).tx) ∧
      (t.link n).rx = (if tx then (s.link n).rx else (s.link n).rx.install k) := by
  intro k
  let u := s.onLink n (fun l => if tx then { l with exchTx := false } else { l with exchRx := false })
  have hu : u.link n = if tx then { s.link n with exchTx := false } else { s.link n with exchRx := false } := (State.link_onLink ..).trans (if_pos rfl)
  obtain ⟨htx, hrx, hextx, hexrx⟩ := State.onDir_idle (s := u) (n := n) (by rw [hu]; cases tx <;> exact hq) tx (fun d => d.install k)
  refine ⟨_, if_pos (by simpa [hl] using hex), ?_⟩
  rw [htx, hrx, hextx, hexrx, hu]
  cases tx <;> exact ⟨rfl, rfl, rfl⟩

/-- An exchange begins for a direction without a key. -/
theorem exec_keyExchangeStart {tx : Bool} (hh : s.pkg.keysHost = false) (hup : (s.link n).up = true)
    (hno : (if tx then (s.link n).tx else (s.link n).rx).now = none) : exec (.keyExchangeStart n tx) s =
      .next (s.onLink n (fun l => if tx then { l with exchTx := true } else { l with exchRx := true })) := by
  refine if_pos ?_
  cases tx <;> simp_all [LinkDir.wantsKey]

/-- A request that has an answer is answered. -/
theorem exec_spdmRequest {i : BitVec 8} {b : List Byte} (hb : s.spdmAnswer i.toNat = some b) :
    exec (.spdmRequest i) s = .next (s.onPkg (fun g => { g with spdm := g.spdm ++ [b] })) := by
  change execSpdmRequest i s = _
  simp only [execSpdmRequest, hb, hl, if_true]

end

/-- Settles O39: an answer is one entry of the package, a direction of an idle link changes by itself, and its first key goes into the slot in use. -/
theorem keyEvents : Obligations.KeyEvents := by
  intro s n secret key salt slot l k
  refine ⟨fun hl => ⟨fun i h1 h3 => ?_, fun p P hp8 hP hman => ?_, fun hh hup hno => ?_, fun hh hup hno => ?_, fun hex hq h0 h1 hb => ?_,
    fun hex hq h0 h1 hb => ?_⟩, fun hh hq => ?_⟩
  · exact ⟨_, exec_spdmRequest hl (if_pos ⟨h1, h3⟩), rfl, rfl, rfl⟩
  · have hi : (BitVec.ofNat 8 (0x80 + p)).toNat = 0x80 + p := by
      rw [BitVec.toNat_ofNat]
      omega
    have hans : s.spdmAnswer (BitVec.ofNat 8 (0x80 + p)).toNat = some (signed (s.manifestBytes P)) := by
      rw [hi, State.spdmAnswer, if_neg (by omega), if_pos (by omega), Nat.add_sub_cancel_left, hP]
      simp [hman]
    exact ⟨_, exec_spdmRequest hl hans, rfl, rfl⟩
  · refine ⟨_, exec_keyExchangeStart (tx := true) hl hh hup hno, ?_, fun m hm => ?_⟩
    · exact (State.link_onLink ..).trans (if_pos rfl)
    · exact (State.link_onLink ..).trans (if_neg hm)
  · refine ⟨_, exec_keyExchangeStart (tx := false) hl hh hup hno, ?_, fun m hm => ?_⟩
    · exact (State.link_onLink ..).trans (if_pos rfl)
    · exact (State.link_onLink ..).trans (if_neg hm)
  · obtain ⟨t, hx, hend, htx, hrx⟩ := exec_keyExchangeComplete (tx := true) (secret := secret) hl hq hex
    have hins : (t.link n).tx = { l.tx with slot0 := some k, hold := false } := by
      rw [htx]
      simp [LinkDir.install, l, k, h0, h1, hb]
    exact ⟨t, hx, hend, by rw [hins], by rw [hins]; simp [LinkDir.now, hb], by rw [hins], hrx⟩
  · obtain ⟨t, hx, hend, htx, hrx⟩ := exec_keyExchangeComplete (tx := false) (secret := secret) hl hq hex
    obtain ⟨k0, h0⟩ := Option.isSome_iff_exists.1 h0
    have hins : (t.link n).rx = { l.rx with slot1 := some k, switch := true, hold := false } := by
      rw [hrx]
      simp [LinkDir.install, l, k, h0, h1, hb]
    exact ⟨t, hx, hend, by rw [hins], by rw [hins], by rw [hins], htx⟩
  · obtain ⟨htx, hrx, -, -⟩ := State.onDir_idle (s := s) (n := n) hq true (fun d => d.write slot ⟨key, salt, 0⟩)
    refine ⟨_, if_pos hh, ?_, ?_, ?_, hrx⟩ <;> rw [htx] <;> cases slot <;> rfl

end Sys2Proof.Machine
end

section
/-!
SUPPORT. Command queues (R407-R409), and O40 from them: what the choice finds at a queue, and the first queue of the order that offers something.
-/

namespace Sys2Proof.Machine

/-! ### What a queue offers (R408) -/

theorem Part.q_setQ_ne (P : Part) {n j : Nat} (f : CmdQ → CmdQ) (h : j ≠ n) : (P.setQ n f).q j = P.q j := AMap.get_set_ne _ _ _ h

section
variable {s : State} {p q : Nat} {P : Part} (hp : AMap.find s.parts p = some P)
include hp

/-- An enabled queue without an error, with packets, which its die serves, fails or offers its packet. -/
theorem State.lookQueue_of_serves (hen : (P.q q).en = true) (herr : (P.q q).err = 0) (hn : 0 < (P.q q).count) (hs : P.serves p q = true) :
    s.lookQueue p q = if 2 ^ (P.q q).sizelog < (P.q q).count then .fail .badTail
      else match s.packetAt p (P.q q) 0 with
        | none => .fail .hostFault
        | some w => if pkBad w then .fail .badPacket
          else if (P.q q).count < 1 + pkExts w then .none
          else match allSome ((upTo (pkExts w)).map (fun i => s.packetAt p (P.q q) (1 + i))) with
            | some e => .packet w e
            | none => .fail .hostFault := by
  unfold State.lookQueue
  simp only [State.part_of_find hp, hen, herr, hs, hn.ne', Bool.not_true, bne_self_eq_false, decide_false, Bool.or_self, Bool.false_eq_true,
    if_false] <;> rfl

end

/-- What the choice takes from a queue. -/
def State.offer (s : State) (p q : Nat) : Option (Nat × Found) :=
  match s.lookQueue p q with
  | .none => none
  | .fail e => some (q, .fail e)
  | .packet w x => some (q, .packet w x)

section
variable {s : State} {p q : Nat} {P : Part} {pre post : List Nat} (hp : AMap.find s.parts p = some P) (hk : P.packet = none) (hl : s.leased p = true)
  (ho : queueOrder P.rr = pre ++ q :: post) (hpre : ∀ j ∈ pre, s.lookQueue p j = .none)
include hp hk hl ho hpre

/-- The choice takes the first queue in the order that offers something. -/
theorem exec_packetChoose {x : Nat × Found} (hx : s.offer p q = some x) : exec (.packetChoose p) s = match x with
    | (_, .none) => .next s
    | (q, .fail e) => .next (s.packetFail p q e)
    | (q, .packet w x) => .next (s.onPart p (fun P => { P with packet := some ⟨q, w, x⟩ })) := by
  have hfirst : (queueOrder P.rr).findSome? (s.offer p) = some x := by
    have hnone : pre.findSome? (s.offer p) = none := List.findSome?_eq_none_iff.2 fun j hj => by rw [State.offer, hpre j hj]
    rw [ho, List.findSome?_append, hnone, Option.none_or, List.findSome?_cons, hx]
  change execPacketChoose p s = _
  unfold execPacketChoose
  simp only [State.part_of_find hp, hk, hl, Option.isSome_none, Bool.not_true, Bool.or_self, Bool.false_eq_true, if_false]
  change (match (queueOrder P.rr).findSome? (s.offer p) with
    | none | some (_, .none) => Host.Outcome.next s
    | some (q, .fail e) => .next (s.packetFail p q e)
    | some (q, .packet w x) => .next (s.onPart p (fun P => { P with packet := some ⟨q, w, x⟩ }))) = _
  rw [hfirst]
  rcases x with ⟨q', _ | e | ⟨w, x⟩⟩ <;> rfl

/-- A queue in error stops with its code, and its vector is signalled. -/
theorem packetChoose_stops {e : QErr} (hq : s.lookQueue p q = .fail e) : ∃ t P', exec (.packetChoose p) s = .next t ∧
    AMap.find t.parts p = some P' ∧ P'.packet = none ∧ P'.q q = { P.q q with err := e.code } ∧ P'.msix = P.msix ++ [4 * p + 1] ∧
    t.mem = s.mem ∧ t.cores = s.cores := by
  have hfail := exec_packetChoose hp hk hl ho hpre (x := (q, .fail e)) (by rw [State.offer, hq])
  have hfind := State.find_onPart (State.find_onPart hp (Part.failed q e)) (fun P => { P with msix := P.msix ++ [4 * p + 1] })
  exact ⟨_, _, hfail, hfind, rfl, Part.q_setQ P q (fun c => { c with err := e.code }), rfl, State.packetFail_mem .., State.packetFail_cores ..⟩

end

/-- The choice goes on behind the queue of a packet that completes (R408). -/
theorem State.rr_packetDone {s : State} {p : Nat} {k : Packet} {P Q : Part} (hp : AMap.find s.parts p = some P)
    (hQ : AMap.find (s.packetDone p k).parts p = some Q) : Q.rr = k.q := by
  have h1 := State.find_onPart hp (Part.completed k)
  unfold State.packetDone at hQ
  dsimp only at hQ
  split at hQ
  · obtain rfl := Option.some.inj ((State.find_onPart h1 _).symm.trans hQ)
    rfl
  · obtain rfl := Option.some.inj (h1.symm.trans hQ)
    rfl

/-- The packets that their layout refuses (R408, R409, R414-R416; log 29). -/
theorem pkBad_of_layout {w : List Word} (h : let w0 := w.getD 0 0
    pkKind w = 2 ∨ 6 ≤ pkKind w ∨ (pkKind w = 0 ∧ bitsNat w0 0 60 ≠ 0) ∨ (pkKind w = 3 ∧ (bitsNat w0 49 11 ≠ 0 ∨ bitsNat w0 0 46 ≠ 0)) ∨
      (pkKind w = 4 ∧ bitsNat w0 0 60 ≠ 0) ∨ (pkKind w = 5 ∧ (bitsNat w0 2 58 ≠ 0 ∨ bitsNat w0 0 2 = 3))) : pkBad w = true := by
  dsimp only at h
  unfold pkBad
  generalize w.getD 0 0 = w0 at h ⊢
  rcases h with h | h | ⟨hk, h⟩ | ⟨hk, h⟩ | ⟨hk, h⟩ | ⟨hk, h⟩
  · simp [h]
  · obtain ⟨n, hn⟩ := Nat.exists_eq_add_of_le' h
    simp [hn]
  · simp [hk, h]
  · rcases h with h | h <;> simp [hk, h]
  · simp [hk, h]
  · rcases h with h | h <;> simp [hk, h]

/-- Settles O40: the choice takes the first queue of the order that offers something, and each way for a queue to be in error is one case of what it
offers. -/
theorem queueEvents : Obligations.QueueEvents := by
  intro s p q P hp
  refine ⟨?_, fun pre post hk hl ho hpre => ⟨fun w x hq => ?_, fun e hq => packetChoose_stops hp hk hl ho hpre hq, ?_⟩, fun k hk hkind => ?_, fun k => ?_⟩
  · exact ⟨_, _, rfl, State.find_onPart hp _, Part.q_setQ P _ (fun c => { c with err := 0 }), fun j hj => Part.q_setQ_ne P _ hj, State.onPart_mem ..,
      State.onPart_cores ..⟩
  · exact ⟨_, exec_packetChoose hp hk hl ho hpre (x := (q, .packet w x)) (by rw [State.offer, hq]), State.find_onPart hp _, State.onPart_mem ..,
      State.onPart_cores ..⟩
  · intro c n stops hen herr hs
    have hlook := fun hn => State.lookQueue_of_serves hp hen herr hn hs
    have hfits : n ≤ 2 ^ c.sizelog → ¬ 2 ^ (P.q q).sizelog < (P.q q).count := fun hle => Nat.not_lt.2 hle
    have hstops : ∀ e : QErr, s.lookQueue p q = .fail e → stops e.code := fun e he => by
      obtain ⟨t, P', hx, hP', hnone, hq, -, hmem, hcores⟩ := packetChoose_stops hp hk hl ho hpre he
      exact ⟨t, P', hx, hP', hnone, hq, hmem, hcores⟩
    refine ⟨fun hlt => hstops .badTail ?_, fun hn hle hat => hstops .hostFault ?_, fun w hn hle hat hbad => hstops .badPacket ?_⟩
    · rw [hlook (Nat.zero_lt_of_lt hlt)]
      exact if_pos hlt
    · rw [hlook hn, if_neg (hfits hle), hat]
    · rw [hlook hn, if_neg (hfits hle), hat]
      exact if_pos (pkBad_of_layout hbad)
  · have hx : exec (.nopPacket p) s = .next (s.packetDone p k) := by
      change execNopPacket p s = _
      rw [execNopPacket, State.chosen_of hp hk hkind]
    obtain ⟨Q, hQ, hnone, hhead⟩ := State.find_packetDone (k := k) hp
    have hext : pkExts k.words = 0 := by simp [pkExts, hkind]
    rw [hext] at hhead
    exact ⟨_, Q, hx, hQ, hnone, State.rr_packetDone hp hQ, hhead, State.packetDone_mem .., State.packetDone_cores ..⟩
  · obtain ⟨Q, hQ, hnone, hhead⟩ := State.find_packetDone (k := k) hp
    exact ⟨Q, hQ, hnone, hhead⟩

end Sys2Proof.Machine
end

section
/-!
SUPPORT. Leases, votes and the leader (R418, R419, R427), and O38 from them: who is reached, what a renewal and a new leader write, a lapse and a vote.
-/

namespace Sys2Proof.Machine

/-! ### Firmware cores written in turn -/

/-- Each core of a list without repetitions is written once. -/
theorem State.fw_foldl_onFw (g : Nat → FwCore → FwCore) {l : List Nat} (hd : l.Nodup) (s : State) (m : Nat) :
    (l.foldl (fun u k => u.onFw k (g k)) s).fw m = if m ∈ l then g m (s.fw m) else s.fw m := by
  induction l generalizing s with
  | nil => simp
  | cons k t ih =>
    obtain ⟨hk, ht⟩ := List.nodup_cons.1 hd
    rw [List.foldl_cons, ih ht, State.fw_onFw]
    by_cases hm : m = k
    · subst hm
      simp [hk]
    · simp [hm]

theorem State.mem_reach (s : State) {n m : Nat} :
    m ∈ s.reach n ↔ m < 10 ∧ (m = n ∨ ((s.fw n).group.getLsbD m = true ∧ (s.fw m).group.getLsbD n = true)) := by
  simp [State.reach, upTo]

theorem State.nodup_reach (s : State) (n : Nat) : (s.reach n).Nodup := List.nodup_range.filter _

/-- A run of steps that read the time and leave it reads it once. -/
theorem State.foldl_at_time {α : Type} (F : Nat → State → α → State) (ht : ∀ now u a, (F now u a).time = u.time) {now : Nat} (l : List α)
    {u : State} (hu : u.time = now) : l.foldl (fun u a => F u.time u a) u = l.foldl (F now) u := by
  induction l generalizing u with
  | nil => rfl
  | cons a t ih =>
    rw [List.foldl_cons, List.foldl_cons, hu]
    exact ih ((ht ..).trans hu)

/-- A renewal writes each core that the leader reaches. -/
theorem State.renew_eq (s : State) (n : Nat) : s.renew n = (s.reach n).foldl (fun u m => u.onFw m (FwCore.renewed s.time (decide (m = n)))) s :=
  State.foldl_at_time (fun now u m => u.onFw m (FwCore.renewed now (decide (m = n)))) (fun _ _ _ => State.onFw_time ..) _ rfl

theorem State.fw_renew (s : State) (n m : Nat) :
    (s.renew n).fw m = if m ∈ s.reach n then FwCore.renewed s.time (decide (m = n)) (s.fw m) else s.fw m := by
  rw [State.renew_eq, State.fw_foldl_onFw (fun m => FwCore.renewed s.time (decide (m = n))) (s.nodup_reach n)]

theorem State.renew_rest (s : State) (n : Nat) : ∃ fs, s.renew n = { s with fws := fs } :=
  State.foldl_onFw_rest (fun u m => FwCore.renewed u.time (decide (m = n))) (s.reach n) s

/-! ### A new leader (R418, R419) -/

theorem Raised.lead (s : State) (n : Nat) (host : Bool) : Raised s (s.lead n host) := by
  obtain ⟨fs, h⟩ := s.renew_follow_rest n host
  rw [State.lead_eq, h]
  exact ((Raised.dropExchanges s).trans (Raised.onFws _ fs)).trans (Raised.settle _)

/-- A new leader leads under a lease of its own, and no core's vote changes. -/
theorem State.lead_leads (s : State) {n : Nat} (hn : n < 10) (host : Bool) : let t := s.lead n host
    (t.fw n).leader = true ∧ (t.fw n).host = host ∧ (t.fw n).expiry = s.time + leaseTime ∧ ∀ m, (t.fw m).voted = (s.fw m).voted := by
  intro t
  have hfw : ∀ m, t.fw m = if m ∈ s.reach n then FwCore.renewed s.time (decide (m = n)) ((s.follow n host).fw m) else (s.follow n host).fw m := fun m => by
    obtain ⟨fs, h⟩ := State.foldl_onFw_rest (fun u _ => FwCore.follow host (u.fw n).epoch) (s.reach n) s.dropExchanges
    have htime : (s.follow n host).time = s.time := (congrArg State.time h).trans rfl
    have hset : t.fw m = ((s.follow n host).renew n).fw m := by
      change (s.lead n host).fw m = _
      rw [State.lead_eq, State.fw, State.settle_fws, ← State.fw]
    rw [hset, State.fw_renew, State.reach_follow, htime]
  have hself := s.self_mem_reach hn
  have hhost : ((s.follow n host).fw n).host = host :=
    State.fw_foldl_of_mem (f := fun u _ => FwCore.follow host (u.fw n).epoch) (P := fun x => x.host = host) (fun _ _ => rfl) (fun _ _ => rfl) hself
      s.dropExchanges
  refine ⟨?_, ?_, ?_, fun m => ?_⟩
  · rw [hfw, if_pos hself]
    exact decide_eq_true rfl
  · rw [hfw, if_pos hself]
    exact hhost
  · rw [hfw, if_pos hself]
    rfl
  · have hvoted : ((s.follow n host).fw m).voted = (s.fw m).voted :=
      State.fw_foldl_keeps (f := fun u _ => FwCore.follow host (u.fw n).epoch) (π := FwCore.voted) (fun _ _ => rfl) (fun _ _ _ => rfl) _ s.dropExchanges m
    rw [hfw, ← hvoted]
    split <;> rfl

/-! ### A lapse (R418, R419) -/

/-- A group with its own core named is that group. -/
theorem or_self_bit {g : BitVec 10} {n : Nat} (h : g.getLsbD n = true) : g ||| BitVec.ofNat 10 (2 ^ n) = g := by
  refine BitVec.eq_of_getLsbD_eq fun i hi => ?_
  rw [BitVec.getLsbD_or, BitVec.getLsbD_ofNat, Nat.testBit_two_pow]
  by_cases hin : n = i
  · subst hin
    simp [h]
  · simp [hin]

/-- A firmware core with the group that it finds. -/
def State.finds (s : State) (n : Nat) (g : BitVec 10) : State := s.onFw n (fun f => { f with group := g })

theorem exec_leaseLapse {s : State} {n : Nat} {g : BitVec 10} (hb : s.pkg.boot ≠ .recovery) (hg : g.getLsbD n = true) :
    exec (.leaseLapse n g) s = .next (
      if s.pkg.leaderHost || decide (s.time < (s.fw n).expiry + rankDelay n) || decide (s.time < (s.fw n).retryAt) ||
          ((s.fw n).host && decide ((members g).length < 6)) then s.finds n g
      else if 6 ≤ (members g).length then (s.finds n g).candidate n else (s.finds n g).loseLease n g) := by
  change execLeaseLapse n g s = _
  unfold execLeaseLapse
  simp only [if_neg hb, or_self_bit hg]
  split
  · rfl
  · split <;> rfl

section
variable (s : State) (n : Nat) (g : BitVec 10)

theorem State.fw_finds (m : Nat) : (s.finds n g).fw m = if m = n then { s.fw n with group := g } else s.fw m := State.fw_onFw ..

/-- A candidate has voted for itself, and has asked the others of its group that reach it. -/
theorem State.fw_candidate (m : Nat) : ((s.finds n g).candidate n).fw m =
    if m = n then { s.fw n with group := g, epoch := (s.fw n).epoch + 1, voted := (s.fw n).epoch + 1, votes := [n], leader := false, host := false
                                retryAt := s.time + leaseTime + rankDelay n }
    else if m < 10 ∧ g.getLsbD m = true ∧ (s.fw m).group.getLsbD n = true then
      { s.fw m with asks := (s.fw m).asks ++ [(n, (s.fw n).epoch + 1)] } else s.fw m := by
  have hself : (s.finds n g).fw n = { s.fw n with group := g } := (s.fw_finds n g n).trans (if_pos rfl)
  have hmem : m ∈ ((s.finds n g).reach n).filter (· != n) ↔ m ≠ n ∧ m < 10 ∧ g.getLsbD m = true ∧ (s.fw m).group.getLsbD n = true := by
    by_cases hm : m = n
    · simp [hm]
    · simp [State.mem_reach, hself, State.fw_finds, hm]
  refine (State.fw_foldl_onFw (fun _ (f : FwCore) => { f with asks := f.asks ++ [(n, ((s.finds n g).fw n).epoch + 1)] })
    (((s.finds n g).nodup_reach n).filter _) _ m).trans ?_
  simp only [hmem, State.fw_onFw, hself]
  by_cases hm : m = n
  · simp [hm]
    rfl
  · simp [hm, State.fw_finds]

/-- A core that loses its lease says so of itself alone. -/
theorem State.fw_loseLease (m : Nat) : ((s.finds n g).loseLease n g).fw m = if m = n then FwCore.lose g (s.fw n) else s.fw m := by
  rw [State.fw, State.loseLease_fws, ← State.fw, State.fw_onFw, State.fw_finds, State.fw_finds, if_pos rfl]
  split <;> rfl

end

/-! ### Votes (R418) -/

section
variable {s : State} {n c e : Nat} {rest : List (Nat × Nat)} (hb : s.pkg.boot ≠ .recovery) (ha : (s.fw n).asks = (c, e) :: rest) (hc : c ≠ n)
include hb ha

theorem exec_voteRequest : exec (.voteRequest n) s = .next (if e ≤ (s.fw n).voted ∨ (s.fw n).leased s.time = true then s.onFw n (fun f => { f with asks := rest })
    else ((s.onFw n (fun f => { f with asks := rest })).onFw n (fun f => { f with voted := e, epoch := max f.epoch e })).vote n c e) := by
  change execVoteRequest n s = _
  unfold execVoteRequest
  simp only [if_neg hb, ha, Bool.or_eq_true, decide_eq_true_eq]
  split <;> rfl

include hc

/-- A vote is given for an epoch, and the sixth makes its candidate lead. -/
theorem voteRequest_votes (hc10 : c < 10) (hv : (s.fw n).voted < e) (hl : (s.fw n).leased s.time = false) : ∃ t, exec (.voteRequest n) s = .next t ∧
    (t.fw n).voted = e ∧ ((s.fw c).epoch = e → (s.fw c).leader = false → 5 ≤ (s.fw c).votes.length → n ∉ (s.fw c).votes →
      (t.fw c).leader = true ∧ (t.fw c).expiry = s.time + leaseTime) := by
  let u := (s.onFw n (fun f => { f with asks := rest })).onFw n (fun f => { f with voted := e, epoch := max f.epoch e })
  have hvoted : (u.fw n).voted = e := by rw [State.fw_onFw, if_pos rfl]
  have hcand : u.fw c = s.fw c := by rw [State.fw_onFw, if_neg hc, State.fw_onFw, if_neg hc]
  refine ⟨_, (exec_voteRequest hb ha).trans (by rw [if_neg (by simp [hl, hv])]), ?_, fun he hlead h5 hn => ?_⟩
  · have hkeep : ∀ f : FwCore → FwCore, ((u.onFw c f).fw n).voted = e := fun f => by rw [State.fw_onFw, if_neg (Ne.symm hc), hvoted]
    change ((u.vote n c e).fw n).voted = e
    unfold State.vote
    dsimp only
    split
    · exact hvoted
    · split
      · rw [((u.onFw c _).lead_leads hc10 false).2.2.2 n]
        exact hkeep _
      · exact hkeep _
  · have hne : (s.fw c).votes.isEmpty = false := by
      rw [List.isEmpty_eq_false_iff]
      rintro hnil
      simp [hnil] at h5
    have hvote : u.vote n c e = (u.onFw c (fun f => { f with votes := f.votes ++ [n] })).lead c false := by
      unfold State.vote
      simp only [hcand, he, hlead, hne, List.contains_eq_mem, hn, bne_self_eq_false, decide_false, Bool.or_self, Bool.false_eq_true, if_false]
      exact if_pos (by omega)
    obtain ⟨hl, -, hexp, -⟩ := (u.onFw c (fun f => { f with votes := f.votes ++ [n] })).lead_leads hc10 false
    change ((u.vote n c e).fw c).leader = true ∧ ((u.vote n c e).fw c).expiry = _
    rw [hvote]
    exact ⟨hl, hexp⟩

end

/-! ### The host's designation (R419) -/

theorem exec_leaderDesignate {s : State} {k n : Nat} (hb : s.pkg.boot ≠ .recovery) (hk : socketFw k = some n) (hr : n ∈ s.reach 8)
    (hw : (∀ m < 10, (s.fw m).lost = true ∧ (members (s.fw m).group).length = 5) ∨ s.pkg.leaderHost = true) :
    exec (.leaderDesignate k) s = .next ((s.onPkg (fun g => { g with leaderReg := k })).lead n true) := by
  have hsplit : (((upTo 10).all (fun m => (s.fw m).lost && (members (s.fw m).group).length == 5)) || s.pkg.leaderHost) = true := by
    rcases hw with h | h
    · rw [Bool.or_eq_true]
      refine .inl (List.all_eq_true.2 fun m hm => ?_)
      obtain ⟨h1, h2⟩ := h m (List.mem_range.1 hm)
      simp [h1, h2]
    · simp [h]
  change execLeaderDesignate k s = _
  unfold execLeaderDesignate
  simp only [if_neg hb, hk]
  exact if_pos (by rw [hsplit, Bool.and_true]; exact List.contains_iff_mem.2 hr)

/-- Settles O38: a renewal, a candidate's requests and a new leader write the cores of one group, each once, and what each writes is followed core by
core. -/
theorem leaderEvents : Obligations.LeaderEvents := by
  intro s n hn f till meets size
  have hreach : ∀ m < 10, (m ∈ s.reach n ↔ meets m) := fun m hm => s.mem_reach.trans (and_iff_right hm)
  have hsize : (s.reach n).length = size := by
    refine congrArg List.length (List.filter_congr fun m hm => ?_)
    rw [Bool.eq_iff_iff]
    simp [meets, f]
  refine ⟨fun hb g k => ⟨?_, ?_, ?_, ?_⟩, fun hb => ⟨fun hlead hexp => ⟨fun hmay => ?_, fun hhost hsz => ?_⟩, fun g hg => ?_, fun c e rest ha hc10 hc => ?_,
    fun k hk hr hw => ?_⟩⟩
  · change execLeaseRenew n s = _
    simp [execLeaseRenew, hb]
  · exact if_pos hb
  · change execVoteRequest n s = _
    simp [execVoteRequest, hb]
  · exact if_pos hb
  · obtain ⟨fs, hrest⟩ := s.renew_rest n
    refine ⟨s.renew n, if_pos ?_, fun m hm => ?_, by rw [hrest], by rw [hrest], by rw [hrest]⟩
    · have hdue : (s.fw n).expiry + 500000 ≤ s.time + leaseTime := by
        have : (s.fw n).expiry ≤ s.time + 1500000 := hexp
        unfold leaseTime
        omega
      rcases hmay with hh | ⟨hlt, h6⟩
      · simp [hb, show (s.fw n).leader = true from hlead, show (s.fw n).host = true from hh, hdue]
      · simp [hb, show (s.fw n).leader = true from hlead, show s.time < (s.fw n).expiry from hlt, hsize, h6, hdue]
    · rw [State.fw_renew]
      simp only [hreach m hm]
      rfl
  · refine if_neg ?_
    have h6 : ¬ 6 ≤ (s.reach n).length := by omega
    simp [show (s.fw n).host = false from hhost, h6]
  · have hx := exec_leaseLapse hb hg
    refine ⟨fun hlt => ⟨_, hx.trans (congrArg _ (if_pos ?_)), ?_, fun m hm => ?_⟩, fun hh hlapsed hretry => ?_⟩
    · have : s.time < (s.fw n).expiry + rankDelay n := hlt
      simp [this]
    · rw [State.fw_finds, if_pos rfl]
    · rw [State.fw_finds, if_neg hm]
    have hl : ¬ s.time < (s.fw n).expiry + rankDelay n := Nat.not_lt.2 hlapsed
    have hr : ¬ s.time < (s.fw n).retryAt := Nat.not_lt.2 hretry
    refine ⟨fun h6 => ?_, fun hlt hhost => ?_⟩
    · have h6' : 6 ≤ (members g).length := h6
      have hfw := s.fw_candidate n g
      have hself := (hfw n).trans (if_pos rfl)
      rw [if_neg (by simp [hh, hl, hr, h6']), if_pos h6'] at hx
      refine ⟨_, hx, by rw [hself], by rw [hself], by rw [hself], by rw [hself], by rw [hself], fun m hm hne => ?_⟩
      rw [hfw, if_neg hne]
      simp only [hm, true_and]
      rfl
    · have hlt' : ¬ 6 ≤ (members g).length := Nat.not_le.2 hlt
      have hfw := s.fw_loseLease n g
      have hself := (hfw n).trans (if_pos rfl)
      rw [if_neg (by simp [hh, hl, hr, show (s.fw n).host = false from hhost]), if_neg hlt'] at hx
      exact ⟨_, hx, by rw [hself]; rfl, by rw [hself]; rfl, by rw [hself]; rfl, fun m hm => (hfw m).trans (if_neg hm)⟩
  · refine ⟨fun hno => ⟨_, (exec_voteRequest hb ha).trans (congrArg _ (if_pos (hno.imp_right fun h => ?_))), ?_, fun m hm => ?_⟩, fun hv hhost hlapsed => ?_⟩
    · have : s.time < (s.fw n).expiry := h
      simp [FwCore.leased, this]
    · exact (State.fw_onFw ..).trans (if_pos rfl)
    · exact (State.fw_onFw ..).trans (if_neg hm)
    · have hleased : (s.fw n).leased s.time = false := by
        have h1 : (s.fw n).host = false := hhost
        have h2 : ¬ s.time < (s.fw n).expiry := Nat.not_lt.2 hlapsed
        simp [FwCore.leased, h1, h2]
      exact voteRequest_votes hb ha hc hc10 hv hleased
  · have h8 : n ∈ s.reach 8 := s.mem_reach.2 ⟨hn, hr⟩
    obtain ⟨hleader, hhost, hexp, -⟩ := (s.onPkg (fun g => { g with leaderReg := k })).lead_leads hn true
    refine ⟨_, exec_leaderDesignate hb hk h8 hw, ?_, hleader, hhost, hexp⟩
    rw [(Raised.lead ..).rest]
    rfl

end Sys2Proof.Machine
end

section
/-!
SUPPORT. Instructions that retire in sequence once a unit has acted on them (R90): what their context, their core and the units then hold; the refinement
loop controller's instructions (R401-R403), and O35 from them.
-/

namespace Sys2Proof.Machine

/-! ### Retiring after a unit has acted -/

/-- The registers, CSRs, handles and latches of a context that a unit's act leaves. -/
structure Ctx.SameRegs (x y : Ctx) : Prop extends Ctx.Onward x y where
  st   : y.st = x.st
  g    : y.g = x.g
  v    : y.v = x.v
  k    : y.k = x.k
  c    : y.c = x.c
  view : y.view = x.view
  trap : y.trap = x.trap
  fcsr : y.fcsr = x.fcsr

theorem Ctx.SameRegs.of_eq {x y : Ctx} (h : y = x) : x.SameRegs y := by
  subst h
  exact ⟨⟨rfl, rfl, rfl, rfl⟩, rfl, rfl, rfl, rfl, rfl, rfl, rfl, rfl⟩

/-- `t` is `u` after an instruction of the running context has retired: contexts have moved and counters counted. -/
structure Advanced (u t : State) : Prop where
  rest   : t = { u with cores := t.cores, parts := t.parts }
  layout : SameLayout u t
  side   : ∀ n, (t.core n).side = (u.core n).side
  act    : t.me.act = u.me.act

theorem Advanced.mem {u t : State} (h : Advanced u t) : t.mem = u.mem := by rw [h.rest]

theorem Advanced.rlcs {u t : State} (h : Advanced u t) : t.rlcs = u.rlcs := by rw [h.rest]

theorem Advanced.rlc {u t : State} (h : Advanced u t) (n : Nat) : t.rlc n = u.rlc n := congrArg (fun m => AMap.get Rlc.reset m n) h.rlcs

theorem Advanced.advance (u : State) (ip' : Word) : Advanced u (u.advance ip') where
  rest := by
    unfold State.advance
    dsimp only
    rw [State.count_parts]
    split <;> rfl
  layout := State.advance_layout ..
  side _ := State.advance_sides ..
  act := by rw [State.advance_me]; rfl

theorem Advanced.trans {s t u : State} (h : Advanced s t) (g : Advanced t u) : Advanced s u :=
  ⟨by rw [g.rest, h.rest], h.layout.trans g.layout, fun n => (g.side n).trans (h.side n), g.act.trans h.act⟩

theorem Advanced.setG (u : State) (d : GReg) (v : Word) : Advanced u (u.setG d v) where
  rest := rfl
  layout := .of_parts rfl
  side n := by
    by_cases hn : n = u.cur.1
    · subst hn
      simp [State.setG, State.onMe, State.onCtx]
    · rw [State.setG, State.core_onMe_ne _ _ hn]
  act := by
    rw [State.me_setG]
    unfold Ctx.putG
    split <;> rfl

theorem Ctx.SameRegs.putG {x y : Ctx} (h : x.SameRegs y) (d : GReg) (v : Word) : (x.putG d v).SameRegs (y.putG d v) := by
  unfold Ctx.putG
  split
  · exact h
  · exact { h with g := congrArg (fun g => g.set d.val v d.isLt) h.g }

section
variable {i : Instr} {s u : State} {d : GReg} {v : Word} (hs : Steady s)
include hs

/-- An instruction that leaves its context as a write of one register would. -/
theorem retiresWith_of (hme : (s.me.putG d v).SameRegs u.me) (hx : exec i s = retired u) : ∃ t, RetiresWith i s t d v ∧ Advanced u t := by
  have hstep : Steady u := ⟨hme.step1.trans (by simp [hs.1]), hme.migok.trans (by simp [hs.2])⟩
  have hret : u.retire = u.advance (nextIp s.me.latch.nh s.me.ip) := by
    rw [retire_eq s u (by simp [hme.latch]) (by simp [hme.ip]), State.retireTo_eq _ _ hstep]
  have hm := State.advance_me u (nextIp s.me.latch.nh s.me.ip)
  have hput : ∀ {α : Type} (π : Ctx → α), (∀ x g, π { x with g := g } = π x) → π (s.me.putG d v) = π s.me := fun π hπ => by
    unfold Ctx.putG
    split
    · rfl
    · exact hπ ..
  refine ⟨u.advance (nextIp s.me.latch.nh s.me.ip), ⟨hx.trans (congrArg Host.Outcome.next hret), by rw [hm]; rfl, ?_, fun r => ?_, ?_, ?_, ?_, ?_, ?_, ?_⟩,
    Advanced.advance ..⟩
  · rw [hm]; exact hme.st.trans (hput Ctx.st fun _ _ => rfl)
  · have hg : (u.advance (nextIp s.me.latch.nh s.me.ip)).g r = (s.me.putG d v).getG r := by
      rw [State.g, hm]
      exact (congrArg (fun g => if r = 0 then 0 else Vector.get g r) hme.g : _)
    rw [hg, Ctx.getG_putG]
    by_cases hd : d = 0
    · subst hd
      by_cases hr : r = 0 <;> simp [hr, State.g]
    · by_cases hr : r = d <;> simp [hr, hd, State.g]
  · rw [hm]; exact hme.v.trans (hput Ctx.v fun _ _ => rfl)
  · rw [hm]; exact hme.k.trans (hput Ctx.k fun _ _ => rfl)
  · rw [hm]; exact hme.c.trans (hput Ctx.c fun _ _ => rfl)
  · rw [hm]; exact hme.view.trans (hput Ctx.view fun _ _ => rfl)
  · rw [hm]; exact hme.trap.trans (hput Ctx.trap fun _ _ => rfl)
  · rw [hm]; exact hme.fcsr.trans (hput Ctx.fcsr fun _ _ => rfl)

/-- A unit has acted, and the instruction writes a register. -/
theorem retiresWith_setG (hme : s.me.SameRegs u.me) (hx : exec i s = retired (u.setG d v)) : ∃ t, RetiresWith i s t d v ∧ Advanced u t := by
  obtain ⟨t, ht, ha⟩ := retiresWith_of hs (u := u.setG d v) (by rw [State.me_setG]; exact hme.putG d v) hx
  exact ⟨t, ht, (Advanced.setG ..).trans ha⟩

/-- A unit has acted, and the instruction writes no register. -/
theorem retiresWith_retired (hme : s.me.SameRegs u.me) (hx : exec i s = retired u) : ∃ t, RetiresWith i s t 0 0 ∧ Advanced u t :=
  retiresWith_of hs (by simpa [Ctx.putG] using hme) hx

end

/-! ### What reaches a controller (R394-R396, R403) -/

theorem State.rlc_onRlc (s : State) (n m : Nat) (f : Rlc → Rlc) : (s.onRlc n f).rlc m = if m = n then f (s.rlc n) else s.rlc m := by
  simp [State.rlc, State.onRlc, AMap.get_set]

/-- A message of an engine waits in a task queue or leaves by the engine's interface. -/
theorem State.engineMsg_rest (s : State) (eng core ctx dest : Nat) (m : Msg) (born : Nat) :
    ∃ es ps, s.engineMsg eng core ctx dest m born = { s with eps := es, parts := ps } := by
  unfold State.engineMsg
  split
  · unfold State.onPart
    split
    · exact ⟨s.eps, _, rfl⟩
    · exact ⟨s.eps, s.parts, rfl⟩
  · exact ⟨_, s.parts, rfl⟩

@[simp] theorem State.engineMsg_rlcs (s : State) (eng core ctx dest : Nat) (m : Msg) (born : Nat) : (s.engineMsg eng core ctx dest m born).rlcs = s.rlcs := by
  obtain ⟨es, ps, h⟩ := s.engineMsg_rest eng core ctx dest m born
  rw [h]

@[simp] theorem State.engineMsg_mem (s : State) (eng core ctx dest : Nat) (m : Msg) (born : Nat) : (s.engineMsg eng core ctx dest m born).mem = s.mem := by
  obtain ⟨es, ps, h⟩ := s.engineMsg_rest eng core ctx dest m born
  rw [h]

/-- The run of a phase that has been dispatched (R395). -/
def RRun.dispatched (r : RRun) (ph : RPhase) (serial : Nat) : RRun :=
  { r with phase := ph, serial := serial, reports := [], sent := r.sent ++ (maskCores (r.cmd.mask ph)).map (fun k => (serial, k)) }

/-- A phase dispatched gives its controller the run, and leaves memory. -/
theorem State.rlc_rlcDispatch (s : State) (cl : Nat) (r : RRun) (ph : RPhase) : let t := s.rlcDispatch cl r ph
    t.rlc cl = { s.rlc cl with run := some (r.dispatched ph ((s.rlc cl).serial + 1)), serial := (s.rlc cl).serial + 1 } ∧ t.mem = s.mem := by
  intro t
  let u := s.onRlc cl (fun x => { x with run := some (r.dispatched ph ((s.rlc cl).serial + 1)), serial := (s.rlc cl).serial + 1 })
  have hsent : t.rlcs = u.rlcs ∧ t.mem = u.mem :=
    List.foldlRecOn (motive := fun v : State => v.rlcs = u.rlcs ∧ v.mem = u.mem) _ _ ⟨rfl, rfl⟩ (fun v ⟨hr, hm⟩ k _ =>
      ⟨(State.engineMsg_rlcs ..).trans hr, (State.engineMsg_mem ..).trans hm⟩)
  exact ⟨by rw [State.rlc, hsent.1, ← State.rlc, State.rlc_onRlc, if_pos rfl], hsent.2⟩

/-- The progress that RLCSTAT shows changes no more of a controller (R403). -/
theorem State.rlc_rlcLatest (s : State) (cl : Nat) : ∃ l, (s.rlcLatest cl).rlc cl = { s.rlc cl with latest := l } ∧ (s.rlcLatest cl).mem = s.mem := by
  unfold State.rlcLatest
  split
  · exact ⟨_, rfl, rfl⟩
  · exact ⟨_, (State.rlc_onRlc ..).trans (if_pos rfl), rfl⟩

section
variable {s : State} {cl : Nat}

/-- A command behind a running one waits in its controller's queue. -/
theorem State.rlcApply_queues {c : RCmd} (hrun : (s.rlc cl).run.isSome = true) :
    ((s.rlcApply cl (.cmd c)).rlc cl).queue = (s.rlc cl).queue ++ [c] ∧ (s.rlcApply cl (.cmd c)).mem = s.mem := by
  let u := s.onRlc cl (fun x => { x with queue := x.queue ++ [c], latest := AMap.set x.latest c.core ⟨c.ptr, .queued, 0, 0, 0⟩ })
  have hu : u.rlc cl = { s.rlc cl with queue := (s.rlc cl).queue ++ [c], latest := AMap.set (s.rlc cl).latest c.core ⟨c.ptr, .queued, 0, 0, 0⟩ } :=
    (State.rlc_onRlc ..).trans (if_pos rfl)
  obtain ⟨r, hr⟩ := Option.isSome_iff_exists.1 hrun
  have hnext : u.rlcNext cl = u := by
    unfold State.rlcNext
    rw [hu, hr]
  obtain ⟨l, hl, hm⟩ := u.rlc_rlcLatest cl
  change (((u.rlcNext cl).rlcLatest cl).rlc cl).queue = _ ∧ ((u.rlcNext cl).rlcLatest cl).mem = _
  rw [hnext, hl, hm, hu]
  exact ⟨rfl, rfl⟩

/-- A command starts an idle controller with FACTOR at rung 0. -/
theorem State.rlcApply_starts {c : RCmd} (hrun : (s.rlc cl).run = none) (hq : (s.rlc cl).queue = []) (hpre : (s.part (s.pOf (16 * cl))).pre = .running) :
    ((s.rlcApply cl (.cmd c)).rlc cl).run = some (RRun.dispatched ⟨c, .factor, 0, 0, 0, 0, none, 0, true, 0, [], [], none⟩ .factor ((s.rlc cl).serial + 1)) ∧
      (s.rlcApply cl (.cmd c)).mem = s.mem := by
  let u := s.onRlc cl (fun x => { x with queue := x.queue ++ [c], latest := AMap.set x.latest c.core ⟨c.ptr, .queued, 0, 0, 0⟩ })
  have hu : u.rlc cl = { s.rlc cl with queue := [c], latest := AMap.set (s.rlc cl).latest c.core ⟨c.ptr, .queued, 0, 0, 0⟩ } :=
    (State.rlc_onRlc ..).trans ((if_pos rfl).trans (by rw [hq]; rfl))
  have hnext : u.rlcNext cl = (u.onRlc cl (fun x => { x with queue := [] })).rlcStart cl c := by
    unfold State.rlcNext
    rw [hu, hrun]
    exact if_pos hpre
  let v := (u.onRlc cl (fun x => { x with queue := [] })).onRlc cl (fun x => { x with latest := AMap.set x.latest c.core ⟨c.ptr, .running, 0, 0, 0⟩ })
  have hv : (v.rlc cl).serial = (s.rlc cl).serial := by
    rw [State.rlc_onRlc, if_pos rfl, State.rlc_onRlc, if_pos rfl, hu]
  obtain ⟨hd, hdm⟩ := v.rlc_rlcDispatch cl ⟨c, .factor, 0, 0, 0, 0, none, 0, true, 0, [], [], none⟩ .factor
  obtain ⟨l, hl, hm⟩ := (u.rlcNext cl).rlc_rlcLatest cl
  change (((u.rlcNext cl).rlcLatest cl).rlc cl).run = _ ∧ ((u.rlcNext cl).rlcLatest cl).mem = _
  rw [hl, hm, hnext]
  refine ⟨?_, hdm⟩
  change ((v.rlcDispatch cl ⟨c, .factor, 0, 0, 0, 0, none, 0, true, 0, [], [], none⟩ .factor).rlc cl).run = _
  rw [hd, hv]

/-- A report that leaves another core of the phase to report is kept (R396, R402). -/
theorem State.rlcApply_reports {r : RRun} {core serial k : Nat} {w : Word} (hrun : (s.rlc cl).run = some r) (hser : r.serial = serial)
    (hstop : r.stop = none) (hk : k < 16) (hmask : (r.cmd.mask r.phase).testBit k = true) (hne : k ≠ core) (hno : AMap.find r.reports k = none) :
    ((s.rlcApply cl (.report core serial w)).rlc cl).run = some { r with reports := AMap.set r.reports core w } ∧
      (s.rlcApply cl (.report core serial w)).mem = s.mem := by
  let r' : RRun := { r with reports := AMap.set r.reports core w }
  let u := s.onRlc cl (fun x => { x with run := some r' })
  have hwait : (maskCores (r.cmd.mask r.phase)).all (fun k => (AMap.find r'.reports k).isSome) = false := by
    rw [List.all_eq_false]
    refine ⟨k, List.mem_filter.2 ⟨List.mem_range.2 hk, hmask⟩, ?_⟩
    rw [AMap.find_set, if_neg hne, hno]
    decide
  have happ : s.rlcApply cl (.report core serial w) = u.rlcLatest cl := by
    unfold State.rlcApply
    rw [hrun]
    dsimp only
    rw [if_neg (by simp [hser, hstop]), if_neg (by rw [hwait]; simp)]
  obtain ⟨l, hl, hm⟩ := u.rlc_rlcLatest cl
  rw [happ, hl, hm, State.rlc_onRlc, if_pos rfl]
  exact ⟨rfl, rfl⟩

/-- A queued command that is stopped leaves the queue, ended with exit code 6 (R399, R403). -/
theorem State.rlcApply_stops {c : RCmd} {rest : List RCmd} {core : Nat} (hrun : (s.rlc cl).run = none) (hq : (s.rlc cl).queue = c :: rest)
    (hc : c.core = core) : ((s.rlcApply cl (.stop core)).rlc cl).queue = rest ∧
      AMap.find ((s.rlcApply cl (.stop core)).rlc cl).latest core = some ⟨c.ptr, .ended, 6, 0, 0⟩ := by
  have hfirst : takeFirst (fun (x : RCmd) => x.core == core) (s.rlc cl).queue = some (c, rest) := by
    rw [hq]
    exact if_pos (by simp [hc])
  let u := s.onRlc cl (fun x => { x with queue := rest })
  have happ : s.rlcApply cl (.stop core) = (u.rlcFinish cl c 6 0 0 0 0).rlcLatest cl := by
    unfold State.rlcApply
    dsimp only
    rw [hfirst]
  have hfin : (u.rlcFinish cl c 6 0 0 0 0).rlc cl =
      { s.rlc cl with queue := rest, latest := AMap.set (s.rlc cl).latest core ⟨c.ptr, .ended, 6, 0, 0⟩ } := by
    have hrlcs : (u.rlcFinish cl c 6 0 0 0 0).rlcs =
        (u.onRlc cl (fun x => { x with latest := AMap.set x.latest c.core ⟨c.ptr, .ended, 6, 0, 0⟩ })).rlcs := State.engineMsg_rlcs ..
    rw [State.rlc, hrlcs, ← State.rlc, State.rlc_onRlc, if_pos rfl, State.rlc_onRlc, if_pos rfl, hc]
  have hlatest : (u.rlcFinish cl c 6 0 0 0 0).rlcLatest cl = u.rlcFinish cl c 6 0 0 0 0 := by
    unfold State.rlcLatest
    rw [hfin]
    simp only [hrun]
  rw [happ, hlatest, hfin]
  exact ⟨rfl, by rw [AMap.find_set, if_pos rfl]⟩

end

/-! ### The instructions (R401-R403) -/

section
variable {s : State} {d a : GReg}

/-- The phases' masks read bit by bit. -/
theorem testBit_bitsNat {w : Nat} (x : BitVec w) {n k : Nat} (h : k < n) : (bitsNat x 0 n).testBit k = x.getLsbD k := by
  simp [bitsNat, Nat.testBit_mod_two_pow, h, BitVec.testBit_toNat]

section
variable {b hi : List Word} {k14 k15 : List Nat} (hal : (s.g a).toNat % 8 = 0) (hok : s.rlcPtrOk (s.g a) = true) (hlo : s.readWords (s.g a) [] 14 = .ok b s)
  (h14 : s.storeKeys (ptrOff (s.g a) 112) = .ok k14 s) (h15 : s.storeKeys (ptrOff (s.g a) 120) = .ok k15 s)
  (hhi : s.readWords (ptrOff (s.g a) 128) [] 16 = .ok hi s) (hblk : blockBadRlc s.myTask b hi = false)
include hal hok hlo h14 h15 hhi hblk

/-- The block is read and checked; then its core's earlier command decides. -/
theorem exec_rlcrun_checked : exec (.rlcrun d a) s = run (if s.rlcBusy = true then .ok () (s.setG d 1) else (s.release .fence).bind fun _ s' =>
    .ok () ((s'.rlcPost (clusOf s'.cur.1) (.cmd ⟨b, s.g a, k14, k15, s'.me.tag, s'.me.activation.m.msg.env.gen, s'.cur.1, s'.cur.2.val⟩)).setG d 0)) := by
  change execRlcrun d a s = _
  unfold execRlcrun
  dsimp only
  rw [if_neg (by simp [hal]), if_neg (by simp [hok]), hlo, Res.bind, h14, Res.bind, h15, Res.bind, hhi, Res.bind, if_neg (by simp [hblk])]

theorem exec_rlcrun_busy (hb : s.rlcBusy = true) : exec (.rlcrun d a) s = retired (s.setG d 1) := by
  rw [exec_rlcrun_checked hal hok hlo h14 h15 hhi hblk, if_pos hb]
  rfl

theorem exec_rlcrun_accepts (hb : s.rlcBusy = false) (hl : s.lanesMine = false) (hf : s.me.failed = []) : exec (.rlcrun d a) s =
    retired ((s.rlcPost (clusOf s.cur.1) (.cmd ⟨b, s.g a, k14, k15, s.me.tag, s.me.activation.m.msg.env.gen, s.cur.1, s.cur.2.val⟩)).setG d 0) := by
  rw [exec_rlcrun_checked hal hok hlo h14 h15 hhi hblk, if_neg (by simp [hb]), State.release_ok hl hf]
  rfl

end

theorem exec_rlcnorm_reports {cl serial : Nat} (hl : s.lanesMine = false) (hf : s.me.failed = []) (hr : s.rlcReportable = some (cl, serial)) :
    exec (.rlcnorm d a) s = retired (((s.onMe (fun x => { x with act := x.act.map (fun t => { t with reported := true }) })).rlcPost cl
      (.report (s.me.activation.core % 16) serial (s.g a))).setG d 1) := by
  change execRlcnorm d a s = _
  rw [execRlcnorm, State.release_ok hl hf, Res.bind, hr]
  rfl

theorem exec_rlcnorm_none (hl : s.lanesMine = false) (hf : s.me.failed = []) (hr : s.rlcReportable = none) :
    exec (.rlcnorm d a) s = retired (s.setG d 0) := by
  change execRlcnorm d a s = _
  rw [execRlcnorm, State.release_ok hl hf, Res.bind, hr]
  rfl

end

/-- The run that may be reported has the activation's serial. -/
theorem State.serial_of_rlcReportable {s : State} {cl serial : Nat} {r : RRun} (h : s.rlcReportable = some (cl, serial)) (hr : (s.rlc cl).run = some r) :
    r.serial = serial := by
  unfold State.rlcReportable at h
  dsimp only at h
  split at h
  case h_1 c n hinfo =>
    split at h
    case h_1 x hx =>
      split at h
      case isTrue hc =>
        obtain ⟨rfl, rfl⟩ := Prod.mk.inj (Option.some.inj h)
        obtain rfl := Option.some.inj (hx.symm.trans hr)
        simp only [Bool.and_eq_true, beq_iff_eq] at hc
        exact hc.1
      case isFalse => cases h
    case h_2 => cases h
  all_goals cases h

section
variable {s : State} {d a : GReg}

theorem exec_rlcstop_of_none (h : AMap.find (s.rlc (clusOf s.cur.1)).latest s.cur.1 = none) :
    exec (.rlcstop d a) s = retired (s.setG d (s.rlcWord (s.g a))) := by
  change execRlcstop d a s = _
  simp only [execRlcstop, State.rlcMatch, h]
  rfl

section
variable {l : RLatest} (h : AMap.find (s.rlc (clusOf s.cur.1)).latest s.cur.1 = some l)
include h

theorem exec_rlcstop_of_over (hno : ¬ (l.ptr = s.g a ∧ (l.st = .queued ∨ l.st = .running))) :
    exec (.rlcstop d a) s = retired (s.setG d (s.rlcWord (s.g a))) := by
  change execRlcstop d a s = _
  by_cases hp : l.ptr = s.g a
  · have hst : ¬ (l.st = .queued ∨ l.st = .running) := fun hst => hno ⟨hp, hst⟩
    simp [execRlcstop, State.rlcMatch, h, hp, hst]
  · simp [execRlcstop, State.rlcMatch, h, hp]

theorem exec_rlcstop_of_live (hp : l.ptr = s.g a) (hst : l.st = .queued ∨ l.st = .running) :
    exec (.rlcstop d a) s = retired ((s.rlcPost (clusOf s.cur.1) (.stop s.cur.1)).setG d (s.rlcWord (s.g a))) := by
  change execRlcstop d a s = _
  simp [execRlcstop, State.rlcMatch, h, hp, hst]

end
end

theorem State.rlcPost_det {s : State} {cl : Nat} (h : s.detAt (16 * cl) = true) (e : REv) :
    s.rlcPost cl e = s.onRlc cl (fun x => { x with pend := x.pend ++ [e] }) := if_pos (by rw [h]; rfl)

theorem State.rlcPost_now {s : State} {cl : Nat} (h : s.detAt (16 * cl) = false) {e : REv} (he : e.isFault = false) : s.rlcPost cl e = s.rlcApply cl e :=
  if_neg (by rw [h, he]; decide)

/-- A report acts on its activation. -/
def State.reported (s : State) : State := s.onMe (fun x => { x with act := x.act.map (fun t => { t with reported := true }) })

/-- A report acts on its activation and its controller. -/
def State.reports (s : State) (a : GReg) (cl serial : Nat) : State :=
  s.reported.rlcPost cl (.report (s.me.activation.core % 16) serial (s.g a))

theorem rlcnormForms {s : State} {d a : GReg} {cl serial : Nat} (hs : Steady s) (hl : s.lanesMine = false) (hf : s.me.failed = [])
    (hr : s.rlcReportable = some (cl, serial)) (hact : s.me.act.isSome = true) :
    ∃ t, RetiresWith (.rlcnorm d a) s t d 1 ∧ Advanced (s.reports a cl serial) t ∧ t.me.activation.reported = true := by
  have hme : (s.reports a cl serial).me = { s.me with act := s.me.act.map (fun t => { t with reported := true }) } :=
    (Offcore.rlcPost s.reported ..).me.trans (State.me_onMe ..)
  obtain ⟨t, ht, ha⟩ := retiresWith_setG (d := d) (v := 1) hs (u := s.reports a cl serial) (by rw [hme]; exact ⟨⟨rfl, rfl, rfl, rfl⟩, rfl, rfl, rfl, rfl, rfl, rfl, rfl, rfl⟩)
    (exec_rlcnorm_reports hl hf hr)
  obtain ⟨x, hx⟩ := Option.isSome_iff_exists.1 hact
  refine ⟨t, ht, ha, ?_⟩
  have : t.me.act = some { x with reported := true } := by rw [ha.act, hme, hx]; rfl
  rw [Ctx.activation, this]
  rfl

theorem State.rlcWord_of_latest {s : State} {l : RLatest} (h : AMap.find (s.rlc (clusOf s.cur.1)).latest s.cur.1 = some l) (p : Word) :
    s.rlcWord p = if l.ptr ≠ p then 0 else
      BitVec.ofNat 64 (2 ^ 63 + l.exit % 256 * 2 ^ 48 + l.iter % 2 ^ 32 * 2 ^ 16 + l.rung % 256 * 2 ^ 8 + s.rlcPhase * 16 + l.st.code) := by
  rw [State.rlcWord, State.rlcMatch, h]
  by_cases hp : l.ptr = p <;> simp [hp]

theorem State.rlcWord_none {s : State} (h : AMap.find (s.rlc (clusOf s.cur.1)).latest s.cur.1 = none) (p : Word) : s.rlcWord p = 0 := by
  rw [State.rlcWord, State.rlcMatch, h]

/-- Settles O35: an accepted command and a report are each one event of the controller, which its lemmas follow. -/
theorem refinementForms : Obligations.RefinementForms := by
  intro s d a b hi k14 k15 clr serial hs cl ctl p
  refine ⟨fun hal hok hlo h14 h15 hhi hblk => ⟨fun hb => ?_, fun hb hl hf => ?_⟩, fun hl hf hr => ?_, fun hl hf hr hact hd => ?_,
    fun r k hl hf hr hact hd hrun hstop hk hmask hne hno => ?_, fun l hlat => ?_, fun hlat => ?_⟩
  · exact gives_of_setG hs (exec_rlcrun_busy hal hok hlo h14 h15 hhi hblk hb)
  · intro c
    obtain ⟨t, ht, ha⟩ := retiresWith_setG hs (.of_eq (Offcore.rlcPost ..).me) (exec_rlcrun_accepts (d := d) hal hok hlo h14 h15 hhi hblk hb hl hf)
    have hrlc : t.rlc cl = (s.rlcPost cl (.cmd c)).rlc cl := ha.rlc cl
    have hmem : t.mem = (s.rlcPost cl (.cmd c)).mem := ha.mem
    refine ⟨fun hd => ⟨t, ht, ?_, ?_⟩, fun hd hrun => ⟨t, ht, ?_, ?_⟩, fun hd hrun hq hpre => ?_⟩
    · rw [hmem, State.rlcPost_det hd]; rfl
    · rw [hrlc, State.rlcPost_det hd, State.rlc_onRlc, if_pos rfl]
    · rw [hmem, State.rlcPost_now hd rfl]
      exact (State.rlcApply_queues hrun).2
    · rw [hrlc, State.rlcPost_now hd rfl]
      exact (State.rlcApply_queues hrun).1
    · obtain ⟨hr, hm⟩ := State.rlcApply_starts (c := c) hrun hq hpre
      rw [← State.rlcPost_now hd rfl] at hr hm
      refine ⟨t, _, ht, hmem.trans hm, hrlc ▸ hr, rfl, rfl, rfl, rfl, rfl, ?_⟩
      exact congrArg (List.map _) (List.filter_congr fun k hk => testBit_bitsNat _ (List.mem_range.1 hk))
  · exact gives_of_setG hs (exec_rlcnorm_none hl hf hr)
  · obtain ⟨t, ht, ha, hrep⟩ := rlcnormForms (d := d) hs hl hf hr hact
    have hpost : s.reports a clr serial = State.onRlc _ clr _ := State.rlcPost_det (s := s.reported) hd _
    refine ⟨t, ht, ha.mem.trans ?_, hrep, (congrArg Rlc.pend (ha.rlc clr)).trans ?_⟩
    · rw [hpost]; rfl
    · rw [hpost, State.rlc_onRlc, if_pos rfl]; rfl
  · obtain ⟨t, ht, ha, hrep⟩ := rlcnormForms (d := d) hs hl hf hr hact
    have hser : r.serial = serial := State.serial_of_rlcReportable hr hrun
    have hpost : s.reports a clr serial = State.rlcApply _ clr _ := State.rlcPost_now (s := s.reported) hd rfl
    obtain ⟨hrun', hmem⟩ := State.rlcApply_reports (s := s.reported) (w := s.g a) hrun hser hstop hk hmask hne hno
    refine ⟨t, _, ht, (ha.mem.trans (congrArg State.mem hpost)).trans hmem, hrep,
      ((congrArg Rlc.run (ha.rlc clr)).trans (by rw [hpost])).trans hrun', ?_⟩
    rw [AMap.find_set, if_pos rfl]
  · intro word
    have hword : s.rlcWord p = word := State.rlcWord_of_latest hlat p
    refine ⟨hword ▸ gives_of_setG hs rfl, fun hno => hword ▸ gives_of_setG hs (exec_rlcstop_of_over hlat hno),
      fun c rest hp hst hd hrun hq hc => ?_⟩
    obtain ⟨t, ht, ha⟩ := retiresWith_setG (d := d) hs (.of_eq (Offcore.rlcPost ..).me) (exec_rlcstop_of_live hlat hp (.inl hst))
    obtain ⟨hqueue, hlatest⟩ := State.rlcApply_stops hrun hq hc
    rw [← State.rlcPost_now hd rfl] at hqueue hlatest
    exact ⟨t, hword ▸ ht, (congrArg Rlc.queue (ha.rlc cl)).trans hqueue, (congrArg (fun r : Rlc => AMap.find r.latest s.cur.1) (ha.rlc cl)).trans hlatest⟩
  · have hword : s.rlcWord p = 0 := State.rlcWord_none hlat p
    exact ⟨hword ▸ gives_of_setG hs rfl, hword ▸ gives_of_setG hs (exec_rlcstop_of_none hlat)⟩

end Sys2Proof.Machine
end

section
/-!
SUPPORT. The streamer's instructions at the core (R317, R321, R322, R325), and O31 from them.
-/

namespace Sys2Proof.Machine

/-! ### The board of the running core (R321) -/

section
variable {s : State} {f : CoreSt → CoreSt}

@[simp] theorem State.myCore_onMyCore (s : State) (f : CoreSt → CoreSt) : (s.onMyCore f).myCore = f s.myCore := State.core_onCore_self ..

/-- A change of the running core but for its contexts. -/
theorem State.me_onMyCore (hf : ∀ k, (f k).ctxs = k.ctxs) : (s.onMyCore f).me = s.me :=
  congrArg (fun v => Vector.get v (c4 s.cur.2.val)) ((congrArg CoreSt.ctxs (State.myCore_onMyCore s f)).trans (hf _))

end

@[simp] theorem State.me_freeEntry (s : State) (e : BoardE) : (s.freeEntry e).me = s.me := State.me_onMyCore fun _ => rfl

@[simp] theorem State.me_setEntry (s : State) (e : BoardE) : (s.setEntry e).me = s.me := State.me_onMyCore fun _ => rfl

theorem State.board_freeEntry (s : State) (e : BoardE) :
    (s.freeEntry e).myCore.board = s.myCore.board.filter (fun x => !(x.tag == e.tag && x.xferid == e.xferid)) := by
  rw [State.freeEntry, State.myCore_onMyCore]

theorem Advanced.cur {u t : State} (h : Advanced u t) : t.cur = u.cur := by rw [h.rest]

theorem Advanced.eps {u t : State} (h : Advanced u t) : t.eps = u.eps := by rw [h.rest]

/-- What of the running core no context holds is as before. -/
theorem Advanced.mySide {u t : State} (h : Advanced u t) : t.myCore.side = u.myCore.side := by
  rw [State.myCore, h.cur]
  exact h.side _

theorem Advanced.board {u t : State} (h : Advanced u t) : t.myCore.board = u.myCore.board := (congrArg CoreSt.board h.mySide : _)

/-! ### CPTEST and CPWAIT (R325) -/

section
variable {s : State} {d a : GReg} {e : BoardE}

section
variable (h0 : s.g a ≠ 0) (hlt : (s.g a).toNat < 65536) (he : s.myCore.entry s.me.tag (s.g a).toNat = some e)
include h0 hlt he

theorem State.xferEntry_found : s.xferEntry (s.g a) = .ok e s := by
  have hid : (bitsNat (s.g a) 16 48 != 0 || s.g a == 0) = false := by
    rw [Bool.or_eq_false_iff]
    exact ⟨by simp [bitsNat, Nat.shiftRight_eq_div_pow, Nat.div_eq_of_lt hlt], beq_eq_false_iff_ne.2 h0⟩
  rw [State.xferEntry, hid, if_neg (by decide), he]

theorem exec_cptest : exec (.cptest d a) s =
    retired ((if e.st.final && (!e.doneip || e.waiters.isEmpty) then s.freeEntry e else s).setG d e.word) := by
  change execCptest d a s = _
  rw [execCptest, State.xferEntry_found h0 hlt he]
  rfl

theorem exec_cpwait_parks (hf : e.st.final = false) : exec (.cpwait d a) s = .next ((s.setEntry { e with
    waiters := e.waiters.filter (· != (s.cur.2.val, s.me.msgId)) ++ [(s.cur.2.val, s.me.msgId)] }).takeStop (.park (.xfer (s.g a)))) := by
  change execCpwait d a s = _
  rw [execCpwait, State.xferEntry_found h0 hlt he]
  simp only [Res.bind, hf]
  rfl

theorem exec_cpwait_frees (hf : e.st.final = true) (hw : e.waiters = [] ∨ e.waiters = [(s.cur.2.val, s.me.msgId)]) :
    exec (.cpwait d a) s = retired ((s.freeEntry e).setG d e.word) := by
  have hothers : (e.waiters.filter (· != (s.cur.2.val, s.me.msgId))).isEmpty = true := by
    rcases hw with h | h <;> simp [h]
  change execCpwait d a s = _
  rw [execCpwait, State.xferEntry_found h0 hlt he]
  simp only [Res.bind, hf, hothers]
  rfl

end

theorem State.xferEntry_bad (h : s.g a = 0 ∨ 65536 ≤ (s.g a).toNat ∨ s.myCore.entry s.me.tag (s.g a).toNat = none) :
    s.xferEntry (s.g a) = trapAt .xferIdBad (s.g a) s := by
  unfold State.xferEntry
  by_cases hid : (bitsNat (s.g a) 16 48 != 0 || s.g a == 0) = true
  · rw [if_pos hid]
  · rw [if_neg hid]
    simp only [bitsNat, Nat.shiftRight_eq_div_pow, Bool.or_eq_true, bne_iff_ne, beq_iff_eq, not_or, not_not] at hid
    obtain ⟨hhi, h0⟩ := hid
    have hlt := (s.g a).isLt
    have hnone : s.myCore.entry s.me.tag (s.g a).toNat = none := h.elim (absurd · h0) (·.resolve_left (by omega))
    rw [hnone]

end

theorem copyTests : Says.CopyTests := by
  intro s d a e id free word
  have hword : e.word = word := rfl
  refine ⟨fun h0 hlt he => ⟨fun hs hf => ?_, fun hs hf hd hw => ?_, fun hs hf hd => ?_, fun hs hf hw => ?_, fun hf => ?_⟩, fun hbad i hi => ?_⟩
  · exact hword ▸ gives_of_setG hs (by rw [exec_cptest h0 hlt he, hf]; rfl)
  · exact hword ▸ gives_of_setG hs (by rw [exec_cptest h0 hlt he, hd, if_neg (by simp [hw])])
  · have hfree : (e.st.final && (!e.doneip || e.waiters.isEmpty)) = true := by
      rcases hd with h | h <;> simp [hf, h]
    have hx : exec (.cptest d a) s = retired ((s.freeEntry e).setG d e.word) := by rw [exec_cptest h0 hlt he, if_pos hfree]
    obtain ⟨t, ht, ha⟩ := retiresWith_setG hs (.of_eq (State.me_freeEntry s e)) hx
    exact ⟨t, hword ▸ ht, ha.mem, ha.board.trans (State.board_freeEntry s e)⟩
  · obtain ⟨t, ht, ha⟩ := retiresWith_setG hs (.of_eq (State.me_freeEntry s e)) (exec_cpwait_frees (d := d) h0 hlt he hf hw)
    exact ⟨t, hword ▸ ht, ha.mem, ha.board.trans (State.board_freeEntry s e)⟩
  · refine ⟨_, exec_cpwait_parks h0 hlt he hf, ?_⟩
    rw [State.me_takeStop_park, State.me_setEntry]
    exact ⟨rfl, rfl, rfl, rfl, rfl⟩
  · have hx : exec i s = .next (s.takeStop (.trap (mkTrap .xferIdBad id))) := by
      rcases hi with rfl | rfl
      · change execCptest d a s = _
        rw [execCptest, State.xferEntry_bad hbad]
        rfl
      · change execCpwait d a s = _
        rw [execCpwait, State.xferEntry_bad hbad]
        rfl
    obtain ⟨hst, hcause, htval, -, -, -, hg, -⟩ := State.takeStop_abort_regs (s := s) (t := mkTrap .xferIdBad id) rfl
    exact ⟨_, hx, hst, hcause, htval, hg⟩

/-! ### CPREQ (R322) -/

/-- The state once a record has been read, with the counts of R50 as they were: every core and unit reads as before. -/
def State.countKept (s : State) : State := s.onMe (fun x => { x with remote := s.me.remote })

section
variable (s : State)

theorem State.me_countKept : s.countKept.me = s.me := by
  rw [State.countKept, State.me_onMe]

theorem CoreSt.setCtx_ctx (k : CoreSt) (c : Nat) : k.setCtx c (k.ctx c) = k := by
  simp [CoreSt.setCtx, CoreSt.ctx, Vector.get_eq_getElem]

theorem State.myCore_countKept : s.countKept.myCore = s.myCore :=
  (State.core_onCore_self ..).trans (CoreSt.setCtx_ctx ..)

@[simp] theorem State.cur_countKept : s.countKept.cur = s.cur := rfl

theorem State.timeAt_countKept : s.countKept.timeAt s.cur.1 = s.timeAt s.cur.1 := by
  have hcore : s.countKept.core s.cur.1 = s.core s.cur.1 := s.myCore_countKept
  unfold State.timeAt
  rw [hcore]
  rfl

theorem State.viewOf_countKept (p : Word) : s.countKept.viewOf p = s.viewOf p := congrArg (fun x : Ctx => x.getView (field p 60 4).toFin) s.me_countKept

end

section
variable {s : State} {p : Word} {r : List Word}

theorem State.checkLayout_countKept {sv dv : Word} (h : s.checkLayout p r sv dv = .ok () s) :
    s.countKept.checkLayout p r sv dv = .ok () s.countKept := by
  have hspan : ∀ q sp b, s.countKept.spanCheck q sp b = s.spanCheck q sp b := fun q sp b => by
    unfold State.spanCheck State.spaceRange
    rw [s.me_countKept]
  have htask : s.countKept.myTask = s.myTask := by rw [State.myTask, s.myCore_countKept, s.me_countKept]; rfl
  unfold State.checkLayout at h ⊢
  rw [htask, s.myCore_countKept, s.me_countKept, hspan, hspan]
  split at h
  · cases h
  next hlay =>
    split at h
    · cases h
    next hsrc =>
      split at h
      · cases h
      next hdst => rw [if_neg hlay]

/-- A TLB entry that passes its check gives a copy's address and changes nothing. -/
theorem State.viaTlb_copy_iff {s u : State} {q : Word} {va lvl : Nat} {t : TlbE} {x : Xl} : s.viaTlb q va t lvl .copy = .ok x u ↔
    s.checkAttr (s.pOf s.cur.1) lvl t.pte .copy = none ∧ ⟨pteAddr t.pte + (va - t.base), t.pte, va - t.base, t.winOk, t.winSize⟩ = x ∧ s = u := by
  unfold State.viaTlb
  cases s.checkAttr (s.pOf s.cur.1) lvl t.pte .copy with
  | some c => simp
  | none => simp [Acc.writes]

theorem State.me_countWalk (s : State) (p va : Nat) : (s.countWalk p va).me = s.me := by
  unfold State.countWalk
  dsimp only
  split
  · rfl
  · exact (Offcore.foldl (fun _ _ => .ite (.count ..) (.refl _)) _ _).me

/-- A translation that leaves the state as it is came from the context's TLB. -/
theorem State.translate_countKept {q : Word} {va : Nat} {x : Xl} (h : s.translate q va .copy = .ok x s) :
    s.countKept.translate q va .copy = .ok x s.countKept := by
  unfold State.translate at h ⊢
  rw [s.me_countKept]
  cases hit : s.me.tlbHit va with
  | some t =>
    rw [hit] at h
    obtain ⟨hattr, hx, -⟩ := State.viaTlb_copy_iff.1 h
    exact State.viaTlb_copy_iff.2 ⟨hattr, hx, rfl⟩
  | none =>
    rw [hit] at h
    dsimp only at h
    split at h
    · cases h
    · cases h
    · split at h
      · cases h
      · obtain ⟨-, -, hstate⟩ := State.viaTlb_copy_iff.1 h
        have hlen := congrArg (fun u : State => u.me.tlb.length) hstate
        rw [State.me_onMe] at hlen
        have hme : ∀ u : State, ∀ slot, (u.onMem (fun m => m.orWord slot 32)).me = u.me := fun _ _ => rfl
        rw [hme, State.me_countWalk] at hlen
        simp at hlen

theorem State.strChoose_countKept {src dst : Word} {str : Nat} (h : s.strChoose src dst = .ok str s) :
    s.countKept.strChoose src dst = .ok str s.countKept := by
  unfold State.strChoose at h ⊢
  dsimp only at h ⊢
  split at h
  next hl =>
    rw [if_pos hl]
    exact congrArg (fun n => Res.ok n s.countKept) (Res.ok.inj h).1
  next hl =>
    rw [if_neg hl]
    cases htr : s.translate src (vaOf src) .copy with
    | stop k u => rw [htr] at h; cases h
    | ok x u =>
      rw [htr] at h
      obtain ⟨hstr, rfl⟩ := Res.ok.inj h
      rw [State.translate_countKept htr]
      exact congrArg (fun n => Res.ok n _) hstr

end

section
variable {s : State} {a : GReg} {r : List Word} {str : Nat}

theorem exec_cpreq (hroom : s.myCore.board.length < 64) (hal : (s.g a).toNat % 8 = 0) (hread : s.readWords (s.g a) [] 14 = .ok r s)
    (hlay : s.checkLayout (s.g a) r (s.viewOf (r.getD 0 0)) (s.viewOf (r.getD 1 0)) = .ok () s)
    (hstr : s.strChoose (r.getD 0 0) (r.getD 1 0) = .ok str s) (hl : s.lanesMine = false) (hf : s.me.failed = [])
    (hb : (s.ep s.cur.1).backlog = []) (hsend : (s.ep s.cur.1).canSend (4096 + strEng str) = true) : exec (.cpreq a) s =
    retired (s.countKept.copySend str r (s.viewOf (r.getD 0 0)) (s.viewOf (r.getD 1 0))) := by
  have hlanes : s.countKept.lanesMine = false := by rw [State.lanesMine, s.myCore_countKept]; exact hl
  have hkept : keepRemote s.me.remote (s.readWords (s.g a) [] 14) = .ok r s.countKept := by rw [hread]; rfl
  have hleave : ((s.countKept.ep s.countKept.cur.1).backlog.isEmpty && (s.countKept.ep s.countKept.cur.1).canSend (4096 + strEng str)) = true := by
    change ((s.ep s.cur.1).backlog.isEmpty && (s.ep s.cur.1).canSend (4096 + strEng str)) = true
    rw [hb, hsend]
    rfl
  change execCpreq a s = _
  unfold execCpreq
  dsimp only
  rw [if_neg (by simp [hal]), if_neg (by omega), hkept]
  dsimp only [Res.bind]
  rw [s.viewOf_countKept, s.viewOf_countKept, State.checkLayout_countKept hlay]
  dsimp only
  rw [State.strChoose_countKept hstr]
  dsimp only
  rw [State.release_ok hlanes (by rw [s.me_countKept]; exact hf)]
  dsimp only
  rw [if_pos hleave]
  rfl

/-- The request enters the board and leaves by the core's interface (R322). -/
theorem State.copySend_sends (s : State) {sv dv : Word} (hb : (s.ep s.cur.1).backlog = []) (hsend : (s.ep s.cur.1).canSend (4096 + strEng str) = true) :
    let u := s.copySend str r sv dv
    u.me = s.me ∧ u.mem = s.mem ∧
      u.myCore.board = s.myCore.board ++ [⟨s.me.tag, recId r, r.getD 11 0 != 0, .issued, 0, s.me.msgId, [], s.timeAt s.cur.1⟩] ∧
      ∃ o, (u.ep s.cur.1).out = (s.ep s.cur.1).out ++ [o] ∧ o.dest = 4096 + strEng str ∧
        o.body = .copy s.cur.1 s.cur.2.val s.me.tag s.me.activation.m.msg.env.gen r sv dv := by
  intro u
  let e : BoardE := ⟨s.me.tag, recId r, r.getD 11 0 != 0, .issued, 0, s.me.msgId, [], s.timeAt s.cur.1⟩
  let w := s.onMyCore (fun k => { k with board := k.board ++ [e] })
  have hsent : Offcore w u := .sendReq ..
  have hboard : u.myCore.board = s.myCore.board ++ [e] :=
    (congrArg CoreSt.board ((hsent.core _).trans (State.myCore_onMyCore s _)) : _)
  refine ⟨hsent.me.trans (State.me_onMyCore fun _ => rfl), rfl, hboard, ?_⟩
  have hep : u.ep s.cur.1 = (s.ep s.cur.1).send s.cur.1 s.time (4096 + strEng str) 2
      (.copy s.cur.1 s.cur.2.val s.me.tag s.me.activation.m.msg.env.gen r sv dv) (s.me.sender s.cur.2.val) .reply :=
    (State.ep_onEp_self ..).trans (if_pos (by change (((s.ep s.cur.1).backlog.isEmpty && (s.ep s.cur.1).canSend (4096 + strEng str)) = true); rw [hb, hsend]; rfl))
  rw [hep]
  exact ⟨_, rfl, rfl, rfl⟩

end

theorem copyRequest : Says.CopyRequest := by
  intro s a r str hs hroom hal hread hlay hstr hl hf hb hsend
  obtain ⟨hme, hmem, hboard, o, hout, hdest, hbody⟩ := s.countKept.copySend_sends (r := r) (sv := s.viewOf (r.getD 0 0)) (dv := s.viewOf (r.getD 1 0)) hb hsend
  obtain ⟨t, ht, ha⟩ := retiresWith_retired hs (.of_eq (hme.trans s.me_countKept)) (exec_cpreq hroom hal hread hlay hstr hl hf hb hsend)
  rw [s.me_countKept] at hbody hboard
  rw [s.myCore_countKept, State.cur_countKept, s.timeAt_countKept] at hboard
  refine ⟨t, o, ht, ha.mem.trans hmem, ha.board.trans hboard, ?_, hdest, hbody⟩
  exact (congrArg (fun l => (AMap.get Endp.reset l s.cur.1).out) ha.eps).trans hout

/-- Settles O31: a board entry is freed or kept by one filter, and a request is a board entry with one send. -/
theorem copyForms : Obligations.CopyForms := ⟨copyRequest, copyTests⟩

end Sys2Proof.Machine
end

section
/-!
SUPPORT. A barrier's words read in the cluster's memory (R156, R312, R313), and a read that refutes O30.
-/

namespace Sys2Proof.Machine

/-- An instruction that completes leaves its core's lanes. -/
theorem CompletesMem.lanes {i : Instr} {s u : State} {r : Ctx} {m : Memory} (h : CompletesMem i s r m) (hu : exec i s = .next u) :
    (u.core s.cur.1).lanes = (s.core s.cur.1).lanes := by
  obtain ⟨t, hx, hr⟩ := h
  obtain rfl : t = u := by rw [hx] at hu; injection hu
  exact (congrArg CoreSt.lanes hr.core : _)

/-- A pending store of context 1 whose address is the key of the second word of cluster 0's memory. -/
def barrierStore : LaneE := ⟨1, 1, 0, 0, 0, .plain, localKey 0 0 2 8, 0, 8, 0, 0, false, false, [], false, 0, 0⟩

/-- Context 0 of core 0 with a pointer to a barrier at the start of its cluster's memory in g1, and that store in the core's lanes. -/
def barrierLaneState : State :=
  (State.reset.onCore 0 (fun k => { k with lanes := [barrierStore] })).onMe (fun x => x.putG 1 0x0FFF200000000000)

theorem decodeAddr_barrierLaneState : barrierLaneState.decodeAddr (barrierLaneState.g 1) 8 .load = .ok (.loc (localKey 0 0 2 0)) ∧
    barrierLaneState.decodeAddr (ptrOff (barrierLaneState.g 1) 8) 8 .load = .ok (.loc (localKey 0 0 2 8)) := ⟨rfl, rfl⟩

/-- MSTAT of that barrier, evaluated: it retires, and the lane's store names context 0 as one that has read it. -/
theorem exec_mstat_barrierLaneState : ∃ t, exec (.mstat 2 1) barrierLaneState = .next t ∧ (t.core 0).lanes = [{ barrierStore with seen := [0] }] :=
  ⟨_, rfl, by decide +kernel⟩

/-- Refutes O30: where a lane of the core holds another context's store at the key of the barrier's status word, MSTAT notes its reader in that store
(`State.see`, R156), so that not everything else of the core is as before. The statement ranges over all states, also those with a local key in a lane,
where the machine itself puts none. -/
theorem not_matrixForms : ¬ Obligations.MatrixForms := by
  rintro ⟨-, -, h⟩
  obtain ⟨hp, hq⟩ := decodeAddr_barrierLaneState
  obtain ⟨hstat, -⟩ := h barrierLaneState 1 1 2 (localKey 0 0 2 0) (localKey 0 0 2 8) (by decide +kernel) (by decide +kernel) (by decide +kernel)
    (by decide +kernel) (by decide +kernel) hp (by decide +kernel) hq (by decide +kernel) (by decide +kernel) (by decide +kernel) (by decide +kernel)
  obtain ⟨m, hm, -⟩ := hstat (by decide +kernel)
  obtain ⟨u, hu, hl⟩ := exec_mstat_barrierLaneState
  exact absurd (hl.symm.trans (hm.lanes hu)) (by decide +kernel)

end Sys2Proof.Machine
end

section
/-!
SUPPORT. A vector load of local memory over a lane's store (R156, R285, R286), which refutes O28.
-/

namespace Sys2Proof.Machine

/-- The sixteen words of the scratchpad from its start: each element of the load decodes to its own, clean and not hidden. -/
theorem scratchLaneState_elements : ∀ j < 16, scratchLaneState.decodeAddr (ptrOff (scratchLaneState.g 1) (BitVec.ofNat 64 (j * 64 / 8))) 8 .load =
      .ok (.loc (localKey 0 0 1 (8 * j))) ∧ scratchLaneState.mem.poisoned (localKey 0 0 1 (8 * j)) 8 = false ∧
    scratchLaneState.hidden scratchLaneState.cur.1 (localKey 0 0 1 (8 * j)) 8 = false := by
  intro j hj
  interval_cases j <;> exact ⟨rfl, by decide +kernel, by decide +kernel⟩

/-- The load of those words, evaluated: it retires, and the lane's store names context 0 as one that has read it. -/
theorem exec_vld_scratchLaneState : ∃ t, exec (.vld 0 0 1 .s64 .rne false) scratchLaneState = .next t ∧
    (t.core 0).lanes = [{ scratchStore with seen := [0] }] :=
  ⟨_, rfl, by decide +kernel⟩

/-- Refutes O28: where a lane of the core holds another context's store at the key of an element, a vector load notes its reader in that store
(`State.see`, R156), so that not everything else of the core is as before. The statement ranges over all states, also those with a local key in a lane,
where the machine itself puts none. -/
theorem not_vectorMemory : ¬ Obligations.VectorMemory := by
  rintro ⟨h, -⟩
  obtain ⟨m, ⟨v, hm, -⟩, -⟩ := h scratchLaneState 0 0 0 1 0 .s64 .rne (.vld 0 0 1 .s64 .rne false) (fun j => BitVec.ofNat 64 (j * 64 / 8))
    (fun j => localKey 0 0 1 (8 * j)) (by decide +kernel) (by decide +kernel) (by decide) (by decide +kernel) (by decide +kernel) (.inl ⟨rfl, rfl⟩)
    (fun j hj _ => scratchLaneState_elements j hj)
  obtain ⟨u, hu, hl⟩ := exec_vld_scratchLaneState
  exact absurd (hl.symm.trans (hm.lanes hu)) (by decide +kernel)

end Sys2Proof.Machine
end

section
/-!
SUPPORT. The boards of the front units and the fronts (R332, R333, R340, R347, R348): what a write of a block reads as, what leaves the boards, and O51
from them.
-/

namespace Sys2Proof.Machine

theorem State.fu_onFu (s : State) (n m : Nat) (f : FrontUnit → FrontUnit) : (s.onFu n f).fu m = if m = n then f (s.fu n) else s.fu m := by
  simp [State.fu, State.onFu, AMap.get_set]

/-! ### What leaves the boards -/

theorem Recorded.fronts {s t : State} (h : Recorded s t) : t.fronts = s.fronts := by rw [h.rest]

@[simp] theorem State.engineMsg_fus (s : State) (eng core ctx dest : Nat) (m : Msg) (born : Nat) : (s.engineMsg eng core ctx dest m born).fus = s.fus := by
  obtain ⟨es, ps, h⟩ := s.engineMsg_rest eng core ctx dest m born
  rw [h]

/-- No block of a board has changed. -/
structure BoardsKept (s t : State) : Prop where
  board  : ∀ n, (t.fu n).board = (s.fu n).board
  layout : SameLayout s t

namespace BoardsKept
variable {s t u : State}

theorem refl (s : State) : BoardsKept s s := ⟨fun _ => rfl, .refl s⟩

theorem trans (h : BoardsKept s t) (g : BoardsKept t u) : BoardsKept s u := ⟨fun n => (g.board n).trans (h.board n), h.layout.trans g.layout⟩

theorem of_fus (hf : t.fus = s.fus) (hl : SameLayout s t) : BoardsKept s t := ⟨fun n => by rw [State.fu, hf]; rfl, hl⟩

theorem of_recorded (h : Recorded s t) : BoardsKept s t := .of_fus h.fus (.of_recorded h)

theorem of_advanced (h : Advanced s t) : BoardsKept s t := .of_fus (by rw [h.rest]) h.layout

theorem onFu (s : State) (n : Nat) {f : FrontUnit → FrontUnit} (hf : ∀ x, (f x).board = x.board) : BoardsKept s (s.onFu n f) where
  board m := by
    rw [State.fu_onFu]
    split
    next h => rw [hf, h]
    next => rfl
  layout := .of_parts rfl

theorem engineMsg (s : State) (eng core ctx dest : Nat) (m : Msg) (born : Nat) : BoardsKept s (s.engineMsg eng core ctx dest m born) :=
  .of_fus (State.engineMsg_fus ..) (Offcore.engineMsg ..).layout

theorem foldl {α : Type} {f : State → α → State} (hf : ∀ s a, BoardsKept s (f s a)) (l : List α) (s : State) : BoardsKept s (l.foldl f s) :=
  List.foldlRecOn (motive := BoardsKept s) l f (refl s) fun t ht a _ => ht.trans (hf t a)

/-- The notices of a commit leave the boards (R347). -/
theorem sendNotices (s : State) (p id : Nat) (b : Blk) : BoardsKept s (s.sendNotices p id b) := by
  refine foldl (fun u n => ?_) _ _
  split
  · exact refl u
  · dsimp only
    split
    · exact refl u
    · split
      · exact .onFu u _ fun _ => rfl
      · exact .of_fus rfl (.of_parts rfl)

theorem fuOf (h : BoardsKept s t) (p id : Nat) : t.fuOf p id = s.fuOf p id := by
  rw [State.fuOf, h.layout.det]
  rfl

theorem blk (h : BoardsKept s t) (p id : Nat) : t.blk p id = s.blk p id := by
  simp only [State.blk, h.fuOf, h.layout.dies, h.board]

theorem blks (h : BoardsKept s t) (p : Nat) : t.blks p = s.blks p := by
  simp only [State.blks, h.layout.dies, h.layout.det, h.board]

theorem frontBlks (h : BoardsKept s t) (p tag num : Nat) : t.frontBlks p tag num = s.frontBlks p tag num := by
  simp only [State.frontBlks, h.blks]

end BoardsKept

/-! ### A block read and written (R332) -/

section
variable {s : State} {p id : Nat} {b : Blk}

/-- An id names a place on a board of its partition. -/
def State.onBoard (s : State) (p id : Nat) : Prop := p ≤ s.fuOf p id ∧ s.fuOf p id < p + (s.part p).dies

theorem State.blk_of_onBoard (h : s.onBoard p id) : s.blk p id = AMap.find (s.fu (s.fuOf p id)).board (id % 4096) := by
  obtain ⟨h1, h2⟩ := h
  simp [State.blk, h1, h2]

theorem State.onBoard_of_blk (h : s.blk p id = some b) : s.onBoard p id := by
  unfold State.blk at h
  dsimp only at h
  split at h
  next hc => simpa [State.onBoard] using hc
  next => cases h

/-- Two ids name one place only where they are equal. -/
theorem State.place_inj {m : Nat} (hd : s.fuOf p m = s.fuOf p id) (hm : m % 4096 = id % 4096) : m = id := by
  unfold State.fuOf at hd
  split at hd <;> omega

theorem State.blk_setBlk_self (h : s.onBoard p id) : (s.setBlk p id b).blk p id = some b := by
  have hon : (s.setBlk p id b).onBoard p id := h
  have hfu : (s.setBlk p id b).fu (s.fuOf p id) = { s.fu (s.fuOf p id) with board := AMap.set (s.fu (s.fuOf p id)).board (id % 4096) b } := by
    rw [State.setBlk, State.fu_onFu, if_pos rfl]
  refine (State.blk_of_onBoard hon).trans ((congrArg (fun u : FrontUnit => AMap.find u.board (id % 4096)) hfu).trans ?_)
  dsimp only
  rw [AMap.find_set, if_pos rfl]

theorem State.blk_setBlk_ne {m : Nat} (h : m ≠ id) : (s.setBlk p id b).blk p m = s.blk p m := by
  have hfu : AMap.find ((s.setBlk p id b).fu (s.fuOf p m)).board (m % 4096) = AMap.find (s.fu (s.fuOf p m)).board (m % 4096) := by
    rw [State.setBlk, State.fu_onFu]
    split
    next hd => rw [AMap.find_set, if_neg fun hm => h (State.place_inj hd hm), hd]
    next => rfl
  exact congrArg (fun o => if (p ≤ s.fuOf p m && s.fuOf p m < p + (s.part p).dies) = true then o else none) hfu

end

/-! ### Dispatch, notices and commits (R333, R340, R347) -/

theorem State.blk_dispatch {s : State} {p id : Nat} (h : s.onBoard p id) (b : Blk) :
    (s.dispatch p id b).blk p id = some { b with st := .dispatched, count := b.count + 1 } ∧
      ((s.dispatch p id b).fu (s.fuOf p id)).scan = (id + 1) % 4096 := by
  let s1 := s.setBlk p id { b with st := .dispatched, count := b.count + 1 }
  let s2 := s1.onFu (s.fuOf p id) (fun u => { u with scan := (id + 1) % 4096 })
  let s3 := s2.engineMsg (0x20 + s.fuOf p id) b.core 0 b.core (s.dispatchMsg p id b) (s.engTime p)
  have hrec : Recorded s3 ((s3.event p (s.engTime p) 2 0 (s.fuOf p id) (id * 2 ^ 32 + b.level.toNat)).count (s.fuOf p id) 0x13 1) :=
    (Recorded.event ..).trans (.count ..)
  have hkept : BoardsKept s1 (s.dispatch p id b) :=
    (((BoardsKept.onFu s1 (s.fuOf p id) (f := fun u => { u with scan := (id + 1) % 4096 }) fun _ => rfl).trans
      (BoardsKept.engineMsg s2 ..)).trans (.of_recorded hrec)).trans (.of_fus rfl (.of_parts rfl))
  have hfus : (s.dispatch p id b).fus = s2.fus := hrec.fus.trans (State.engineMsg_fus ..)
  refine ⟨(hkept.blk p id).trans (State.blk_setBlk_self h), ?_⟩
  rw [State.fu, hfus, ← State.fu, State.fu_onFu, if_pos rfl]

theorem State.notices_setBlk (s : State) (p id n : Nat) (b : Blk) : ((s.setBlk p id b).fu n).notices = (s.fu n).notices := by
  rw [State.setBlk, State.fu_onFu]
  split
  next h => rw [h]
  next => rfl

section
variable {s : State} {p : Nat} {n : Notice} {b : Blk} (hb : s.blk p n.dst = some b)
include hb

/-- A notice of a binding that has gone is dropped (R333). -/
theorem State.applyNotice_stale (h : ∀ f, s.blk p n.frm = some f → f.bind ≠ n.bind) : s.applyNotice p n = s := by
  have hall : (s.blk p n.frm).all (fun f => f.bind != n.bind) = true := by
    cases hf : s.blk p n.frm with
    | none => rfl
    | some f => simpa using h f hf
  unfold State.applyNotice
  rw [hb]
  exact if_pos hall

/-- A notice of a standing binding moves the copies that are not younger (R333). -/
theorem State.applyNotice_applies {f : Blk} (hf : s.blk p n.frm = some f) (h : f.bind = n.bind) : s.applyNotice p n =
    s.setBlk p n.dst { b with nbrs := b.nbrs.map (fun x => if x.id = n.frm ∧ (n.level - x.copy).toNat < 2 ^ 31 then { x with copy := n.level } else x) } := by
  have hall : ¬ (s.blk p n.frm).all (fun f => f.bind != n.bind) = true := by simp [hf, h]
  unfold State.applyNotice
  rw [hb]
  dsimp only
  rw [if_neg hall]
  simp [serialGE]

end

/-- A commit that waits is performed as LVCOMMIT performs it (R355). -/
theorem exec_levelPublish {s : State} {core ctx : Nat} {x y : GReg} {s1 : State} (hst : (s.ctx core ctx).st = .running) (hh : (s.ctx core ctx).hold = false)
    (hstall : (s.ctx core ctx).stall = Stall.fence.code) (hr : s.rests core = false)
    (hd : decode (s.ctx core ctx).latch.head (s.ctx core ctx).latch.tail = .ok (.lvcommit x y))
    (hc : (s.at core ctx).lvcommitDo ((s.at core ctx).g x) ((s.at core ctx).g y) = .ok () s1) : exec (.levelPublish core ctx) s = .next s1.retire := by
  have hgo : ((s.ctx core ctx).ready && (s.ctx core ctx).stall == Stall.fence.code && !s.rests core) = true := by
    simp [Ctx.ready, hst, hh, hstall, hr]
  change execLevelPublish core ctx s = _
  unfold execLevelPublish
  dsimp only
  rw [State.me_at, if_pos hgo, hd]
  dsimp only
  rw [hc]

/-- Settles O51: a dispatch and a notice are each one write of a block, and a commit that waited is the instruction's. -/
theorem frontEvents : Obligations.FrontEvents := by
  intro s die p b hp
  refine ⟨fun id hdet hpre hfr hdone hscan hfu hlo hhi => ?_, fun n rest hdet hn hb => ?_, fun core ctx x y s1 hst hh hstall hr hd hc => ?_⟩
  · have hx : exec (.blockDispatch die) s = .next (s.dispatch p id b) := by
      change execBlockDispatch die s = _
      unfold execBlockDispatch
      simp [hp, hdet, hpre, hfr, hdone, hscan]
    obtain ⟨hblk, hs⟩ := State.blk_dispatch (s := s) (p := p) (id := id) ⟨hfu ▸ hlo, hfu ▸ hhi⟩ b
    exact ⟨_, hx, hblk, hfu ▸ hs⟩
  · let u := s.onFu die (fun u => { u with notices := rest })
    have hx : exec (.levelNotice die) s = .next (u.applyNotice p n) := by
      change execLevelNotice die s = _
      unfold execLevelNotice
      simp [hp, hdet, hn, u]
    have hkept : BoardsKept s u := .onFu s die fun _ => rfl
    have hbu : u.blk p n.dst = some b := (hkept.blk p n.dst).trans hb
    have hnu : (u.fu die).notices = rest := by rw [State.fu_onFu, if_pos rfl]
    by_cases hf : ∃ f, u.blk p n.frm = some f ∧ f.bind = n.bind
    · obtain ⟨f, hf, hbind⟩ := hf
      have happ := State.applyNotice_applies hbu hf hbind
      refine ⟨_, hx, ?_, ?_, ?_, fun _ _ _ => ?_, fun hstale => absurd hbind (hstale f ((hkept.blk ..).symm.trans hf))⟩
      · rw [happ, State.notices_setBlk, hnu]
      · rw [happ]; rfl
      · rw [happ]; rfl
      · rw [happ, State.blk_setBlk_self (State.onBoard_of_blk hbu)]
    · have happ := State.applyNotice_stale hbu fun f hf' hbind => hf ⟨f, hf', hbind⟩
      rw [happ] at hx
      exact ⟨u, hx, hnu, rfl, rfl, fun f hf' hbind => absurd ⟨f, (hkept.blk ..).trans hf', hbind⟩ hf, fun _ => hbu⟩
  · have hx := exec_levelPublish hst hh hstall hr hd hc
    refine ⟨⟨_, hx, rfl⟩, hx.trans ?_⟩
    change _ = execLvcommit x y (s.at core ctx)
    rw [execLvcommit, hc]
    rfl

end Sys2Proof.Machine
end

section
/-!
SUPPORT. The front unit's instructions at the core (R334, R348, R351-R355, R357), and O33 from them.
-/

namespace Sys2Proof.Machine

/-! ### Fronts (R348) -/

section
variable (s : State) (p tag num : Nat)

theorem BoardsKept.setFront (st : FrontSt) : BoardsKept s (s.setFront p tag num st) := .of_fus rfl (.of_parts rfl)

/-- FREEZING becomes FROZEN with no block dispatched (R348). -/
theorem State.checkFrozen_freezing (h : s.frontSt p tag num = .freezing) : (s.checkFrozen p tag num).fus = s.fus ∧
    (s.checkFrozen p tag num).frontSt p tag num = if ∃ e ∈ s.frontBlks p tag num, e.2.st = .dispatched then .freezing else .frozen := by
  unfold State.checkFrozen
  dsimp only
  by_cases hd : ∃ e ∈ s.frontBlks p tag num, e.2.st = .dispatched
  · rw [if_neg (by simpa [h] using hd), if_pos hd]
    exact ⟨rfl, h⟩
  · rw [if_pos (by simpa [h] using hd), if_neg hd]
    let u := s.setFront p tag num .frozen
    have hrec := (Recorded.recordE u p p .frontFrozen (BitVec.ofNat 64 (s.frontBlks p tag num).length) 0).trans
      (.event _ p (s.engTime p) 2 2 p num)
    exact ⟨hrec.fus, (hrec.frontSt ..).trans (State.frontSt_setFront ..)⟩

theorem State.checkFrozen_fus : (s.checkFrozen p tag num).fus = s.fus := by
  unfold State.checkFrozen
  dsimp only
  split
  · exact ((Recorded.recordE ..).trans (.event ..)).fus
  · rfl

theorem State.freezeFront_fus : (s.freezeFront p tag num).fus = s.fus := by
  unfold State.freezeFront
  refine (State.checkFrozen_fus ..).trans ?_
  split <;> rfl

/-- RUNNING becomes FREEZING, or FROZEN with no block dispatched (R348). -/
theorem State.frontSt_freezeFront_running (h : s.frontSt p tag num = .running) : (s.freezeFront p tag num).frontSt p tag num =
    if ∃ e ∈ s.frontBlks p tag num, e.2.st = .dispatched then .freezing else .frozen := by
  have hset := (State.checkFrozen_freezing (s.setFront p tag num .freezing) p tag num (State.frontSt_setFront ..)).2
  rw [(BoardsKept.setFront s p tag num .freezing).frontBlks] at hset
  unfold State.freezeFront
  rw [if_pos h]
  exact hset

theorem State.thawFront_of_ne (h : s.frontSt p tag num ≠ .frozen) : s.thawFront p tag num = s := if_neg h

end

/-! ### Reading a block and its front (R354) -/

section
variable {s : State} {d a : GReg} (hdet : s.detAt s.cur.1 = false)
include hdet

theorem State.blkSeen_now (x : Word) : s.blkSeen x = s.blkAt x := if_pos (by rw [State.detAt] at hdet; rw [hdet]; rfl)

theorem State.blksSeen_now : s.blksSeen = s.blks (s.pOf s.cur.1) := if_neg (by rw [State.detAt] at hdet; rw [hdet]; decide)

theorem State.frontSeen_now (tag num : Nat) : s.frontSeen tag num = s.frontSt (s.pOf s.cur.1) tag num :=
  if_pos (by rw [State.detAt] at hdet; rw [hdet]; rfl)

theorem exec_lvread_unbound (h : s.blkAt (s.g a) = none) : exec (.lvread d a) s = retired (s.setG d 0) := by
  change execLvread d a s = _
  rw [execLvread, State.blkSeen_now hdet, h]

theorem exec_lvstat_unbound (h : s.blkAt (s.g a) = none) : exec (.lvstat d a) s = retired (s.setG d 3) := by
  change execLvstat d a s = _
  rw [execLvstat, State.blkSeen_now hdet, h]

theorem exec_lvfreeze : exec (.lvfreeze d a) s = retired (s.lvfreezeDo d (s.g a)) := by
  change execLvfreeze d a s = _
  rw [execLvfreeze, frontChange, hdet]
  rfl

theorem exec_lvthaw : exec (.lvthaw d a) s = retired (s.lvthawDo d (s.g a)) := by
  change execLvthaw d a s = _
  rw [execLvthaw, frontChange, hdet]
  rfl

section
variable {b : Blk} (h : s.blkAt (s.g a) = some b)
include h

theorem exec_lvread (hf : s.myPart.fevs = []) : exec (.lvread d a) s =
    retired (s.setG d (BitVec.ofNat 64 (b.st.code * 2 ^ 60 + b.stage % 256 * 2 ^ 52 + b.steplog % 32 * 2 ^ 47 + b.level.toNat))) := by
  have hlevel : s.seenLevel (s.g a).toNat b = b.level := by rw [State.seenLevel, hf]; rfl
  change execLvread d a s = _
  rw [execLvread, State.blkSeen_now hdet, h]
  dsimp only
  rw [hlevel]

theorem exec_lvstat : let bs := s.frontBlks (s.pOf s.cur.1) b.tag b.front
    let n := fun st => (bs.filter (fun e => e.2.st == st)).length
    exec (.lvstat d a) s = retired (s.setG d (BitVec.ofNat 64 (b.front % 2 ^ 16 * 2 ^ 48 + n .faulted % 2 ^ 16 * 2 ^ 32 +
      n .dispatched % 2 ^ 16 * 2 ^ 16 + (if ∀ e ∈ bs, e.2.st = .done then 4 else 0) + (s.frontSt (s.pOf s.cur.1) b.tag b.front).code))) := by
  intro bs n
  have hdone : (if bs.all (fun e => e.2.st == .done) then 4 else 0) = if ∀ e ∈ bs, e.2.st = .done then 4 else 0 := by
    simp only [List.all_eq_true, beq_iff_eq]
  change execLvstat d a s = _
  rw [execLvstat, State.blkSeen_now hdet, h]
  dsimp only
  rw [State.frontSeen_now hdet, State.blksSeen_now hdet, ← hdone]
  rfl

omit hdet in
theorem lvfreezeDo_bound : s.lvfreezeDo d (s.g a) =
    (s.freezeFront (s.pOf s.cur.1) b.tag b.front).setG d (BitVec.ofNat 64 (s.frontSt (s.pOf s.cur.1) b.tag b.front).code) := by
  rw [State.lvfreezeDo, h]

omit hdet in
theorem lvthawDo_bound : s.lvthawDo d (s.g a) =
    (s.thawFront (s.pOf s.cur.1) b.tag b.front).setG d (BitVec.ofNat 64 (s.frontSt (s.pOf s.cur.1) b.tag b.front).code) := by
  rw [State.lvthawDo, h]

end

end

theorem Advanced.fus {u t : State} (h : Advanced u t) : t.fus = u.fus := by rw [h.rest]

theorem Advanced.fronts {u t : State} (h : Advanced u t) : t.fronts = u.fronts := by rw [h.rest]

theorem frontReads : Says.FrontReads := by
  intro s d a hs hf hdet p setD
  have hset : ∀ {i : Instr} {v : Word}, exec i s = retired (s.setG d v) → setD i v := fun hx => by
    obtain ⟨t, ht, ha⟩ := retiresWith_setG hs (.of_eq rfl) hx
    exact ⟨t, ht, ha.mem, ha.fus, ha.fronts⟩
  refine ⟨fun hb => ⟨gives_of_setG hs (exec_lvread_unbound hdet hb), gives_of_setG hs (exec_lvstat_unbound hdet hb), hset ?_, hset ?_⟩,
    fun b hb => ⟨gives_of_setG hs (exec_lvread hdet hb hf), gives_of_setG hs (exec_lvstat hdet hb), ?_, ?_⟩⟩
  · rw [exec_lvfreeze hdet, State.lvfreezeDo, hb]
  · rw [exec_lvthaw hdet, State.lvthawDo, hb]
  · obtain ⟨t, ht, ha⟩ := retiresWith_setG hs (.of_eq (Offcore.freezeFront s p b.tag b.front).me)
      ((exec_lvfreeze hdet).trans (congrArg _ (lvfreezeDo_bound hb)))
    exact ⟨t, ht, ha.fus.trans (State.freezeFront_fus ..), fun hst => (State.frontSt_congr ha.fronts ..).trans (State.frontSt_freezeFront_running s p _ _ hst)⟩
  · obtain ⟨t, ht, ha⟩ := retiresWith_setG hs (.of_eq (Offcore.thawFront s p b.tag b.front).me)
      ((exec_lvthaw hdet).trans (congrArg _ (lvthawDo_bound hb)))
    refine ⟨t, ht, fun hst => (State.frontSt_congr ha.fronts ..).trans (State.frontSt_thawFront hst), fun hst => ?_⟩
    rw [State.thawFront_of_ne s p _ _ hst] at ha
    exact ⟨ha.fus, ha.fronts⟩

/-! ### Changes of the boards alone (R351, R353) -/

/-- Nothing but the front units has changed. -/
structure FusOnly (s t : State) : Prop where
  rest : t = { s with fus := t.fus }

namespace FusOnly
variable {s t u : State}

theorem refl (s : State) : FusOnly s s := ⟨rfl⟩

theorem trans (h : FusOnly s t) (g : FusOnly t u) : FusOnly s u := ⟨by rw [g.rest, h.rest]⟩

theorem onFu (s : State) (n : Nat) (f : FrontUnit → FrontUnit) : FusOnly s (s.onFu n f) := ⟨rfl⟩

theorem foldl {α : Type} {f : State → α → State} (hf : ∀ s a, FusOnly s (f s a)) (l : List α) (s : State) : FusOnly s (l.foldl f s) :=
  List.foldlRecOn (motive := FusOnly s) l f (refl s) fun t ht a _ => ht.trans (hf t a)

theorem me (h : FusOnly s t) : t.me = s.me := by rw [h.rest]; rfl

theorem mem (h : FusOnly s t) : t.mem = s.mem := by rw [h.rest]

theorem hearBind (s : State) (p b : Nat) (lv : BitVec 32) (mid : Nat) : FusOnly s (s.hearBind p b lv mid) := by
  unfold State.hearBind
  split
  · exact refl s
  · exact onFu ..

theorem unbind (s : State) (p id : Nat) (b : Blk) : FusOnly s (s.unbind p id b) := by
  refine (onFu ..).trans (foldl (fun u e => ?_) _ _)
  split
  · exact onFu ..
  · exact refl u

end FusOnly

section
variable {s : State} {p id : Nat} {b : Blk}

theorem State.blk_delBlk_self (p id : Nat) (s : State) : (s.delBlk p id).blk p id = none := by
  by_cases hon : s.onBoard p id
  · have hfu : (s.delBlk p id).fu (s.fuOf p id) = { s.fu (s.fuOf p id) with board := AMap.del (s.fu (s.fuOf p id)).board (id % 4096) } := by
      rw [State.delBlk, State.fu_onFu, if_pos rfl]
    have hon' : (s.delBlk p id).onBoard p id := hon
    refine (State.blk_of_onBoard hon').trans ((congrArg (fun u : FrontUnit => AMap.find u.board (id % 4096)) hfu).trans ?_)
    exact AMap.find_del_self ..
  · cases hb : (s.delBlk p id).blk p id with
    | none => rfl
    | some b => exact absurd (State.onBoard_of_blk hb) hon

/-- A block that LVUNBIND frees is unbound (R353). -/
theorem State.blk_unbind_self (s : State) (p id : Nat) (b : Blk) : (s.unbind p id b).blk p id = none := by
  refine List.foldlRecOn (motive := fun u : State => u.blk p id = none) _ _ (State.blk_delBlk_self p id s) fun u hu e _ => ?_
  split
  next hc =>
    have hne : e.1 ≠ id := by
      simp only [Bool.and_eq_true, bne_iff_ne] at hc
      exact hc.1.1
    rw [State.blk_setBlk_ne hne.symm, hu]
  next => exact hu

end

/-! ### Binding (R351) -/

section
variable {s : State} {p n mid : Nat} {lv : BitVec 32}

theorem State.blk_hearBind_ne {m : Nat} (h : m ≠ mid) : (s.hearBind p n lv mid).blk p m = s.blk p m := by
  unfold State.hearBind
  split
  · rfl
  · exact State.blk_setBlk_ne h

/-- A binding that is heard of binds and frees nothing. -/
theorem State.isNone_blk_hearBind (m : Nat) : ((s.hearBind p n lv mid).blk p m).isNone = (s.blk p m).isNone := by
  by_cases h : m = mid
  · subst h
    unfold State.hearBind
    split
    next => rfl
    next b hb => rw [State.blk_setBlk_self (State.onBoard_of_blk hb), hb]; rfl
  · rw [State.blk_hearBind_ne h]

theorem State.bindSt_congr {t : State} {b c : Blk} (hn : c.nbrs = b.nbrs) (he : c.atEnd = b.atEnd)
    (h : ∀ x ∈ b.nbrs, (t.blk p x.id).isNone = (s.blk p x.id).isNone) : t.bindSt p c = s.bindSt p b := by
  have hnbr : t.nbrUnbound p c = s.nbrUnbound p b := by
    rw [State.nbrUnbound, State.nbrUnbound, hn]
    rw [Bool.eq_iff_iff, List.any_eq_true, List.any_eq_true]
    exact exists_congr fun x => and_congr_right fun hx => by rw [h x hx]
  rw [State.bindSt, State.bindSt, hnbr, he]

end

/-- What stands while the neighbours of a block bound in `s` hear of it: its entry, and which other ids are bound. -/
structure Binding (s : State) (p n : Nat) (y : Blk) (v : State) : Prop where
  entry : v.blk p n = some { y with st := s.bindSt p y }
  bound : ∀ m, m ≠ n → (v.blk p m).isNone = (s.blk p m).isNone

section
variable {s v : State} {p n : Nat} {y : Blk} (hself : ∀ x ∈ y.nbrs, x.id ≠ n)
include hself

theorem Binding.hearBind (h : Binding s p n y v) (mid : Nat) : Binding s p n y (v.hearBind p n y.level mid) where
  bound m hm := (State.isNone_blk_hearBind m).trans (h.bound m hm)
  entry := by
    by_cases hmid : n = mid
    · subst hmid
      have hnbrs : y.nbrs.map (fun x => if x.id == n then { x with copy := y.level } else x) = y.nbrs :=
        (List.map_congr_left (g := id) fun x hx => if_neg (by simpa using hself x hx)).trans (List.map_id _)
      have hst : v.bindSt p { y with st := s.bindSt p y } = s.bindSt p y :=
        State.bindSt_congr rfl rfl fun x hx => h.bound x.id (hself x hx)
      unfold State.hearBind
      rw [h.entry]
      dsimp only
      rw [hnbrs, hst, State.blk_setBlk_self (State.onBoard_of_blk h.entry)]
      split <;> rfl
    · rw [State.blk_hearBind_ne hmid, h.entry]

theorem Binding.foldl (h : Binding s p n y v) (l : List (Nat × Blk)) : Binding s p n y (l.foldl (fun v e => v.hearBind p n y.level e.1) v) :=
  List.foldlRecOn (motive := Binding s p n y) l _ h fun _ hv e _ => hv.hearBind hself e.1

end

theorem Binding.of_setBlk {s : State} {p n : Nat} {y : Blk} (hon : s.onBoard p n) : Binding s p n y ((s.setBlk p n { y with st := s.bindSt p y }).tick) :=
  ⟨State.blk_setBlk_self hon, fun _ hm => congrArg Option.isNone (State.blk_setBlk_ne (s := s) (b := { y with st := s.bindSt p y }) hm)⟩

/-- A record that passes its check names no block as its own neighbour (R352). -/
theorem State.nbrs_ne_of_checkRecord {s : State} {p n front : Nat} {r : List Word} (h : s.checkRecord r n = none) :
    ∀ x ∈ (s.blkOf p r n front).nbrs, x.id ≠ n := by
  intro x hx
  obtain ⟨i, hi, rfl⟩ := List.mem_map.1 hx
  unfold State.checkRecord at h
  dsimp only at h
  split at h
  · cases h
  next hform =>
    split at h
    · cases h
    next hids =>
      have hnn : recNN r ≤ 8 := by
        simp only [Bool.or_eq_true, decide_eq_true_eq, not_or, not_lt] at hform
        exact hform.1.1.1.2
      simp only [Bool.or_eq_true, not_or, List.any_eq_true, not_exists, not_and, decide_eq_true_eq, beq_iff_eq] at hids
      have hi' : i < recNN r := List.mem_range.1 hi
      have hid := hids.1 (recNbr r n i).1 (List.mem_map.2 ⟨i, List.mem_range.2 (by omega), rfl⟩)
      dsimp only
      omega

/-- The state of a block that is bound (R351). -/
theorem State.bindSt_eq (s : State) (p : Nat) (y : Blk) : s.bindSt p y =
    if ∃ m ∈ y.nbrs, s.blk p m.id = none then .pending else if y.endv = true ∧ y.level = y.endl then .done else .waiting := by
  simp [State.bindSt, State.nbrUnbound, Blk.atEnd]

section
variable {s : State} {d a b : GReg} (hdet : s.detAt s.cur.1 = false)
include hdet

/-- A change outside deterministic mode waits for its turn alone (R334). -/
theorem frontChange_bindTurn (r : List Word) (f : State → Res Unit) : frontChange r (fun s => s.bindTurn f) s =
    if s.inTurn (some (0x2000 + s.pOf s.cur.1)) s.cur.1 s.cur.2.val then f (s.noteTurn (some (0x2000 + s.pOf s.cur.1)) s.cur.1 s.cur.2.val)
    else .stop (.wait .fence) s := by
  rw [frontChange, hdet, if_neg (by decide), State.bindTurn, hdet, if_neg (by decide)]

end

/-- An instruction that writes one register after something outside cores, interfaces, homes and memory. -/
theorem gives_of_unmoved {i : Instr} {s u : State} {d : GReg} {v : Word} (hs : Steady s) (hu : Unmoved s u) (hm : u.mem = s.mem)
    (hx : exec i s = retired (u.setG d v)) : Gives i s d v := by
  refine ⟨_, hx, ?_⟩
  rw [retire_eq s _ (by simp [hu.me]) (by simp [hu.me]), ← hu.me, ← hm]
  exact hu.retired (retired_setG u _ d v (hu.steady hs))

/-! ### LVBIND (R351) -/

/-- The state once a block of no pair at fault is bound. -/
theorem State.lvbindDo_binds {s : State} {d : GReg} {bw : Word} {front : BitVec 16} {r : List Word} (hn : bw.toNat < 32768)
    (hcore : bw.toNat / 4096 = s.lnum s.cur.1 / 512) (hrec : s.checkRecord r bw.toNat = none) (hfree : s.blk (s.pOf s.cur.1) bw.toNat = none)
    (hpair : ∀ e ∈ s.blks (s.pOf s.cur.1), (s.blkOf (s.pOf s.cur.1) r bw.toNat front.toNat).names e.1 ∨ e.2.names bw.toNat →
      pairBad (s.blkOf (s.pOf s.cur.1) r bw.toNat front.toNat) bw.toNat e.2 e.1 = false) (hon : s.onBoard (s.pOf s.cur.1) bw.toNat) :
    let y := s.blkOf (s.pOf s.cur.1) r bw.toNat front.toNat
    ∃ t, s.lvbindDo d bw front r = .ok () (t.setG d (BitVec.ofNat 64 (y.nbrs.filter (fun m => (s.blk (s.pOf s.cur.1) m.id).isNone)).length)) ∧
      FusOnly s.tick t ∧ Binding s (s.pOf s.cur.1) bw.toNat y t := by
  intro y
  have hself : ∀ x ∈ y.nbrs, x.id ≠ bw.toNat := State.nbrs_ne_of_checkRecord hrec
  let near := (s.blks (s.pOf s.cur.1)).filter (fun e => y.names e.1 || e.2.names bw.toNat)
  have hnear : near.any (fun e => pairBad y bw.toNat e.2 e.1) = false := by
    rw [List.any_eq_false]
    intro e he
    obtain ⟨he, hnames⟩ := List.mem_filter.1 he
    have hok : pairBad y bw.toNat e.2 e.1 = false := hpair e he (by simpa using hnames)
    simp [hok]
  let s1 := (s.setBlk (s.pOf s.cur.1) bw.toNat { y with st := s.bindSt (s.pOf s.cur.1) y }).tick
  refine ⟨near.foldl (fun v e => v.hearBind (s.pOf s.cur.1) bw.toNat y.level e.1) s1, ?_, ?_, (Binding.of_setBlk hon).foldl hself near⟩
  · have hbits : (bitsNat bw 15 49 != 0 || bw.toNat / 4096 != s.lnum s.cur.1 / 512) = false := by
      simp [bitsNat, Nat.shiftRight_eq_div_pow, Nat.div_eq_of_lt hn, hcore]
    unfold State.lvbindDo
    dsimp only
    rw [hbits, if_neg (by decide), hrec]
    dsimp only
    rw [hfree, if_neg (by decide), hnear, if_neg (by decide)]
  · exact FusOnly.trans (t := s1) ⟨rfl⟩ (.foldl (fun _ _ => .hearBind ..) _ _)

/-! ### LVUNBIND (R353) -/

section
variable {s : State} {d : GReg} {a : Word} {x : Blk}

/-- LVUNBIND may free a block. -/
def State.mayUnbind (s : State) (x : Blk) : Prop :=
  x.st = .pending ∨ x.st = .done ∨ (s.frontSt (s.pOf s.cur.1) x.tag x.front = .frozen ∧ (x.st = .waiting ∨ x.st = .faulted))

theorem State.lvunbindDo_unbound (h : s.blkAt a = none) : s.lvunbindDo d a = s.setG d 0x10 := by
  rw [State.lvunbindDo, h]

theorem State.lvunbindDo_keeps (h : s.blkAt a = some x) (hno : ¬ s.mayUnbind x) : s.lvunbindDo d a = s.setG d (BitVec.ofNat 64 (16 + x.st.code)) := by
  unfold State.lvunbindDo
  rw [h]
  exact if_neg fun hc => hno (by simpa [State.mayUnbind, or_assoc] using hc)

theorem State.lvunbindDo_frees (h : s.blkAt a = some x) (hyes : s.mayUnbind x) : s.lvunbindDo d a = (s.unbind (s.pOf s.cur.1) a.toNat x).setG d 0 := by
  unfold State.lvunbindDo
  rw [h]
  exact if_pos (by simpa [State.mayUnbind, or_assoc] using hyes)

end

/-! ### LVCOMMIT (R355) -/

section
variable {s : State} {p id : Nat} {x : Blk} {lv : BitVec 32}

/-- A level set is a write of the block, recorded (R347). -/
theorem State.blk_setLevel (h : s.blk p id = some x) : (s.setLevel p id lv).blk p id = some { x with level := lv } := by
  have hon := State.onBoard_of_blk h
  have hkept : BoardsKept (s.setBlk p id { x with level := lv }) (s.setLevel p id lv) := by
    unfold State.setLevel
    rw [h]
    exact (BoardsKept.onFu _ (s.fuOf p id) (f := fun u => { u with doneAt := some s.time }) fun _ => rfl).trans
      (.of_recorded ((Recorded.event ..).trans (.count ..)))
  rw [hkept.blk, State.blk_setBlk_self hon]

theorem Offcore.sendNotices (s : State) (p id : Nat) (b : Blk) : Offcore s (s.sendNotices p id b) := by
  refine .foldl (fun u n => ?_) _ _
  split
  · exact .refl u
  · exact .ite (.refl u) (.ite (.onFu ..) (.sendReq ..))

/-- The running activation notes that it has committed. -/
def State.noteCommit (s : State) : State := s.onMe (fun x => { x with act := x.act.map (fun a => { a with committed := true }) })

/-- Outside deterministic mode a level is published on the board, then in notices (R347). -/
theorem State.publish_now (hdet : s.detAt s.cur.1 = false) (h : s.blk (s.pOf s.cur.1) id = some x) :
    Offcore s.noteCommit (s.publish id lv) ∧ (s.publish id lv).blk (s.pOf s.cur.1) id = some { x with level := lv } := by
  have hset : (s.noteCommit.setLevel (s.pOf s.cur.1) id lv).blk (s.pOf s.cur.1) id = some { x with level := lv } :=
    State.blk_setLevel (s := s.noteCommit) h
  have hpub : s.publish id lv = (s.noteCommit.setLevel (s.pOf s.cur.1) id lv).sendNotices (s.pOf s.cur.1) id { x with level := lv } := by
    rw [State.detAt] at hdet
    unfold State.publish
    dsimp only
    rw [hdet, if_neg (by decide)]
    change (match (s.noteCommit.setLevel (s.pOf s.cur.1) id lv).blk (s.pOf s.cur.1) id with | some b => _ | none => _) = _
    rw [hset] <;> rfl
  rw [hpub]
  exact ⟨(Offcore.setLevel ..).trans (.sendNotices ..), ((BoardsKept.sendNotices ..).blk ..).trans hset⟩

end

/-- LVCOMMIT of the dispatched block's next level, with every earlier store and copy performed (R355). -/
theorem State.lvcommitDo_publishes {s : State} {a b : Word} {id : Nat} {x : Blk} (hinfo : s.me.activation.m.msg.info = .dispatch id) (hid : a.toNat = id)
    (hb : s.blkAt a = some x) (hcom : s.me.activation.committed = false) (hlev : b.setWidth 32 = x.level + x.step) (hl : s.lanesMine = false)
    (hf : s.me.failed = []) (hcopies : s.copiesDone s.me.activation = true) : s.lvcommitDo a b = .ok () (s.publish id (x.level + x.step)) := by
  have hblk : s.commitBlk a b = some id := by
    unfold State.commitBlk
    dsimp only
    rw [hinfo]
    dsimp only
    rw [hb]
    simp [hid, hcom, hlev]
  unfold State.lvcommitDo
  rw [hblk]
  dsimp only
  rw [State.release_ok hl hf, Res.bind, if_pos hcopies, hlev]

theorem State.blk_of_blkAt {s : State} {a : Word} {x : Blk} (h : s.blkAt a = some x) : s.blk (s.pOf s.cur.1) a.toNat = some x := by
  unfold State.blkAt at h
  split at h
  · cases h
  · exact h

theorem frontChanges : Says.FrontChanges := by
  intro s d a b front r x id hs hdet p n y turn
  let u := s.noteTurn (some (0x2000 + p)) s.cur.1 s.cur.2.val
  have hu : Unmoved s u := .noteTurn ..
  have hunbind : turn = true → exec (.lvunbind d a) s = retired (u.lvunbindDo d (s.g a)) := fun hturn => by
    change run (frontChange [] (fun s => s.bindTurn (fun s => .ok () (s.lvunbindDo d (s.g a)))) s) = _
    rw [frontChange_bindTurn hdet, if_pos hturn]
    rfl
  refine ⟨fun hturn hal hread hn hcore hrec hfree hpair hlo hhi => ?_, fun hturn hb => ?_, fun hturn hb => ⟨fun hno => ?_, fun hyes => ?_⟩,
    fun hturn => ?_, fun hinfo hid hb hcom hact hlev hl hf hcopies => ?_⟩
  · obtain ⟨v, hv, honly, hbind⟩ := State.lvbindDo_binds (s := u) (d := d) (front := front) hn hcore hrec hfree hpair ⟨hlo, hhi⟩
    have hx : exec (.lvbind d a b front) s = retired (v.setG d (BitVec.ofNat 64 (y.nbrs.filter (fun m => (s.blk p m.id).isNone)).length)) := by
      change execLvbind d a b front s = _
      unfold execLvbind
      dsimp only
      rw [if_neg (by simp [hal]), hread, Res.bind, frontChange_bindTurn hdet, if_pos hturn]
      exact congrArg run hv
    obtain ⟨t, ht, ha⟩ := retiresWith_setG hs (.of_eq honly.me) hx
    refine ⟨t, ht, ha.mem.trans honly.mem, ((BoardsKept.of_advanced ha).blk ..).trans (hbind.entry.trans ?_)⟩
    exact congrArg (fun st => some { y with st := st }) (State.bindSt_eq ..)
  · exact gives_of_unmoved hs hu rfl ((hunbind hturn).trans (congrArg _ (State.lvunbindDo_unbound hb)))
  · exact gives_of_unmoved hs hu rfl ((hunbind hturn).trans (congrArg _ (State.lvunbindDo_keeps (s := u) hb hno)))
  · have honly := FusOnly.unbind u p (s.g a).toNat x
    obtain ⟨t, ht, ha⟩ := retiresWith_setG hs (.of_eq honly.me) ((hunbind hturn).trans (congrArg _ (State.lvunbindDo_frees (s := u) hb hyes)))
    exact ⟨t, ht, ha.mem.trans honly.mem, ((BoardsKept.of_advanced ha).blk ..).trans (State.blk_unbind_self ..)⟩
  · have hx : exec (.lvunbind d a) s = .next (s.takeStop (.wait .fence)) := by
      change run (frontChange [] (fun s => s.bindTurn (fun s => .ok () (s.lvunbindDo d (s.g a)))) s) = _
      rw [frontChange_bindTurn hdet, if_neg (by simpa [turn] using hturn)]
      rfl
    exact ⟨_, hx, by simp [State.takeStop, State.waitAt], by simp [State.takeStop, State.waitAt], by simp [State.takeStop, State.waitAt], rfl, rfl⟩
  · obtain ⟨hoff, hblk⟩ := State.publish_now (lv := x.level + x.step) hdet (hid ▸ State.blk_of_blkAt hb)
    have hme : (s.publish id (x.level + x.step)).me = { s.me with act := s.me.act.map (fun a => { a with committed := true }) } :=
      hoff.me.trans (State.me_onMe ..)
    have hx : exec (.lvcommit a b) s = retired (s.publish id (x.level + x.step)) :=
      congrArg run (State.lvcommitDo_publishes hinfo hid hb hcom hlev hl hf hcopies)
    obtain ⟨t, ht, ha⟩ := retiresWith_retired hs (by rw [hme]; exact ⟨⟨rfl, rfl, rfl, rfl⟩, rfl, rfl, rfl, rfl, rfl, rfl, rfl, rfl⟩) hx
    obtain ⟨m, hm⟩ := Option.isSome_iff_exists.1 hact
    refine ⟨t, ht, ?_, _, ((BoardsKept.of_advanced ha).blk ..).trans hblk, rfl, rfl⟩
    have hta : t.me.act = some { m with committed := true } := by rw [ha.act, hme, hm]; rfl
    rw [Ctx.activation, hta]
    rfl

/-- Settles O33: reads are the block's fields, and each change is a write of the boards alone, or of a front's state. -/
theorem frontForms : Obligations.FrontForms := ⟨frontReads, frontChanges⟩

end Sys2Proof.Machine
end

section
/-!
SUPPORT. What the end of a task and a partition's way out of deterministic mode leave of the queues and of the counted aborts (R46, R61, R414, R423).
-/

namespace Sys2Proof.Machine

/-- The queues and tasks of every core, and of every partition the aborts that were counted, stand as they did. -/
structure Stored (s t : State) : Prop where
  queues : ∀ n, (t.core n).queues = (s.core n).queues
  tasks  : ∀ n, (t.core n).tasks = (s.core n).tasks
  aborts : viewsOf Part.aborts t.parts = viewsOf Part.aborts s.parts

namespace Stored
variable {s t u : State}

theorem refl (s : State) : Stored s s := ⟨fun _ => rfl, fun _ => rfl, rfl⟩

theorem trans (h : Stored s t) (g : Stored t u) : Stored s u :=
  ⟨fun n => (g.queues n).trans (h.queues n), fun n => (g.tasks n).trans (h.tasks n), g.aborts.trans h.aborts⟩

theorem ite {c : Prop} {_ : Decidable c} (ht : Stored s t) (hu : Stored s u) : Stored s (if c then t else u) := by
  split
  · exact ht
  · exact hu

theorem foldl {α : Type} {f : State → α → State} (hf : ∀ s a, Stored s (f s a)) (l : List α) (s : State) : Stored s (l.foldl f s) :=
  List.foldlRecOn (motive := Stored s) l f (refl s) fun t ht a _ => ht.trans (hf t a)

theorem of_offcore (h : Offcore s t) : Stored s t :=
  ⟨fun n => by rw [h.core], fun n => by rw [h.core], viewsOf_comp (f := Part.bare) Part.aborts h.layout.bares⟩

/-- A change of what is neither of a core nor of a partition. -/
theorem of_eq (hc : t.cores = s.cores) (hp : t.parts = s.parts) : Stored s t :=
  ⟨fun n => by rw [State.core_congr_cores hc], fun n => by rw [State.core_congr_cores hc], by rw [hp]⟩

theorem onMem (s : State) (f : Memory → Memory) : Stored s (s.onMem f) := of_eq rfl rfl

theorem onCore (s : State) (n : Nat) (f : CoreSt → CoreSt) (hq : ∀ k, (f k).queues = k.queues) (ht : ∀ k, (f k).tasks = k.tasks) :
    Stored s (s.onCore n f) := by
  refine ⟨fun m => ?_, fun m => ?_, rfl⟩ <;> by_cases h : m = n
  · subst h; rw [State.core_onCore_self, hq]
  · rw [State.core_onCore_ne s f h]
  · subst h; rw [State.core_onCore_self, ht]
  · rw [State.core_onCore_ne s f h]

theorem onPart (s : State) (p : Nat) (f : Part → Part) (hf : ∀ P, (f P).aborts = P.aborts) : Stored s (s.onPart p f) := by
  unfold State.onPart
  cases h : AMap.find s.parts p with
  | none => exact refl s
  | some P => exact ⟨fun _ => rfl, fun _ => rfl, viewsOf_set h (hf P)⟩

/-- A change of the listed cores one by one. -/
theorem mapCores {f : Nat → CoreSt → CoreSt} (hc : t.cores = AMap.mapVals f s.cores) (hq : ∀ n k, (f n k).queues = k.queues)
    (ht : ∀ n k, (f n k).tasks = k.tasks) (hp : t.parts = s.parts) : Stored s t := by
  refine ⟨fun n => ?_, fun n => ?_, by rw [hp]⟩ <;> rcases State.core_mapVals hc n with h | ⟨h1, h2⟩
  · rw [h, hq]
  · rw [h1, h2]
  · rw [h, ht]
  · rw [h1, h2]

/-! ### Paging (R152) -/

theorem dropTlb (s : State) (p : Nat) (f : TlbE → Bool) : Stored s (s.dropTlb p f) :=
  mapCores (f := fun n k => if s.pOf n = p then k.dropTlb f else k) rfl (fun n k => by split <;> rfl) (fun n k => by split <;> rfl) rfl

theorem rekey (s : State) (p : Nat) (f : Nat → Nat) : Stored s (s.rekey p f) :=
  mapCores (f := fun n k => if decide (n < 4096) && s.pOf n == p then k.rekey f else k) rfl (fun n k => by split <;> rfl)
    (fun n k => by split <;> rfl) rfl

theorem evict (s : State) (p : Nat) (r : Resident) : Stored s (s.evict p r) := by
  unfold State.evict
  split
  · dsimp only
    refine trans (trans ?_ (rekey ..)) (onPart _ p _ (by exact fun _ => rfl))
    have hgone : ∀ e f, Stored s (((s.onMem e).dropTlb p f).tick) := fun e f => ((onMem s e).trans (dropTlb ..)).trans (of_eq rfl rfl)
    split
    · exact ite ((hgone _ _).trans (of_eq rfl rfl)) (hgone _ _)
    · exact hgone _ _
  · exact refl s
  · exact refl s

theorem fromPool {p n : Nat} {repl : Bool} {r : Nat × State} (h : s.fromPool p n repl = some r) : Stored s r.2 := by
  simp only [State.fromPool] at h
  split at h
  · obtain rfl := Option.some.inj h
    exact (onPart s p _ (by exact fun _ => rfl)).trans (of_eq rfl rfl)
  · cases h

theorem fromReserve {p n : Nat} {table repl : Bool} {r : Nat × State} (h : s.fromReserve p n table repl = some r) : Stored s r.2 := by
  unfold State.fromReserve at h
  split at h
  · cases h
  · split at h <;> split at h
    · obtain rfl := Option.some.inj h; exact onPart s p _ (by exact fun _ => rfl)
    · cases h
    · obtain rfl := Option.some.inj h; exact onPart s p _ (by exact fun _ => rfl)
    · cases h

theorem evictFor {p n : Nat} {need : List Nat} {repl : Bool} {k : Nat} {r : Nat × State} (h : s.evictFor p n need repl k = .got r) : Stored s r.2 := by
  induction k generalizing s with
  | zero => cases h
  | succ k ih =>
    unfold State.evictFor State.evictOne at h
    dsimp only at h
    split at h
    · cases h
    · cases h
    next s1 he =>
      have hs1 : Stored s s1 := by
        split at he
        · obtain rfl := Sought.got.inj he; exact evict ..
        · split at he <;> cases he
      split at h
      next hr => obtain rfl := Sought.got.inj h; exact hs1.trans (fromPool hr)
      next => exact hs1.trans (ih h)

theorem aborts_refill (hint n : Nat) (P : Part) : (Part.refill hint n P).aborts = P.aborts := by
  induction n generalizing P with
  | zero => rfl
  | succ n ih =>
    unfold Part.refill
    split
    · split
      · exact ih _
      · rfl
    · split
      · split
        · exact ih _
        · rfl
      · rfl

theorem takeFrame {p n : Nat} {need : List Nat} {table repl grant : Bool} {r : Nat × State} (h : s.takeFrame p n need table repl grant = .got r) :
    Stored s r.2 := by
  have hfill : ∀ x : Nat × State, Stored s x.2 → Stored s (x.2.onPart p (fun P => Part.refill x.2.fresh 40 P)) := fun x hx =>
    hx.trans (onPart _ p _ fun P => aborts_refill _ _ P)
  unfold State.takeFrame at h
  dsimp only at h
  split at h
  next x hx => obtain rfl := Sought.got.inj h; exact hfill x (fromPool hx)
  next =>
    split at h
    next x hx => obtain rfl := Sought.got.inj h; exact hfill x (evictFor hx)
    next => cases h
    next =>
      split at h
      next x hx =>
        obtain rfl := Sought.got.inj h
        split at hx
        · exact hfill x (fromReserve hx)
        · cases hx
      next => cases h

theorem placed (s : State) (p slot : Nat) (e : Word) (f lvl : Nat) (src : Option Nat) (base : Nat) : Stored s (s.placed p slot e f lvl src base) := by
  unfold State.placed
  refine trans (trans ?_ (onMem ..)) (rekey _ p _)
  split
  · exact of_eq rfl rfl
  · exact refl s

theorem pageIn {p va : Nat} {need : List Nat} {grant : Bool} (h : s.pageIn p va need grant = .done t) : Stored s t := by
  unfold State.pageIn at h
  split at h
  · obtain rfl := PageIn.done.inj h; exact refl s
  · obtain rfl := PageIn.done.inj h; exact refl s
  · split at h
    · split at h
      · cases h
      · split at h
        next hf => obtain rfl := PageIn.done.inj h; exact (takeFrame hf).trans (onMem ..)
        next => cases h
        next => cases h
    · split at h
      · cases h
      · dsimp only at h
        split at h
        next hf =>
          obtain rfl := PageIn.done.inj h
          exact (((takeFrame hf).trans (foldl (fun _ _ => onMem ..) _ _)).trans (placed ..)).trans (onPart _ p _ (by exact fun _ => rfl))
        next => cases h
        next => cases h

/-- The state that the service of a page for firmware answers. -/
def OfBrought (s : State) : Brought → Prop
  | .here t | .ask t | .later t => Stored s t
  | .unmapped => True

theorem bringIn (p va : Nat) (need : List Nat) (n : Nat) (s : State) : OfBrought s (s.bringIn p va need n) := by
  induction n generalizing s with
  | zero => exact refl s
  | succ n ih =>
    unfold State.bringIn
    split
    · exact refl s
    · trivial
    · split
      · exact refl s
      · split
        next s1 hp =>
          have h1 := pageIn hp
          have h2 := ih s1
          cases hb : s1.bringIn p va need n <;> rw [hb] at h2
          · exact h1.trans h2
          · exact h1.trans h2
          · exact h1.trans h2
          · trivial
        next => trivial
        next => exact refl s
        next => exact refl s

/-! ### Channel advances (R453) -/

theorem storeFault (s : State) (core ctx serial msgid tag colour va : Nat) : Stored s (s.storeFault core ctx serial msgid tag colour va) :=
  ite (onCore s core _ (fun _ => rfl) (fun _ => rfl)) (of_offcore (.pushRec ..))

theorem askFor (s : State) (p who va : Nat) : Stored s (s.askFor p who va) := by
  obtain ⟨g, hg⟩ := s.askFor_rest p who va
  rw [hg]
  exact of_eq rfl rfl

theorem dropAdv (s : State) (core ctx : Nat) : Stored s (s.dropAdv core ctx) := onCore _ _ _ (fun _ => rfl) (fun _ => rfl)

theorem advDo (s : State) (p core : Nat) (a : Adv) : Stored s (s.advDo p core a) := by
  have hdirty : Stored s (s.redirty core a.va) := by
    refine ite ?_ (refl s)
    split
    · exact onMem ..
    · exact refl s
    · exact refl s
  unfold State.advDo
  split
  · exact storeFault ..
  · exact ite (storeFault ..) (hdirty.trans (onMem ..))

theorem advTry (s : State) (p core : Nat) (a : Adv) : Stored s (s.advTry p core a).1 := by
  unfold State.advTry
  split
  · exact advDo ..
  · have hb := bringIn p (vaOf a.va) [] 4 s
    cases h : s.bringIn p (vaOf a.va) [] 4 <;> rw [h] at hb
    · exact hb.trans (advDo ..)
    · exact hb.trans (askFor ..)
    · exact hb
    · exact advDo ..

theorem advsRun (p : Nat) (l : List (Nat × Adv)) (s : State) : Stored s (s.advsRun p l).1 := by
  induction l generalizing s with
  | nil => exact refl s
  | cons x l ih =>
    obtain ⟨core, a⟩ := x
    have ht := advTry s p core a
    unfold State.advsRun
    cases h : s.advTry p core a with
    | mk s1 b =>
      rw [h] at ht
      cases b with
      | true => exact (ht.trans (dropAdv ..)).trans (ih _)
      | false => exact ht

/-! ### Blocks and controllers of an ended task (R353, R406, R414) -/

theorem of_fusOnly (h : FusOnly s t) : Stored s t := of_eq (by rw [h.rest]) (by rw [h.rest])

theorem endBlocks (s : State) (p tag : Nat) : Stored s (s.endBlocks p tag) := by
  have horphan : Stored s (s.orphanActs p tag) := by
    refine mapCores (f := fun n k => if s.pOf n = p then k.actsMapped (orphanOf tag) else k) rfl ?_ ?_ rfl <;> intro n k <;> split <;> rfl
  have hfronts : ∀ (u : State) (l : List Front), Stored s u → Stored s { u with fronts := l } := fun _ _ h => ⟨h.queues, h.tasks, h.aborts⟩
  unfold State.endBlocks
  refine hfronts _ _ ((horphan.trans (onPart _ p _ (by exact fun _ => rfl))).trans (foldl (fun s e => ?_) _ _))
  split
  · exact of_fusOnly (.unbind ..)
  · exact refl s

theorem endRlc (s : State) (p tag : Nat) : Stored s (s.endRlc p tag) := foldl (fun _ _ => of_offcore ((Offcore.onRlc ..).trans (.rlcNext ..))) _ s

theorem unpinAll (s : State) (p : Nat) (l : List Ext) : Stored s (s.unpinAll p l) := by
  refine foldl (fun _ _ => foldl (fun s _ => ite (refl s) ?_) _ _) l s
  unfold State.setPin
  split
  · exact onMem ..
  · exact refl s
  · exact refl s

end Stored

theorem Inboxed.aborts {s t : State} (h : Inboxed s t) : viewsOf Part.aborts t.parts = viewsOf Part.aborts s.parts :=
  viewsOf_comp (f := Part.bare) Part.aborts h.layout.bares

/-! ### A core rid of a task's messages (R414) -/

theorem CoreSt.mem_queue_setQueue {k : CoreSt} {q j : Nat} {l : List QMsg} {x : QMsg} (h : x ∈ (k.setQueue q l).queue j) : x ∈ l ∨ x ∈ k.queue j := by
  simp only [CoreSt.queue, CoreSt.setQueue, Vector.get_eq_getElem, Vector.getElem_set] at h ⊢
  split at h
  · exact .inl h
  · exact .inr h

/-- A core has no task of an entry, and none of its queues a message of it. -/
structure Rid (n tag : Nat) (s : State) : Prop where
  task  : ((s.core n).task tag).st = .invalid
  queue : ∀ j, ∀ x ∈ (s.core n).queue j, x.msg.env.tag ≠ tag

namespace Rid
variable {n tag : Nat} {s t : State}

theorem of_stored (h : Rid n tag s) (g : Stored s t) : Rid n tag t where
  task := by rw [CoreSt.task, g.tasks, ← CoreSt.task]; exact h.task
  queue j x hx := by
    rw [CoreSt.queue, g.queues, ← CoreSt.queue] at hx
    exact h.queue j x hx

theorem of_offcore (h : Rid n tag s) (g : Offcore s t) : Rid n tag t := h.of_stored (.of_offcore g)

/-- A core changed in neither its queues nor its tasks. -/
theorem onCore (h : Rid n tag s) (core : Nat) (f : CoreSt → CoreSt) (hq : ∀ k, (f k).queues = k.queues) (ht : ∀ k, (f k).tasks = k.tasks) :
    Rid n tag (s.onCore core f) := h.of_stored (.onCore s core f hq ht)

/-- A message of a task that a core has is of another entry. -/
theorem tag_ne (h : Rid n tag s) {core : Nat} {m : Msg} (hv : ((s.core core).task m.env.tag).st ≠ .invalid) (hn : n = core) : m.env.tag ≠ tag := by
  rintro rfl
  exact hv (hn ▸ h.task)

theorem setQueue (h : Rid n tag s) {core q : Nat} {l : List QMsg} (hl : n = core → ∀ x ∈ l, x.msg.env.tag ≠ tag) :
    Rid n tag (s.onCore core (fun k => k.setQueue q l)) := by
  by_cases hn : n = core
  · subst hn
    refine ⟨?_, fun j x hx => ?_⟩
    · rw [State.core_onCore_self]; exact h.task
    · rw [State.core_onCore_self] at hx
      exact (CoreSt.mem_queue_setQueue hx).elim (hl rfl x) (h.queue j x)
  · exact ⟨by rw [State.core_onCore_ne _ _ hn]; exact h.task, by rw [State.core_onCore_ne _ _ hn]; exact h.queue⟩

theorem enqueue (h : Rid n tag s) {core slot arrival : Nat} {m : Msg} (hm : n = core → m.env.tag ≠ tag) : Rid n tag (s.enqueue core slot m arrival) := by
  let q := queueOf (s.lnum core / 512) m.env
  let x : QMsg := ⟨m, slot, arrival, s.timeAt core, false, none⟩
  have hput : Rid n tag (s.onCore core (fun k => k.setQueue q (placeIn ((s.core core).queue q) x))) := h.setQueue fun hn y hy => by
    rcases mem_placeIn.1 hy with rfl | hy
    · exact hm hn
    · exact h.queue q y (hn ▸ hy)
  have hmem : Rid n tag ((s.onCore core (fun k => k.setQueue q (placeIn ((s.core core).queue q) x))).onMem (fun mm =>
    mm.setBytes (inboxKey core (512 * slot)) m.bytes)) := hput.of_offcore (.onMem _ _)
  exact hmem

/-! ### Deliveries to it (R36, R46, R58) -/

theorem ite_fst {α : Type} {c : Prop} {_ : Decidable c} {x y : State × α} (hx : Rid n tag x.1) (hy : Rid n tag y.1) : Rid n tag (if c then x else y).1 := by
  split
  · exact hx
  · exact hy

theorem of_fst {α : Type} {x : State × α} {a : α} (h : Rid n tag x.1) (e : x = (t, a)) : Rid n tag t := by rw [e] at h; exact h

theorem admFail (h : Rid n tag s) (core kind : Nat) (c : Cause) : Rid n tag (s.admFail core kind c).1 := ite_fst (h.of_offcore (.count ..)) h

theorem admitFrom3 (h : Rid n tag s) {core : Nat} {m : Msg} (slot : Option Nat) (arrival : Nat) (hm : n = core → m.env.tag ≠ tag) :
    Rid n tag (s.admitFrom3 core m slot arrival).1 := by
  refine ite_fst (h.admFail ..) (ite_fst (h.admFail ..) (ite_fst (h.admFail ..) (ite_fst (h.admFail ..) (ite_fst ?_ ?_))))
  · dsimp only
    split
    · exact ite_fst (h.enqueue hm) h
    · exact h
  · split
    · exact h.enqueue hm
    · exact h

theorem enters (h : Rid n tag s) (core : Nat) (m : Msg) (o : Option (Nat × Nat)) (arrival : Nat) : Rid n tag (s.enters core m o arrival).1 := by
  unfold State.enters
  dsimp only
  split
  · exact h.admFail ..
  · split
    · refine ite_fst ?_ (ite_fst h h)
      dsimp only
      exact of_offcore (h.onCore core _ (by exact fun _ => rfl) (by exact fun _ => rfl)) (.onMem _ _)
    · exact ite_fst h h
  next hv => exact h.admitFrom3 none arrival (h.tag_ne (by rw [hv]; decide))

theorem deliverHere (h : Rid n tag s) (core : Nat) (m : Msg) (o : Option (Nat × Nat)) : Rid n tag (s.deliverHere core m o) := by
  have hwait : ∀ (u : State) (w : AtIf), Rid n tag u → Rid n tag (u.onCore core (fun k => { k with waiting := k.waiting ++ [w] })) :=
    fun u w hu => hu.onCore core _ (by exact fun _ => rfl) (by exact fun _ => rfl)
  have he := h.enters core m o (s.timeAt core)
  unfold State.deliverHere
  dsimp only
  split
  · exact hwait _ _ h
  · split
    next hs => exact (he.of_fst hs).of_offcore (.respondTo ..)
    next hs => exact (he.of_fst hs).of_offcore (.respondTo ..)
    next hs => exact (he.of_fst hs).of_offcore (.respondTo ..)
    next hs => exact (he.of_fst hs).of_offcore (.respondTo ..)
    next hs => exact hwait _ _ (he.of_fst hs)

theorem refuse (h : Rid n tag s) (core : Nat) (m : Msg) (snd : Sender) (target : Nat) (c : Cause) : Rid n tag (s.refuse core m snd target c) := by
  have hs := h.of_offcore ((Offcore.count s (dieOf core) 0x06 1).trans (Offcore.coreEvent _ core 2 (c.code * 2 ^ 32 + m.env.id)))
  unfold State.refuse
  dsimp only
  split
  · exact h.of_offcore (.count ..)
  · split
    · exact hs.of_offcore (.onPart _ _ _ (by exact fun _ => rfl))
    · exact hs.deliverHere ..

theorem deliver (h : Rid n tag s) (d : Deliv) : Rid n tag (s.deliver d) := by
  unfold State.deliver
  split
  next q slot _ =>
    have hfree : Rid n tag (s.onCore d.dest (fun k => { k with slotsHeld := k.slotsHeld.filter (· != slot) })) :=
      h.onCore d.dest _ (by exact fun _ => rfl) (by exact fun _ => rfl)
    unfold State.reenterAt
    dsimp only
    split
    next hlive =>
      refine hfree.setQueue (l := (State.core _ d.dest).queue q ++ [_]) fun hn x hx => ?_
      rcases List.mem_append.1 hx with hx | hx
      · exact hfree.queue q x (hn ▸ hx)
      · obtain rfl := List.mem_singleton.1 hx
        simp only [State.taskLive, Bool.and_eq_true, beq_iff_eq] at hlive
        exact h.tag_ne (by rw [hlive.1]; decide) hn
    next => exact hfree.of_offcore (.count ..)
  next =>
    split
    · exact h.deliverHere ..
    · have he := h.enters d.dest d.msg none (s.timeAt d.dest)
      split
      next hs => exact (he.of_fst hs).refuse ..
      all_goals next hs => exact he.of_fst hs

theorem deliverAll (h : Rid n tag s) (p : Nat) : Rid n tag (s.deliverAll p) :=
  List.foldlRecOn (motive := Rid n tag) _ _ (h.of_stored (.onPart s p (fun P => { P with taskq := [] }) fun _ => rfl)) fun _ ht d _ => ht.deliver d

theorem leaveDet (h : Rid n tag s) (p : Nat) : Rid n tag (s.leaveDet p) := by
  have hexit : ∀ u : State, Rid n tag u → Rid n tag (u.exitDet p) := fun u hu => by
    refine deliverAll ((hu.of_stored (.onPart u p (Part.leftDet u.time) (by exact fun _ => rfl))).of_stored ?_) p
    refine .mapCores (f := fun n k => if u.pOf n = p then k.leftDet else k) rfl ?_ ?_ rfl <;> intro n k <;> split <;> rfl
  unfold State.leaveDet
  split
  · have hadv := h.of_stored (.advsRun p (s.advList p) s)
    split
    next hs => exact hexit _ (hadv.of_fst hs)
    next hs => exact hadv.of_fst hs
  · exact h

/-! ### The end of a task (R414) -/

end Rid

/-- A core without the messages of a task entry. -/
def CoreSt.dropped (tag : Nat) (k : CoreSt) : CoreSt :=
  { k with queues := k.queues.map (fun q => q.filter (fun m => !m.ofTag tag)), unbound := k.unbound.filter (fun m => !m.ofTag tag) }

theorem CoreSt.mem_queue_dropped {tag j : Nat} {k : CoreSt} {x : QMsg} (h : x ∈ (k.dropped tag).queue j) : x.msg.env.tag ≠ tag := by
  have hx : x ∈ (k.queue j).filter (fun m => !m.ofTag tag) := by
    simpa [CoreSt.queue, CoreSt.dropped, Vector.get_eq_getElem] using h
  simpa [QMsg.ofTag] using (List.mem_filter.1 hx).2

/-- What the end of a core's messages does beside is the interface's. -/
theorem State.dropMsgs_rest (s : State) (core tag : Nat) : Offcore (s.onCore core (CoreSt.dropped tag)) (s.dropMsgs core tag) := by
  have hfold := Offcore.foldl (f := fun s (m : QMsg) => if m.msg.env.kind ≤ 1 then s.respondTo core m.origin (Rsp.plain .refused Cause.badTask.code)
      else (s.count (dieOf core) 0x07 1).respondTo core m.origin .ok)
    (fun s m => .ite (.respondTo ..) ((Offcore.count ..).trans (.respondTo ..))) ((s.core core).unbound.filter (fun m => m.ofTag tag))
    (s.onCore core (CoreSt.dropped tag))
  exact .ite hfold (hfold.trans (.count ..))

/-- The core whose task of an entry ends. -/
def State.untask (s : State) (n tag : Nat) : State := s.onCore n (fun k => k.setTask tag { k.task tag with st := .invalid, exts := [] })

/-- A task that ends on a core: its entry, its messages, and the tag table where no task is left. -/
theorem State.endOnCore_eq {s : State} {n tag : Nat} (h : ((s.core n).task tag).st ≠ .invalid) :
    Stored ((s.untask n tag).dropMsgs n tag) (s.endOnCore n tag) ∧ ∀ m, m ≠ n → (s.endOnCore n tag).core m = ((s.untask n tag).dropMsgs n tag).core m := by
  unfold State.endOnCore
  rw [if_neg h]
  dsimp only
  split
  · exact ⟨.onCore _ n _ (by exact fun _ => rfl) (by exact fun _ => rfl), fun m hm => State.core_onCore_ne _ _ hm⟩
  · exact ⟨.refl _, fun _ _ => rfl⟩

/-- A core is rid of the messages of the task that ends on it. -/
theorem Rid.endOnCore {s : State} {n tag : Nat} (h : ((s.core n).task tag).st ≠ .invalid) : Rid n tag (s.endOnCore n tag) := by
  have hdropped : Rid n tag ((s.untask n tag).onCore n (CoreSt.dropped tag)) := by
    refine ⟨?_, fun j x hx => ?_⟩
    · rw [State.core_onCore_self, State.untask, State.core_onCore_self]
      change (((CoreSt.setTask _ tag _).task tag).st) = _
      rw [CoreSt.task_setTask, if_pos rfl]
    · rw [State.core_onCore_self] at hx
      exact CoreSt.mem_queue_dropped hx
  exact (hdropped.of_offcore (State.dropMsgs_rest ..)).of_stored (State.endOnCore_eq h).1

theorem State.core_endOnCore_ne {s : State} {n m tag : Nat} (h : n ≠ m) : (s.endOnCore m tag).core n = s.core n := by
  by_cases hv : ((s.core m).task tag).st = .invalid
  · rw [State.endOnCore, if_pos hv]
  · rw [(State.endOnCore_eq hv).2 n h, (State.dropMsgs_rest ..).core, State.core_onCore_ne _ _ h, State.untask, State.core_onCore_ne _ _ h]

/-- A core either still has the task of an entry or is rid of it. -/
def HasOrRid (n tag : Nat) (s : State) : Prop := ((s.core n).task tag).st ≠ .invalid ∨ Rid n tag s

theorem HasOrRid.endOnCore {n tag : Nat} {s : State} (h : HasOrRid n tag s) (m : Nat) : HasOrRid n tag (s.endOnCore m tag) := by
  by_cases hm : n = m
  · subst hm
    rcases h with h | h
    · exact .inr (.endOnCore h)
    · rw [State.endOnCore, if_pos h.task]
      exact .inr h
  · rcases h with h | h
    · exact .inl (by rwa [State.core_endOnCore_ne hm])
    · exact .inr ⟨by rw [State.core_endOnCore_ne hm]; exact h.task, by rw [State.core_endOnCore_ne hm]; exact h.queue⟩

/-- A core of the partition that has the task is rid of its messages. -/
theorem State.rid_endTask {s : State} {p n tag : Nat} (hp : s.pOf n = p) (hv : ((s.core n).task tag).st ≠ .invalid) : Rid n tag (s.endTask p tag) := by
  let l := s.cores.filter (fun e => s.pOf e.1 == p)
  let s1 := l.foldl (fun s e => s.endOnCore e.1 tag) s
  have hor : HasOrRid n tag s1 := List.foldlRecOn (motive := HasOrRid n tag) l _ (.inl hv) fun _ hu e _ => hu.endOnCore e.1
  have hlisted : (n, s.core n) ∈ s.cores := (State.core_listed s n).resolve_right fun hreset => hv (by rw [hreset, CoreSt.task_reset]; rfl)
  have hrid : Rid n tag s1 := hor.resolve_left fun h => h ((State.endOnCores tag l s).2 _ (List.mem_filter.2 ⟨hlisted, by simpa using hp⟩))
  unfold State.endTask
  refine Rid.leaveDet (hrid.of_stored ?_) p
  exact (((Stored.unpinAll ..).trans (.endBlocks ..)).trans (.endRlc ..)).trans (.onPart _ p _ (by exact fun _ => rfl))

/-! ### The counted aborts (R423) -/

theorem State.aborts_endOnCore (s : State) (n tag : Nat) : viewsOf Part.aborts (s.endOnCore n tag).parts = viewsOf Part.aborts s.parts := by
  by_cases hv : ((s.core n).task tag).st = .invalid
  · rw [State.endOnCore, if_pos hv]
  · exact (State.endOnCore_eq hv).1.aborts.trans (Stored.of_offcore (State.dropMsgs_rest (s.untask n tag) n tag)).aborts

theorem State.aborts_leaveDet (s : State) (p : Nat) : viewsOf Part.aborts (s.leaveDet p).parts = viewsOf Part.aborts s.parts := by
  have hexit : ∀ u : State, viewsOf Part.aborts (u.exitDet p).parts = viewsOf Part.aborts u.parts := fun u =>
    (Inboxed.deliverAll _ p).aborts.trans (Stored.onPart u p (Part.leftDet u.time) (by exact fun _ => rfl)).aborts
  unfold State.leaveDet
  split
  · have hadv : viewsOf Part.aborts (s.advsDo p).1.parts = viewsOf Part.aborts s.parts := (Stored.advsRun p (s.advList p) s).aborts
    split
    next u hs =>
      rw [hs] at hadv
      exact (hexit u).trans hadv
    next u hs =>
      rw [hs] at hadv
      exact hadv
  · rfl

theorem State.aborts_endTask (s : State) (p tag : Nat) : viewsOf Part.aborts (s.endTask p tag).parts = viewsOf Part.aborts s.parts := by
  let s1 := (s.cores.filter (fun e => s.pOf e.1 == p)).foldl (fun s e => s.endOnCore e.1 tag) s
  have hcores : viewsOf Part.aborts s1.parts = viewsOf Part.aborts s.parts :=
    List.foldlRecOn (motive := fun u : State => viewsOf Part.aborts u.parts = viewsOf Part.aborts s.parts) _ _ rfl fun u hu e _ =>
      (u.aborts_endOnCore e.1 tag).trans hu
  unfold State.endTask
  refine (State.aborts_leaveDet ..).trans ((Stored.aborts ?_).trans hcores)
  exact (((Stored.unpinAll ..).trans (.endBlocks ..)).trans (.endRlc ..)).trans (.onPart _ p _ (by exact fun _ => rfl))

end Sys2Proof.Machine
end

section
/-!
SUPPORT. Held messages disposed of by DISPOSE and by firmware, and the trap ring (R416, R422, R423), and O42 from them.
-/

namespace Sys2Proof.Machine

/-! ### A disposition begins (R423) -/

/-- Nothing has changed but which cores have ended their quantum. -/
structure Quieted (s t : State) : Prop where
  cores : ∀ n, ∃ b, t.core n = { s.core n with qdone := b }
  parts : t.parts = s.parts
  time  : t.time = s.time

namespace Quieted
variable {s t u : State}

theorem refl (s : State) : Quieted s s := ⟨fun n => ⟨(s.core n).qdone, rfl⟩, rfl, rfl⟩

theorem trans (h : Quieted s t) (g : Quieted t u) : Quieted s u := by
  refine ⟨fun n => ?_, g.parts.trans h.parts, g.time.trans h.time⟩
  obtain ⟨b, hb⟩ := h.cores n
  obtain ⟨c, hc⟩ := g.cores n
  exact ⟨c, by rw [hc, hb]⟩

theorem disposing (s : State) (p : Nat) : Quieted s (s.disposing p) := by
  unfold State.disposing
  split
  · refine List.foldlRecOn (motive := Quieted s) _ _ (refl s) fun v hv c _ => ?_
    split
    · refine hv.trans ⟨fun n => ?_, rfl, rfl⟩
      by_cases hn : n = c
      · subst hn
        exact ⟨true, by rw [State.core_onCore_self]⟩
      · exact ⟨(v.core n).qdone, by rw [State.core_onCore_ne _ _ hn]⟩
    · exact hv
  · exact refl s

theorem pOf (h : Quieted s t) (n : Nat) : t.pOf n = s.pOf n := by rw [State.pOf, State.partKey, h.parts]; rfl

theorem part (h : Quieted s t) (p : Nat) : t.part p = s.part p := by rw [State.part, h.parts]; rfl

theorem task (h : Quieted s t) (n tag : Nat) : (t.core n).task tag = (s.core n).task tag := by
  obtain ⟨b, hb⟩ := h.cores n
  rw [hb]
  rfl

theorem queue (h : Quieted s t) (n q : Nat) : (t.core n).queue q = (s.core n).queue q := by
  obtain ⟨b, hb⟩ := h.cores n
  rw [hb]
  rfl

theorem timeAt (h : Quieted s t) (n : Nat) : t.timeAt n = s.timeAt n := by
  obtain ⟨b, hb⟩ := h.cores n
  simp only [State.timeAt, h.pOf, h.part, hb, h.time]

theorem heldMsg (h : Quieted s t) (core q id : Nat) : t.heldMsg core q id = s.heldMsg core q id := by
  rw [State.heldMsg, h.queue]
  rfl

theorem taskLive (h : Quieted s t) (core : Nat) (m : Msg) : t.taskLive core m = s.taskLive core m := by
  rw [State.taskLive, h.task]
  rfl

theorem knum (h : Quieted s t) (core l : Nat) : t.knum core l = s.knum core l := by
  rw [State.knum, State.detAt, h.pOf, h.part]
  rfl

end Quieted

/-! ### Held messages (R46, R416) -/

section
variable {s : State} {core q id : Nat} {m : QMsg} (h : s.heldMsg core q id = some m)
include h

theorem State.releaseMsg_held : ((s.releaseMsg core q id).core core).queue q =
    (((s.core core).queue q).filter (fun x => x.slot != m.slot)).filter (·.held) ++ [{ m with held := false, since := s.timeAt core }] ++
      (((s.core core).queue q).filter (fun x => x.slot != m.slot)).filter (fun x => !x.held) := by
  unfold State.releaseMsg
  rw [h]
  dsimp only
  rw [State.core_onCore_self, CoreSt.queue_setQueue_self]

theorem State.releaseMsg_parts : (s.releaseMsg core q id).parts = s.parts := by
  unfold State.releaseMsg
  rw [h]
  rfl

theorem State.discardMsg_held : ((s.discardMsg core q id).core core).queue q = ((s.core core).queue q).filter (fun x => x.slot != m.slot) := by
  unfold State.discardMsg
  rw [h]
  dsimp only
  rw [State.core_onCore_self, CoreSt.queue_setQueue_self]

theorem State.endMsg_live (p : Nat) (hl : s.taskLive core m.msg = true) : s.endMsg p core q id = s.endTask p m.msg.env.tag := by
  unfold State.endMsg
  rw [h]
  exact if_pos hl

end

/-- What the end of a task leaves of its partition (R414, R416). -/
theorem State.endTask_live {s : State} {p core : Nat} {m : Msg} (hp : s.pOf core = p) (hl : s.taskLive core m = true) : let t := s.endTask p m.env.tag
    (∀ c, s.pOf c = p → ((t.core c).task m.env.tag).st = .invalid ∧ ∀ j, j % 8 ≠ m.env.tag % 8 → (t.core c).task j = (s.core c).task j) ∧
      t.taskLive core m = false ∧ ∀ q, ∀ x ∈ (t.core core).queue q, x.msg.env.tag ≠ m.env.tag := by
  intro t
  have hv : ((s.core core).task m.env.tag).st = .valid := by
    simp only [State.taskLive, Bool.and_eq_true, beq_iff_eq] at hl
    exact hl.1
  have hrid : Rid core m.env.tag t := State.rid_endTask hp (by rw [hv]; decide)
  obtain ⟨hend, hgone⟩ := State.endTask_ended s p m.env.tag
  refine ⟨fun c hc => ⟨hgone c hc, hend.others c⟩, ?_, hrid.queue⟩
  rw [State.taskLive, hrid.task]
  rfl

/-! ### DISPOSE (R416) -/

section
variable {s : State} {p : Nat} {P : Part} {k : Packet} {m : QMsg} (hp : AMap.find s.parts p = some P) (hk : P.packet = some k) (hkind : pkKind k.words = 5)
  (hmay : s.mayDispose p = true)

include hp hk hkind hmay in
/-- A DISPOSE acts on the message that it names once the quantum is over. -/
theorem State.dispose_acts {a : Nat} (f : Nat → Nat → Nat → State → State) (ha : pf k.words 0 2 = a) {core q id : Nat}
    (hn : s.named p k = (core, q, id)) (hheld : s.heldMsg core q id = some m) (hcore : s.pOf core = p) :
    s.dispose p a f = (f core q id (s.disposing p)).packetDone p k := by
  have hq := Quieted.disposing s p
  have hn' : (s.disposing p).named p k = (core, q, id) := by
    rw [State.named, hq.knum]
    exact hn
  unfold State.dispose
  rw [State.chosen_of hp hk hkind]
  dsimp only
  rw [if_neg (by simp [ha, hmay]), hn']
  dsimp only
  rw [if_pos (by rw [hq.heldMsg, hheld, hq.pOf, hcore]; simp)]

end

/-- An END of a held message whose task lives ends that task (R416). -/
theorem disposeEnd_ends {s : State} {p : Nat} {P : Part} {k : Packet} {m : QMsg} {core q id : Nat} (hp : AMap.find s.parts p = some P)
    (hk : P.packet = some k) (hkind : pkKind k.words = 5) (hmay : s.mayDispose p = true) (ha : pf k.words 0 2 = 2) (hn : s.named p k = (core, q, id))
    (hheld : s.heldMsg core q id = some m) (hcore : s.pOf core = p) (hl : s.taskLive core m.msg = true) : let tag := m.msg.env.tag
    ∃ t P', exec (.disposeEnd p) s = .next t ∧
      (∀ c, s.pOf c = p → ((t.core c).task tag).st = .invalid ∧ ∀ j, j % 8 ≠ tag % 8 → (t.core c).task j = (s.core c).task j) ∧
      t.taskLive core m.msg = false ∧ (∀ x ∈ (t.core core).queue q, x.msg.env.tag ≠ tag) ∧ AMap.find t.parts p = some P' ∧ P'.packet = none ∧
      P'.q k.q = { P.q k.q with head := (P.q k.q).head + 1 } := by
  intro tag
  have hq := Quieted.disposing s p
  have hpu : AMap.find (s.disposing p).parts p = some P := by rw [hq.parts]; exact hp
  have hx := State.dispose_acts hp hk hkind hmay (fun core q id s => s.endMsg p core q id) ha hn hheld hcore
  rw [State.endMsg_live ((hq.heldMsg ..).trans hheld) p ((hq.taskLive ..).trans hl)] at hx
  obtain ⟨hended, hlive, hqueue⟩ := State.endTask_live ((hq.pOf core).trans hcore) ((hq.taskLive ..).trans hl)
  obtain ⟨Q, hQ, -, hqs⟩ := find_fronts (State.endTask_ended (s.disposing p) p tag).1.fronts hpu
  obtain ⟨R, hR, hnone, hhead⟩ := State.find_packetDone (k := k) hQ
  have hcmd : Q.q k.q = P.q k.q := by simp only [Part.q, hqs]
  have hext : pkExts k.words = 0 := by simp [pkExts, hkind]
  refine ⟨_, R, congrArg Host.Outcome.next hx, fun c hc => ?_, ?_, fun x hx => ?_, hR, hnone, ?_⟩
  · obtain ⟨hgone, hothers⟩ := hended c ((hq.pOf c).trans hc)
    rw [State.core_packetDone]
    exact ⟨hgone, fun j hj => (hothers j hj).trans (hq.task c j)⟩
  · rw [State.taskLive, State.core_packetDone]
    exact hlive
  · rw [State.core_packetDone] at hx
    exact hqueue q x hx
  · rw [hhead, hcmd, hext]
    rfl

/-! ### Disposition by firmware (R422, R423) -/

theorem Part.aborts_of_views {l m : AMap Part} (h : viewsOf Part.aborts m = viewsOf Part.aborts l) {p : Nat} {P Q : Part} (hP : AMap.find l p = some P)
    (hQ : AMap.find m p = some Q) : Q.aborts = P.aborts := by
  have := find_viewsOf h p
  simpa [hP, hQ] using this

theorem takeFirst_of_find? {α : Type} {f : α → Bool} {x : α} {l : List α} (h : l.find? f = some x) :
    ∃ t, takeFirst f l = some (x, t) ∧ t.length + 1 = l.length := by
  induction l with
  | nil => cases h
  | cons y l ih =>
    rw [List.find?_cons] at h
    unfold takeFirst
    cases hy : f y with
    | true =>
      rw [hy] at h
      obtain rfl := Option.some.inj h
      exact ⟨l, by simp, rfl⟩
    | false =>
      rw [hy] at h
      obtain ⟨t, ht, hlen⟩ := ih h
      exact ⟨y :: t, by simp [ht], by simpa using hlen⟩

/-- A partition whose oldest record of a die has been taken. -/
def Part.unrec (die : Nat) (P : Part) : Part :=
  match takeFirst (fun (x : TrapRec) => x.die == die) P.recs with
  | some (_, t) => { P with recs := t }
  | none => P

/-- A partition with one more abort of a message counted. -/
def Part.aborted (id : Nat) (P : Part) : Part := { P with aborts := AMap.set P.aborts id (AMap.get 0 P.aborts id + 1) }

theorem Part.unrec_of_find? {P : Part} {die : Nat} {r : TrapRec} (h : P.recs.find? (fun x => x.die == die) = some r) :
    ∃ l, P.unrec die = { P with recs := l } ∧ l.length + 1 = P.recs.length := by
  obtain ⟨l, hl, hlen⟩ := takeFirst_of_find? h
  exact ⟨l, by rw [Part.unrec, hl], hlen⟩

theorem State.part_onPart {s : State} {p : Nat} {P : Part} (hp : AMap.find s.parts p = some P) (f : Part → Part) (q : Nat) :
    (s.onPart p f).part q = if q = p then f P else s.part q := by
  simp [State.part, State.onPart, hp, AMap.get_set]

/-- A change of a partition that keeps its mode and dies keeps the time of every core. -/
theorem State.timeAt_onPart {s : State} {p : Nat} {P : Part} (hp : AMap.find s.parts p = some P) {f : Part → Part} (hd : ∀ P, (f P).dies = P.dies)
    (hdet : (f P).det = P.det) (hq : (f P).quanta = P.quanta) (n : Nat) : (s.onPart p f).timeAt n = s.timeAt n := by
  have hpart : ((s.onPart p f).part (s.pOf n)).det = (s.part (s.pOf n)).det ∧ ((s.onPart p f).part (s.pOf n)).quanta = (s.part (s.pOf n)).quanta := by
    rw [State.part_onPart hp]
    split
    next h => rw [h, State.part_of_find hp]; exact ⟨hdet, hq⟩
    next => exact ⟨rfl, rfl⟩
  have hcore : (s.onPart p f).core n = s.core n := State.core_congr_cores (by simp) n
  simp only [State.timeAt, State.pOf_onPart s p hd, hpart.1, hpart.2, hcore, State.onPart_time]

section
variable {s : State} {die p : Nat} {P : Part} {r : TrapRec} (hdie : s.partKey die = p) (hp : AMap.find s.parts p = some P) (hhost : P.trapHost = false)
  (hrec : P.recs.find? (fun x => x.die == die) = some r)
include hdie hp hhost hrec

/-- A record that holds no message is logged. -/
theorem exec_trapDisposition_logs (h : r.kindA = false ∨ r.held = false) : exec (.trapDisposition die) s = .next ((s.dropRec p die).log p r.words) := by
  have hno : (r.kindA && r.held) = false := by rcases h with h | h <;> simp [h]
  change execTrapDisposition die s = _
  unfold execTrapDisposition
  rw [hdie]
  dsimp only
  rw [State.part_of_find hp, if_neg (by simp [hhost]), hrec]
  dsimp only
  rw [if_neg (by simp [hno])]

/-- A record that holds a message disposes of it. -/
theorem exec_trapDisposition_disposes (hA : r.kindA = true) (hh : r.held = true) (hmay : s.mayDispose p = true) :
    exec (.trapDisposition die) s = .next (((s.disposing p).dropRec p die).disposeHeld p r) := by
  change execTrapDisposition die s = _
  unfold execTrapDisposition
  rw [hdie]
  dsimp only
  rw [State.part_of_find hp, if_neg (by simp [hhost]), hrec]
  dsimp only
  rw [if_pos (by simp [hA, hh]), if_pos hmay]

end

/-- One abort more, and the message is released or, from RETRY on, its task ended (R423). -/
theorem State.disposeHeld_eq {s : State} {p : Nat} {P : Part} (hp : AMap.find s.parts p = some P) (r : TrapRec) : s.disposeHeld p r =
    if P.retry ≤ AMap.get 0 P.aborts r.msgid + 1 then (s.countAbort p r.msgid).endMsg p r.core r.queue r.msgid
    else (s.countAbort p r.msgid).releaseMsg r.core r.queue r.msgid := by
  have hcount : (s.countAbort p r.msgid).part p = P.aborted r.msgid := State.part_of_find (State.find_onPart hp (Part.aborted r.msgid))
  unfold State.disposeHeld
  dsimp only
  rw [hcount, Part.aborted]
  dsimp only
  rw [AMap.get_set_self]

section
variable {s : State} {die p : Nat} {P : Part} {r : TrapRec} {m : QMsg} (hdie : s.partKey die = p) (hp : AMap.find s.parts p = some P)
  (hhost : P.trapHost = false) (hrec : P.recs.find? (fun x => x.die == die) = some r) (hA : r.kindA = true) (hh : r.held = true)
  (hmay : s.mayDispose p = true) (hheld : s.heldMsg r.core r.queue r.msgid = some m)

/-- The state in which a record's message is disposed of: the quantum over, the record taken and its abort counted. -/
def State.recTaken (s : State) (p die : Nat) (r : TrapRec) : State := ((s.disposing p).dropRec p die).countAbort p r.msgid

/-- A partition once a record's abort is counted. -/
def Part.recTaken (die : Nat) (r : TrapRec) (P : Part) : Part := (P.unrec die).aborted r.msgid

include hp in
theorem State.find_recTaken : AMap.find (s.recTaken p die r).parts p = some (P.recTaken die r) := by
  have hu : AMap.find (s.disposing p).parts p = some P := by rw [(Quieted.disposing s p).parts]; exact hp
  exact State.find_onPart (State.find_onPart hu (Part.unrec die)) (Part.aborted r.msgid)

theorem Part.unrec_plan (die : Nat) (P : Part) : (P.unrec die).plan = P.plan := by
  unfold Part.unrec
  split <;> rfl

include hp in
/-- It reads as before, but for the quantum. -/
theorem State.recTaken_reads : (∀ n, (s.recTaken p die r).core n = (s.disposing p).core n) ∧ (∀ n, (s.recTaken p die r).pOf n = s.pOf n) ∧
    ∀ n, (s.recTaken p die r).timeAt n = s.timeAt n := by
  have hq := Quieted.disposing s p
  have hu : AMap.find (s.disposing p).parts p = some P := by rw [hq.parts]; exact hp
  have hplan : ∀ Q : Part, (Q.unrec die).dies = Q.dies ∧ (Q.unrec die).det = Q.det ∧ (Q.unrec die).quanta = Q.quanta := fun Q => by
    have h := Q.unrec_plan die
    exact ⟨(congrArg Part.dies h : _), (congrArg Part.det h : _), (congrArg Part.quanta h : _)⟩
  have hv := State.find_onPart hu (Part.unrec die)
  refine ⟨fun n => State.core_congr_cores (by simp [State.recTaken, State.dropRec, State.countAbort]) n, fun n => ?_, fun n => ?_⟩
  · exact ((State.pOf_onPart _ p (f := Part.aborted r.msgid) (fun _ => rfl) n).trans
      (State.pOf_onPart _ p (f := Part.unrec die) (fun Q => (hplan Q).1) n)).trans (hq.pOf n)
  · exact ((State.timeAt_onPart hv (f := Part.aborted r.msgid) (fun _ => rfl) rfl rfl n).trans
      (State.timeAt_onPart hu (f := Part.unrec die) (fun Q => (hplan Q).1) (hplan P).2.1 (hplan P).2.2 n)).trans (hq.timeAt n)

theorem State.heldMsg_congr {t : State} {core : Nat} (h : t.core core = s.core core) (q id : Nat) : t.heldMsg core q id = s.heldMsg core q id := by
  rw [State.heldMsg, h]
  rfl

include hrec in
theorem Part.aborts_recTaken : AMap.get 0 (P.recTaken die r).aborts r.msgid = AMap.get 0 P.aborts r.msgid + 1 := by
  obtain ⟨l, hl, -⟩ := Part.unrec_of_find? hrec
  rw [Part.recTaken, hl, Part.aborted]
  exact AMap.get_set_self ..

include hdie hp hhost hrec hA hh hmay

theorem exec_trapDisposition_takes : exec (.trapDisposition die) s = .next
    (if P.retry ≤ AMap.get 0 P.aborts r.msgid + 1 then (s.recTaken p die r).endMsg p r.core r.queue r.msgid
      else (s.recTaken p die r).releaseMsg r.core r.queue r.msgid) := by
  obtain ⟨l, hl, -⟩ := Part.unrec_of_find? hrec
  have hu : AMap.find (s.disposing p).parts p = some P := by rw [(Quieted.disposing s p).parts]; exact hp
  have hv : AMap.find ((s.disposing p).dropRec p die).parts p = some { P with recs := l } := hl ▸ State.find_onPart hu (Part.unrec die)
  rw [exec_trapDisposition_disposes hdie hp hhost hrec hA hh hmay, State.disposeHeld_eq hv]
  rfl

include hheld

/-- Below RETRY aborts firmware releases the message. -/
theorem trapDisposition_releases (hlow : AMap.get 0 P.aborts r.msgid + 1 < P.retry) : ∃ t P', exec (.trapDisposition die) s = .next t ∧
    { m with held := false, since := s.timeAt r.core } ∈ (t.core r.core).queue r.queue ∧ AMap.find t.parts p = some P' ∧
      AMap.get 0 P'.aborts r.msgid = AMap.get 0 P.aborts r.msgid + 1 := by
  obtain ⟨hcore, -, htime⟩ := State.recTaken_reads (die := die) (r := r) hp
  have hheldv : (s.recTaken p die r).heldMsg r.core r.queue r.msgid = some m :=
    (State.heldMsg_congr (hcore _) ..).trans (((Quieted.disposing s p).heldMsg ..).trans hheld)
  have hx := exec_trapDisposition_takes hdie hp hhost hrec hA hh hmay
  rw [if_neg (by omega)] at hx
  refine ⟨_, P.recTaken die r, hx, ?_, ?_, Part.aborts_recTaken hrec⟩
  · rw [State.releaseMsg_held hheldv, htime]
    simp
  · rw [State.releaseMsg_parts hheldv]
    exact State.find_recTaken hp

/-- From RETRY aborts on firmware ends the message's task. -/
theorem trapDisposition_ends (hhigh : P.retry ≤ AMap.get 0 P.aborts r.msgid + 1) (hl : s.taskLive r.core m.msg = true) (hpOf : s.pOf r.core = p) :
    ∃ t P', exec (.trapDisposition die) s = .next t ∧
      (∀ c, s.pOf c = p → ((t.core c).task m.msg.env.tag).st = .invalid ∧
        ∀ j, j % 8 ≠ m.msg.env.tag % 8 → (t.core c).task j = (s.core c).task j) ∧
      t.taskLive r.core m.msg = false ∧ AMap.find t.parts p = some P' ∧ AMap.get 0 P'.aborts r.msgid = AMap.get 0 P.aborts r.msgid + 1 := by
  obtain ⟨hcore, hpart, -⟩ := State.recTaken_reads (die := die) (r := r) hp
  have hq := Quieted.disposing s p
  have hheldv : (s.recTaken p die r).heldMsg r.core r.queue r.msgid = some m := (State.heldMsg_congr (hcore _) ..).trans ((hq.heldMsg ..).trans hheld)
  have hlv : (s.recTaken p die r).taskLive r.core m.msg = true := by
    rw [State.taskLive, hcore]
    exact (hq.taskLive ..).trans hl
  have hx := exec_trapDisposition_takes hdie hp hhost hrec hA hh hmay
  rw [if_pos hhigh, State.endMsg_live hheldv p hlv] at hx
  obtain ⟨hended, hlive, -⟩ := State.endTask_live ((hpart r.core).trans hpOf) hlv
  obtain ⟨Q, hQ, -⟩ := find_fronts (State.endTask_ended (s.recTaken p die r) p m.msg.env.tag).1.fronts (State.find_recTaken hp)
  have haborts := Part.aborts_of_views (State.aborts_endTask (s.recTaken p die r) p m.msg.env.tag) (State.find_recTaken hp) hQ
  refine ⟨_, Q, hx, fun c hc => ?_, hlive, hQ, ?_⟩
  · obtain ⟨hgone, hothers⟩ := hended c ((hpart c).trans hc)
    exact ⟨hgone, fun j hj => (hothers j hj).trans (by rw [hcore]; exact hq.task c j)⟩
  · rw [haborts]
    exact Part.aborts_recTaken hrec

end

/-- Settles O42: what a disposition does to a queue is read off the message it names, and an END leaves its core rid of the task's messages. -/
theorem dispositionEvents : Obligations.DispositionEvents := by
  intro s p P k m head die r hp core q id gone ended
  have hq := Quieted.disposing s p
  refine ⟨fun hk hkind hmay hheld hcore _ => ?_, fun hdie hhost hrec => ⟨fun hno => ?_, fun hA hh hmay hheld _ => ⟨fun hlow => ?_, fun hhigh hl hcore => ?_⟩⟩,
    fun hrecs => ?_⟩
  · have hheldu : (s.disposing p).heldMsg core q id = some m := (hq.heldMsg ..).trans hheld
    refine ⟨fun ha => ?_, fun ha => ?_, fun ha hl => disposeEnd_ends hp hk hkind hmay ha rfl hheld hcore hl⟩
    · refine ⟨_, congrArg Host.Outcome.next (State.dispose_acts hp hk hkind hmay _ ha rfl hheld hcore), ?_⟩
      rw [State.core_packetDone, State.releaseMsg_held hheldu, hq.queue, hq.timeAt]
    · refine ⟨_, congrArg Host.Outcome.next (State.dispose_acts hp hk hkind hmay _ ha rfl hheld hcore), ?_⟩
      rw [State.core_packetDone, State.discardMsg_held hheldu, hq.queue]
  · obtain ⟨l, hl, hlen⟩ := Part.unrec_of_find? hrec
    have h1 : AMap.find (s.dropRec p die).parts p = some { P with recs := l } := hl ▸ State.find_onPart hp (Part.unrec die)
    have h2 := State.find_onPart (State.find_onPart h1 (fun P => { P with fwlog := P.fwlog ++ [r.words] })) (fun P => { P with msix := P.msix ++ [4 * p + 3] })
    exact ⟨_, _, exec_trapDisposition_logs hdie hp hhost hrec hno, h2, rfl, rfl, hlen, by simp [State.log, State.msi, State.dropRec]⟩
  · exact trapDisposition_releases hdie hp hhost hrec hA hh hmay hheld hlow
  · exact trapDisposition_ends hdie hp hhost hrec hA hh hmay hheld hhigh hl hcore
  · have h1 := State.find_onPart hp (fun P => { P with trRing := { P.trRing with head := head } })
    have hx : exec (.trheadWrite p head) s = .next (s.onPart p (fun P => { P with trRing := { P.trRing with head := head } })) := by
      change execTrheadWrite p head s = _
      unfold execTrheadWrite
      dsimp only
      rw [State.part_of_find h1]
      dsimp only
      rw [hrecs]
      rfl
    exact ⟨_, _, hx, h1, rfl, rfl, by simp, by simp⟩

end Sys2Proof.Machine
end

section
/-!
SUPPORT. Quantisation (R290-R292): the order of magnitudes, the least scale that fits, the codes of the 8-bit targets, the quads of O4, and O27 from them.
-/

namespace Sys2Proof.Machine

/-! ### Quads (R74, R75, R292) -/

/-- Both nibbles of a byte are 0x8. -/
def TwoEights (b : Nat) : Prop := b % 16 = 8 ∧ b / 16 % 16 = 8

theorem not_twoEights_of_has8 {b : Nat} (h : has8 b = false) : ¬ TwoEights b := by
  simp only [has8, Bool.or_eq_false_iff, beq_eq_false_iff_ne] at h
  exact fun hb => h.1 hb.1

/-- A quad is well formed where its first byte is no pair of outliers, and either names the outlier itself or leaves it to a second byte that is none. -/
theorem quadDecode_wellFormed {b0 b1 : Nat} (h0 : ¬ TwoEights b0) (h1 : has8 b0 = true ∨ ¬ TwoEights b1) :
    (quadDecode (b0 % 256 + 256 * (b1 % 256))).2 = false := by
  have s0 : quadSlot (b0 % 256 + 256 * (b1 % 256)) 0 = b0 % 16 := by simp only [quadSlot]; omega
  have s1 : quadSlot (b0 % 256 + 256 * (b1 % 256)) 1 = b0 / 16 % 16 := by simp only [quadSlot]; omega
  have s2 : quadSlot (b0 % 256 + 256 * (b1 % 256)) 2 = b1 % 16 := by simp only [quadSlot]; omega
  have s3 : quadSlot (b0 % 256 + 256 * (b1 % 256)) 3 = b1 / 16 % 16 := by simp only [quadSlot]; omega
  have hup : upTo 4 = [0, 1, 2, 3] := rfl
  unfold TwoEights at h0 h1
  unfold has8 at h1
  unfold quadDecode
  generalize hq : b0 % 256 + 256 * (b1 % 256) = q at *
  rw [hup]
  by_cases c0 : b0 % 16 = 8
  · have c1 : b0 / 16 % 16 ≠ 8 := fun h => h0 ⟨c0, h⟩
    simp [s0, s1, c0, c1]
  by_cases c1 : b0 / 16 % 16 = 8
  · simp [s0, s1, c0, c1]
  have h1 : ¬ (b1 % 16 = 8 ∧ b1 / 16 % 16 = 8) := by simpa [c0, c1] using h1
  by_cases c2 : b1 % 16 = 8
  · have c3 : b1 / 16 % 16 ≠ 8 := fun h => h1 ⟨c2, h⟩
    simp [s0, s1, s2, s3, c0, c1, c2, c3]
  by_cases c3 : b1 / 16 % 16 = 8
  · simp [s0, s1, s2, s3, c0, c1, c2, c3]
  · simp [s0, s1, s2, s3, c0, c1, c2, c3]

/-- The nibble of an integer from -7 to 7 is never 0x8. -/
theorem wrapN_four {r : Int} (h1 : -7 ≤ r) (h2 : r ≤ 7) : wrapN 4 r < 16 ∧ wrapN 4 r ≠ 8 := by
  simp only [wrapN]
  omega

theorem has8_towardZero (sign n : Nat) : has8 (towardZero sign n) = false := by
  induction n with
  | zero =>
    unfold towardZero
    split
    · rfl
    · next h => simpa using h
  | succ n ih =>
    unfold towardZero
    split
    · exact ih
    · next h => simpa using h

/-- A slot that is no outlier rounds to an integer from -7 to 7. -/
theorem roundI_of_not_slotBig {mode : Mode} {y : FV} (h : slotBig mode y = false) : ∃ r x, roundI mode y = some (r, x) ∧ -7 ≤ r ∧ r ≤ 7 := by
  unfold slotBig at h
  split at h
  · cases h
  · next r hr =>
    have hle : ¬ 7 < r.1.natAbs := by simpa using h
    exact ⟨r.1, r.2, hr, by omega, by omega⟩

/-- The nibble beside an outlier is never 0x8. -/
theorem not_twoEights_pair {m n : Nat} (h : n < 16 ∧ n ≠ 8) : ¬ TwoEights (if m % 2 = 0 then 8 + 16 * n else n + 16 * 8) := by
  unfold TwoEights
  split <;> omega

theorem has8_pair {m n : Nat} (h : n < 16) : has8 (if m % 2 = 0 then 8 + 16 * n else n + 16 * 8) = true := by
  have h8 : (n + 16 * 8) / 16 % 16 = 8 := by omega
  unfold has8
  split <;> simp [h8]

/-- The byte of an outlier of slot `m`, coded `c`, in the first or the second byte of the quad. -/
def outlierByte (m c : Nat) : Nat := if (decide (2 ≤ m) && has8 c) = true then towardZero (c / 128 * 128) (c % 128) else c

theorem has8_outlierByte {m : Nat} (h : 2 ≤ m) (c : Nat) : has8 (outlierByte m c) = false := by
  unfold outlierByte
  split
  · exact has8_towardZero ..
  · next hc => simpa [h] using hc

/-- The bytes of a quad with an outlier of slot `m`, coded `c`, beside the nibble `n`. -/
def outlierBytes (m c n : Nat) : List Nat :=
  if m < 2 then [if m % 2 = 0 then 8 + 16 * n else n + 16 * 8, outlierByte m c] else [outlierByte m c, if m % 2 = 0 then 8 + 16 * n else n + 16 * 8]

theorem outlierBytes_wellFormed (m c : Nat) {n : Nat} (h : n < 16 ∧ n ≠ 8) :
    ∃ b0 b1, outlierBytes m c n = [b0, b1] ∧ (quadDecode (b0 % 256 + 256 * (b1 % 256))).2 = false := by
  unfold outlierBytes
  split
  · exact ⟨_, _, rfl, quadDecode_wellFormed (not_twoEights_pair h) (.inl (has8_pair h.1))⟩
  · next hm =>
    have hb := not_twoEights_of_has8 (has8_outlierByte (Nat.not_lt.1 hm) c)
    exact ⟨_, _, rfl, quadDecode_wellFormed hb (.inr (not_twoEights_pair h))⟩

/-- A quad without an outlier holds four integers from -7 to 7; one with an outlier holds it in one byte, and 0x8 with an integer in the other. -/
theorem quadCode_wellFormed (mode : Mode) (ys : List FV) :
    ∃ b0 b1, (quadCode mode ys).1 = [b0, b1] ∧ (quadDecode (b0 % 256 + 256 * (b1 % 256))).2 = false := by
  unfold quadCode
  dsimp only
  split
  · next hnone =>
    have hnib : ∀ j < 4, ∃ r x, roundI mode (ys.getD j (FV.fin false 0 0)) = some (r, x) ∧ -7 ≤ r ∧ r ≤ 7 := fun j hj => by
      refine roundI_of_not_slotBig ?_
      have h := List.filter_eq_nil_iff.1 hnone j (List.mem_range.2 hj)
      simpa using h
    obtain ⟨r0, x0, h0, l0, u0⟩ := hnib 0 (by omega)
    obtain ⟨r1, x1, h1, l1, u1⟩ := hnib 1 (by omega)
    obtain ⟨r2, x2, h2, l2, u2⟩ := hnib 2 (by omega)
    obtain ⟨r3, x3, h3, l3, u3⟩ := hnib 3 (by omega)
    rw [h0, h1, h2, h3]
    obtain ⟨k0, n0⟩ := wrapN_four l0 u0
    obtain ⟨k2, n2⟩ := wrapN_four l2 u2
    refine ⟨_, _, rfl, quadDecode_wellFormed ?_ (.inr ?_)⟩
    · rintro ⟨h, -⟩
      dsimp only at h
      omega
    · rintro ⟨h, -⟩
      dsimp only at h
      omega
  · next j0 t _ =>
    generalize t.foldl _ j0 = m
    generalize hp : ys.getD (if m % 2 = 0 then m + 1 else m - 1) (FV.fin false 0 0) = yp
    generalize hc : roundF .f8a mode (ys.getD m (FV.fin false 0 0)) = c
    refine outlierBytes_wellFormed m c.1 (n := Prod.fst _) ?_
    cases yp with
    | nan b => exact wrapN_four (r := 0) (by omega) (by omega)
    | inf sg => exact wrapN_four (by split <;> omega) (by split <;> omega)
    | fin sg mm ee => exact wrapN_four (by split <;> omega) (by split <;> omega)

/-! ### Magnitudes (R291) -/

/-- The magnitude of a finite value. -/
def FV.mag : FV → ℚ
  | .fin _ m e => m * 2 ^ e
  | .nan _ | .inf _ => 0

@[simp] theorem FV.mag_abs (v : FV) : v.abs.mag = v.mag := by cases v <;> rfl

@[simp] theorem FV.isFin_abs (v : FV) : v.abs.isFin = v.isFin := by cases v <;> rfl

@[simp] theorem FV.abs_abs (v : FV) : v.abs.abs = v.abs := by cases v <;> rfl

theorem FV.mag_nonneg (v : FV) : 0 ≤ v.mag := by
  cases v with
  | fin s m e => exact mul_nonneg (Nat.cast_nonneg m) (zpow_nonneg (by norm_num) e)
  | _ => exact le_refl _

theorem FV.isZero_iff {v : FV} (h : v.isFin = true) : v.isZero = true ↔ v.mag = 0 := by
  cases v with
  | fin s m e =>
    have h2 : ¬ (2 : ℚ) ^ e = 0 := zpow_ne_zero e (by norm_num)
    cases m with
    | zero => simp [FV.isZero, FV.mag]
    | succ m => simpa [FV.isZero, FV.mag, Nat.cast_add_one_ne_zero] using h2
  | _ => cases h

/-- An integer magnitude in the units of a lower exponent. -/
theorem shifted_eq {m : Nat} {e u : Int} (h : u ≤ e) : ((m <<< (e - u).toNat : Nat) : ℚ) = m * 2 ^ e / 2 ^ u := by
  have hk : ((e - u).toNat : Int) = e - u := Int.toNat_of_nonneg (by omega)
  rw [Nat.shiftLeft_eq, Nat.cast_mul, Nat.cast_pow, Nat.cast_ofNat, ← zpow_natCast, hk, zpow_sub₀ (by norm_num), mul_div_assoc]

/-- The model's comparison of two values without their signs is that of their magnitudes. -/
theorem cmpLt_abs_iff {a b : FV} (ha : a.isFin = true) (hb : b.isFin = true) : cmpLt a.abs b.abs = true ↔ a.mag < b.mag := by
  cases a with
  | fin s m e =>
    cases b with
    | fin t n d =>
      have key : ∀ u : Int, u ≤ e → u ≤ d → (m <<< (e - u).toNat < n <<< (d - u).toNat ↔ (m : ℚ) * 2 ^ e < n * 2 ^ d) := fun u he hd => by
        rw [← Nat.cast_lt (α := ℚ), shifted_eq he, shifted_eq hd]
        exact div_lt_div_iff_of_pos_right (zpow_pos (by norm_num) u)
      have h := key (if e < d then e else d) (by split <;> omega) (by split <;> omega)
      simpa only [FV.abs, cmpLt, signedI, FV.mag, Bool.false_eq_true, if_false, decide_eq_true_eq, Nat.cast_lt] using h
    | _ => cases hb
  | _ => cases ha

/-- The largest magnitude of the values of a list, from `b` up. -/
def largest (x : Nat → FV) (l : List Nat) (b : FV) : FV := l.foldl (fun b i => if cmpLt b (x i).abs then (x i).abs else b) b

theorem largest_spec {x : Nat → FV} {l : List Nat} (hx : ∀ j ∈ l, (x j).isFin = true) {b : FV} (hb : b.isFin = true) (habs : b.abs = b) :
    (largest x l b).isFin = true ∧ (largest x l b).abs = largest x l b ∧
      ∀ c : ℚ, c < (largest x l b).mag ↔ c < b.mag ∨ ∃ j ∈ l, c < (x j).mag := by
  induction l generalizing b with
  | nil => exact ⟨hb, habs, by simp [largest]⟩
  | cons j t ih =>
    have hj := hx j (by simp)
    have hlt := cmpLt_abs_iff hb hj
    rw [habs] at hlt
    have ht : ∀ j ∈ t, (x j).isFin = true := fun j h => hx j (List.mem_cons_of_mem _ h)
    have hcons : largest x (j :: t) b = largest x t (if cmpLt b (x j).abs then (x j).abs else b) := rfl
    rw [hcons]
    simp only [List.exists_mem_cons_iff, ← or_assoc]
    split
    · next hc =>
      have hbj := hlt.1 hc
      obtain ⟨h1, h2, h3⟩ := ih ht (b := (x j).abs) (by simpa using hj) (by simp)
      refine ⟨h1, h2, fun c => (h3 c).trans (or_congr_left ?_)⟩
      rw [FV.mag_abs]
      exact ⟨.inr, fun h => h.elim (fun h => h.trans hbj) id⟩
    · next hc =>
      have hbj := le_of_not_gt (fun h => hc (hlt.2 h))
      obtain ⟨h1, h2, h3⟩ := ih ht hb habs
      exact ⟨h1, h2, fun c => (h3 c).trans (or_congr_left ⟨.inl, fun h => h.elim id (fun h => h.trans_le hbj)⟩)⟩

/-! ### VSCALE (R291) -/

section
variable {l : List Nat} {x : Nat → FV} (hx : ∀ j ∈ l, (x j).isFin = true)
include hx

/-- Under a scale every value of a list fits exactly where the largest of them does. -/
theorem cmpLt_largest_eq_false (big : Nat) (e : Int) :
    cmpLt (.fin false big e) (largest x l (.fin false 0 0)) = false ↔ ∀ j ∈ l, cmpLt (.fin false big e) (x j).abs = false := by
  obtain ⟨hfin, habs, hlt⟩ := largest_spec hx (b := .fin false 0 0) rfl rfl
  have hc : (FV.fin false big e).isFin = true := rfl
  have h0 : ¬ (FV.fin false big e).mag < (FV.fin false 0 0).mag := not_lt.2 (by simpa [FV.mag] using (FV.fin false big e).mag_nonneg)
  have hm : cmpLt (.fin false big e) (largest x l (.fin false 0 0)) = true ↔ ∃ j ∈ l, (FV.fin false big e).mag < (x j).mag := by
    have hcmp := cmpLt_abs_iff hc hfin
    rwa [habs, hlt, or_iff_right h0] at hcmp
  have hj : ∀ j ∈ l, (cmpLt (.fin false big e) (x j).abs = true ↔ (FV.fin false big e).mag < (x j).mag) := fun j h => cmpLt_abs_iff hc (hx j h)
  rw [← Bool.not_eq_true, not_congr hm]
  simp only [not_exists, not_and]
  exact forall₂_congr fun j h => by rw [← hj j h, Bool.not_eq_true]

theorem isZero_largest : (largest x l (.fin false 0 0)).isZero = true ↔ ∀ j ∈ l, (x j).isZero = true := by
  obtain ⟨hfin, -, hlt⟩ := largest_spec hx (b := .fin false 0 0) rfl rfl
  have h0 : ¬ (0 : ℚ) < (FV.fin false 0 0).mag := by simp [FV.mag]
  rw [FV.isZero_iff hfin, ← not_iff_not, ← ne_eq, ← (FV.mag_nonneg _).lt_iff_ne', hlt, or_iff_right h0, not_forall]
  refine exists_congr fun j => ?_
  rw [not_forall, ← exists_prop]
  exact exists_congr fun h => by rw [FV.isZero_iff (hx j h), ← ne_eq, (FV.mag_nonneg _).lt_iff_ne']

theorem find?_nonfinite_eq_none : l.find? (fun i => !(x i).isFin) = none := List.find?_eq_none.2 fun j hj => by simp [hx j hj]

theorem fitScale_largest_of_zero (big h : Nat) (hz : ∀ j ∈ l, (x j).isZero = true) : fitScale (largest x l (.fin false 0 0)) big h = some 127 := by
  rw [fitScale, if_pos ((isZero_largest hx).2 hz)]

/-- Where not every value is zero the scale is the least below 255 under which all fit, if there is one. -/
theorem fitScale_largest_of_nonzero (big h : Nat) (hz : ∃ j ∈ l, (x j).isZero = false) :
    let fits := fun (e : Nat) => ∀ j ∈ l, cmpLt (.fin false big ((h : Int) + e - 127)) (x j).abs = false
    (∀ e < 255, fits e → (∀ e' < e, ¬ fits e') → fitScale (largest x l (.fin false 0 0)) big h = some e) ∧
      ((∀ e < 255, ¬ fits e) → fitScale (largest x l (.fin false 0 0)) big h = none) := by
  intro fits
  have hfit : ∀ e : Nat, (!cmpLt (.fin false big ((h : Int) + e - 127)) (largest x l (.fin false 0 0))) = true ↔ fits e := fun e => by
    rw [Bool.not_eq_true', cmpLt_largest_eq_false hx]
  have hne : ¬ (largest x l (.fin false 0 0)).isZero = true := fun hall => by
    obtain ⟨j, hj, hf⟩ := hz
    rw [(isZero_largest hx).1 hall j hj] at hf
    cases hf
  rw [fitScale, if_neg hne, upTo]
  refine ⟨fun e he hf hlow => ?_, fun hno => ?_⟩
  · refine List.find?_range_eq_some.2 ⟨(hfit e).2 hf, List.mem_range.2 he, fun e' he' => ?_⟩
    rw [Bool.not_eq_true', ← Bool.not_eq_true, hfit]
    exact hlow e' he'
  · refine List.find?_eq_none.2 fun e he => ?_
    rw [hfit]
    exact hno e (List.mem_range.1 he)

end

section
variable {s : State} {q : KReg} {a : VReg} {f : Fmt} (d : GReg) (t : QTgt) (h : BitVec 4) (hs : Steady s) (h0 : s.me.vstart = 0)
include hs h0

theorem vscale_completes_of_nonfinite (hn : ∃ j ∈ s.actLanes q f.width (lanesOf f), (laneV (s.v a) f j).isFin = false)
    (ht : fcsrNanTrap s.me.fcsr = false) : Completes (.vscale d q a f t h) s ((s.me.flagged flNV).putG d (BitVec.ofNat 64 0xFF)) := by
  obtain ⟨j, hj, hf⟩ := hn
  obtain ⟨i, hi⟩ : ∃ i, (s.actLanes q f.width (lanesOf f)).find? (fun i => !(laneV (s.v a) f i).isFin) = some i :=
    Option.isSome_iff_exists.1 (List.find?_isSome.2 ⟨j, hj, by simp [hf]⟩)
  refine completes_of_flags (P := s.parts) (f := fun x => x.putG d (BitVec.ofNat 64 0xFF)) hs ((vecRun_zero h0 _).trans ?_) (Ctx.onward_putG ..)
  simp only [hi, ht, Bool.false_eq_true, if_false]
  rfl

variable (hfin : ∀ j ∈ s.actLanes q f.width (lanesOf f), (laneV (s.v a) f j).isFin = true)
include hfin

theorem vscale_completes_of_fits {e : Nat}
    (he : fitScale (largest (laneV (s.v a) f) (s.actLanes q f.width (lanesOf f)) (.fin false 0 0)) (tgtMax t) h.toNat = some e) :
    Completes (.vscale d q a f t h) s ((s.me.flagged 0).putG d (BitVec.ofNat 64 e)) := by
  rw [Ctx.flagged_zero]
  refine gives_of_setG hs ((vecRun_zero h0 _).trans ?_)
  rw [largest] at he
  simp only [find?_nonfinite_eq_none hfin, he]

theorem vscale_completes_of_none_fits
    (he : fitScale (largest (laneV (s.v a) f) (s.actLanes q f.width (lanesOf f)) (.fin false 0 0)) (tgtMax t) h.toNat = none) :
    Completes (.vscale d q a f t h) s ((s.me.flagged flOF).putG d (BitVec.ofNat 64 254)) := by
  refine completes_of_flags (P := s.parts) (f := fun x => x.putG d (BitVec.ofNat 64 254)) hs ((vecRun_zero h0 _).trans ?_) (Ctx.onward_putG ..)
  rw [largest] at he
  simp only [find?_nonfinite_eq_none hfin, he]
  rfl

end

/-! ### VQUANT to the 8-bit targets (R292) -/

/-- A byte of the little-endian value of a list of bytes, 0 beyond its end. -/
theorem leNat_byte (l : List Byte) (j : Nat) : leNat l / 256 ^ j % 256 = (l.getD j 0).toNat := by
  induction l generalizing j with
  | nil => simp [leNat]
  | cons b t ih =>
    have hb := b.isLt
    cases j with
    | zero => simp only [leNat, Nat.pow_zero, Nat.div_one, List.getD_cons_zero]; omega
    | succ j =>
      have hdiv : (b.toNat + 256 * leNat t) / 256 = leNat t := by omega
      rw [leNat, Nat.pow_succ', ← Nat.div_div_eq_div_mul, hdiv, ih, List.getD_cons_succ]

/-- A byte of a register that holds a little-endian value. -/
theorem lane_leNat (l : List Byte) {j : Nat} (hj : j < 128) : lane (BitVec.ofNat 1024 (leNat l)) 8 j = (l.getD j 0).toNat := by
  have h256 : 256 ^ j = 2 ^ (8 * j) := by rw [Nat.pow_mul]
  have hbyte : leNat l / 256 ^ j % 256 = leNat l >>> (8 * j) % 2 ^ 8 := by rw [h256, Nat.shiftRight_eq_div_pow, Nat.pow_mul]; rfl
  refine Nat.eq_of_testBit_eq fun i => ?_
  rw [testBit_lane, BitVec.testBit_toNat, BitVec.getLsbD_ofNat, ← leNat_byte, hbyte, Nat.testBit_mod_two_pow, Nat.testBit_shiftRight]
  by_cases hi : i < 8
  · have hfit : 8 * j + i < 1024 := by omega
    simp [hi, hfit]
  · simp [hi]

/-- The byte of a scale that is no NaN. -/
theorem bitsNat_ne_of_extractLsb' {x : Word} (h : x.extractLsb' 0 8 ≠ 0xFF) : bitsNat x 0 8 ≠ 0xFF := fun hx =>
  h (BitVec.eq_of_toNat_eq (by simpa [bitsNat] using hx))

/-- What VQUANT does for an 8-bit target once its scale is no NaN and NANTRAP is off. -/
theorem vquant_eq {s : State} {q : KReg} {b : GReg} {f : Fmt} {t : QTgt} {o : Fmt} (d : VReg) (a : VReg) (rm : Rm)
    (h0 : s.me.vstart = 0) (ho : (t, o) ∈ [(QTgt.s8, Fmt.s8), (.f8a, .f8a), (.f8b, .f8b)]) (ht : fcsrNanTrap s.me.fcsr = false)
    (hsc : (s.g b).extractLsb' 0 8 ≠ 0xFF) :
    let ys := (upTo (lanesOf f)).map (fun i => if s.act q f.width i then (laneV (s.v a) f i).scale (127 - (bitsNat (s.g b) 0 8 : Int)) else .fin false 0 0)
    let r := byteCodes o (effRm s.me.fcsr rm) ys
    exec (.vquant d q a b f rm t) s = retired ((s.flags r.2.1).setV d (BitVec.ofNat 1024 (leNat (r.1.map (fun n => BitVec.ofNat 8 n))))) := by
  intro ys r
  have hne := bitsNat_ne_of_extractLsb' hsc
  refine (vecRun_zero h0 _).trans ?_
  simp only [List.mem_cons, Prod.mk.injEq, List.not_mem_nil, or_false] at ho
  rcases ho with ⟨rfl, rfl⟩ | ⟨rfl, rfl⟩ | ⟨rfl, rfl⟩ <;>
  · simp only [hne, ht, if_false, Bool.and_false, Bool.false_eq_true]
    split <;> rfl

/-- Settles O27: VSCALE looks for the least scale under which the largest magnitude fits, VQUANT lays the codes of its lanes byte by byte, and a quad that it
codes never holds 0x8 twice in the byte of its outlier. -/
theorem quantisation : Obligations.Quantisation := by
  refine ⟨fun s d q a f t h hs h0 => ?_, fun s d q a b f rm t o hs h0 ho _ ht hsc => ?_, quadCode_wellFormed⟩
  · intro l x big fits gives
    have hbig : tgtMax t = big := by cases t <;> rfl
    refine ⟨fun hn ht => vscale_completes_of_nonfinite d t h hs h0 hn ht, fun hfin => ⟨fun hz => ?_, fun hz => ?_⟩⟩
    · exact vscale_completes_of_fits d t h hs h0 hfin (fitScale_largest_of_zero hfin _ _ hz)
    · obtain ⟨hsome, hnone⟩ := fitScale_largest_of_nonzero hfin (tgtMax t) h.toNat hz
      rw [hbig] at hsome hnone
      exact ⟨fun e he hf hlow => vscale_completes_of_fits d t h hs h0 hfin (hbig ▸ hsome e he hf hlow),
        fun hno => vscale_completes_of_none_fits d t h hs h0 hfin (hbig ▸ hnone hno)⟩
  · intro y c
    have hmod : bitsNat (s.g b) 0 8 = (s.g b).toNat % 256 := rfl
    have hx := vquant_eq (q := q) (f := f) d a rm h0 ho ht hsc
    rw [hmod] at hx
    have hc := completes_of_flags (P := s.parts) hs hx (Ctx.onward_putV ..)
    simp only [byteCodes, List.map_map, List.foldl_map] at hc
    refine ⟨_, hc, fun j hj => ?_⟩
    rw [lane_leNat _ hj]
    by_cases hl : j < lanesOf f
    · simp [upTo, hl, Function.comp_def, c, y, laneV]
    · simp [upTo, hl]

end Sys2Proof.Machine
end

section
/-!
SUPPORT. The answer to a duplicate over a link without a counter left (R375, R382, R383), which refutes O52.
-/

namespace Sys2Proof.Machine

/-- A link that is up and whose key in use has no counter left, so that its next flit puts it in KEY-HOLD (R382). -/
def spentLink : Link := { Link.reset with up := true, tx := { LinkDir.reset with slot0 := some ⟨1, 2, ctrEnd⟩ } }

/-- A partition in host-assisted disposition with a trap ring in host memory (R422). -/
def hostRingPart : Part := { Part.reset with dies := 8, trapHost := true, trRing := ⟨2 ^ 51, true, 4, 0, 0⟩ }

/-- Entry 511 of X0, in use over link 0. -/
def spentLinkEntry : WEnt := { WEnt.reset with v := true, tpkg := 9, size := 1 }

/-- A store from package 9, come over link 0. -/
def duplicatePkt : Pkt := ⟨some 0, .store, 0, 9, 1023, 511, 0, 0xFF8, 3, 1, [1, 2, 3, 4, 5, 6, 7, 8]⟩

/-- The machine that has applied that store already (R383), its answer to leave by the spent link. -/
def spentLinkState : State :=
  { State.reset with
    wins := [(0, { WinEng.reset with ents := [(511, spentLinkEntry)], rxq := [duplicatePkt] })]
    links := [(0, spentLink)]
    parts := [(0, hostRingPart)]
    paths := [(duplicatePkt.path, ⟨5, false⟩)] }

/-- The packet is due, on an open path and behind its sequence. -/
theorem spentLinkState_duplicate :
    takeFirst (fun p => spentLinkState.pktDue 0 p) (spentLinkState.win 0).rxq = some (duplicatePkt, []) ∧
    (spentLinkState.pathAt duplicatePkt.path).closed = false ∧ duplicatePkt.seq ≠ (spentLinkState.pathAt duplicatePkt.path).exp := by
  decide +kernel

/-- The packet taken, evaluated: its acknowledgement puts the link in KEY-HOLD, and the record of that is in the host's ring. -/
theorem exec_storePacketReceive_spentLinkState : ∃ t, exec (.storePacketReceive 0) spentLinkState = .next t ∧
    (t.link 0).tx.hold = true ∧ t.mem.byte (2 ^ 51) = 0xC2 :=
  ⟨_, rfl, by decide +kernel, by decide +kernel⟩

/-- Refutes O52, by its clause that the answer to a duplicate changes no memory (R383): where the answer finds the link's key without a counter left, the
link enters KEY-HOLD, which is reported to every partition whose entries use it (R382), and in host-assisted disposition that record is written to the
host's trap ring (R422). -/
theorem not_windowEvents : ¬ Obligations.WindowEvents := by
  rintro ⟨h, -⟩
  obtain ⟨hdue, hopen, hseq⟩ := spentLinkState_duplicate
  obtain ⟨-, -, -, hreceive, -⟩ := h spentLinkState 0 0 duplicatePkt [] ⟨0, 0, 0, 0, 0, 0, 0, []⟩ []
  obtain ⟨-, -, -, hduplicate⟩ := hreceive hdue
  obtain ⟨t, hx, -, hmem, -⟩ := hduplicate hopen hseq
  obtain ⟨u, hu, -, hb⟩ := exec_storePacketReceive_spentLinkState
  obtain rfl : t = u := by rw [hx] at hu; injection hu
  rw [hmem] at hb
  exact absurd hb (by decide +kernel)

end Sys2Proof.Machine
end
